-- ==== Sys2Proof/Word.lean ====
section
/-! DEFINITION. The word types of the module: 36-bit Diurn words, 24-bit word addresses, 32-bit
registers, bytes; and their plainest arithmetic. -/

namespace Sys2Proof

/-- A byte of memory or of a message. -/
abbrev Byte := BitVec 8
/-- A 32-bit register of the BAR0 window (R53 and the other register chapters). -/
abbrev Word32 := BitVec 32
/-- A 36-bit Diurn word (R4, R97). -/
abbrev Word36 := BitVec 36
/-- A 24-bit Diurn address (R99). -/
abbrev Addr24 := BitVec 24
/-- A list of octets: a frame, a key, a buffer. -/
abbrev Bytes := List (BitVec 8)

/-- The first `n` bytes of the little-endian form of a number. -/
def natToBytes : Nat → Nat → Bytes
  | 0, _ => []
  | n + 1, v => BitVec.ofNat 8 v :: natToBytes n (v / 256)

/-- The number whose little-endian form a byte list is. -/
def bytesToNat : Bytes → Nat
  | [] => 0
  | b :: bs => b.toNat + 256 * bytesToNat bs

/-- `v` kept at most at `m`: the counters the spec calls saturating. -/
def satAt (m v : Nat) : Nat := if v ≤ m then v else m

/-- Division rounded up. -/
def ceilDiv (a b : Nat) : Nat := (a + b - 1) / b

end Sys2Proof
end

