-- ==== Sys2Proof/Syntax.lean ====
section
/-! DEFINITION. The commands of the module as syntax: one constructor per row of the table of operations
and events, with the row's operands: the instance it acts on, the values written, and the facts of the
outside world that the event reports. -/

namespace Sys2Proof

/-- What the error-checking of a memory word read reports (R70, R71). -/
inductive Ecc where
  | clean | correctable | uncorrectable
  deriving DecidableEq, Repr

/-- What has disturbed the memories and links since the last command (log entry 90): an SRAM word whose stored bits
changed, and whether they are more than the code corrects (R70, R71); a DRAM line whose stored ciphertext and tag are
other ones now (R76, R80); parity errors that the next fabric transfer meets in a row (R73); CRC mismatches that the
next DRAM burst meets in a row (R78, R79); an error or no completion for the next host read (R301); a second copy of a
dual-stored register that changed (R75). -/
structure FabEnv where
  sram : Option (Nat × Bool)
  dram : Option (Nat × (Bytes × Bytes))
  parityErrors : Nat
  dramResends : Nat
  hostError : Bool
  dual : Option (Nat × Word32)
  deriving DecidableEq, Repr, Inhabited

/-- The address of a fabric access: an internal one, or an offset in a BAR of the function whose request the Bridge
carries (R63, R270). -/
inductive AccAddr where
  | internal (a : Nat)
  | bar (b off : Nat)
  deriving DecidableEq, Repr

/-- What a fabric access does: it reads or fetches a number of bytes, or writes bytes. -/
inductive FabOp where
  | read (len : Nat)
  | fetch (len : Nat)
  | write (bytes : Bytes)
  deriving DecidableEq, Repr

/-- A written or read width in bits (R65). -/
inductive Width where
  | w8 | w16 | w32 | w64
  deriving DecidableEq, Repr

/-! ## Frames

The layouts of IEC 61850 messages, IP, IEEE 1588 and IEC 62439-3 are not the spec's: what their fields hold
comes as a view beside a frame's octets (log entry 17). -/

/-- One ASDU of a sampled-value frame: its svID, its smpCnt, and for each channel the 32-bit sample and the quality
bits Q3 to Q0 (R102, R223). -/
structure Asdu where
  svId : Bytes
  smpCnt : Nat
  chans : List (Nat × Nat)
  deriving DecidableEq, Repr, Inhabited

/-- A PRP trailer or HSR tag: the LAN it names (0 A, 1 B) and the sequence number (R213). -/
structure RedTag where
  hsr : Bool
  lan : Nat
  seq : Nat
  deriving DecidableEq, Repr, Inhabited

/-- The IP and UDP part of a frame: the session is 1 for R-GOOSE, 2 for R-SV, 0 for none (R221, R222). -/
structure IpView where
  v6 : Bool
  fragment : Bool
  extHeader : Bool
  udp : Bool
  dport : Nat
  srcIp : Bytes
  dstIp : Bytes
  session : Nat
  deriving DecidableEq, Repr, Inhabited

/-- The security extension of a frame: key identifier, received tag, the protected octets with what the
initialisation value is formed from (R236, R238). -/
structure ExtView where
  keyId : Nat
  tag : Bytes
  body : Bytes
  deriving DecidableEq, Repr, Inhabited

/-- The PTP messages of R217 and R218 with the fields the rules name: correctionField in ns and measured offset
in ns (selected source minus module time) of Sync and Follow_Up, mean peer delay in ns, a partner's peer-delay
request, domain number and rank in the best-master algorithm (lower is better) of an Announce. -/
inductive PtpMsg where
  | malformed
  | sync (twoStep : Bool) (correction offset : Int)
  | followUp (correction offset : Int)
  | pdelay (mean : Int)
  | pdelayReq
  | announce (domain rank : Nat)
  deriving DecidableEq, Repr

/-- What the fields of a frame's message hold: whether the match key can be formed (R224), APPID, goID or svID
(empty when absent), whether the structure after it is valid, the sequence fields of GOOSE and R-GOOSE with
timeAllowedToLive, the ASDUs of SV and R-SV, the routable sequence number, the security extension, the PRP or
HSR tag, whether the frame is addressed to the module alone and whether the module itself sent it, whether
its session header is complete (R314), and of a PTP frame the source port
identity with the message (R217). -/
structure MsgView where
  parsable : Bool
  ip : Option IpView
  appid : Nat
  ident : Bytes
  wellFormed : Bool
  stNum : Nat
  sqNum : Nat
  tal : Nat
  asdus : List Asdu
  seqNo : Nat
  ext : Option ExtView
  red : Option RedTag
  toModule : Bool
  own : Bool
  header : Bool
  ptp : Option (Nat × PtpMsg)
  deriving DecidableEq, Repr, Inhabited

/-- A frame on the wire: octets from the destination address to the last before the FCS, a PRP trailer or HSR tag
among them; its whole length with FCS; whether the FCS is correct; its view. -/
structure WireFrame where
  octets : Bytes
  wireLen : Nat
  fcsOk : Bool
  view : MsgView
  deriving DecidableEq, Repr, Inhabited

/-- What the card present does in a ceremony step (R445, R446, R583): it delivers a share, confirms the commit of
the written share, is removed before the confirmation, proves its holder's presence (with the card's
identity), or answers with a refusal of Table 16-10 as a status code. -/
inductive CardAnswer where
  | share (id : Bytes) (x k n seclen : Nat) (bytes check : Bytes)
  | confirmed
  | removed
  | present (card : Nat)
  | refused (status : Nat)
  deriving DecidableEq, Repr, Inhabited

/-- A data error of a job beside those of poisoned memory: none, on an operand buffer, at a byte of cell memory
(R329). -/
inductive JobErr where
  | none
  | buffer
  | cell (a : Nat)
  deriving DecidableEq, Repr

/-- A data object in the DOE mailbox: a discovery request; an SPDM request with its request code, in the clear or as
a secured message of a session; IDE_KM of a session naming the slot of a stream's key, or putting the stream to work
with it (R298, R299). -/
inductive DoeReq where
  | discovery (m : Bytes)
  | spdm (code : Nat) (m : Bytes)
  | secured (session code : Nat) (m : Bytes)
  | ideKey (session stream slot : Nat)
  | ideGo (session stream : Nat)
  deriving DecidableEq, Repr

/-- What a bank of the Rosin array measures in its periodic self-test (R416): BIAS with its trims at the upper and at the
lower limit, and the bits of the start-up window after it. -/
structure BankTest where
  bank : Nat
  up : Int
  low : Int
  bits : List Bool
  deriving DecidableEq, Repr

/-- How a die operation or a fill of the read cache ends: at a step of the retry ladder with the most bits corrected in
a codeword, undecoded at every step, failed on the die (R462, R465, R467). -/
inductive DieEnd where
  | ok (step corr : Nat)
  | uncorrectable
  | failed
  deriving DecidableEq, Repr

/-- The result of a targeted self-test (R510). -/
inductive SelfTest where
  | pass | fail | incomplete
  deriving DecidableEq, Repr

/-- Where the supply collapses during a torn-safe write (Table 16-8): nowhere; at INVALIDATE, the mark written 0 or
not; in the body after a number of words; at the mark, written or not. -/
inductive Torn where
  | whole
  | invalidate (done : Bool)
  | body (words : Nat)
  | mark (done : Bool)
  deriving DecidableEq, Repr

/-- How the protocol and parameter selection of a card ends: it succeeds, fails once and the card answers again after
the cold reset, fails again (R577). -/
inductive PpsEnd where
  | ok | once | twice
  deriving DecidableEq, Repr

/-- What a boot finds: the tuning row passes its CRC (R470); the lower page that the newest shield copy names fails to
decode (R469); the conditioners that fail their known-answer test at module reset (R416). -/
structure BootEnv where
  tuningOk : Bool
  shieldBad : Bool
  condFails : List Nat
  deriving DecidableEq, Repr, Inhabited

/-- What META holds at provisioning (R544, R547, R548, R566): the certificate chain, the debug authority keys (hash,
scope), the public keys of the credential authorities, the module's credential. -/
structure ProvData where
  chain : Bytes
  keys : List (Bytes × Nat)
  cas : List Bytes
  cred : Bytes
  deriving DecidableEq, Repr, Inhabited

/-- The part of it beside the chain, as PROVISION takes it. -/
structure ProvKeys where
  keys : List (Bytes × Nat)
  cas : List Bytes
  cred : Bytes
  deriving DecidableEq, Repr, Inhabited

/-- The levels of a port's SFP sideband inputs (R588): LOS, TXFLT, MODABS. -/
structure SfpPins where
  los : Bool
  txflt : Bool
  modabs : Bool
  deriving DecidableEq, Repr, Inhabited

/-- What a port's link input shows: the link is up; the module's sideband inputs (R588). -/
structure LinkSense where
  up : Bool
  pins : SfpPins
  deriving DecidableEq, Repr, Inhabited

/-- What a detector BIST finds (R493): quantities with the detectors that failed (bit 0 A, bit 1 B), quantities that crossed
on their own before their injection, by detector (true: B). -/
structure BistRun where
  bad : List (Nat × Nat)
  hits : List (Nat × Bool)
  deriving DecidableEq, Repr, Inhabited

/-- What a poll of the badge field meets (R562): polls without an answer, the UIDs that answer. -/
structure BadgeField where
  missed : Nat
  uids : List Bytes
  deriving DecidableEq, Repr, Inhabited

/-- An instruction of the IEEE 1149.1 test port (Table 15-10). -/
inductive TapInstr where
  | idcode | bypass | sample | extest
  | other (n : Nat)
  deriving DecidableEq, Repr

/-- What a debug master does (R550): an instruction of the test port; the end of its session; a fabric access; a read or
a write of a special register of a processor in the bank of a privilege state; a halted processor runs on, or executes
one instruction; a breakpoint at a word address is set or removed; an access to the key bus, partition 7, the root key or
the raw Case die. -/
inductive DbgOp where
  | tap (i : TapInstr)
  | leave
  | fabric (a : Nat) (op : FabOp) (env : FabEnv)
  | regRead (p bank n : Nat)
  | regWrite (p bank n v : Nat)
  | resume (p : Nat)
  | step (p : Nat)
  | breakSet (p w : Nat)
  | breakDel (p w : Nat)
  | secret
  deriving DecidableEq, Repr

/-- The commands the module takes: one constructor per row of the table of operations and events. A row
of the Diurn machine names the processor that executes (0 to 31 FE0 to FE31, 32 the Capo); the processor
fetches the instruction's words at its own PC. -/
inductive Instr where
  /-- TICK_EDGE (R24): A drone tick edge starts a tick: parked engines resume at the Trust-world tick entry, TB is loaded, the held and request lists are formed, the object table banks swap and a pending rate takes effect. -/
  | tickEdge
  /-- ENGINE_PRE_WAKE (R33): An engine gated in P1 Gated is woken ahead of the tick edge so that it runs at the edge. Operands: the engine -/
  | enginePreWake (n : Nat)
  /-- FE_B_START (R316): FE_B starts its tick entry d cycles after the edge. -/
  | feBStart
  /-- BUDGET_EXCEEDED (R38): At tick + W an engine not waiting in TWAIT takes the unmaskable budget-exceeded exception, counted in FE_BUDGETX. Operands: the engine -/
  | budgetExceeded (n : Nat)
  /-- REQUEST_TIMEOUT (R318): A release request still PENDING at the end of its MAXTICKS-th presented tick ends with TIMEOUT. -/
  | requestTimeout (k : Nat)
  /-- HOLD_EXPIRY (R251): A held frame without a committed verdict by the edge of tick k + HOLD_TICKS is delivered as HOLD_EXPIRED or discarded, as HOLD_DEFAULT directs. -/
  | holdExpiry (k : Nat)
  /-- TIME_SRC_WRITE (R21): A write of TIME_CTL that changes SRC selects the timebase source and resets the lock history. Operands: the word written -/
  | timeSrcWrite (v : Word32)
  /-- TICK_RUN_SET (R26): Setting TIME_CTL.RUN starts ticks at the next grid edge, with TICK_COUNT reading 0 in the first tick. Operands: the word written; bit 0 is 1 -/
  | tickRunSet (v : Word32)
  /-- TICK_RUN_CLEAR (R26): Clearing TIME_CTL.RUN stops ticks at the next edge, allows a timebase step and ends every PENDING release request with TIMEOUT. Operands: the word written; bit 0 is 0 -/
  | tickRunClear (v : Word32)
  /-- TIME_SEC_WRITE (R20): A write of TIME_SEC while RUN = 0 gives the seconds count, which TAI_VALID requires; it is ignored while RUN = 1. Operands: which of TIME_SEC_LO and TIME_SEC_HI, the word written -/
  | timeSecWrite (hi : Bool) (v : Word32)
  /-- TICK_RATE_WRITE (R25): A written tick rate takes effect at once while RUN = 0, and is otherwise held with PENDING until tick 0 of the next second or the next stop edge. Operands: the word written -/
  | tickRateWrite (v : Word32)
  /-- PTP_MESSAGE_RX (R217): A received PTP message is used by the PTP unit in its clock role, or discarded as malformed. Operands: the partner's source port identity, the port, the message -/
  | ptpMessageRx (ident port : Nat) (m : PtpMsg)
  /-- PTP_DEMOTE_EXPIRY (R219): After PTP_DEMOTE_S seconds a demoted partner's messages are used again. -/
  | ptpDemoteExpiry
  /-- PTP_SYNC_TX (R217): The module transmits two-step Sync messages in its master role. Operands: the port -/
  | ptpSyncTx (port : Nat)
  /-- SOURCE_LOST (R21): When three sync intervals pass without a Sync or 1.5 s without a 1PPS edge, the timebase stops slewing and enters HOLDOVER, HOLDOVER_EXPIRED or FREERUN. -/
  | sourceLost
  /-- HOLDOVER_EXPIRY (R21): After 30 s in HOLDOVER the timebase enters HOLDOVER_EXPIRED. -/
  | holdoverExpiry
  /-- PPS_IN_EDGE (R48): A 1PPS input edge is timestamped to one cycle, and one more than 100 ms from the expected boundary is counted in IN_REJECT and not used. Operands: the edge's polarity -/
  | ppsInEdge (falling : Bool)
  /-- PPS_OUT_PULSE (R47): At every TAI second boundary in LOCKED or HOLDOVER, or in any state with OUT_ALWAYS, the 1PPS output pulses for OUT_WIDTH × 10 µs. -/
  | ppsOutPulse
  /-- OPTIME_MIRROR (R51): Every 60 s the always-on domain mirrors operating time to the Case die. -/
  | optimeMirror
  /-- REGISTER_WRITE (R65): A write to a register without a row of its own stores its fields by access type, discards narrow writes, ignores unmapped offsets and raises the block's configuration fault for a refused value. Operands: the master, the BAR0 offset, the width and the value written -/
  | registerWrite (mid off : Nat) (w : Width) (v : Nat)
  /-- COUNTER_LO_READ (R67): A read of a _LO counter register latches the matching _HI value for the reading master. Operands: the master, the BAR0 offset -/
  | counterLoRead (mid off : Nat)
  /-- DUAL_STORED_READ (R75): A read of a dual-stored register compares both copies and on a mismatch returns all ones, records the offset and raises DUAL_MISMATCH. Operands: the master, the BAR0 offset, the second copy where a disturbance has changed it -/
  | dualStoredRead (mid off : Nat) (upset : Option Word32)
  /-- FABRIC_ACCESS (R85): A fabric access is decoded, checked by the Nut against the region set in force, split at region boundaries and carried to its target. Operands: the master, the address, what the access does, what has disturbed memory and links -/
  | fabricAccess (mid : Nat) (at_ : AccAddr) (op : FabOp) (env : FabEnv)
  /-- SRAM_WRITEBACK (R70): The corrected word is written back within 16 cycles unless a write to it came first. Operands: the word's internal address -/
  | sramWriteback (a : Nat)
  /-- SCRUB_READ (R72): The patrol scrubber reads and corrects each word once per PERIOD, poisoning and reporting an uncorrectable one without an exception. Operands: partition, word address, what the ECC reports -/
  | scrubRead (p a : Nat) (ecc : Ecc)
  /-- DRAM_INIT_COMPLETE (R77): DRAM initialisation finishes writing zero lines with valid tags and INIT_DONE reads 1. -/
  | dramInitComplete
  /-- GUARD_WRITEBACK (R81): The version guard writes a dirty page back, increments its version and re-tags its 64 lines. -/
  | guardWriteback
  /-- GUARD_SWEEP_COMPLETE (R84): The key sweep finishes re-tagging all 69,632 pages and SWEEP clears. -/
  | guardSweepComplete
  /-- NUT_COMMIT (R88): A write of NUT_COMMIT with GO commits the staged region as one act after the LOCKED, END_BEFORE_START and OVERLAP checks. Operands: the REGION field written -/
  | nutCommit (region : Nat)
  /-- NOP (R142): NOP does nothing. -/
  | nop (p : Nat)
  /-- JMP (R148): JMP checks its operand value as a pointer and jumps to it. -/
  | jmp (p : Nat)
  /-- CALL (R149): CALL pushes the return address and jumps to A. -/
  | call (p : Nat)
  /-- RET (R149): RET pops and checks a word and jumps to it. -/
  | ret (p : Nat)
  /-- LOOP (R135): LOOP checks depth, count and end, then opens a loop level or branches past a zero-count body. -/
  | loop (p : Nat)
  /-- LPOP (R151): LPOP closes the innermost loop level. -/
  | lpop (p : Nat)
  /-- BEQ (R148): BEQ branches when Z = 1. -/
  | beq (p : Nat)
  /-- BNE (R148): BNE branches when Z = 0. -/
  | bne (p : Nat)
  /-- BLT (R148): BLT branches when N differs from V. -/
  | blt (p : Nat)
  /-- BGE (R148): BGE branches when N equals V. -/
  | bge (p : Nat)
  /-- BLTU (R148): BLTU branches when C = 1. -/
  | bltu (p : Nat)
  /-- BGEU (R148): BGEU branches when C = 0. -/
  | bgeu (p : Nat)
  /-- BMI (R148): BMI branches when N = 1. -/
  | bmi (p : Nat)
  /-- BPL (R148): BPL branches when N = 0. -/
  | bpl (p : Nat)
  /-- BGT (R148): BGT branches when Z = 0 and N equals V. -/
  | bgt (p : Nat)
  /-- BLE (R148): BLE branches when Z = 1 or N differs from V. -/
  | ble (p : Nat)
  /-- BHI (R148): BHI branches when C = 0 and Z = 0. -/
  | bhi (p : Nat)
  /-- BLS (R148): BLS branches when C = 1 or Z = 1. -/
  | bls (p : Nat)
  /-- BVS (R148): BVS branches when V = 1. -/
  | bvs (p : Nat)
  /-- BVC (R148): BVC branches when V = 0. -/
  | bvc (p : Nat)
  /-- BTS (R148): BTS branches when T = 1. -/
  | bts (p : Nat)
  /-- BTC (R148): BTC branches when T = 0. -/
  | btc (p : Nat)
  /-- GATE (R201): GATE enters a Trust gate, service gate, drop or Capo gate, or returns through a drop block with gate 63. -/
  | gate (p : Nat)
  /-- RETG (R197): RETG checks and returns through the top gate block of the chain. -/
  | retg (p : Nat)
  /-- RETX (R197): RETX checks and returns through the top exception or interrupt block, completing an interrupt source in service. -/
  | retx (p : Nat)
  /-- WAIT (R152): WAIT stops fetch until an interrupt or, on a Fret engine, the budget exception is taken. -/
  | wait (p : Nat)
  /-- PUSH (R149): PUSH decrements SP and stores A at the new SP. -/
  | push (p : Nat)
  /-- POP (R149): POP loads C from the stack and increments SP. -/
  | pop (p : Nat)
  /-- ENTER (R149): ENTER pushes FP, sets FP to SP and lowers SP by A. -/
  | enter (p : Nat)
  /-- LEAVE (R149): LEAVE restores SP from FP and pops FP. -/
  | leave (p : Nat)
  /-- MOV (R144): MOV copies A to C and sets N and Z. -/
  | mov (p : Nat)
  /-- ADD (R153): ADD stores A + B in C with carry and overflow flags. -/
  | add (p : Nat)
  /-- SUB (R153): SUB stores A − B in C with borrow and overflow flags. -/
  | sub (p : Nat)
  /-- ADC (R153): ADC stores A + B + SW.C in C. -/
  | adc (p : Nat)
  /-- SBC (R153): SBC stores A − B − SW.C in C. -/
  | sbc (p : Nat)
  /-- NEG (R153): NEG stores 0 − A in C. -/
  | neg (p : Nat)
  /-- ABS (R154): ABS stores the magnitude of A in C, setting V for the most negative word. -/
  | abs (p : Nat)
  /-- MUL (R155): MUL stores the low 36 bits of the signed product, setting V when it does not fit. -/
  | mul (p : Nat)
  /-- MULD (R155): MULD stores the 72-bit signed product in a double. -/
  | muld (p : Nat)
  /-- DIV (R156): DIV stores the signed quotient truncated toward zero, with the results of Table 4-5 for overflow and division by zero. -/
  | div (p : Nat)
  /-- REM (R156): REM stores the signed remainder. -/
  | rem (p : Nat)
  /-- DIVU (R156): DIVU stores the unsigned quotient. -/
  | divu (p : Nat)
  /-- REMU (R156): REMU stores the unsigned remainder. -/
  | remu (p : Nat)
  /-- MIN (R144): MIN stores the signed lesser of A and B. -/
  | min (p : Nat)
  /-- MAX (R144): MAX stores the signed greater of A and B. -/
  | max (p : Nat)
  /-- MACD (R155): MACD adds the 72-bit product of A and B to the double C. -/
  | macd (p : Nat)
  /-- AND (R144): AND stores A and B in C. -/
  | and (p : Nat)
  /-- OR (R144): OR stores A or B in C. -/
  | or (p : Nat)
  /-- XOR (R144): XOR stores A xor B in C. -/
  | xor (p : Nat)
  /-- ANDN (R144): ANDN stores A and not B in C. -/
  | andn (p : Nat)
  /-- NOT (R144): NOT stores the complement of A in C. -/
  | not (p : Nat)
  /-- SHL (R157): SHL shifts A left by B, with C the last bit out. -/
  | shl (p : Nat)
  /-- SHR (R157): SHR shifts A right by B with zeros in. -/
  | shr (p : Nat)
  /-- SAR (R157): SAR shifts A right by B with copies of bit 35 in. -/
  | sar (p : Nat)
  /-- ROL (R157): ROL rotates A left by B mod 36. -/
  | rol (p : Nat)
  /-- EXT (R158): EXT extracts a field of A zero-extended. -/
  | ext (p : Nat)
  /-- EXTS (R158): EXTS extracts a field of A sign-extended. -/
  | exts (p : Nat)
  /-- INS (R158): INS replaces a field of C with the low bits of A. -/
  | ins (p : Nat)
  /-- HADD (R159): HADD adds the two 18-bit halves independently. -/
  | hadd (p : Nat)
  /-- HSUB (R159): HSUB subtracts the two halves independently. -/
  | hsub (p : Nat)
  /-- HMUL (R159): HMUL multiplies the halves, keeping the low 18 bits of each product. -/
  | hmul (p : Nat)
  /-- HPACK (R144): HPACK packs the low halves of A and B into one word. -/
  | hpack (p : Nat)
  /-- HHI (R144): HHI stores the upper half of A sign-extended. -/
  | hhi (p : Nat)
  /-- HLO (R144): HLO stores the lower half of A sign-extended. -/
  | hlo (p : Nat)
  /-- HSWP (R144): HSWP swaps the halves of A. -/
  | hswp (p : Nat)
  /-- DMOV (R160): DMOV copies a double. -/
  | dmov (p : Nat)
  /-- DADD (R160): DADD adds two doubles. -/
  | dadd (p : Nat)
  /-- DSUB (R160): DSUB subtracts two doubles. -/
  | dsub (p : Nat)
  /-- DNEG (R160): DNEG negates a double. -/
  | dneg (p : Nat)
  /-- DCVT (R160): DCVT sign-extends a word to a double. -/
  | dcvt (p : Nat)
  /-- DSAT (R160): DSAT saturates a double to a word, setting V when it saturates. -/
  | dsat (p : Nat)
  /-- DSAR (R160): DSAR shifts a double right arithmetically. -/
  | dsar (p : Nat)
  /-- DCMP (R160): DCMP sets the flags of A − B on doubles without writing. -/
  | dcmp (p : Nat)
  /-- OGET (R161): OGET reads up to four octets big-endian into C, setting T for octets past the tail. -/
  | oget (p : Nat)
  /-- OPUT (R162): OPUT writes up to four octets of A into C with their valid flags. -/
  | oput (p : Nat)
  /-- BERLEN (R163): BERLEN decodes a BER length field into its length and octet count. -/
  | berlen (p : Nat)
  /-- OCNT (R144): OCNT counts the valid flags set in A. -/
  | ocnt (p : Nat)
  /-- TWAIT (R35): TWAIT commits every staged output of the tick in order and parks the engine until the next edge. Operands: the processor -/
  | twait (p : Nat)
  /-- TLEFT (R167): TLEFT stores W minus the cycles elapsed since the edge. Operands: the processor -/
  | tleft (p : Nat)
  /-- SVPULL (R168): SVPULL copies the latest sample set of a cut into a sample block with its smpCnt and verdict tick. Operands: the processor -/
  | svpull (p : Nat)
  /-- GOSUB (R172): GOSUB stages a GOOSE frame for signing and release. Operands: the processor -/
  | gosub (p : Nat)
  /-- JOBPUT (R173): JOBPUT stages a job post to a Soundboard or digest ring. Operands: the processor -/
  | jobput (p : Nat)
  /-- VERDICT (R174): VERDICT stages a verdict for a held frame, release request or association. Operands: the processor -/
  | verdict (p : Nat)
  /-- EVPUT (R175): EVPUT stages an event record with a program code and payload. Operands: the processor -/
  | evput (p : Nat)
  /-- TABANDON (R176): TABANDON abandons the tick mid-tick from the Trust world. Operands: the processor -/
  | tabandon (p : Nat)
  /-- INTERRUPT_ENTRY (R206): At an instruction boundary the highest-priority deliverable source is entered and marked ACTIVE. Operands: the processor -/
  | interruptEntry (p : Nat)
  /-- INTC_HOLDOFF_EXPIRY (R207): A group's hold-off ends and its sources become deliverable again. Operands: the moderation group -/
  | intcHoldoffExpiry (g : Nat)
  /-- FE_CTL_WRITE (R182): A write of FE_CTL.HOLD holds an engine at its next tick edge or releases it for the next edge. Operands: engine, word written -/
  | feCtlWrite (n : Nat) (v : Word32)
  /-- FE_CONFIG_WRITE (R183): A write to FE_TENTRY, FE_TGATE, FE_TSPLIT, FE_SENTRY, FE_INIT or FE_ARANGE is accepted only while the engine is held, otherwise ignored with CFGREJ. Operands: engine, offset in its register set, word written -/
  | feConfigWrite (n r : Nat) (v : Word32)
  /-- PORT_CTL_WRITE (R210): A write to a port's MODE or FEC takes the link down and retrains it in the new mode. -/
  | portCtlWrite (n : Nat) (v : Word32)
  /-- PORT_LINK_CHANGE (R259): A port's link goes up or down, requesting PORT_LINK and raising the PORT_LINK fault on loss. Operands: the port, whether its partner is heard, the levels of its sideband inputs -/
  | portLinkChange (n : Nat) (link : LinkSense)
  /-- PAIR_CTL_WRITE (R213): A write of PAIR_CTL sets a port pair to NONE, PRP or HSR and takes both ports down. -/
  | pairCtlWrite (k : Nat) (v : Word32)
  /-- PORT_FRAME_RX (R211): A frame received at a port is accepted into the frame buffer or discarded for size, FCS or lack of buffer. -/
  | portFrameRx (n : Nat) (f : WireFrame)
  /-- PRP_SUPERVISION_TX (R213): In PRP or HSR mode the module sends supervision frames every 2,000 ms. -/
  | prpSupervisionTx (k : Nat)
  /-- DUP_ENTRY_FORGET (R213): A duplicate-discard entry is forgotten 400 ms after it was made. -/
  | dupEntryForget (k : Nat)
  /-- PAIR_SUPV_TIMEOUT (R259): A pair's partner supervision frames stop and source PAIR_SUPV is requested. -/
  | pairSupvTimeout (k : Nat)
  /-- FRAME_CLASSIFY (R221): A classifier sorts a frame by Table 6-1, forms its match key and sends it to lookup, a queue or the PTP or pair unit. -/
  | frameClassify
  /-- HOT_CACHE_FILL (R227): A miss reads both candidate buckets, fills the entry into the cache and evicts an unpinned idle victim. -/
  | hotCacheFill (id : Nat) (env : FabEnv)
  /-- BOW_VERIFY (R236): A Bow lane selects the key, uses it once and checks the frame's check value in constant time. -/
  | bowVerify (id lane : Nat)
  /-- PEG_BLOB_LOAD (R429): A bus request for a non-resident Peg slot loads and checks its blob and evicts a resident slot. Operands: the slot, what has disturbed memory -/
  | pegBlobLoad (i : Nat) (env : FabEnv)
  /-- REPLAY_STEP (R242): A verified frame's replay step runs in reception order, updates the sequence state and decides OK, RESTART or REPLAY. -/
  | replayStep (id : Nat)
  /-- SUPERVISION_SWEEP (R231): Every SUPSWEEP ms a sweep marks expired entries LOST, queues SUPERVISION_LOST and raises ASSOC_SUPLOST. -/
  | supervisionSweep
  /-- ASSOC_INSERT (R233): INSERT checks the staged image and places a new entry in a free way, relocating entries up to KICKMAX times. -/
  | assocInsert
  /-- ASSOC_FIND (R232): FIND returns the index of the entry matching the staged key in ASSOC_CMD_INDEX. -/
  | assocFind
  /-- ASSOC_READ (R235): READ copies the entry at ASSOC_CMD_INDEX to ASSOC_STAGE. -/
  | assocRead
  /-- ASSOC_UPDATE (R235): UPDATE checks and writes words 3, 4, 5 and 15 of an entry, keeping V and TYPE. -/
  | assocUpdate
  /-- ASSOC_DELETE (R235): DELETE removes the entry at ASSOC_CMD_INDEX between replay steps. -/
  | assocDelete
  /-- ASSOC_RESETSEQ (R235): RESETSEQ clears words 6 to 8 of an entry. -/
  | assocResetseq
  /-- ASSOC_CLRCNT (R235): CLRCNT clears the counters of words 9 to 14. -/
  | assocClrcnt
  /-- ASSOC_CMD_UNASSIGNED (R14): An ASSOC_CMD with an unassigned OP ends at once with BAD_OPCODE. -/
  | assocCmdUnassigned (op : Nat)
  /-- ASSOC_CMD_RESULT_READ (R259): A read of ASSOC_CMD_RESULT after a command clears source ASSOC_CMD_DONE. -/
  | assocCmdResultRead
  /-- ASSOC_SUPLOST_IDX_READ (R259): A read of ASSOC_SUPLOST_IDX clears source 110. -/
  | assocSuplostIdxRead
  /-- BOW_SPENT_SLOT_READ (R259): A read of BOW_SPENT_SLOT clears source 111. -/
  | bowSpentSlotRead
  /-- BOW_WARN_SLOT_READ (R259): A read of BOW_WARN_SLOT clears source 112. -/
  | bowWarnSlotRead
  /-- PORT_STATUS_READ (R259): A read of PORT_STATUS records the link state and clears PORT_LINK. -/
  | portStatusRead (n : Nat)
  /-- PTP_DEMOTED_READ (R259): A read of PTP_DEMOTED clears source PTP_DEMOTE. -/
  | ptpDemotedRead
  /-- BOW_KAT_RUN (R259): Once per second each Bow lane runs its known-answer test and a failing lane is isolated with BOW_KAT. -/
  | bowKatRun (lane : Nat) (pass : Bool)
  /-- BRIDGE_LINK_UP (R261): The Bridge completes link training at the rate and width the partner allows and LINKADD is set. -/
  | bridgeLinkUp (gen width : Nat)
  /-- BRIDGE_LINK_DOWN (R266): A link-down, hot reset or PERST_N disables every queue, discards waiting deliveries, raises BRIDGE_LINK and writes a record. -/
  | bridgeLinkDown
  /-- FN_SPLIT_WRITE (R268): A write of FN_QG or FN_VEC sets a function's groups and vectors unless it overlaps or conflicts, when it is ignored with BRIDGE_CFG. -/
  | fnSplitWrite (f : Nat) (vec : Bool) (v : Word32)
  /-- FUNCTION_LEVEL_RESET (R269): An FLR disables the function's queues, discards its deliveries and submissions, masks its vectors and resets its registers. -/
  | functionLevelReset (f : Nat)
  /-- FLR_COMPLETE (R269): A function-level reset completes, FLR clears and BRIDGE_FLR is requested. -/
  | flrComplete (f : Nat)
  /-- QUEUE_CFG_WRITE (R272): A write of QUEUE_CFG stores EN and INTEN, refuses configuration changes while enabled, and resets counts when EN rises. -/
  | queueCfgWrite (q : Nat) (v : Word32)
  /-- DOORBELL_WRITE (R274): A doorbell write posts slots up to the new PROD, or stops the queue with DB_BACK or DB_RANGE, or is ignored. -/
  | doorbellWrite (q off : Nat) (w : Width) (v : Nat)
  /-- DELIVERY_SLOT_FETCH (R277): The module fetches the next posted delivery slot and holds it on die. -/
  | deliverySlotFetch (q : Nat)
  /-- QUEUE_DELIVER (R278): An item takes the held slot, writes its frame to the buffer if it fits and writes the completion. -/
  | queueDeliver
  /-- SUBMISSION_FETCH (R283): The module fetches a submission slot, checks it and fetches its frame for CLASSIFY, PUBLISH or TRANSMIT. -/
  | submissionFetch
  /-- SUBMISSION_COMPLETE (R284): A finished submission's completion is written in queue count order. -/
  | submissionComplete (q : Nat)
  /-- HOST_READ_ERROR (R287): A host read returning an error or no completion stops the queue with HOST_ABORT or HOST_TIMEOUT. -/
  | hostReadError (q : Nat) (timeout : Bool)
  /-- MSIX_FIRE (R290): A vector fires at its earliest deadline or group count, sending the MSI-X message or setting its pending bit. -/
  | msixFire (v : Nat)
  /-- GATING_RECOMPUTE (R293): After a LATBUDGET, enable, MAXLEVEL or link change the gating level and hold-offs are recomputed within 10 µs. -/
  | gatingRecompute
  /-- DOE_REQUEST (R298): An SPDM request in the DOE mailbox is answered as a responder. -/
  | doeRequest (r : DoeReq)
  /-- IDE_INSECURE (R300): A stream leaving Secure with REQUIRE = 1 stops every queue with IDE_INSECURE and raises BRIDGE_IDE. -/
  | ideInsecure (stream : Nat)
  /-- BRIDGE_ERR_READ (R302): A read of BRIDGE_ERR clears source 385. -/
  | bridgeErrRead
  /-- REL_CTL_WRITE (R323): A write of REL_CTL while RUN = 1 is accepted only while the old and new deciding engines are held, otherwise ignored with CFGREJ. -/
  | relCtlWrite (v : Word32)
  /-- RELEASE_SIGN_SEND (R319): A releasing or HOLD = 0 request is signed with the current key, rechecked and sent on its egress ports. -/
  | releaseSignSend (k lane : Nat)
  /-- CELL_DISPATCH (R351): An idle cell takes the earliest job of the highest-priority eligible ring and runs its checks. Operands: the cell, a data error of the slot's fetch -/
  | cellDispatch (n : Nat) (err : Bool)
  /-- MLKEM_KEYGEN (R347): Generates an ML-KEM key into a slot and writes the encapsulation key. Operands: the cell, bytes of entropy drawn since its last refill, a data error -/
  | mlkemKeygen (n used : Nat) (err : JobErr)
  /-- MLKEM_ENCAPS (R347): Encapsulates to an encapsulation key, writing the ciphertext and routing the shared secret. Operands: the cell, bytes of entropy drawn since its last refill, a data error -/
  | mlkemEncaps (n used : Nat) (err : JobErr)
  /-- MLKEM_DECAPS (R347): Decapsulates a ciphertext with a key slot, routing the shared secret. Operands: the cell, bytes of entropy drawn since its last refill, a data error -/
  | mlkemDecaps (n used : Nat) (err : JobErr)
  /-- MLDSA_KEYGEN (R347): Generates an ML-DSA key into a slot. Operands: the cell, bytes of entropy drawn since its last refill, a data error -/
  | mldsaKeygen (n used : Nat) (err : JobErr)
  /-- MLDSA_SIGN (R347): Signs a message with a hedged ML-DSA key. Operands: the cell, bytes of entropy drawn since its last refill, a data error -/
  | mldsaSign (n used : Nat) (err : JobErr)
  /-- MLDSA_VERIFY (R347): Verifies an ML-DSA signature. Operands: the cell, bytes of entropy drawn since its last refill, a data error -/
  | mldsaVerify (n used : Nat) (err : JobErr)
  /-- SLHDSA_KEYGEN (R347): Generates an SLH-DSA key into a slot. Operands: the cell, bytes of entropy drawn since its last refill, a data error -/
  | slhdsaKeygen (n used : Nat) (err : JobErr)
  /-- SLHDSA_SIGN (R347): Signs a message with a randomised SLH-DSA key. Operands: the cell, bytes of entropy drawn since its last refill, a data error -/
  | slhdsaSign (n used : Nat) (err : JobErr)
  /-- SLHDSA_VERIFY (R347): Verifies an SLH-DSA signature. Operands: the cell, bytes of entropy drawn since its last refill, a data error -/
  | slhdsaVerify (n used : Nat) (err : JobErr)
  /-- LMS_KEYGEN (R365): Generates an LMS key and writes its first reservation before completing. Operands: the cell, bytes of entropy drawn since its last refill, a data error -/
  | lmsKeygen (n used : Nat) (err : JobErr)
  /-- LMS_SIGN (R365): Issues an LMS index and signs, waiting for a reservation when none is free. Operands: the cell, bytes of entropy drawn since its last refill, a data error -/
  | lmsSign (n used : Nat) (err : JobErr)
  /-- LMS_VERIFY (R347): Verifies an LMS signature. Operands: the cell, bytes of entropy drawn since its last refill, a data error -/
  | lmsVerify (n used : Nat) (err : JobErr)
  /-- LMS_INFO (R368): Returns QN, RH, 2^h and the burnt count of an LMS key. Operands: the cell, bytes of entropy drawn since its last refill, a data error -/
  | lmsInfo (n used : Nat) (err : JobErr)
  /-- MCE_ENCAPS (R347): Encapsulates to a Classic McEliece public key. Operands: the cell, bytes of entropy drawn since its last refill, a data error -/
  | mceEncaps (n used : Nat) (err : JobErr)
  /-- MCE_DECAPS (R347): Decapsulates with a Classic McEliece key slot. Operands: the cell, bytes of entropy drawn since its last refill, a data error -/
  | mceDecaps (n used : Nat) (err : JobErr)
  /-- HQC_KEYGEN (R347): Generates an HQC key into a slot. Operands: the cell, bytes of entropy drawn since its last refill, a data error -/
  | hqcKeygen (n used : Nat) (err : JobErr)
  /-- HQC_ENCAPS (R347): Encapsulates to an HQC public key. Operands: the cell, bytes of entropy drawn since its last refill, a data error -/
  | hqcEncaps (n used : Nat) (err : JobErr)
  /-- HQC_DECAPS (R347): Decapsulates with an HQC key slot. Operands: the cell, bytes of entropy drawn since its last refill, a data error -/
  | hqcDecaps (n used : Nat) (err : JobErr)
  /-- EC_KEYGEN (R347): Generates a P-256 or P-384 key into a slot. Operands: the cell, bytes of entropy drawn since its last refill, a data error -/
  | ecKeygen (n used : Nat) (err : JobErr)
  /-- ECDSA_SIGN (R347): Signs a message or digest with ECDSA. Operands: the cell, bytes of entropy drawn since its last refill, a data error -/
  | ecdsaSign (n used : Nat) (err : JobErr)
  /-- ECDH (R347): Derives the shared X coordinate with a validated peer point. Operands: the cell, bytes of entropy drawn since its last refill, a data error -/
  | ecdh (n used : Nat) (err : JobErr)
  /-- X25519_KEYGEN (R347): Generates an X25519 key into a slot. Operands: the cell, bytes of entropy drawn since its last refill, a data error -/
  | x25519Keygen (n used : Nat) (err : JobErr)
  /-- X25519 (R347): Derives an X25519 shared secret. Operands: the cell, bytes of entropy drawn since its last refill, a data error -/
  | x25519 (n used : Nat) (err : JobErr)
  /-- ED25519_KEYGEN (R347): Generates an Ed25519 key into a slot. Operands: the cell, bytes of entropy drawn since its last refill, a data error -/
  | ed25519Keygen (n used : Nat) (err : JobErr)
  /-- ED25519_SIGN (R347): Signs a message with Ed25519. Operands: the cell, bytes of entropy drawn since its last refill, a data error -/
  | ed25519Sign (n used : Nat) (err : JobErr)
  /-- ED25519_VERIFY (R353): Verifies an Ed25519 signature with the cofactored equation. Operands: the cell, bytes of entropy drawn since its last refill, a data error -/
  | ed25519Verify (n used : Nat) (err : JobErr)
  /-- PUBEXPORT (R350): Writes the public key of a filled slot. Operands: the cell, bytes of entropy drawn since its last refill, a data error -/
  | pubexport (n used : Nat) (err : JobErr)
  /-- RANDOM (R361): Writes OUT_LEN bytes of conditioned entropy. Operands: the cell, bytes of entropy drawn since its last refill, a data error -/
  | random (n used : Nat) (err : JobErr)
  /-- JOB_COMPLETION (R336): A job's completion is written into its slot after all outputs, CONS advances and an IRQ job signals. Operands: the ring (1,024 + k: digest ring k), the count of the slot -/
  | jobCompletion (r count : Nat)
  /-- CELL_CLEAR_DONE (R326): The cell finishes zeroing the memory its job wrote and returns to IDLE or OFFLINE. Operands: the cell -/
  | cellClearDone (n : Nat)
  /-- CELL_KAT_RUN (R327): A cell runs its due known-answer test and is isolated with SOUND_KAT on failure. Operands: the cell, the verdict of its test -/
  | cellKatRun (n : Nat) (pass : Bool)
  /-- CELL_OFFLINE_WRITE (R325): A write of CELL_CTL.OFFLINE takes an idle cell out of service, or returns it through a known-answer test. Operands: the cell, the word written to CELL_CTL -/
  | cellOfflineWrite (n : Nat) (v : Word32)
  /-- CELL_STATUS_READ (R327): A read of CELL_STATUS clears SC_FAULT of an isolated cell. Operands: the cell -/
  | cellStatusRead (n : Nat)
  /-- JR_PROD_WRITE (R334): A write of JR_PROD by the owner posts jobs, or stops the ring with DB_BACK or DB_RANGE. Operands: the master, the ring (1,024 + k: digest ring k), the word written -/
  | jrProdWrite (mid r : Nat) (v : Word32)
  /-- JR_CFG_WRITE (R340): A write of ring configuration is accepted only while disabled, and setting EN checks the placement and resets the counts. Operands: the master, the ring (1,024 + k: digest ring k), the offset in its register set, the word written -/
  | jrCfgWrite (mid r off : Nat) (v : Word32)
  /-- RING_ABORT (R339): A JR_ABORT or disable with work outstanding stops running jobs and completes the rest with ABORTED. Operands: the ring (1,024 + k: digest ring k) -/
  | ringAbort (r : Nat)
  /-- JOB_TIMEOUT (R354): A job still running at JR_TIMEOUT stops, its cell clears, and it ends with TIMEOUT. Operands: the ring, the count of the job's slot -/
  | jobTimeout (r count : Nat)
  /-- ENTROPY_REFILL (R362): The Soundboard refills a cell's entropy buffer by 64 B and a stalled cell resumes. Operands: the cell whose turn it is, bytes its job drew since the last refill, cycles it stalled -/
  | entropyRefill (n used stalled : Nat)
  /-- ENTROPY_WAIT_TIMEOUT (R364): When delivery stays stopped for the entropy timeout, waiting jobs end with ENTROPY_UNAVAILABLE. -/
  | entropyWaitTimeout
  /-- LMS_RESERVE (R366): Under a ledger grant, a reservation writes a new RH to the Case die and takes effect when its valid mark is written. Operands: the key's slot -/
  | lmsReserve (slot : Nat)
  /-- SOUND_ERR_READ (R370): A read of SOUND_ERR clears source 144. -/
  | soundErrRead
  /-- SOUND_LMSWARN_SLOT_READ (R370): A read of SOUND_LMSWARN_SLOT clears source 145. -/
  | soundLmswarnSlotRead
  /-- VE_OWNER_WRITE (R372): A write of VE_OWNER or the data window by ring 0 while idle sets the engine's owner, else it is ignored with REJ. Operands: the master, the engine, the register's offset in its set (0x00, 0x28 to 0x34), the word written -/
  | veOwnerWrite (mid e off : Nat) (v : Word32)
  /-- ECDSA_VERIFY (R376): Validates the public point and verifies an ECDSA signature over a digest. Operands: the engine, the master, the word written to VE_CMD -/
  | ecdsaVerify (e mid : Nat) (v : Word32)
  /-- POINT_VALIDATE (R376): Fully validates a public point on a curve. Operands: the engine, the master, the word written to VE_CMD -/
  | pointValidate (e mid : Nat) (v : Word32)
  /-- RSA_PKCS1 (R375): Verifies an RSA PKCS#1 v1.5 signature. Operands: the engine, the master, the word written to VE_CMD -/
  | rsaPkcs1 (e mid : Nat) (v : Word32)
  /-- RSA_PSS (R375): Verifies an RSA-PSS signature with a salt of SLEN bytes. Operands: the engine, the master, the word written to VE_CMD -/
  | rsaPss (e mid : Nat) (v : Word32)
  /-- RSA_PUBLIC (R375): Computes x^e mod n into the output buffer. Operands: the engine, the master, the word written to VE_CMD -/
  | rsaPublic (e mid : Nat) (v : Word32)
  /-- LOAD_CURVE (R378): Loads a curve into a slot after the sanity checks of Table 10-2. Operands: the engine, the master, the word written to VE_CMD -/
  | loadCurve (e mid : Nat) (v : Word32)
  /-- CLEAR_CURVE (R378): Empties a loadable curve slot. Operands: the engine, the master, the word written to VE_CMD -/
  | clearCurve (e mid : Nat) (v : Word32)
  /-- VE_OP_UNASSIGNED (R381): A VE_CMD with an unassigned OP ends with BAD_OPCODE. Operands: the engine, the master, the word written to VE_CMD -/
  | veOpUnassigned (e mid : Nat) (v : Word32)
  /-- VE_COMMAND_END (R380): A command ends, the operand memory is zeroed, STATUS is written, BUSY clears and DONE is set. Operands: the engine -/
  | veCommandEnd (e : Nat)
  /-- VE_TIMEOUT (R380): A command running past VE_TIMEOUT stops and ends with TIMEOUT. Operands: the engine -/
  | veTimeout (e : Nat)
  /-- VE_ABORT (R380): A write of VE_ABORT.GO stops a running command, which ends with ABORTED. Operands: the engine, the master that writes VE_ABORT with GO = 1 -/
  | veAbort (e mid : Nat)
  /-- VE_KAT_RUN (R383): Every 60 s an idle engine runs its known-answer test and is isolated with VE_KAT on failure. Operands: the engine, the verdict of its test -/
  | veKatRun (e : Nat) (pass : Bool)
  /-- DIGEST (R388): A digest job hashes a message or segment, writing, exporting or comparing the result. Operands: the core, a data error during the job -/
  | digest (k : Nat) (err : Bool)
  /-- HMAC (R387): An HMAC job computes a keyed check value with a Peg slot key. Operands: the core, a data error during the job -/
  | hmac (k : Nat) (err : Bool)
  /-- KMAC (R387): A KMAC job computes a fixed-length KMAC with a Peg slot key. Operands: the core, a data error during the job -/
  | kmac (k : Nat) (err : Bool)
  /-- MEMCMP (R393): MEMCMP compares two buffers in constant time. Operands: the core, a data error during the job -/
  | memcmp (k : Nat) (err : Bool)
  /-- DIGEST_OP_UNASSIGNED (R394): A digest job with an unassigned OP ends with BAD_OPCODE. Operands: the core -/
  | digestOpUnassigned (k : Nat)
  /-- DIG_KAT_RUN (R395): Every 60 s an idle digest core runs its known-answer test and is isolated with DIG_KAT on failure. Operands: the core, the verdict of its test -/
  | digKatRun (k : Nat) (pass : Bool)
  /-- DIG_ERR_READ (R396): A read of DIG_ERR clears source 272. -/
  | digErrRead
  /-- STARTUP_WINDOW_END (R407): A bank's start-up window completes and is passed, retested or retires the bank. Operands: the bank, the 8,192 bits of the window in arrival order -/
  | startupWindowEnd (b : Nat) (bits : List Bool)
  /-- APT_WINDOW_END (R402): A 1,024-bit APT window completes and passes into the conditioner or is discarded as a bank failure. Operands: the bank, the 1,024 bits of the window -/
  | aptWindowEnd (b : Nat) (bits : List Bool)
  /-- HEALTH_WINDOW_END (R403): A health window completes, its bias and correlation estimates are stored, and an excess counts a failure. Operands: the bank, the 65,536 bits of the window -/
  | healthWindowEnd (b : Nat) (bits : List Bool)
  /-- TRIM_LIMIT (R398): A cell whose trim stays at a limit for 1 ms fails its bank's health window. Operands: the bank -/
  | trimLimit (b : Nat)
  /-- CONDITIONER_BLOCK (R399): A conditioner forms a 64 B block from 128 B of raw bits and adds it to the reserve, making the array READY when its conditions hold. Operands: the conditioner -/
  | conditionerBlock (c : Nat)
  /-- ROSIN_WAIT_TIMEOUT (R412): A stop ROSIN_TIMEOUT ms old ends waiting requests with ENTROPY_UNAVAILABLE. -/
  | rosinWaitTimeout
  /-- ENTROPY_GRANT (R413): A 64 B grant is handed from the reserve to a consumer port by priority and weighted rounds. Operands: the port -/
  | entropyGrant (p : Nat)
  /-- ROSIN_PULL_GO (R415): A write of ROSIN_PULL_CTL.GO requests one grant for the pull port. Operands: the master -/
  | rosinPullGo (mid : Nat)
  /-- ROSIN_PULL_READ (R415): A read of ROSIN_PULL by ring 0 or 1 returns the word and zeroes it. Operands: the master, the word -/
  | rosinPullRead (mid k : Nat)
  /-- ROSIN_PST (R416): Under a ledger grant the periodic self-test forces each bank's trims to their limits, retests it and runs the conditioner tests. Operands: what the banks measure, the conditioners that fail -/
  | rosinPst (tests : List BankTest) (kat : List Nat)
  /-- ROSIN_STATE_READ (R418): A read of ROSIN_STATE clears source ROSIN_STATE. -/
  | rosinStateRead
  /-- ROSIN_RETIRED_LO_READ (R418): A read of ROSIN_RETIRED_LO clears source ROSIN_RETIRE. -/
  | rosinRetiredLoRead
  /-- RESERVE_PEG (R426): Reserves a FREE Peg slot with its staged attributes and limit. Operands: the master that writes KEY_CMD -/
  | reservePeg (mid : Nat)
  /-- IMPORT_GKE (R438): Opens a hybrid envelope and installs a group key into a RESERVED Peg slot. Operands: the master that writes KEY_CMD -/
  | importGke (mid : Nat)
  /-- ERASE_PEG (R442): Erases a Peg slot to FREE, whether or not an entry still names it. Operands: the master that writes KEY_CMD -/
  | erasePeg (mid : Nat)
  /-- INFO_PEG (R453): Writes a Peg slot's state, attributes, count and limit to KEY_INFO. Operands: the master that writes KEY_CMD -/
  | infoPeg (mid : Nat)
  /-- LOWER_LIMIT (R428): Lowers an active or spent slot's limit, making it SPENT when at or below the count. Operands: the master that writes KEY_CMD -/
  | lowerLimit (mid : Nat)
  /-- DERIVE (R440): Runs HKDF-SHA-384 from a KDF slot into a RESERVED Peg slot. Operands: the master that writes KEY_CMD -/
  | derive (mid : Nat)
  /-- RESERVE_PRIV (R433): Reserves a FREE private-key slot for key generation. Operands: the master that writes KEY_CMD -/
  | reservePriv (mid : Nat)
  /-- IMPORT_PRIV (R438): Imports a private key from an envelope or ceremony-keyed format into a FREE slot. Operands: the master that writes KEY_CMD -/
  | importPriv (mid : Nat)
  /-- DESTROY_PRIV (R433): Writes a destroy mark and erases a private-key slot's record. Operands: the master that writes KEY_CMD -/
  | destroyPriv (mid : Nat)
  /-- INFO_PRIV (R453): Writes a private-key slot's state, scheme, set and order to KEY_INFO. Operands: the master that writes KEY_CMD -/
  | infoPriv (mid : Nat)
  /-- REKEY_ROOT (R421): Draws a new root key, writes its check value and marks earlier records LOST. Operands: the master that writes KEY_CMD -/
  | rekeyRoot (mid : Nat)
  /-- KEY_CMD_UNASSIGNED (R451): A KEY_CMD with an unassigned OP ends with BAD_OPCODE. Operands: the master, the OP written -/
  | keyCmdUnassigned (mid op : Nat)
  /-- KEY_CMD_TIMEOUT (R451): A key command still running after TIMEOUT_MS ends with TIMEOUT and leaves every slot unchanged. -/
  | keyCmdTimeout
  /-- VAULT_COPY (R436): After the Rosin array is READY the key store copies the vault to private DRAM and sets VAULT_READY. Operands: slots whose record fails its authentication -/
  | vaultCopy (bad : List Nat)
  /-- KEY_CMD_RESULT_READ (R453): A read of KEY_CMD_RESULT clears source KEY_CMD_DONE. -/
  | keyCmdResultRead
  /-- KEY_FAULT_SLOT_READ (R453): A read of KEY_FAULT_SLOT clears source 465. -/
  | keyFaultSlotRead
  /-- SHARE_IN (R445): A SHARE_IN ceremony starts to collect k shares for the target Peg slot. Operands: the master, the word written to CER_CTL -/
  | shareIn (mid : Nat) (v : Word32)
  /-- SHARE_OUT (R446): A SHARE_OUT ceremony draws a fresh secret and starts writing n shares to cards. Operands: the master, the word written to CER_CTL -/
  | shareOut (mid : Nat) (v : Word32)
  /-- AUTHORISE (R448): An AUTHORISE ceremony starts to collect k cards' proof of presence. Operands: the master, the word written to CER_CTL -/
  | authorise (mid : Nat) (v : Word32)
  /-- CER_STEP (R445): A ceremony step reads or writes one share with the card present and completes the ceremony when enough are done. Operands: the master, INDEX as written, what the card does -/
  | cerStep (mid index : Nat) (ans : CardAnswer)
  /-- CER_ABORT (R447): CER_CTL.ABORT ends a running ceremony FAILED with ABORTED and erases its shares. Operands: the master, the word written to CER_CTL -/
  | cerAbort (mid : Nat) (v : Word32)
  /-- CER_TIMEOUT (R447): A ceremony not COMPLETE after CER_TIMEOUT ends FAILED with TIMEOUT. -/
  | cerTimeout
  /-- AUTHWIN_EXPIRY (R448): An unconsumed authorisation expires after CER_AUTHWIN.S seconds. -/
  | authwinExpiry
  /-- CER_STATE_READ (R453): A read of CER_STATE clears source KEY_CER. -/
  | cerStateRead
  /-- CASE_READ (R460): Reads bytes of one Case page into the buffer. Operands: the master that writes CASE_CMD -/
  | caseRead (mid : Nat)
  /-- CASE_PROGRAM (R457): Programs units of a page in order into a region. Operands: the master that writes CASE_CMD -/
  | caseProgram (mid : Nat)
  /-- CASE_ERASE (R474): Erases a block after writing its erase intent. Operands: the master that writes CASE_CMD -/
  | caseErase (mid : Nat)
  /-- READ_TUNING (R460): Reads the tuning row into the buffer. Operands: the master that writes CASE_CMD -/
  | readTuning (mid : Nat)
  /-- BLOCKINFO (R460): Writes a block's erase count, retry start and state to CASE_INFO. Operands: the master that writes CASE_CMD -/
  | blockinfo (mid : Nat)
  /-- RELOCATE (R460): Copies a block to a spare of its plane, swaps them and erases the old block under a ledger grant. Operands: the master that writes CASE_CMD -/
  | relocate (mid : Nat)
  /-- CASE_CMD_UNASSIGNED (R461): A CASE_CMD with an unassigned OP ends with BAD_OPCODE. Operands: the master, the OP written -/
  | caseCmdUnassigned (mid op : Nat)
  /-- CASE_PLANE_DISPATCH (R463): A free plane takes the next waiting die operation by class order, suspending an erase for a read. Operands: the plane -/
  | casePlaneDispatch (plane : Nat)
  /-- CASE_DIE_OP_DONE (R462): A die operation ends, and a failed program or erase retires the block into a spare. Operands: the plane, how its operation ends, re-sends on the link -/
  | caseDieOpDone (plane : Nat) (e : DieEnd) (resends : Nat)
  /-- READ_CACHE_FILL (R472): A read cache miss fetches the whole page while the Capo waits. Operands: the page of the slot, how the fill ends, re-sends, cycles waited -/
  | readCacheFill (page : Nat) (e : DieEnd) (resends stall : Nat)
  /-- CASE_REFRESH (R466): A flagged block is relocated under a CASE_REFRESH grant. Operands: the block -/
  | caseRefresh (block : Nat)
  /-- CASE_CMD_RESULT_READ (R488): A read of CASE_CMD_RESULT clears CASE_CMD_DONE and CASE_XIPREFUSE. -/
  | caseCmdResultRead
  /-- CASE_FAIL_ADDR_READ (R488): A read of CASE_FAIL_ADDR clears source 321. -/
  | caseFailAddrRead
  /-- CASE_GEN_WRITE (R459): A write of CASE_GEN defines a GENERAL subregion unless it overlaps or its blocks are not erased. Operands: the subregion, the word of its set, the word written -/
  | caseGenWrite (k word : Nat) (v : Word32)
  /-- EVENT_RECORD_ENTER (R479): An event record is stamped and entered into the buffer, or dropped and counted in EVREC_LOST. Operands: the unit's interrupt source number, the record's code, status and payload -/
  | eventRecordEnter (source code status : Nat) (payload : Bytes)
  /-- EVREC_FLUSH (R481): A flush writes every buffered record in SEQ order into the event ring, erasing the oldest block when needed. -/
  | evrecFlush
  /-- EVREC_FLUSH_WRITE (R480): A write of EVREC_CTL.FLUSH starts a flush. Operands: the word written; bit 31 is 1 -/
  | evrecFlushWrite (v : Word32)
  /-- EVREC_MAXAGE_EXPIRY (R480): A record buffered for MAXAGE seconds starts a flush. -/
  | evrecMaxageExpiry
  /-- EVREC_PUT (R478): A write of EVREC_PUT_CTL.GO enters a Capo record with the staged payload. Operands: the master, the word written to EVREC_PUT_CTL -/
  | evrecPut (mid : Nat) (v : Word32)
  /-- EVREC_CLEAR (R484): An authorised clear by ring 1 flushes, writes a clear record, moves OLDEST and erases the ring; otherwise it is refused and recorded. Operands: the master -/
  | evrecClear (mid : Nat)
  /-- EVREC_WINDOW_READ (R483): A read of the BAR4 event window returns the record with SEQ WINBASE + i, fetching from the Case die when needed. Operands: the master, the place in the window -/
  | evrecWindowRead (mid i : Nat)
  /-- EVREC_STATUS_READ (R488): A read of EVREC_STATUS clears source 325. -/
  | evrecStatusRead
  /-- MIRROR_COPY (R573): After a flush the newest 256 records are copied into a Pickguard mirror slot with a torn-safe write, deferring for an open READ_MIRROR. Operands: link frames re-sent, where the supply collapses, a word of the slot's body that reads back wrong -/
  | mirrorCopy (resends : Nat) (torn : Torn) (bad : Option Nat)
  /-- LEDGER_REQUEST (R485): A write of LEDGER_ACT.REQ requests a grant for a firmware activity. Operands: the master, the activity -/
  | ledgerRequest (mid a : Nat)
  /-- LEDGER_RELEASE (R485): A write of LEDGER_ACT.REL releases one grant. Operands: the master, the activity -/
  | ledgerRelease (mid a : Nat)
  /-- LEDGER_GRANT (R485): The ledger grants the oldest waiting request that meets no conflict. -/
  | ledgerGrant
  /-- LEDGER_MAXWAIT (R487): A request waiting beyond MAXWAIT requests LEDGER_WAIT and writes a record. -/
  | ledgerMaxwait
  /-- LEDGER_STATUS_READ (R488): A read of LEDGER_STATUS clears LEDGER_WAIT and LEDGER_GRANT. -/
  | ledgerStatusRead
  /-- TABLE_SCRUB (R486): Every PERIOD minutes the table scrub reads every association entry, clearing invalid entries and key positions outside roll ranges. -/
  | tableScrub
  /-- DRAM_SCRUB (R486): Every PERIOD minutes the DRAM scrub reads and rewrites every mapped line. Operands: what has disturbed memory -/
  | dramScrub (env : FabEnv)
  /-- TAMPER_DETECTION (R491): A detection event of a tamper or environment detector counts toward confirmation of its quantity. Operands: the quantity, whether detector B reports, the reading; of a loop's detector A, the 64 samples or bits of the frame that its return gave (R490) -/
  | tamperDetection (q : Nat) (detB : Bool) (reading : Nat) (frame : List Bool)
  /-- TAMPER_REARM (R493): A latched quantity re-arms after a full WINDOW without events. Operands: the quantity -/
  | tamperRearm (q : Nat)
  /-- PAIR_DISAGREEMENT (R494): An event with no partner event within the pair window sets the flag, counts DISAGREES and raises TAMPER_PAIR. Operands: the quantity, the detector that reported alone -/
  | pairDisagreement (q : Nat) (detB : Bool)
  /-- DETECTOR_BIST (R495): Every BIST seconds each detector is stimulated, and one that does not respond raises TAMPER_DETFAIL. Operands: quantities with the detectors that do not respond (bit 0 A, bit 1 B); events that the one detector of a quantity reports while the other is under test -/
  | detectorBist (run : BistRun)
  /-- TAMPER_LOG_APPEND (R499): A tamper log entry is programmed into TLOG, held in the evidence buffer, or counted as lost when the log is full. -/
  | tamperLogAppend
  /-- TAMPER_STICKY_CLR (R503): An authorised write by ring 0 clears the sticky flags and records them; any other write is refused and recorded. Operands: the master -/
  | tamperStickyClr (mid : Nat)
  /-- TAMPER_FORCE (R512): A write of TAMPER_SRC.FORCE injects one detection event on a detector. Operands: the quantity, the word written -/
  | tamperForce (q : Nat) (v : Word32)
  /-- TAMPER_STICKY_LO_READ (R523): A read of TAMPER_STICKY_LO clears source TAMPER_STICKY. -/
  | tamperStickyLoRead
  /-- TAMPER_LOGCOUNT_READ (R523): A read of TAMPER_LOGCOUNT clears source 68. -/
  | tamperLogcountRead
  /-- WATCH_CYCLE (R531): Every PERIOD ms in P3 Watch the sequencer samples watched quantities for one frame and confirms under P3COUNT. Operands: quantities with the detectors that report an event -/
  | watchCycle (events : List (Nat × Nat))
  /-- FAULT_RECORD_CLOSE (R507): A record closes when its actions and self-test are done, is copied to FAULT_LOG and written to the event recorder. Operands: the self-test's result -/
  | faultRecordClose (t : SelfTest)
  /-- FAULT_FORCE (R511): A write of FAULT_FORCE raises the selected sources once as forced raises. Operands: the register, the word written -/
  | faultForce (k : Nat) (v : Word32)
  /-- FAULTN_PULSE_END (R514): At the end of the PULSE FAULT_N is released unless HOLD keeps it low. -/
  | faultnPulseEnd
  /-- FAULT_NCTL_RELEASE (R514): A RELEASE from ring 0 releases FAULT_N, or is held until the pulse ends. Operands: the master -/
  | faultNctlRelease (mid : Nat)
  /-- WDOG_CAPO_KICK (R518): A correct two-write kick from ring 0 reloads the Capo watchdog, else BADKICK counts. Operands: the master, the word written -/
  | wdogCapoKick (mid : Nat) (v : Word32)
  /-- WDOG_MOD_KICK (R518): A correct two-write kick from ring 0 reloads the module watchdog, else BADKICK counts. Operands: the master, the word written -/
  | wdogModKick (mid : Nat) (v : Word32)
  /-- WDOG_CAPO_WARN (R517): At half of TIMEOUT without a kick the Capo watchdog requests its warning. -/
  | wdogCapoWarn
  /-- WDOG_CAPO_EXPIRY (R517): At zero the Capo watchdog raises WDOG_CAPO with the Capo's PC. -/
  | wdogCapoExpiry
  /-- WDOG_MODULE_WARN (R517): At half of the module TIMEOUT without a kick the module watchdog requests its warning. -/
  | wdogModuleWarn
  /-- WDOG_MODULE_EXPIRY (R520): Module watchdog expiry latches, drives FAULT_N, lets a zeroize and running programs complete, suspends erases and resets the module. -/
  | wdogModuleExpiry
  /-- RETAIN_REQUEST (R525): PWR_CTL.REQ = RETAIN with WAIT from ring 0 is refused with a reason or starts entry to P2 Retain. Operands: the host has enabled L1.2 -/
  | retainRequest (l12 : Bool)
  /-- RETAIN_DRAIN_EXPIRY (R526): Work still running after DRAIN ms ends with ABORTED. -/
  | retainDrainExpiry
  /-- WAKE (R529): An enabled wake source takes the module from P2 Retain to P0 Run through the wake steps. Operands: the source as PWR_WAKESRC.SRC numbers it, the microseconds of the wake -/
  | wake (src us : Nat)
  /-- WAKE_FAIL (R529): A wake ready signal missing beyond four times its limit raises PWR_WAKEFAIL and a module reset follows. Operands: the source -/
  | wakeFail (src : Nat)
  /-- UNIT_GATE_WAKE (R291): An idle unit gated at the level in force is woken for new work within its wake time. -/
  | unitGateWake
  /-- SUPPLY_WARNING (R532): The input below 34.0 V for 50 µs enters phase WARN with a record and PWR_WARN. Operands: input and bank voltage in mV -/
  | supplyWarning (input bank : Nat)
  /-- SUPPLY_SHED (R533): 20 ms after the warning the load is shed, a flush starts and Case suspension begins. Operands: bank voltage in mV -/
  | supplyShed (bank : Nat)
  /-- SUPPLY_STOPPING (R534): At 40 V on the bank the orderly stop clears RUN, takes ports down, mirrors operating time and notifies the host. -/
  | supplyStopping
  /-- SUPPLY_RESET_LEVEL (R532): At 32 V on the bank a module reset is held and P3 Watch is entered when the input is absent. Operands: the input is absent -/
  | supplyResetLevel (absent : Bool)
  /-- INPUT_RESTORED (R535): The input at or above 35.5 V ends the dip, completing a started flush and leading to a shed lift or a reset. Operands: input and bank voltage in mV -/
  | inputRestored (input bank : Nat)
  /-- SHED_LIFT (R535): After 5 ms of restored input the shed lifts, Case operations resume and a dip record is written, or a reset follows a stop. -/
  | shedLift
  /-- POWER_TOTAL_LOSS (R420): The input and the backup cell both absent erase the root key. -/
  | powerTotalLoss
  /-- OVERVOLTAGE (R591): An input above 75 V for 1 ms raises PWR_OVERVOLT. Operands: input voltage in mV -/
  | overvoltage (input : Nat)
  /-- COLD_BOOT (R538): Input at or above 35.5 V for 10 ms from P3 Watch starts the cold-boot sequence, drawing per-boot keys and counting the power cycle. Operands: input and bank voltage in mV, what the boot finds -/
  | coldBoot (input bank : Nat) (env : BootEnv)
  /-- MODULE_RESET (R537): A module reset from the fault collector, watchdog, RST_N, software, wake failure or restore reruns the boot with new per-boot keys. Operands: what the boot finds -/
  | moduleReset (env : BootEnv)
  /-- SOFTWARE_RESET (R537): A write of PWR_CTL.RESET = 0xC0DE from ring 0 starts a module reset. Operands: the master -/
  | softwareReset (mid : Nat)
  /-- RST_N_LOW (R595): A low level on RST_N of 10 µs or more starts a module reset held while it stays low. -/
  | rstNLow
  /-- PERST_N_LOW (R596): PERST_N asserted resets the Bridge as a link-down and stops training until it rises. -/
  | perstNLow
  /-- PROVISION (R547): Moves the lifecycle from Blank to Provisioned. Operands: the master; what META holds -/
  | provision (mid : Nat) (chain : Bytes) (keys : ProvKeys)
  /-- SEAL (R547): Moves the lifecycle from Provisioned to Sealed, freezing SL fields. Operands: the master -/
  | seal (mid : Nat)
  /-- RETIRE (R547): Moves the lifecycle to Retired, erasing the root key and destroying private-key slots. Operands: the master -/
  | retire (mid : Nat)
  /-- DEBUG_CHALLENGE (R548): Draws a 32-byte debug challenge into LIFE_CHAL. Operands: the master -/
  | debugChallenge (mid : Nat)
  /-- DEBUG_OPEN (R548): Verifies a signed debug authorisation and moves Sealed to Debug-opened. Operands: the master -/
  | debugOpen (mid : Nat)
  /-- DEBUG_CLOSE (R547): Returns Debug-opened to Sealed and releases halted processors. Operands: the master -/
  | debugClose (mid : Nat)
  /-- DEBUG_EXPIRY (R547): The Debug-opened duration ends and the module returns to Sealed. -/
  | debugExpiry
  /-- DEBUG_CHALLENGE_EXPIRY (R548): An unused debug challenge expires after 60 s. -/
  | debugChallengeExpiry
  /-- COMMIT_IMAGE (R543): Verifies the non-running slot and writes its COMMIT record under the IMAGE_COMMIT grant. Operands: the master -/
  | commitImage (mid : Nat)
  /-- CONFIRM_IMAGE (R542): Writes a CONFIRM for the running trial and raises LIFE_MINVER. Operands: the master -/
  | confirmImage (mid : Nat)
  /-- WRITE_PRESET (R546): Writes the preset image in the Blank and Provisioned states. Operands: the master -/
  | writePreset (mid : Nat)
  /-- LIFE_CMD_UNASSIGNED (R14): A LIFE_CMD with an unassigned OP ends with BAD_OPCODE. Operands: the master, OP -/
  | lifeCmdUnassigned (mid op : Nat)
  /-- PWR_STATUS_READ (R554): A read of PWR_STATUS clears PWR_WARN and PWR_STATE. -/
  | pwrStatusRead
  /-- DEBUG_ACCESS (R550): A test-port or debug-window access is allowed or refused by the visibility matrix before the Nut. Operands: the debug master, what it does -/
  | debugAccess (mid : Nat) (op : DbgOp)
  /-- DEBUG_HALT (R551): A halt request stops the target when it enters a permitted world or ring. Operands: the debug master, the processor -/
  | debugHalt (mid p : Nat)
  /-- EXTERNAL_FIELD_ON (R557): An external field above 1.5 A/m drives FDET_N low and opens the tag after 2 ms. -/
  | externalFieldOn
  /-- FIELD_LOSS (R559): Loss of the field ends any tag session, discards its keys and releases FDET_N. -/
  | fieldLoss
  /-- REQA (R559): REQA moves an idle tag to READY. -/
  | reqa
  /-- WUPA (R559): WUPA moves an idle or halted tag to READY. -/
  | wupa
  /-- ANTICOLLISION (R559): An anticollision frame for the tag's UID is answered in READY. Operands: UID bits known, their values with the first bit sent in bit 0 -/
  | anticollision (known value : Nat)
  /-- SELECT (R559): SELECT for the tag's UID moves it to ACTIVE. Operands: the UID selected -/
  | select (uid : Bytes)
  /-- HLTA (R559): HLTA halts an active tag. -/
  | hlta
  /-- RATS (R558): RATS opens ISO-DEP on an active tag. -/
  | rats
  /-- TAG_SELECT_AID (R561): SELECT of the application AID selects the tag application. Operands: P1, the AID -/
  | tagSelectAid (p1 : Nat) (aid : Bytes)
  /-- READ_MIRROR (R561): READ_MIRROR returns up to four records from the newest valid mirror slot. Operands: P1 P2: the first record -/
  | readMirror (first : Nat)
  /-- READ_HEADER (R561): READ_HEADER returns MSEQ, the record count and the newest VSEQ. -/
  | readHeader
  /-- TAG_SESSION (R561): SESSION carries a handheld's session handshake messages. Operands: the APDU's data: empty, ANSWER or FINISH -/
  | tagSession (m : Bytes)
  /-- TAG_DATA (R561): DATA carries a sealed request of an open session. Operands: the DATA message -/
  | tagData (m : Bytes)
  /-- WRITE_VISIT (R574): WRITE_VISIT on field energy writes an UNVERIFIED visit entry. Operands: the visit body, a field of 2.5 A/m or more, where the supply collapses -/
  | writeVisit (body : Bytes) (strong : Bool) (torn : Torn)
  /-- CAP_SENSE (R562): Every CAPPERIOD ms the reader measures antenna capacitance and starts a poll on a change. Operands: the change of capacitance in units of 0.01 pF -/
  | capSense (delta : Nat)
  /-- DETUNING_PING (R562): Every 250 ms with PING_EN a field pulse checks for a detuning that starts a poll. Operands: the antenna's tuning has shifted -/
  | detuningPing (shift : Bool)
  /-- BADGE_POLL (R564): A poll checks for an external field, switches on, resolves badges by anticollision and serves up to MAXTAGS. Operands: an external field is found, the WUPA attempts that met no answer, the UIDs that answer -/
  | badgePoll (ext : Bool) (field : BadgeField)
  /-- BADGE_REFUSE (R565): A failed badge session enters its UID in the backoff list and writes a record. -/
  | badgeRefuse
  /-- PICK_SESS_GO (R570): PICK_SESS.GO starts a session, regenerating slot 4,090, or is ignored with BUSY. -/
  | pickSessGo
  /-- PICK_SESS_ABORT (R567): PICK_SESS.ABORT sends ABORT and closes the session. -/
  | pickSessAbort
  /-- ANSWER (R568): A received ANSWER is checked and keys the session, yielding CONFIRM. Operands: the message -/
  | answer (m : Bytes)
  /-- FINISH (R568): A received FINISH with a valid TAG_P opens the session. Operands: the message -/
  | finish (m : Bytes)
  /-- DATA (R569): A DATA message is decrypted and authenticated by its counter, or closes the session. Operands: the message -/
  | data (m : Bytes)
  /-- ABORT (R567): A received ABORT closes the session. Operands: its status code -/
  | abort (st : Nat)
  /-- SESSION_STEP_TIMEOUT (R567): A handshake message not arriving within STEPMS ends the session. -/
  | sessionStepTimeout
  /-- SESSION_LIFETIME_EXPIRY (R569): A session beyond MAXS closes with ABORT, reason TIMEOUT. -/
  | sessionLifetimeExpiry
  /-- PICK_STATUS_READ (R585): A read of PICK_STATUS clears PICK_FDET. -/
  | pickStatusRead
  /-- PICK_MIRROR_READ (R585): A read of PICK_MIRROR clears source 482. -/
  | pickMirrorRead
  /-- CARD_INSERT (R575): A card insertion, debounced for 10 ms, activates the card in class B then A. -/
  | cardInsert
  /-- ATR_RECEIVED (R576): A received ATR is checked and accepted or refused with BAD_ATR. Operands: the answer to reset, how its PPS ends -/
  | atrReceived (atr : Bytes) (pps : PpsEnd)
  /-- ATR_TIMEOUT (R575): No ATR within 40,000 clock cycles deactivates the card and retries in class A. -/
  | atrTimeout
  /-- CARD_REMOVAL (R583): Card-detect opening deactivates the card, ends a transfer with ABORTED and marks an interrupted share write. Operands: the share whose write the removal interrupts -/
  | cardRemoval (share : Option Nat)
  /-- CARD_OVERCURRENT (R575): Supply current above the class limit deactivates the card and raises CARD_POWER. -/
  | cardOvercurrent
  /-- T1_BLOCK_ERROR (R578): A T=1 block in error is answered with R-blocks and resynchronisation, then deactivation with PROTOCOL. Operands: a resynchronisation asked for succeeds -/
  | t1BlockError (resync : Bool)
  /-- CARD_MAXWAIT_EXPIRY (R578): An APDU exceeding MAXWAIT ends with ABORTED. -/
  | cardMaxwaitExpiry
  /-- CARD_CLOCK_STOP (R579): After IDLESTOP ms without traffic the card clock stops at the indicated level. -/
  | cardClockStop
  /-- CARD_XFER (R582): CARD_XFER.GO from ring 0 sends an APDU, sealed when SEAL = 1, and reports the status word. Operands: the master, SEAL, the card's status word and data where it answers -/
  | cardXfer (mid : Nat) (sealed : Bool) (ans : Option (Nat × Bytes))
  /-- CARD_RESULT_READ (R585): A read of CARD_RESULT clears CARD_DONE. -/
  | cardResultRead
  /-- CARD_STATUS_READ (R585): A read of CARD_STATUS clears CARD_DETECT and CARD_ERR. -/
  | cardStatusRead
  /-- WAKE_N_LOW (R600): WAKE_N low for 100 µs with its enable bit wakes the module from P2 Retain. Operands: the microseconds of the wake -/
  | wakeNLow (us : Nat)
  /-- UNASSIGNED_OPCODE (R142): A Diurn instruction whose opcode is unassigned, 0o000, 0o700–0o777, 0o600–0o607 on the Capo or 0o607 in the Station world, raises ILLEGAL_INSTR with detail OPCODE. Operands: the processor -/
  | unassignedOpcode (p : Nat)
  /-- RST_N_RISE (R595): RST_N rising ends a held module reset, starts the boot, and lets a waiting cold boot proceed. Operands: what a cold boot that waited for the pin finds -/
  | rstNRise (env : BootEnv)
  /-- PERST_N_RISE (R596): PERST_N rising lets the Bridge begin link training, with the link up within 100 ms. -/
  | perstNRise
  /-- HOLDUP_CHECK (R536): Two seconds after boot or restore, a holdup bank still below 65 V raises PWR_HOLDUP. Operands: bank voltage in mV -/
  | holdupCheck (bank : Nat)
  /-- REFRESH_AGE_FLAG (R466): A block whose oldest page was programmed more than DAYS days of operating time ago is flagged for refresh and a CASE_REFRESH request is made. Operands: the block -/
  | refreshAgeFlag (block : Nat)
  /-- MSIX_UNMASK (R290): A host write that unmasks an MSI-X vector whose pending bit is set sends the held message. -/
  | msixUnmask (v : Nat)
  /-- VF_ENABLE_WRITE (R268): Setting VF Enable captures each virtual function's VEC_COUNT as its MSI-X Table Size and locks its split against writes. -/
  | vfEnableWrite (on : Bool)
  /-- LINK_L1_2_ENTRY (R526): The host lets the link enter L1.2, and the retain entry continues to clamp and power off the core logic. -/
  | linkL12Entry
  /-- MIRROR_DEFER_END (R573): A mirror copy deferred for an open READ_MIRROR starts when that ISO-DEP exchange ends or after 5 s. -/
  | mirrorDeferEnd
  /-- PDELAY_REQ_TX (R217): The module sends peer-delay requests on each PTP port to measure the mean peer delay used by the servo and by demotion. Operands: the port -/
  | pdelayReqTx (port : Nat)
  deriving DecidableEq, Repr

end Sys2Proof
end

