-- ==== Sys2Proof/Config.lean ====
section
/-! DEFINITION. What an implementation of the module fixes and the spec leaves open, as opaque constants:
nothing can be proved about their values. -/

namespace Sys2Proof.Config

/-- A free value: drawn randomness, a key, an outcome the spec states no value for. The number is a
counter of the state that every use advances (log entry 3). -/
opaque freeValue : Nat → Nat

/-- The bytes of a drawn random string of a given length (R397, R413; log entry 3). -/
opaque freeBytes : Nat → Nat → Bytes

/-- The servo's frequency estimate after an update with a measured offset in ns, in units of half a part
per million of the nominal rate (R21; log entry 4). -/
opaque servoFreq : Int → Nat → Int

/-- The servo's offset slew after an update with a measured offset, same units (R22; log entry 4). -/
opaque servoSlew : Int → Nat → Int

/-- What disturbs the memories, the links and the dual-stored registers in a cycle without a command; the number is the
counter of free values (R70 to R80; log entry 90). -/
opaque disturb : Nat → FabEnv

/-- The check bits of the SECDED code of an SRAM word: bits of the word, its value (R68; log entry 101). -/
opaque secded : Nat → Nat → Nat

/-- The keyed scrambling of an SRAM word with its check bits: key, physical address, bits, value (R68; log entry 101). -/
opaque sramScramble : Nat → Nat → Nat → Nat → Nat

/-- The keyed order of an SRAM array's rows: key, partition, row (R68; log entry 101). -/
opaque sramRow : Nat → Nat → Nat → Nat

/-- The cycles a key sweep takes; the model keeps them at most at the 40 ms of R84 (log entry 102). -/
opaque sweepCycles : Nat

/-- A keyed or unkeyed cryptographic computation of the spec, named by a number, of byte strings: the
spec names the algorithm and does not restate it (log entry 6). -/
opaque crypto : Nat → List Bytes → Nat → Bytes

/-- A hash of the association table (R225), under the identity key of the boot: of identifiers and addresses. -/
opaque assocHash : Nat → Nat → Bytes → Nat

/-- The keyed mix of a lookup (R226) over the match key and TYPE: two candidate buckets and a hot-cache set. -/
opaque assocMix : Nat → Nat → Nat → Nat → Nat → Nat × Nat × Nat

/-- What the message fields of a frame's octets hold, where the frame comes from memory (log entry 17). -/
opaque frameView : Bytes → MsgView

/-- Octets that the security extension adds to a frame, by TYPE, ALG and TAGLEN: the profiles' encoding (log entry 17). -/
opaque extLen : Nat → Nat → Nat → Nat

/-- The verdict of a cryptographic verification, named by a number, of byte strings (log entry 6). -/
opaque cryptoOk : Nat → List Bytes → Bool

/-- Bytes of a private key in its standard encoding, by scheme and parameter set: the spec names the encodings and
not their lengths (R432; log entry 6). -/
opaque privLen : Nat → Nat → Nat

/-- Word 1 of INFO_PRIV: it holds USE and USERS at places the spec does not give (Table 12-11; log entry 18). -/
opaque privInfo : Nat → Nat → Nat

/-- A byte of the tuning row that the factory writes (Table 13-6). -/
opaque tuningByte : Nat → Byte

/-- Word 2 of CASE_INFO: a block's next page and unit, at places the spec does not give (Table 13-14). -/
opaque caseNextWord : Nat → Nat → Nat

/-- Version, MINVER and length in the headers of an image slot's contents: the spec does not give the headers' layout
(R540). -/
opaque imageHead : Bytes → Nat × Nat × Nat

/-- What the card present answers to a ceremony step that a plain register write starts (log entry 24). -/
opaque cardAnswer : Nat → CardAnswer

/-- The bytes of the boot ROM (Table 2-4). -/
opaque romByte : Nat → Byte

end Sys2Proof.Config
end

