-- ==== Sys2Proof/Machine/RegMap.lean ====
section
/-! DEFINITION. The register map: every register of the BAR0 window (R63, Table 2-6) with its offset,
its fields, their access types (R11) and reset values, taken from the register tables of the chapters
(Tables 1-5 to 16-16). -/

namespace Sys2Proof.Machine

/-- A field of a register: the register's BAR0 byte offset and the field's bits high and low (R9). -/
structure Fld where
  off : Nat
  hi : Nat
  lo : Nat
  deriving DecidableEq, Repr

/-- The access types of R11, Table 0-4. RSV bits are the bits no field covers. -/
inductive Acc where
  | rw | ro | wo | w1c | w1s | sl
  deriving DecidableEq, Repr

/-- Which values of a field are not refused (R14): all, an interval, the powers of two of an
interval, the multiples of a number, or zero and an interval. -/
inductive Allow where
  | any
  | range (a b : Nat)
  | pow2 (a b : Nat)
  | mult (n : Nat)
  | zeroOr (a b : Nat)
  deriving DecidableEq, Repr

/-- Whether a value is one the field's table allows. -/
def Allow.ok : Allow → Nat → Bool
  | .any, _ => true
  | .range a b, v => decide (a ≤ v) && decide (v ≤ b)
  | .pow2 a b, v => decide (a ≤ v) && decide (v ≤ b) && decide (2 ^ Nat.log2 v = v)
  | .mult n, v => decide (v % n = 0)
  | .zeroOr a b, v => decide (v = 0) || (decide (a ≤ v) && decide (v ≤ b))

/-- One field of a register table. -/
structure FieldDesc where
  hi : Nat
  lo : Nat
  acc : Acc
  reset : Nat
  allow : Allow
  deriving DecidableEq, Repr

/-- One register (or array of registers, R10) of a register table: first offset, two array
dimensions (count and stride), whether it is dual-stored (R74), its fields. -/
structure RegDesc where
  off : Nat
  n1 : Nat
  s1 : Nat
  n2 : Nat
  s2 : Nat
  dual : Bool
  fields : List FieldDesc
  deriving DecidableEq, Repr

/-! ## Names of registers and fields -/


-- TIME block, R53
abbrev TIME_CTL : Nat := 0x10000
abbrev TIME_CTL_PTP_PORT : Fld := ⟨TIME_CTL, 5, 4⟩
abbrev TIME_CTL_SRC : Fld := ⟨TIME_CTL, 3, 2⟩
abbrev TIME_CTL_RUN : Fld := ⟨TIME_CTL, 0, 0⟩
abbrev TIME_STATE : Nat := 0x10004
abbrev TIME_STATE_TAI_VALID : Fld := ⟨TIME_STATE, 3, 3⟩
abbrev TIME_STATE_STATE : Fld := ⟨TIME_STATE, 2, 0⟩
abbrev TIME_OFFSET : Nat := 0x10008
abbrev TIME_OFFSET_OFFSET : Fld := ⟨TIME_OFFSET, 31, 0⟩
abbrev TIME_SLEWMAX : Nat := 0x1000C
abbrev TIME_SLEWMAX_PPM : Fld := ⟨TIME_SLEWMAX, 9, 0⟩
abbrev TIME_SEC_LO : Nat := 0x10010
abbrev TIME_SEC_LO_SEC : Fld := ⟨TIME_SEC_LO, 31, 0⟩
abbrev TIME_SEC_HI : Nat := 0x10014
abbrev TIME_SEC_HI_SEC : Fld := ⟨TIME_SEC_HI, 15, 0⟩
abbrev TICK_RATE : Nat := 0x10020
abbrev TICK_RATE_PENDING : Fld := ⟨TICK_RATE, 31, 31⟩
abbrev TICK_RATE_RATE : Fld := ⟨TICK_RATE, 16, 0⟩
abbrev TICK_CYCLES : Nat := 0x10024
abbrev TICK_CYCLES_N : Fld := ⟨TICK_CYCLES, 20, 0⟩
abbrev TICK_WORK : Nat := 0x10028
abbrev TICK_WORK_W : Fld := ⟨TICK_WORK, 20, 0⟩
abbrev TICK_INDEX : Nat := 0x10030
abbrev TICK_INDEX_N : Fld := ⟨TICK_INDEX, 16, 0⟩
abbrev TICK_COUNT_LO : Nat := 0x10038
abbrev TICK_COUNT_LO_COUNT : Fld := ⟨TICK_COUNT_LO, 31, 0⟩
abbrev TICK_COUNT_HI : Nat := 0x1003C
abbrev TICK_COUNT_HI_COUNT : Fld := ⟨TICK_COUNT_HI, 15, 0⟩
abbrev PPS_CTL : Nat := 0x10040
abbrev PPS_CTL_OUT_EN : Fld := ⟨PPS_CTL, 31, 31⟩
abbrev PPS_CTL_OUT_ALWAYS : Fld := ⟨PPS_CTL, 30, 30⟩
abbrev PPS_CTL_IN_EDGE : Fld := ⟨PPS_CTL, 29, 29⟩
abbrev PPS_CTL_IN_REJECT : Fld := ⟨PPS_CTL, 28, 24⟩
abbrev PPS_CTL_OUT_WIDTH : Fld := ⟨PPS_CTL, 15, 0⟩
abbrev OPTIME_LO : Nat := 0x10048
abbrev OPTIME_LO_MS : Fld := ⟨OPTIME_LO, 31, 0⟩
abbrev OPTIME_HI : Nat := 0x1004C
abbrev OPTIME_HI_MS : Fld := ⟨OPTIME_HI, 11, 0⟩
abbrev PWRCYC : Nat := 0x10050
abbrev PWRCYC_COUNT : Fld := ⟨PWRCYC, 23, 0⟩
abbrev FE_BUDGETX (i : Nat) : Nat := 0x10100 + 0x4 * i
abbrev FE_BUDGETX_COUNT (i : Nat) : Fld := ⟨FE_BUDGETX i, 31, 0⟩
abbrev FE_ABANDON (i : Nat) : Nat := 0x10180 + 0x4 * i
abbrev FE_ABANDON_COUNT (i : Nat) : Fld := ⟨FE_ABANDON i, 31, 0⟩
abbrev FE_ABANDON_PC (i : Nat) : Nat := 0x10200 + 0x4 * i
abbrev FE_ABANDON_PC_PC (i : Nat) : Fld := ⟨FE_ABANDON_PC i, 23, 0⟩
abbrev FE_OUTDROP (i : Nat) : Nat := 0x10280 + 0x4 * i
abbrev FE_OUTDROP_COUNT (i : Nat) : Fld := ⟨FE_OUTDROP i, 31, 0⟩

-- NUT block, R96
abbrev NUT_STATUS : Nat := 0x20000
abbrev NUT_STATUS_ENABLED : Fld := ⟨NUT_STATUS, 8, 0⟩
abbrev NUT_COMMIT : Nat := 0x20004
abbrev NUT_COMMIT_GO : Fld := ⟨NUT_COMMIT, 31, 31⟩
abbrev NUT_COMMIT_REGION : Fld := ⟨NUT_COMMIT, 7, 0⟩
abbrev NUT_COMMIT_RESULT : Nat := 0x20008
abbrev NUT_COMMIT_RESULT_OTHER : Fld := ⟨NUT_COMMIT_RESULT, 15, 8⟩
abbrev NUT_COMMIT_RESULT_RESULT : Fld := ⟨NUT_COMMIT_RESULT, 2, 0⟩
abbrev NUT_FAULT_ADDR_LO : Nat := 0x20010
abbrev NUT_FAULT_ADDR_LO_ADDR : Fld := ⟨NUT_FAULT_ADDR_LO, 31, 0⟩
abbrev NUT_FAULT_ADDR_HI : Nat := 0x20014
abbrev NUT_FAULT_ADDR_HI_ADDR : Fld := ⟨NUT_FAULT_ADDR_HI, 7, 0⟩
abbrev NUT_FAULT_INFO : Nat := 0x20018
abbrev NUT_FAULT_INFO_LEN : Fld := ⟨NUT_FAULT_INFO, 28, 16⟩
abbrev NUT_FAULT_INFO_FETCH : Fld := ⟨NUT_FAULT_INFO, 9, 9⟩
abbrev NUT_FAULT_INFO_WRITE : Fld := ⟨NUT_FAULT_INFO, 8, 8⟩
abbrev NUT_FAULT_INFO_MID : Fld := ⟨NUT_FAULT_INFO, 7, 0⟩
abbrev NUT_FAULT_COUNT : Nat := 0x2001C
abbrev NUT_FAULT_COUNT_COUNT : Fld := ⟨NUT_FAULT_COUNT, 31, 0⟩
abbrev NUT_STAGE_START_LO : Nat := 0x20100
abbrev NUT_STAGE_START_LO_ADDR : Fld := ⟨NUT_STAGE_START_LO, 31, 6⟩
abbrev NUT_STAGE_START_HI : Nat := 0x20104
abbrev NUT_STAGE_START_HI_ADDR : Fld := ⟨NUT_STAGE_START_HI, 7, 0⟩
abbrev NUT_STAGE_END_LO : Nat := 0x20108
abbrev NUT_STAGE_END_LO_ADDR : Fld := ⟨NUT_STAGE_END_LO, 31, 6⟩
abbrev NUT_STAGE_END_HI : Nat := 0x2010C
abbrev NUT_STAGE_END_HI_ADDR : Fld := ⟨NUT_STAGE_END_HI, 7, 0⟩
abbrev NUT_STAGE_CTL : Nat := 0x20110
abbrev NUT_STAGE_CTL_LOCK : Fld := ⟨NUT_STAGE_CTL, 2, 2⟩
abbrev NUT_STAGE_CTL_X : Fld := ⟨NUT_STAGE_CTL, 1, 1⟩
abbrev NUT_STAGE_CTL_EN : Fld := ⟨NUT_STAGE_CTL, 0, 0⟩
abbrev NUT_STAGE_RMASK (i : Nat) : Nat := 0x20120 + 0x4 * i
abbrev NUT_STAGE_RMASK_MASK (i : Nat) : Fld := ⟨NUT_STAGE_RMASK i, 31, 0⟩
abbrev NUT_STAGE_WMASK (i : Nat) : Nat := 0x20140 + 0x4 * i
abbrev NUT_STAGE_WMASK_MASK (i : Nat) : Fld := ⟨NUT_STAGE_WMASK i, 31, 0⟩
abbrev NUT_REGION_START_LO (i : Nat) : Nat := 0x28000 + 0x80 * i
abbrev NUT_REGION_START_LO_ADDR (i : Nat) : Fld := ⟨NUT_REGION_START_LO i, 31, 6⟩
abbrev NUT_REGION_START_HI (i : Nat) : Nat := 0x28004 + 0x80 * i
abbrev NUT_REGION_START_HI_ADDR (i : Nat) : Fld := ⟨NUT_REGION_START_HI i, 7, 0⟩
abbrev NUT_REGION_END_LO (i : Nat) : Nat := 0x28008 + 0x80 * i
abbrev NUT_REGION_END_LO_ADDR (i : Nat) : Fld := ⟨NUT_REGION_END_LO i, 31, 6⟩
abbrev NUT_REGION_END_HI (i : Nat) : Nat := 0x2800C + 0x80 * i
abbrev NUT_REGION_END_HI_ADDR (i : Nat) : Fld := ⟨NUT_REGION_END_HI i, 7, 0⟩
abbrev NUT_REGION_CTL (i : Nat) : Nat := 0x28010 + 0x80 * i
abbrev NUT_REGION_CTL_LOCK (i : Nat) : Fld := ⟨NUT_REGION_CTL i, 2, 2⟩
abbrev NUT_REGION_CTL_X (i : Nat) : Fld := ⟨NUT_REGION_CTL i, 1, 1⟩
abbrev NUT_REGION_CTL_EN (i : Nat) : Fld := ⟨NUT_REGION_CTL i, 0, 0⟩
abbrev NUT_REGION_RMASK (i j : Nat) : Nat := 0x28020 + 0x80 * i + 0x4 * j
abbrev NUT_REGION_RMASK_MASK (i j : Nat) : Fld := ⟨NUT_REGION_RMASK i j, 31, 0⟩
abbrev NUT_REGION_WMASK (i j : Nat) : Nat := 0x28040 + 0x80 * i + 0x4 * j
abbrev NUT_REGION_WMASK_MASK (i j : Nat) : Fld := ⟨NUT_REGION_WMASK i j, 31, 0⟩

-- MEM block, R96
abbrev MEM_SCRUB_CTL : Nat := 0x30000
abbrev MEM_SCRUB_CTL_EN : Fld := ⟨MEM_SCRUB_CTL, 31, 31⟩
abbrev MEM_SCRUB_CTL_PERIOD : Fld := ⟨MEM_SCRUB_CTL, 15, 0⟩
abbrev FAB_PARITY : Nat := 0x30004
abbrev FAB_PARITY_COUNT : Fld := ⟨FAB_PARITY, 31, 0⟩
abbrev DUAL_MISMATCH : Nat := 0x30008
abbrev DUAL_MISMATCH_COUNT : Fld := ⟨DUAL_MISMATCH, 31, 26⟩
abbrev DUAL_MISMATCH_ADDR : Fld := ⟨DUAL_MISMATCH, 25, 0⟩
abbrev MEM_PART_CE (i : Nat) : Nat := 0x30100 + 0x10 * i
abbrev MEM_PART_CE_COUNT (i : Nat) : Fld := ⟨MEM_PART_CE i, 31, 0⟩
abbrev MEM_PART_UE (i : Nat) : Nat := 0x30104 + 0x10 * i
abbrev MEM_PART_UE_COUNT (i : Nat) : Fld := ⟨MEM_PART_UE i, 31, 0⟩
abbrev MEM_PART_ADDR_LO (i : Nat) : Nat := 0x30108 + 0x10 * i
abbrev MEM_PART_ADDR_LO_ADDR (i : Nat) : Fld := ⟨MEM_PART_ADDR_LO i, 31, 0⟩
abbrev MEM_PART_ADDR_HI (i : Nat) : Nat := 0x3010C + 0x10 * i
abbrev MEM_PART_ADDR_HI_ADDR (i : Nat) : Fld := ⟨MEM_PART_ADDR_HI i, 7, 0⟩

-- DRAM block, R96
abbrev DRAM_INFO : Nat := 0x40000
abbrev DRAM_INFO_INIT_DONE : Fld := ⟨DRAM_INFO, 31, 31⟩
abbrev DRAM_INFO_MAPPED_GIB : Fld := ⟨DRAM_INFO, 5, 0⟩
abbrev DRAM_CRC_RESEND : Nat := 0x40004
abbrev DRAM_CRC_RESEND_COUNT : Fld := ⟨DRAM_CRC_RESEND, 31, 0⟩
abbrev DRAM_CRC_FAIL : Nat := 0x40008
abbrev DRAM_CRC_FAIL_COUNT : Fld := ⟨DRAM_CRC_FAIL, 31, 0⟩
abbrev DRAM_TAG_FAIL : Nat := 0x4000C
abbrev DRAM_TAG_FAIL_COUNT : Fld := ⟨DRAM_TAG_FAIL, 31, 0⟩
abbrev DRAM_FAIL_ADDR_LO : Nat := 0x40010
abbrev DRAM_FAIL_ADDR_LO_ADDR : Fld := ⟨DRAM_FAIL_ADDR_LO, 31, 0⟩
abbrev DRAM_FAIL_ADDR_HI : Nat := 0x40014
abbrev DRAM_FAIL_ADDR_HI_ADDR : Fld := ⟨DRAM_FAIL_ADDR_HI, 7, 0⟩
abbrev DRAM_POISON : Nat := 0x40018
abbrev DRAM_POISON_COUNT : Fld := ⟨DRAM_POISON, 6, 0⟩
abbrev GUARD_STATE : Nat := 0x40020
abbrev GUARD_STATE_SWEEP_PAGE : Fld := ⟨GUARD_STATE, 24, 8⟩
abbrev GUARD_STATE_SWEEP : Fld := ⟨GUARD_STATE, 1, 1⟩
abbrev GUARD_STATE_GEN : Fld := ⟨GUARD_STATE, 0, 0⟩
abbrev GUARD_WB : Nat := 0x40024
abbrev GUARD_WB_COUNT : Fld := ⟨GUARD_WB, 31, 0⟩

-- INTC block, R209
abbrev INTC_SRC (i : Nat) : Nat := 0x60000 + 0x4 * i
abbrev INTC_SRC_EN (i : Nat) : Fld := ⟨INTC_SRC i, 31, 31⟩
abbrev INTC_SRC_LEVEL (i : Nat) : Fld := ⟨INTC_SRC i, 30, 30⟩
abbrev INTC_SRC_ACTIVE (i : Nat) : Fld := ⟨INTC_SRC i, 29, 29⟩
abbrev INTC_SRC_FORCE (i : Nat) : Fld := ⟨INTC_SRC i, 28, 28⟩
abbrev INTC_SRC_GROUP (i : Nat) : Fld := ⟨INTC_SRC i, 21, 16⟩
abbrev INTC_SRC_WORLD (i : Nat) : Fld := ⟨INTC_SRC i, 14, 14⟩
abbrev INTC_SRC_TARGET (i : Nat) : Fld := ⟨INTC_SRC i, 13, 8⟩
abbrev INTC_SRC_PRIO (i : Nat) : Fld := ⟨INTC_SRC i, 3, 0⟩
abbrev INTC_THRESH (i : Nat) : Nat := 0x60800 + 0x4 * i
abbrev INTC_THRESH_THRESH (i : Nat) : Fld := ⟨INTC_THRESH i, 3, 0⟩
abbrev INTC_MOD (i : Nat) : Nat := 0x60A00 + 0x4 * i
abbrev INTC_MOD_BYPASS (i : Nat) : Fld := ⟨INTC_MOD i, 31, 16⟩
abbrev INTC_MOD_HOLDOFF (i : Nat) : Fld := ⟨INTC_MOD i, 15, 0⟩

-- PORT block, R260
abbrev PORT_CTL (i : Nat) : Nat := 0x80000 + 0x8000 * i
abbrev PORT_CTL_EN (i : Nat) : Fld := ⟨PORT_CTL i, 31, 31⟩
abbrev PORT_CTL_FEC (i : Nat) : Fld := ⟨PORT_CTL i, 7, 6⟩
abbrev PORT_CTL_AN (i : Nat) : Fld := ⟨PORT_CTL i, 5, 5⟩
abbrev PORT_CTL_MODE (i : Nat) : Fld := ⟨PORT_CTL i, 1, 0⟩
abbrev PORT_STATUS (i : Nat) : Nat := 0x80004 + 0x8000 * i
abbrev PORT_STATUS_LINK (i : Nat) : Fld := ⟨PORT_STATUS i, 31, 31⟩
abbrev PORT_STATUS_MODE (i : Nat) : Fld := ⟨PORT_STATUS i, 1, 0⟩
abbrev PORT_RX_FRAMES_LO (i : Nat) : Nat := 0x80010 + 0x8000 * i
abbrev PORT_RX_FRAMES_LO_COUNT (i : Nat) : Fld := ⟨PORT_RX_FRAMES_LO i, 31, 0⟩
abbrev PORT_RX_FRAMES_HI (i : Nat) : Nat := 0x80014 + 0x8000 * i
abbrev PORT_RX_FRAMES_HI_COUNT (i : Nat) : Fld := ⟨PORT_RX_FRAMES_HI i, 31, 0⟩
abbrev PORT_RX_FCSERR (i : Nat) : Nat := 0x80018 + 0x8000 * i
abbrev PORT_RX_FCSERR_COUNT (i : Nat) : Fld := ⟨PORT_RX_FCSERR i, 31, 0⟩
abbrev PORT_RX_SIZE (i : Nat) : Nat := 0x8001C + 0x8000 * i
abbrev PORT_RX_SIZE_COUNT (i : Nat) : Fld := ⟨PORT_RX_SIZE i, 31, 0⟩
abbrev PORT_RX_NOBUF (i : Nat) : Nat := 0x80020 + 0x8000 * i
abbrev PORT_RX_NOBUF_COUNT (i : Nat) : Fld := ⟨PORT_RX_NOBUF i, 31, 0⟩
abbrev PORT_RX_DUP (i : Nat) : Nat := 0x80024 + 0x8000 * i
abbrev PORT_RX_DUP_COUNT (i : Nat) : Fld := ⟨PORT_RX_DUP i, 31, 0⟩
abbrev PORT_RX_MALFORMED (i : Nat) : Nat := 0x80028 + 0x8000 * i
abbrev PORT_RX_MALFORMED_COUNT (i : Nat) : Fld := ⟨PORT_RX_MALFORMED i, 31, 0⟩
abbrev PORT_TX_FRAMES (i : Nat) : Nat := 0x8002C + 0x8000 * i
abbrev PORT_TX_FRAMES_COUNT (i : Nat) : Fld := ⟨PORT_TX_FRAMES i, 31, 0⟩
abbrev PAIR_CTL (i : Nat) : Nat := 0xA0000 + 0x100 * i
abbrev PAIR_CTL_MODE (i : Nat) : Fld := ⟨PAIR_CTL i, 1, 0⟩
abbrev PAIR_LANERR (i : Nat) : Nat := 0xA0004 + 0x100 * i
abbrev PAIR_LANERR_COUNT (i : Nat) : Fld := ⟨PAIR_LANERR i, 31, 0⟩
abbrev PAIR_NOTAG (i : Nat) : Nat := 0xA0008 + 0x100 * i
abbrev PAIR_NOTAG_COUNT (i : Nat) : Fld := ⟨PAIR_NOTAG i, 31, 0⟩
abbrev PTP_CTL : Nat := 0xB0000
abbrev PTP_CTL_TYPE : Fld := ⟨PTP_CTL, 17, 16⟩
abbrev PTP_CTL_PORTEN : Fld := ⟨PTP_CTL, 11, 8⟩
abbrev PTP_CTL_DOMAIN : Fld := ⟨PTP_CTL, 7, 0⟩
abbrev PTP_PRIO : Nat := 0xB0004
abbrev PTP_PRIO_PRIORITY1 : Fld := ⟨PTP_PRIO, 15, 8⟩
abbrev PTP_PRIO_PRIORITY2 : Fld := ⟨PTP_PRIO, 7, 0⟩
abbrev PTP_CORRMAX : Nat := 0xB0008
abbrev PTP_CORRMAX_NS : Fld := ⟨PTP_CORRMAX, 31, 0⟩
abbrev PTP_PDELAYMAX : Nat := 0xB000C
abbrev PTP_PDELAYMAX_NS : Fld := ⟨PTP_PDELAYMAX, 31, 0⟩
abbrev PTP_DEMOTE_S : Nat := 0xB0010
abbrev PTP_DEMOTE_S_S : Fld := ⟨PTP_DEMOTE_S, 11, 0⟩
abbrev PTP_DEMOTED : Nat := 0xB0014
abbrev PTP_DEMOTED_COUNT : Fld := ⟨PTP_DEMOTED, 31, 0⟩
abbrev PTP_MALFORMED : Nat := 0xB0018
abbrev PTP_MALFORMED_COUNT : Fld := ⟨PTP_MALFORMED, 31, 0⟩

-- CLASS block, R260
abbrev CLASS_CTL : Nat := 0xC0000
abbrev CLASS_CTL_ROUTE_PORT : Fld := ⟨CLASS_CTL, 31, 16⟩
abbrev CLASS_CTL_KDC_PORT : Fld := ⟨CLASS_CTL, 15, 0⟩
abbrev CLASS_ACT : Nat := 0xC0004
abbrev CLASS_ACT_OTHER : Fld := ⟨CLASS_ACT, 3, 2⟩
abbrev CLASS_ACT_NOMATCH : Fld := ⟨CLASS_ACT, 1, 0⟩
abbrev CLASS_OTHERQ : Nat := 0xC0008
abbrev CLASS_OTHERQ_QUEUE : Fld := ⟨CLASS_OTHERQ, 15, 0⟩
abbrev CLASS_KDCQ : Nat := 0xC000C
abbrev CLASS_KDCQ_QUEUE : Fld := ⟨CLASS_KDCQ, 15, 0⟩
abbrev CLASS_NOMATCH : Nat := 0xC0010
abbrev CLASS_NOMATCH_COUNT : Fld := ⟨CLASS_NOMATCH, 31, 0⟩
abbrev CLASS_FRAG : Nat := 0xC0014
abbrev CLASS_FRAG_COUNT : Fld := ⟨CLASS_FRAG, 31, 0⟩

-- ASSOC block, R260
abbrev ASSOC_CMD : Nat := 0x100000
abbrev ASSOC_CMD_GO : Fld := ⟨ASSOC_CMD, 31, 31⟩
abbrev ASSOC_CMD_OP : Fld := ⟨ASSOC_CMD, 3, 0⟩
abbrev ASSOC_CMD_RESULT : Nat := 0x100004
abbrev ASSOC_CMD_RESULT_BUSY : Fld := ⟨ASSOC_CMD_RESULT, 31, 31⟩
abbrev ASSOC_CMD_RESULT_WORD : Fld := ⟨ASSOC_CMD_RESULT, 12, 8⟩
abbrev ASSOC_CMD_RESULT_STATUS : Fld := ⟨ASSOC_CMD_RESULT, 7, 0⟩
abbrev ASSOC_CMD_INDEX : Nat := 0x100008
abbrev ASSOC_CMD_INDEX_INDEX : Fld := ⟨ASSOC_CMD_INDEX, 20, 0⟩
abbrev ASSOC_CTL : Nat := 0x10000C
abbrev ASSOC_CTL_HOLD_DEFAULT : Fld := ⟨ASSOC_CTL, 31, 30⟩
abbrev ASSOC_CTL_HOLD_TICKS : Fld := ⟨ASSOC_CTL, 27, 24⟩
abbrev ASSOC_CTL_SUPSWEEP : Fld := ⟨ASSOC_CTL, 22, 16⟩
abbrev ASSOC_CTL_KICKMAX : Fld := ⟨ASSOC_CTL, 8, 0⟩
abbrev ASSOC_COUNT : Nat := 0x100010
abbrev ASSOC_COUNT_COUNT : Fld := ⟨ASSOC_COUNT, 21, 0⟩
abbrev ASSOC_PINNED : Nat := 0x100014
abbrev ASSOC_PINNED_COUNT : Fld := ⟨ASSOC_PINNED, 17, 0⟩
abbrev ASSOC_HIT_LO : Nat := 0x100018
abbrev ASSOC_HIT_LO_COUNT : Fld := ⟨ASSOC_HIT_LO, 31, 0⟩
abbrev ASSOC_HIT_HI : Nat := 0x10001C
abbrev ASSOC_HIT_HI_COUNT : Fld := ⟨ASSOC_HIT_HI, 31, 0⟩
abbrev ASSOC_MISS_LO : Nat := 0x100020
abbrev ASSOC_MISS_LO_COUNT : Fld := ⟨ASSOC_MISS_LO, 31, 0⟩
abbrev ASSOC_MISS_HI : Nat := 0x100024
abbrev ASSOC_MISS_HI_COUNT : Fld := ⟨ASSOC_MISS_HI, 31, 0⟩
abbrev ASSOC_HELD : Nat := 0x100028
abbrev ASSOC_HELD_COUNT : Fld := ⟨ASSOC_HELD, 15, 0⟩
abbrev ASSOC_SUPLOST_IDX : Nat := 0x10002C
abbrev ASSOC_SUPLOST_IDX_INDEX : Fld := ⟨ASSOC_SUPLOST_IDX, 20, 0⟩
abbrev ASSOC_STAGE (i : Nat) : Nat := 0x100100 + 0x4 * i
abbrev ASSOC_STAGE_WORD (i : Nat) : Fld := ⟨ASSOC_STAGE i, 31, 0⟩
abbrev ASSOC_STAGE_ID (i : Nat) : Nat := 0x100200 + 0x4 * i
abbrev ASSOC_STAGE_ID_OCTETS (i : Nat) : Fld := ⟨ASSOC_STAGE_ID i, 31, 0⟩
abbrev ASSOC_STAGE_IDLEN : Nat := 0x100284
abbrev ASSOC_STAGE_IDLEN_LEN : Fld := ⟨ASSOC_STAGE_IDLEN, 7, 0⟩
abbrev ASSOC_STAGE_ADDR (i : Nat) : Nat := 0x100300 + 0x4 * i
abbrev ASSOC_STAGE_ADDR_ADDR (i : Nat) : Fld := ⟨ASSOC_STAGE_ADDR i, 31, 0⟩
abbrev ASSOC_STAGE_ADDR8 : Nat := 0x100320
abbrev ASSOC_STAGE_ADDR8_IPV6 : Fld := ⟨ASSOC_STAGE_ADDR8, 16, 16⟩
abbrev ASSOC_STAGE_ADDR8_PORT : Fld := ⟨ASSOC_STAGE_ADDR8, 15, 0⟩
abbrev REL_CTL : Nat := 0x180000
abbrev REL_CTL_EN : Fld := ⟨REL_CTL, 31, 31⟩
abbrev REL_CTL_MAXTICKS : Fld := ⟨REL_CTL, 19, 16⟩
abbrev REL_CTL_FE_B : Fld := ⟨REL_CTL, 12, 8⟩
abbrev REL_CTL_FE_A : Fld := ⟨REL_CTL, 4, 0⟩
abbrev REL_STATUS : Nat := 0x180004
abbrev REL_STATUS_LOCKED : Fld := ⟨REL_STATUS, 31, 31⟩
abbrev REL_STATUS_D : Fld := ⟨REL_STATUS, 29, 24⟩
abbrev REL_STATUS_CFGREJ : Fld := ⟨REL_STATUS, 16, 16⟩
abbrev REL_STATUS_PENDING : Fld := ⟨REL_STATUS, 8, 0⟩
abbrev REL_ALARM : Nat := 0x180008
abbrev REL_ALARM_VALID : Fld := ⟨REL_ALARM, 31, 31⟩
abbrev REL_ALARM_WHICH : Fld := ⟨REL_ALARM, 17, 16⟩
abbrev REL_ALARM_SLOT : Fld := ⟨REL_ALARM, 7, 0⟩
abbrev REL_RELEASED : Nat := 0x180010
abbrev REL_RELEASED_COUNT : Fld := ⟨REL_RELEASED, 31, 0⟩
abbrev REL_DENIED : Nat := 0x180014
abbrev REL_DENIED_COUNT : Fld := ⟨REL_DENIED, 31, 0⟩
abbrev REL_MISMATCH : Nat := 0x180018
abbrev REL_MISMATCH_COUNT : Fld := ⟨REL_MISMATCH, 31, 0⟩
abbrev REL_TIMEOUT : Nat := 0x18001C
abbrev REL_TIMEOUT_COUNT : Fld := ⟨REL_TIMEOUT, 31, 0⟩
abbrev REL_VOID : Nat := 0x180020
abbrev REL_VOID_COUNT : Fld := ⟨REL_VOID, 31, 0⟩
abbrev REL_FULL : Nat := 0x180024
abbrev REL_FULL_COUNT : Fld := ⟨REL_FULL, 31, 0⟩
abbrev REL_VIGNORE : Nat := 0x180028
abbrev REL_VIGNORE_COUNT : Fld := ⟨REL_VIGNORE, 31, 0⟩
abbrev REL_NORNG : Nat := 0x18002C
abbrev REL_NORNG_COUNT : Fld := ⟨REL_NORNG, 31, 0⟩
abbrev REL_HOLDFULL : Nat := 0x180030
abbrev REL_HOLDFULL_COUNT : Fld := ⟨REL_HOLDFULL, 31, 0⟩
abbrev REL_POLICY (i : Nat) : Nat := 0x181000 + 0x4 * i
abbrev REL_POLICY_FE (i : Nat) : Fld := ⟨REL_POLICY i, 4, 0⟩
abbrev PLAUS_GFAIL (i : Nat) : Nat := 0x188000 + 0x4 * i
abbrev PLAUS_GFAIL_COUNT (i : Nat) : Fld := ⟨PLAUS_GFAIL i, 31, 0⟩

-- BOW block, R260
abbrev BOW_KEYLIM_LO (i : Nat) : Nat := 0x200000 + 0x8 * i
abbrev BOW_KEYLIM_LO_LIM (i : Nat) : Fld := ⟨BOW_KEYLIM_LO i, 31, 0⟩
abbrev BOW_KEYLIM_HI (i : Nat) : Nat := 0x200004 + 0x8 * i
abbrev BOW_KEYLIM_HI_LIM (i : Nat) : Fld := ⟨BOW_KEYLIM_HI i, 31, 0⟩
abbrev BOW_KEYWARN_LO : Nat := 0x200020
abbrev BOW_KEYWARN_LO_LVL : Fld := ⟨BOW_KEYWARN_LO, 31, 0⟩
abbrev BOW_KEYWARN_HI : Nat := 0x200024
abbrev BOW_KEYWARN_HI_LVL : Fld := ⟨BOW_KEYWARN_HI, 31, 0⟩
abbrev BOW_SPENT_SLOT : Nat := 0x200028
abbrev BOW_SPENT_SLOT_SLOT : Fld := ⟨BOW_SPENT_SLOT, 17, 0⟩
abbrev BOW_WARN_SLOT : Nat := 0x20002C
abbrev BOW_WARN_SLOT_SLOT : Fld := ⟨BOW_WARN_SLOT, 17, 0⟩
abbrev BOW_LANE_STATUS : Nat := 0x200030
abbrev BOW_LANE_STATUS_ISOLATED : Fld := ⟨BOW_LANE_STATUS, 7, 0⟩
abbrev BOW_KEYSPENT_COUNT : Nat := 0x200034
abbrev BOW_KEYSPENT_COUNT_COUNT : Fld := ⟨BOW_KEYSPENT_COUNT, 31, 0⟩
abbrev BOW_LANE_FRAMES_LO (i : Nat) : Nat := 0x200100 + 0x8 * i
abbrev BOW_LANE_FRAMES_LO_COUNT (i : Nat) : Fld := ⟨BOW_LANE_FRAMES_LO i, 31, 0⟩
abbrev BOW_LANE_FRAMES_HI (i : Nat) : Nat := 0x200104 + 0x8 * i
abbrev BOW_LANE_FRAMES_HI_COUNT (i : Nat) : Fld := ⟨BOW_LANE_FRAMES_HI i, 31, 0⟩

-- FE block, R209
abbrev FE_CTL (i : Nat) : Nat := 0x300000 + 0x8000 * i
abbrev FE_CTL_HELD (i : Nat) : Fld := ⟨FE_CTL i, 1, 1⟩
abbrev FE_CTL_HOLD (i : Nat) : Fld := ⟨FE_CTL i, 0, 0⟩
abbrev FE_STATUS (i : Nat) : Nat := 0x300004 + 0x8000 * i
abbrev FE_STATUS_CFGREJ (i : Nat) : Fld := ⟨FE_STATUS i, 16, 16⟩
abbrev FE_STATUS_ABANDON_CAUSE (i : Nat) : Fld := ⟨FE_STATUS i, 10, 8⟩
abbrev FE_STATUS_PRIV (i : Nat) : Fld := ⟨FE_STATUS i, 5, 4⟩
abbrev FE_STATUS_STATE (i : Nat) : Fld := ⟨FE_STATUS i, 2, 0⟩
abbrev FE_TENTRY (i : Nat) : Nat := 0x300008 + 0x8000 * i
abbrev FE_TENTRY_ADDR (i : Nat) : Fld := ⟨FE_TENTRY i, 23, 0⟩
abbrev FE_TGATE (i : Nat) : Nat := 0x30000C + 0x8000 * i
abbrev FE_TGATE_ADDR (i : Nat) : Fld := ⟨FE_TGATE i, 23, 0⟩
abbrev FE_TSPLIT (i : Nat) : Nat := 0x300010 + 0x8000 * i
abbrev FE_TSPLIT_SPLIT (i : Nat) : Fld := ⟨FE_TSPLIT i, 15, 0⟩
abbrev FE_INIT_FP (i : Nat) : Nat := 0x300014 + 0x8000 * i
abbrev FE_INIT_FP_ADDR (i : Nat) : Fld := ⟨FE_INIT_FP i, 23, 0⟩
abbrev FE_SENTRY (i j : Nat) : Nat := 0x300020 + 0x8000 * i + 0x4 * j
abbrev FE_SENTRY_V (i j : Nat) : Fld := ⟨FE_SENTRY i j, 31, 31⟩
abbrev FE_SENTRY_LEVEL (i j : Nat) : Fld := ⟨FE_SENTRY i j, 24, 24⟩
abbrev FE_SENTRY_ADDR (i j : Nat) : Fld := ⟨FE_SENTRY i j, 23, 0⟩
abbrev FE_INIT_SP (i j : Nat) : Nat := 0x300040 + 0x8000 * i + 0x4 * j
abbrev FE_INIT_SP_ADDR (i j : Nat) : Fld := ⟨FE_INIT_SP i j, 23, 0⟩
abbrev FE_INIT_EVB (i j : Nat) : Nat := 0x300050 + 0x8000 * i + 0x4 * j
abbrev FE_INIT_EVB_ADDR (i j : Nat) : Fld := ⟨FE_INIT_EVB i j, 23, 0⟩
abbrev FE_INIT_TSB (i j : Nat) : Nat := 0x300058 + 0x8000 * i + 0x4 * j
abbrev FE_INIT_TSB_ADDR (i j : Nat) : Fld := ⟨FE_INIT_TSB i j, 23, 0⟩
abbrev FE_INIT_TSL (i j : Nat) : Nat := 0x300060 + 0x8000 * i + 0x4 * j
abbrev FE_INIT_TSL_ADDR (i j : Nat) : Fld := ⟨FE_INIT_TSL i j, 23, 0⟩
abbrev FE_TSDEPTH (i : Nat) : Nat := 0x300068 + 0x8000 * i
abbrev FE_TSDEPTH_TRUST (i : Nat) : Fld := ⟨FE_TSDEPTH i, 31, 16⟩
abbrev FE_TSDEPTH_STATION (i : Nat) : Fld := ⟨FE_TSDEPTH i, 15, 0⟩
abbrev FE_LASTEXC (i : Nat) : Nat := 0x30006C + 0x8000 * i
abbrev FE_LASTEXC_VECTOR (i : Nat) : Fld := ⟨FE_LASTEXC i, 21, 16⟩
abbrev FE_LASTEXC_DETAIL (i : Nat) : Fld := ⟨FE_LASTEXC i, 15, 8⟩
abbrev FE_LASTEXC_HPRIV (i : Nat) : Fld := ⟨FE_LASTEXC i, 1, 0⟩
abbrev FE_RETIGN (i : Nat) : Nat := 0x300070 + 0x8000 * i
abbrev FE_RETIGN_COUNT (i : Nat) : Fld := ⟨FE_RETIGN i, 31, 0⟩
abbrev FE_ARANGE_FIRST (i j : Nat) : Nat := 0x300100 + 0x8000 * i + 0x8 * j
abbrev FE_ARANGE_FIRST_EN (i j : Nat) : Fld := ⟨FE_ARANGE_FIRST i j, 31, 31⟩
abbrev FE_ARANGE_FIRST_INDEX (i j : Nat) : Fld := ⟨FE_ARANGE_FIRST i j, 20, 0⟩
abbrev FE_ARANGE_LAST (i j : Nat) : Nat := 0x300104 + 0x8000 * i + 0x8 * j
abbrev FE_ARANGE_LAST_INDEX (i j : Nat) : Fld := ⟨FE_ARANGE_LAST i j, 20, 0⟩

-- QUEUE block, R302
abbrev QUEUE_BASE_LO (i : Nat) : Nat := 0x400000 + 0x40 * i
abbrev QUEUE_BASE_LO_ADDR (i : Nat) : Fld := ⟨QUEUE_BASE_LO i, 31, 12⟩
abbrev QUEUE_BASE_HI (i : Nat) : Nat := 0x400004 + 0x40 * i
abbrev QUEUE_BASE_HI_ADDR (i : Nat) : Fld := ⟨QUEUE_BASE_HI i, 31, 0⟩
abbrev QUEUE_CFG (i : Nat) : Nat := 0x400008 + 0x40 * i
abbrev QUEUE_CFG_EN (i : Nat) : Fld := ⟨QUEUE_CFG i, 31, 31⟩
abbrev QUEUE_CFG_DIR (i : Nat) : Fld := ⟨QUEUE_CFG i, 30, 30⟩
abbrev QUEUE_CFG_INTEN (i : Nat) : Fld := ⟨QUEUE_CFG i, 29, 29⟩
abbrev QUEUE_CFG_VEC (i : Nat) : Fld := ⟨QUEUE_CFG i, 27, 17⟩
abbrev QUEUE_CFG_SIZE (i : Nat) : Fld := ⟨QUEUE_CFG i, 16, 0⟩
abbrev QUEUE_STATUS (i : Nat) : Nat := 0x40000C + 0x40 * i
abbrev QUEUE_STATUS_STOPPED (i : Nat) : Fld := ⟨QUEUE_STATUS i, 31, 31⟩
abbrev QUEUE_STATUS_CFGREJ (i : Nat) : Fld := ⟨QUEUE_STATUS i, 16, 16⟩
abbrev QUEUE_STATUS_ERR (i : Nat) : Fld := ⟨QUEUE_STATUS i, 3, 0⟩
abbrev QUEUE_PROD (i : Nat) : Nat := 0x400010 + 0x40 * i
abbrev QUEUE_PROD_COUNT (i : Nat) : Fld := ⟨QUEUE_PROD i, 31, 0⟩
abbrev QUEUE_CONS (i : Nat) : Nat := 0x400014 + 0x40 * i
abbrev QUEUE_CONS_COUNT (i : Nat) : Fld := ⟨QUEUE_CONS i, 31, 0⟩
abbrev QUEUE_SVC_LO (i : Nat) : Nat := 0x400018 + 0x40 * i
abbrev QUEUE_SVC_LO_COUNT (i : Nat) : Fld := ⟨QUEUE_SVC_LO i, 31, 0⟩
abbrev QUEUE_SVC_HI (i : Nat) : Nat := 0x40001C + 0x40 * i
abbrev QUEUE_SVC_HI_COUNT (i : Nat) : Fld := ⟨QUEUE_SVC_HI i, 31, 0⟩
abbrev QUEUE_NOBUF (i : Nat) : Nat := 0x400020 + 0x40 * i
abbrev QUEUE_NOBUF_COUNT (i : Nat) : Fld := ⟨QUEUE_NOBUF i, 31, 0⟩
abbrev QUEUE_DROP (i : Nat) : Nat := 0x400024 + 0x40 * i
abbrev QUEUE_DROP_COUNT (i : Nat) : Fld := ⟨QUEUE_DROP i, 31, 0⟩

-- QG block, R302
abbrev QG_LATBUDGET (i : Nat) : Nat := 0x800000 + 0x40 * i
abbrev QG_LATBUDGET_NS (i : Nat) : Fld := ⟨QG_LATBUDGET i, 23, 0⟩
abbrev QG_MODCNT (i : Nat) : Nat := 0x800004 + 0x40 * i
abbrev QG_MODCNT_COUNT (i : Nat) : Fld := ⟨QG_MODCNT i, 15, 0⟩
abbrev QG_HOLDOFF (i : Nat) : Nat := 0x800008 + 0x40 * i
abbrev QG_HOLDOFF_NS (i : Nat) : Fld := ⟨QG_HOLDOFF i, 23, 0⟩
abbrev QG_ACTIVE (i : Nat) : Nat := 0x80000C + 0x40 * i
abbrev QG_ACTIVE_FN (i : Nat) : Fld := ⟨QG_ACTIVE i, 21, 16⟩
abbrev QG_ACTIVE_OWNED (i : Nat) : Fld := ⟨QG_ACTIVE i, 15, 15⟩
abbrev QG_ACTIVE_COUNT (i : Nat) : Fld := ⟨QG_ACTIVE i, 6, 0⟩
abbrev QG_SVC_LO (i : Nat) : Nat := 0x800010 + 0x40 * i
abbrev QG_SVC_LO_COUNT (i : Nat) : Fld := ⟨QG_SVC_LO i, 31, 0⟩
abbrev QG_SVC_HI (i : Nat) : Nat := 0x800014 + 0x40 * i
abbrev QG_SVC_HI_COUNT (i : Nat) : Fld := ⟨QG_SVC_HI i, 31, 0⟩

-- BRIDGE block, R302
abbrev BRIDGE_LINK : Nat := 0x1000000
abbrev BRIDGE_LINK_UP : Fld := ⟨BRIDGE_LINK, 31, 31⟩
abbrev BRIDGE_LINK_FLIT : Fld := ⟨BRIDGE_LINK, 30, 30⟩
abbrev BRIDGE_LINK_GEN : Fld := ⟨BRIDGE_LINK, 26, 24⟩
abbrev BRIDGE_LINK_WIDTH : Fld := ⟨BRIDGE_LINK, 19, 16⟩
abbrev BRIDGE_LINK_LINKADD : Fld := ⟨BRIDGE_LINK, 12, 0⟩
abbrev BRIDGE_GATE : Nat := 0x1000004
abbrev BRIDGE_GATE_LEVEL : Fld := ⟨BRIDGE_GATE, 29, 28⟩
abbrev BRIDGE_GATE_SMIN : Fld := ⟨BRIDGE_GATE, 25, 2⟩
abbrev BRIDGE_GATE_MAXLEVEL : Fld := ⟨BRIDGE_GATE, 1, 0⟩
abbrev BRIDGE_IDE : Nat := 0x1000008
abbrev BRIDGE_IDE_REQUIRE : Fld := ⟨BRIDGE_IDE, 31, 31⟩
abbrev BRIDGE_IDE_SECURE : Fld := ⟨BRIDGE_IDE, 4, 0⟩
abbrev BRIDGE_ERR : Nat := 0x100000C
abbrev BRIDGE_ERR_CODE : Fld := ⟨BRIDGE_ERR, 31, 28⟩
abbrev BRIDGE_ERR_QUEUE : Fld := ⟨BRIDGE_ERR, 15, 0⟩
abbrev BRIDGE_DBIGN : Nat := 0x1000010
abbrev BRIDGE_DBIGN_COUNT : Fld := ⟨BRIDGE_DBIGN, 31, 0⟩
abbrev BRIDGE_FLR_DONE : Nat := 0x1000014
abbrev BRIDGE_FLR_DONE_MASK : Fld := ⟨BRIDGE_FLR_DONE, 31, 0⟩
abbrev FN_QG (i : Nat) : Nat := 0x1000100 + 0x20 * i
abbrev FN_QG_COUNTHI (i : Nat) : Fld := ⟨FN_QG i, 26, 26⟩
abbrev FN_QG_QG_COUNT (i : Nat) : Fld := ⟨FN_QG i, 25, 16⟩
abbrev FN_QG_QG_BASE (i : Nat) : Fld := ⟨FN_QG i, 9, 0⟩
abbrev FN_VEC (i : Nat) : Nat := 0x1000104 + 0x20 * i
abbrev FN_VEC_VEC_COUNT (i : Nat) : Fld := ⟨FN_VEC i, 27, 16⟩
abbrev FN_VEC_VEC_BASE (i : Nat) : Fld := ⟨FN_VEC i, 10, 0⟩
abbrev FN_CTL (i : Nat) : Nat := 0x1000108 + 0x20 * i
abbrev FN_CTL_FLR (i : Nat) : Fld := ⟨FN_CTL i, 31, 31⟩
abbrev FN_CTL_EQUAL (i : Nat) : Fld := ⟨FN_CTL i, 30, 30⟩
abbrev FN_CTL_WEIGHT (i : Nat) : Fld := ⟨FN_CTL i, 15, 0⟩
abbrev FN_SVC_LO (i : Nat) : Nat := 0x100010C + 0x20 * i
abbrev FN_SVC_LO_COUNT (i : Nat) : Fld := ⟨FN_SVC_LO i, 31, 0⟩
abbrev FN_SVC_HI (i : Nat) : Nat := 0x1000110 + 0x20 * i
abbrev FN_SVC_HI_COUNT (i : Nat) : Fld := ⟨FN_SVC_HI i, 31, 0⟩
abbrev OBW_HOST_LO (i : Nat) : Nat := 0x1000900 + 0x10 * i
abbrev OBW_HOST_LO_ADDR (i : Nat) : Fld := ⟨OBW_HOST_LO i, 31, 0⟩
abbrev OBW_HOST_HI (i : Nat) : Nat := 0x1000904 + 0x10 * i
abbrev OBW_HOST_HI_ADDR (i : Nat) : Fld := ⟨OBW_HOST_HI i, 31, 0⟩
abbrev OBW_CTL (i : Nat) : Nat := 0x1000908 + 0x10 * i
abbrev OBW_CTL_EN (i : Nat) : Fld := ⟨OBW_CTL i, 31, 31⟩
abbrev OBW_CTL_FN (i : Nat) : Fld := ⟨OBW_CTL i, 5, 0⟩
abbrev MSIX_ADDR_LO (i : Nat) : Nat := 0x1080000 + 0x10 * i
abbrev MSIX_ADDR_LO_ADDR (i : Nat) : Fld := ⟨MSIX_ADDR_LO i, 31, 2⟩
abbrev MSIX_ADDR_HI (i : Nat) : Nat := 0x1080004 + 0x10 * i
abbrev MSIX_ADDR_HI_ADDR (i : Nat) : Fld := ⟨MSIX_ADDR_HI i, 31, 0⟩
abbrev MSIX_DATA (i : Nat) : Nat := 0x1080008 + 0x10 * i
abbrev MSIX_DATA_DATA (i : Nat) : Fld := ⟨MSIX_DATA i, 31, 0⟩
abbrev MSIX_VCTL (i : Nat) : Nat := 0x108000C + 0x10 * i
abbrev MSIX_VCTL_MASK (i : Nat) : Fld := ⟨MSIX_VCTL i, 0, 0⟩
abbrev MSIX_PBA (i : Nat) : Nat := 0x1088000 + 0x4 * i
abbrev MSIX_PBA_PEND (i : Nat) : Fld := ⟨MSIX_PBA i, 31, 0⟩

-- SOUND block, R370
abbrev SOUND_CTL : Nat := 0x1100000
abbrev SOUND_CTL_KATPERIOD : Fld := ⟨SOUND_CTL, 23, 8⟩
abbrev SOUND_CTL_DEFORDER : Fld := ⟨SOUND_CTL, 1, 0⟩
abbrev SOUND_STATUS : Nat := 0x1100004
abbrev SOUND_STATUS_BUSY : Fld := ⟨SOUND_STATUS, 31, 16⟩
abbrev SOUND_STATUS_ISOLATED : Fld := ⟨SOUND_STATUS, 15, 0⟩
abbrev SOUND_ERR : Nat := 0x1100008
abbrev SOUND_ERR_CODE : Fld := ⟨SOUND_ERR, 31, 28⟩
abbrev SOUND_ERR_RING : Fld := ⟨SOUND_ERR, 9, 0⟩
abbrev SOUND_LMS_RES : Nat := 0x110000C
abbrev SOUND_LMS_RES_LOW : Fld := ⟨SOUND_LMS_RES, 31, 16⟩
abbrev SOUND_LMS_RES_BLOCK : Fld := ⟨SOUND_LMS_RES, 15, 0⟩
abbrev SOUND_LMS_WARN : Nat := 0x1100010
abbrev SOUND_LMS_WARN_LEVEL : Fld := ⟨SOUND_LMS_WARN, 31, 0⟩
abbrev SOUND_LMSWARN_SLOT : Nat := 0x1100014
abbrev SOUND_LMSWARN_SLOT_SLOT : Fld := ⟨SOUND_LMSWARN_SLOT, 11, 0⟩
abbrev SOUND_PRODIGN : Nat := 0x1100018
abbrev SOUND_PRODIGN_COUNT : Fld := ⟨SOUND_PRODIGN, 31, 0⟩
abbrev SOUND_ZEROIZE : Nat := 0x110001C
abbrev SOUND_ZEROIZE_COUNT : Fld := ⟨SOUND_ZEROIZE, 31, 0⟩
abbrev SOUND_ENT_LO : Nat := 0x1100020
abbrev SOUND_ENT_LO_COUNT : Fld := ⟨SOUND_ENT_LO, 31, 0⟩
abbrev SOUND_ENT_HI : Nat := 0x1100024
abbrev SOUND_ENT_HI_COUNT : Fld := ⟨SOUND_ENT_HI, 31, 0⟩
abbrev SOUND_ENTSTATE : Nat := 0x1100028
abbrev SOUND_ENTSTATE_STATE : Fld := ⟨SOUND_ENTSTATE, 1, 0⟩
abbrev CELL_CTL (i : Nat) : Nat := 0x1100100 + 0x40 * i
abbrev CELL_CTL_OFFLINE (i : Nat) : Fld := ⟨CELL_CTL i, 0, 0⟩
abbrev CELL_STATUS (i : Nat) : Nat := 0x1100104 + 0x40 * i
abbrev CELL_STATUS_STATE (i : Nat) : Fld := ⟨CELL_STATUS i, 31, 28⟩
abbrev CELL_STATUS_RING (i : Nat) : Fld := ⟨CELL_STATUS i, 25, 16⟩
abbrev CELL_STATUS_SLOT (i : Nat) : Fld := ⟨CELL_STATUS i, 11, 0⟩
abbrev CELL_JOBS_LO (i : Nat) : Nat := 0x1100108 + 0x40 * i
abbrev CELL_JOBS_LO_COUNT (i : Nat) : Fld := ⟨CELL_JOBS_LO i, 31, 0⟩
abbrev CELL_JOBS_HI (i : Nat) : Nat := 0x110010C + 0x40 * i
abbrev CELL_JOBS_HI_COUNT (i : Nat) : Fld := ⟨CELL_JOBS_HI i, 31, 0⟩
abbrev CELL_STALL_LO (i : Nat) : Nat := 0x1100110 + 0x40 * i
abbrev CELL_STALL_LO_COUNT (i : Nat) : Fld := ⟨CELL_STALL_LO i, 31, 0⟩
abbrev CELL_STALL_HI (i : Nat) : Nat := 0x1100114 + 0x40 * i
abbrev CELL_STALL_HI_COUNT (i : Nat) : Fld := ⟨CELL_STALL_HI i, 31, 0⟩
abbrev CELL_KAT (i : Nat) : Nat := 0x1100118 + 0x40 * i
abbrev CELL_KAT_FAIL (i : Nat) : Fld := ⟨CELL_KAT i, 31, 31⟩
abbrev CELL_KAT_RUNS (i : Nat) : Fld := ⟨CELL_KAT i, 23, 0⟩
abbrev JR_BASE_LO (i : Nat) : Nat := 0x1110000 + 0x40 * i
abbrev JR_BASE_LO_ADDR (i : Nat) : Fld := ⟨JR_BASE_LO i, 31, 3⟩
abbrev JR_BASE_HI (i : Nat) : Nat := 0x1110004 + 0x40 * i
abbrev JR_BASE_HI_ADDR (i : Nat) : Fld := ⟨JR_BASE_HI i, 7, 0⟩
abbrev JR_CFG (i : Nat) : Nat := 0x1110008 + 0x40 * i
abbrev JR_CFG_EN (i : Nat) : Fld := ⟨JR_CFG i, 31, 31⟩
abbrev JR_CFG_SERIAL (i : Nat) : Fld := ⟨JR_CFG i, 30, 30⟩
abbrev JR_CFG_SECOUT (i : Nat) : Fld := ⟨JR_CFG i, 29, 29⟩
abbrev JR_CFG_INTEN (i : Nat) : Fld := ⟨JR_CFG i, 28, 28⟩
abbrev JR_CFG_PRIO (i : Nat) : Fld := ⟨JR_CFG i, 27, 26⟩
abbrev JR_CFG_LOG2SIZE (i : Nat) : Fld := ⟨JR_CFG i, 19, 16⟩
abbrev JR_OWNER (i : Nat) : Nat := 0x111000C + 0x40 * i
abbrev JR_OWNER_IRQLINE (i : Nat) : Fld := ⟨JR_OWNER i, 14, 8⟩
abbrev JR_OWNER_MID (i : Nat) : Fld := ⟨JR_OWNER i, 7, 0⟩
abbrev JR_CELLS (i : Nat) : Nat := 0x1110010 + 0x40 * i
abbrev JR_CELLS_MASK (i : Nat) : Fld := ⟨JR_CELLS i, 15, 0⟩
abbrev JR_DWIN_BASE_LO (i : Nat) : Nat := 0x1110014 + 0x40 * i
abbrev JR_DWIN_BASE_LO_ADDR (i : Nat) : Fld := ⟨JR_DWIN_BASE_LO i, 31, 6⟩
abbrev JR_DWIN_BASE_HI (i : Nat) : Nat := 0x1110018 + 0x40 * i
abbrev JR_DWIN_BASE_HI_ADDR (i : Nat) : Fld := ⟨JR_DWIN_BASE_HI i, 7, 0⟩
abbrev JR_DWIN_END_LO (i : Nat) : Nat := 0x111001C + 0x40 * i
abbrev JR_DWIN_END_LO_ADDR (i : Nat) : Fld := ⟨JR_DWIN_END_LO i, 31, 6⟩
abbrev JR_DWIN_END_HI (i : Nat) : Nat := 0x1110020 + 0x40 * i
abbrev JR_DWIN_END_HI_ADDR (i : Nat) : Fld := ⟨JR_DWIN_END_HI i, 7, 0⟩
abbrev JR_PROD (i : Nat) : Nat := 0x1110024 + 0x40 * i
abbrev JR_PROD_COUNT (i : Nat) : Fld := ⟨JR_PROD i, 31, 0⟩
abbrev JR_CONS (i : Nat) : Nat := 0x1110028 + 0x40 * i
abbrev JR_CONS_COUNT (i : Nat) : Fld := ⟨JR_CONS i, 31, 0⟩
abbrev JR_STATUS (i : Nat) : Nat := 0x111002C + 0x40 * i
abbrev JR_STATUS_STOPPED (i : Nat) : Fld := ⟨JR_STATUS i, 31, 31⟩
abbrev JR_STATUS_IRQPEND (i : Nat) : Fld := ⟨JR_STATUS i, 30, 30⟩
abbrev JR_STATUS_INFLIGHT (i : Nat) : Fld := ⟨JR_STATUS i, 23, 16⟩
abbrev JR_STATUS_CFGREJ (i : Nat) : Fld := ⟨JR_STATUS i, 8, 8⟩
abbrev JR_STATUS_ERR (i : Nat) : Fld := ⟨JR_STATUS i, 3, 0⟩
abbrev JR_TIMEOUT (i : Nat) : Nat := 0x1110030 + 0x40 * i
abbrev JR_TIMEOUT_MS (i : Nat) : Fld := ⟨JR_TIMEOUT i, 15, 0⟩
abbrev JR_VEC (i : Nat) : Nat := 0x1110034 + 0x40 * i
abbrev JR_VEC_MSIEN (i : Nat) : Fld := ⟨JR_VEC i, 31, 31⟩
abbrev JR_VEC_VEC (i : Nat) : Fld := ⟨JR_VEC i, 10, 0⟩
abbrev JR_DROP (i : Nat) : Nat := 0x1110038 + 0x40 * i
abbrev JR_DROP_COUNT (i : Nat) : Fld := ⟨JR_DROP i, 31, 0⟩
abbrev JR_ABORT (i : Nat) : Nat := 0x111003C + 0x40 * i
abbrev JR_ABORT_GO (i : Nat) : Fld := ⟨JR_ABORT i, 31, 31⟩

-- VERIFY block, R382
abbrev VE_IGN : Nat := 0x1300000
abbrev VE_IGN_COUNT : Fld := ⟨VE_IGN, 31, 0⟩
abbrev VE_CURVE (i : Nat) : Nat := 0x1300100 + 0x4 * i
abbrev VE_CURVE_STATE (i : Nat) : Fld := ⟨VE_CURVE i, 31, 30⟩
abbrev VE_CURVE_DETAIL (i : Nat) : Fld := ⟨VE_CURVE i, 27, 20⟩
abbrev VE_CURVE_NBITS (i : Nat) : Fld := ⟨VE_CURVE i, 19, 10⟩
abbrev VE_CURVE_PBITS (i : Nat) : Fld := ⟨VE_CURVE i, 9, 0⟩
abbrev VE_OWNER (i : Nat) : Nat := 0x1301000 + 0x100 * i
abbrev VE_OWNER_MID (i : Nat) : Fld := ⟨VE_OWNER i, 7, 0⟩
abbrev VE_CMD (i : Nat) : Nat := 0x1301004 + 0x100 * i
abbrev VE_CMD_GO (i : Nat) : Fld := ⟨VE_CMD i, 31, 31⟩
abbrev VE_CMD_PUB (i : Nat) : Fld := ⟨VE_CMD i, 30, 30⟩
abbrev VE_CMD_OP (i : Nat) : Fld := ⟨VE_CMD i, 27, 24⟩
abbrev VE_CMD_CURVE (i : Nat) : Fld := ⟨VE_CMD i, 22, 20⟩
abbrev VE_CMD_HASH (i : Nat) : Fld := ⟨VE_CMD i, 17, 16⟩
abbrev VE_CMD_SLOT (i : Nat) : Fld := ⟨VE_CMD i, 11, 0⟩
abbrev VE_PARAM (i : Nat) : Nat := 0x1301008 + 0x100 * i
abbrev VE_PARAM_SLEN (i : Nat) : Fld := ⟨VE_PARAM i, 25, 19⟩
abbrev VE_PARAM_LEN2 (i : Nat) : Fld := ⟨VE_PARAM i, 18, 10⟩
abbrev VE_PARAM_LEN1 (i : Nat) : Fld := ⟨VE_PARAM i, 9, 0⟩
abbrev VE_STATUS (i : Nat) : Nat := 0x130100C + 0x100 * i
abbrev VE_STATUS_DONE (i : Nat) : Fld := ⟨VE_STATUS i, 31, 31⟩
abbrev VE_STATUS_BUSY (i : Nat) : Fld := ⟨VE_STATUS i, 30, 30⟩
abbrev VE_STATUS_REJ (i : Nat) : Fld := ⟨VE_STATUS i, 29, 29⟩
abbrev VE_STATUS_ISOLATED (i : Nat) : Fld := ⟨VE_STATUS i, 28, 28⟩
abbrev VE_STATUS_DETAIL (i : Nat) : Fld := ⟨VE_STATUS i, 15, 8⟩
abbrev VE_STATUS_STATUS (i : Nat) : Fld := ⟨VE_STATUS i, 7, 0⟩
abbrev VE_IN_LO (i : Nat) : Nat := 0x1301010 + 0x100 * i
abbrev VE_IN_LO_ADDR (i : Nat) : Fld := ⟨VE_IN_LO i, 31, 0⟩
abbrev VE_IN_HI (i : Nat) : Nat := 0x1301014 + 0x100 * i
abbrev VE_IN_HI_ADDR (i : Nat) : Fld := ⟨VE_IN_HI i, 7, 0⟩
abbrev VE_IN_LEN (i : Nat) : Nat := 0x1301018 + 0x100 * i
abbrev VE_IN_LEN_LEN (i : Nat) : Fld := ⟨VE_IN_LEN i, 23, 0⟩
abbrev VE_OUT_LO (i : Nat) : Nat := 0x130101C + 0x100 * i
abbrev VE_OUT_LO_ADDR (i : Nat) : Fld := ⟨VE_OUT_LO i, 31, 0⟩
abbrev VE_OUT_HI (i : Nat) : Nat := 0x1301020 + 0x100 * i
abbrev VE_OUT_HI_ADDR (i : Nat) : Fld := ⟨VE_OUT_HI i, 7, 0⟩
abbrev VE_OUT_LEN (i : Nat) : Nat := 0x1301024 + 0x100 * i
abbrev VE_OUT_LEN_LEN (i : Nat) : Fld := ⟨VE_OUT_LEN i, 23, 0⟩
abbrev VE_DWIN_BASE_LO (i : Nat) : Nat := 0x1301028 + 0x100 * i
abbrev VE_DWIN_BASE_LO_ADDR (i : Nat) : Fld := ⟨VE_DWIN_BASE_LO i, 31, 6⟩
abbrev VE_DWIN_BASE_HI (i : Nat) : Nat := 0x130102C + 0x100 * i
abbrev VE_DWIN_BASE_HI_ADDR (i : Nat) : Fld := ⟨VE_DWIN_BASE_HI i, 7, 0⟩
abbrev VE_DWIN_END_LO (i : Nat) : Nat := 0x1301030 + 0x100 * i
abbrev VE_DWIN_END_LO_ADDR (i : Nat) : Fld := ⟨VE_DWIN_END_LO i, 31, 6⟩
abbrev VE_DWIN_END_HI (i : Nat) : Nat := 0x1301034 + 0x100 * i
abbrev VE_DWIN_END_HI_ADDR (i : Nat) : Fld := ⟨VE_DWIN_END_HI i, 7, 0⟩
abbrev VE_TIMEOUT (i : Nat) : Nat := 0x1301038 + 0x100 * i
abbrev VE_TIMEOUT_MS (i : Nat) : Fld := ⟨VE_TIMEOUT i, 15, 0⟩
abbrev VE_ABORT (i : Nat) : Nat := 0x130103C + 0x100 * i
abbrev VE_ABORT_GO (i : Nat) : Fld := ⟨VE_ABORT i, 31, 31⟩
abbrev VE_VEC (i : Nat) : Nat := 0x1301040 + 0x100 * i
abbrev VE_VEC_MSIEN (i : Nat) : Fld := ⟨VE_VEC i, 31, 31⟩
abbrev VE_VEC_VEC (i : Nat) : Fld := ⟨VE_VEC i, 10, 0⟩
abbrev VE_OPS_LO (i : Nat) : Nat := 0x1301044 + 0x100 * i
abbrev VE_OPS_LO_COUNT (i : Nat) : Fld := ⟨VE_OPS_LO i, 31, 0⟩
abbrev VE_OPS_HI (i : Nat) : Nat := 0x1301048 + 0x100 * i
abbrev VE_OPS_HI_COUNT (i : Nat) : Fld := ⟨VE_OPS_HI i, 31, 0⟩

-- DIGEST block, R396
abbrev DIG_ERR : Nat := 0x1340000
abbrev DIG_ERR_CODE : Fld := ⟨DIG_ERR, 31, 28⟩
abbrev DIG_ERR_RING : Fld := ⟨DIG_ERR, 2, 0⟩
abbrev DIG_STATUS : Nat := 0x1340004
abbrev DIG_STATUS_BUSY : Fld := ⟨DIG_STATUS, 15, 8⟩
abbrev DIG_STATUS_ISOLATED : Fld := ⟨DIG_STATUS, 7, 0⟩
abbrev DIG_EXPORT_LO : Nat := 0x1340008
abbrev DIG_EXPORT_LO_COUNT : Fld := ⟨DIG_EXPORT_LO, 31, 0⟩
abbrev DIG_EXPORT_HI : Nat := 0x134000C
abbrev DIG_EXPORT_HI_COUNT : Fld := ⟨DIG_EXPORT_HI, 31, 0⟩
abbrev CORE_STATUS (i : Nat) : Nat := 0x1340100 + 0x10 * i
abbrev CORE_STATUS_STATE (i : Nat) : Fld := ⟨CORE_STATUS i, 31, 28⟩
abbrev CORE_STATUS_SLOT (i : Nat) : Fld := ⟨CORE_STATUS i, 11, 0⟩
abbrev CORE_JOBS_LO (i : Nat) : Nat := 0x1340104 + 0x10 * i
abbrev CORE_JOBS_LO_COUNT (i : Nat) : Fld := ⟨CORE_JOBS_LO i, 31, 0⟩
abbrev CORE_JOBS_HI (i : Nat) : Nat := 0x1340108 + 0x10 * i
abbrev CORE_JOBS_HI_COUNT (i : Nat) : Fld := ⟨CORE_JOBS_HI i, 31, 0⟩
abbrev DR_BASE_LO (i : Nat) : Nat := 0x1341000 + 0x40 * i
abbrev DR_BASE_LO_ADDR (i : Nat) : Fld := ⟨DR_BASE_LO i, 31, 3⟩
abbrev DR_BASE_HI (i : Nat) : Nat := 0x1341004 + 0x40 * i
abbrev DR_BASE_HI_ADDR (i : Nat) : Fld := ⟨DR_BASE_HI i, 7, 0⟩
abbrev DR_CFG (i : Nat) : Nat := 0x1341008 + 0x40 * i
abbrev DR_CFG_EN (i : Nat) : Fld := ⟨DR_CFG i, 31, 31⟩
abbrev DR_CFG_SECOUT (i : Nat) : Fld := ⟨DR_CFG i, 29, 29⟩
abbrev DR_CFG_INTEN (i : Nat) : Fld := ⟨DR_CFG i, 28, 28⟩
abbrev DR_CFG_LOG2SIZE (i : Nat) : Fld := ⟨DR_CFG i, 19, 16⟩
abbrev DR_OWNER (i : Nat) : Nat := 0x134100C + 0x40 * i
abbrev DR_OWNER_MID (i : Nat) : Fld := ⟨DR_OWNER i, 7, 0⟩
abbrev DR_DWIN_BASE_LO (i : Nat) : Nat := 0x1341014 + 0x40 * i
abbrev DR_DWIN_BASE_LO_ADDR (i : Nat) : Fld := ⟨DR_DWIN_BASE_LO i, 31, 6⟩
abbrev DR_DWIN_BASE_HI (i : Nat) : Nat := 0x1341018 + 0x40 * i
abbrev DR_DWIN_BASE_HI_ADDR (i : Nat) : Fld := ⟨DR_DWIN_BASE_HI i, 7, 0⟩
abbrev DR_DWIN_END_LO (i : Nat) : Nat := 0x134101C + 0x40 * i
abbrev DR_DWIN_END_LO_ADDR (i : Nat) : Fld := ⟨DR_DWIN_END_LO i, 31, 6⟩
abbrev DR_DWIN_END_HI (i : Nat) : Nat := 0x1341020 + 0x40 * i
abbrev DR_DWIN_END_HI_ADDR (i : Nat) : Fld := ⟨DR_DWIN_END_HI i, 7, 0⟩
abbrev DR_PROD (i : Nat) : Nat := 0x1341024 + 0x40 * i
abbrev DR_PROD_COUNT (i : Nat) : Fld := ⟨DR_PROD i, 31, 0⟩
abbrev DR_CONS (i : Nat) : Nat := 0x1341028 + 0x40 * i
abbrev DR_CONS_COUNT (i : Nat) : Fld := ⟨DR_CONS i, 31, 0⟩
abbrev DR_STATUS (i : Nat) : Nat := 0x134102C + 0x40 * i
abbrev DR_STATUS_STOPPED (i : Nat) : Fld := ⟨DR_STATUS i, 31, 31⟩
abbrev DR_STATUS_IRQPEND (i : Nat) : Fld := ⟨DR_STATUS i, 30, 30⟩
abbrev DR_STATUS_INFLIGHT (i : Nat) : Fld := ⟨DR_STATUS i, 23, 16⟩
abbrev DR_STATUS_CFGREJ (i : Nat) : Fld := ⟨DR_STATUS i, 8, 8⟩
abbrev DR_STATUS_ERR (i : Nat) : Fld := ⟨DR_STATUS i, 3, 0⟩
abbrev DR_TIMEOUT (i : Nat) : Nat := 0x1341030 + 0x40 * i
abbrev DR_TIMEOUT_MS (i : Nat) : Fld := ⟨DR_TIMEOUT i, 15, 0⟩
abbrev DR_VEC (i : Nat) : Nat := 0x1341034 + 0x40 * i
abbrev DR_VEC_MSIEN (i : Nat) : Fld := ⟨DR_VEC i, 31, 31⟩
abbrev DR_VEC_VEC (i : Nat) : Fld := ⟨DR_VEC i, 10, 0⟩
abbrev DR_DROP (i : Nat) : Nat := 0x1341038 + 0x40 * i
abbrev DR_DROP_COUNT (i : Nat) : Fld := ⟨DR_DROP i, 31, 0⟩
abbrev DR_ABORT (i : Nat) : Nat := 0x134103C + 0x40 * i
abbrev DR_ABORT_GO (i : Nat) : Fld := ⟨DR_ABORT i, 31, 31⟩

-- ROSIN block, R418
abbrev ROSIN_CTL : Nat := 0x1380000
abbrev ROSIN_CTL_MINBANKS : Fld := ⟨ROSIN_CTL, 22, 16⟩
abbrev ROSIN_CTL_FLOOR : Fld := ⟨ROSIN_CTL, 9, 0⟩
abbrev ROSIN_STATE : Nat := 0x1380004
abbrev ROSIN_STATE_STATE : Fld := ⟨ROSIN_STATE, 31, 29⟩
abbrev ROSIN_STATE_HEALTHY : Fld := ⟨ROSIN_STATE, 22, 16⟩
abbrev ROSIN_STATE_RESERVE : Fld := ⟨ROSIN_STATE, 10, 0⟩
abbrev ROSIN_TIMEOUT : Nat := 0x1380008
abbrev ROSIN_TIMEOUT_MS : Fld := ⟨ROSIN_TIMEOUT, 15, 0⟩
abbrev ROSIN_BURST : Nat := 0x138000C
abbrev ROSIN_BURST_RESTARTS : Fld := ⟨ROSIN_BURST, 31, 28⟩
abbrev ROSIN_BURST_COUNT : Fld := ⟨ROSIN_BURST, 22, 16⟩
abbrev ROSIN_BURST_US : Fld := ⟨ROSIN_BURST, 13, 0⟩
abbrev ROSIN_RCT : Nat := 0x1380010
abbrev ROSIN_RCT_CUTOFF : Fld := ⟨ROSIN_RCT, 7, 0⟩
abbrev ROSIN_APT : Nat := 0x1380014
abbrev ROSIN_APT_CUTOFF : Fld := ⟨ROSIN_APT, 10, 0⟩
abbrev ROSIN_BIASMAX : Nat := 0x1380018
abbrev ROSIN_BIASMAX_MAX : Fld := ⟨ROSIN_BIASMAX, 16, 0⟩
abbrev ROSIN_CORRMAX : Nat := 0x138001C
abbrev ROSIN_CORRMAX_MAX : Fld := ⟨ROSIN_CORRMAX, 16, 0⟩
abbrev ROSIN_STARTMAX : Nat := 0x1380020
abbrev ROSIN_STARTMAX_MAX : Fld := ⟨ROSIN_STARTMAX, 12, 0⟩
abbrev ROSIN_RETIRE : Nat := 0x1380024
abbrev ROSIN_RETIRE_N : Fld := ⟨ROSIN_RETIRE, 23, 16⟩
abbrev ROSIN_RETIRE_SEC : Fld := ⟨ROSIN_RETIRE, 11, 0⟩
abbrev ROSIN_RETIRED_LO : Nat := 0x1380028
abbrev ROSIN_RETIRED_LO_MASK : Fld := ⟨ROSIN_RETIRED_LO, 31, 0⟩
abbrev ROSIN_RETIRED_HI : Nat := 0x138002C
abbrev ROSIN_RETIRED_HI_MASK : Fld := ⟨ROSIN_RETIRED_HI, 31, 0⟩
abbrev ROSIN_STOPS : Nat := 0x1380030
abbrev ROSIN_STOPS_COUNT : Fld := ⟨ROSIN_STOPS, 31, 0⟩
abbrev ROSIN_LASTSTOP : Nat := 0x1380034
abbrev ROSIN_LASTSTOP_CAUSE : Fld := ⟨ROSIN_LASTSTOP, 31, 28⟩
abbrev ROSIN_LASTSTOP_BANK : Fld := ⟨ROSIN_LASTSTOP, 5, 0⟩
abbrev ROSIN_OUT_LO : Nat := 0x1380038
abbrev ROSIN_OUT_LO_COUNT : Fld := ⟨ROSIN_OUT_LO, 31, 0⟩
abbrev ROSIN_OUT_HI : Nat := 0x138003C
abbrev ROSIN_OUT_HI_COUNT : Fld := ⟨ROSIN_OUT_HI, 31, 0⟩
abbrev ROSIN_WEIGHT (i : Nat) : Nat := 0x1380040 + 0x10 * i
abbrev ROSIN_WEIGHT_WEIGHT (i : Nat) : Fld := ⟨ROSIN_WEIGHT i, 7, 0⟩
abbrev ROSIN_UNAVAIL (i : Nat) : Nat := 0x1380044 + 0x10 * i
abbrev ROSIN_UNAVAIL_COUNT (i : Nat) : Fld := ⟨ROSIN_UNAVAIL i, 31, 0⟩
abbrev ROSIN_BYTES_LO (i : Nat) : Nat := 0x1380048 + 0x10 * i
abbrev ROSIN_BYTES_LO_COUNT (i : Nat) : Fld := ⟨ROSIN_BYTES_LO i, 31, 0⟩
abbrev ROSIN_BYTES_HI (i : Nat) : Nat := 0x138004C + 0x10 * i
abbrev ROSIN_BYTES_HI_COUNT (i : Nat) : Fld := ⟨ROSIN_BYTES_HI i, 31, 0⟩
abbrev ROSIN_PULL_CTL : Nat := 0x13800C0
abbrev ROSIN_PULL_CTL_GO : Fld := ⟨ROSIN_PULL_CTL, 31, 31⟩
abbrev ROSIN_PULL_CTL_VALID : Fld := ⟨ROSIN_PULL_CTL, 30, 30⟩
abbrev ROSIN_PULL_CTL_PENDING : Fld := ⟨ROSIN_PULL_CTL, 29, 29⟩
abbrev ROSIN_PULL_CTL_STATUS : Fld := ⟨ROSIN_PULL_CTL, 7, 0⟩
abbrev ROSIN_PULL (i : Nat) : Nat := 0x1380100 + 0x4 * i
abbrev ROSIN_PULL_DATA (i : Nat) : Fld := ⟨ROSIN_PULL i, 31, 0⟩
abbrev BANK_STATUS (i : Nat) : Nat := 0x1380200 + 0x40 * i
abbrev BANK_STATUS_STATE (i : Nat) : Fld := ⟨BANK_STATUS i, 31, 30⟩
abbrev BANK_STATUS_TRIMLIM (i : Nat) : Fld := ⟨BANK_STATUS i, 29, 29⟩
abbrev BANK_STATUS_LASTFAIL (i : Nat) : Fld := ⟨BANK_STATUS i, 26, 24⟩
abbrev BANK_BIAS (i : Nat) : Nat := 0x1380204 + 0x40 * i
abbrev BANK_BIAS_BIAS (i : Nat) : Fld := ⟨BANK_BIAS i, 31, 0⟩
abbrev BANK_CORR (i j : Nat) : Nat := 0x1380208 + 0x40 * i + 0x4 * j
abbrev BANK_CORR_CORR (i j : Nat) : Fld := ⟨BANK_CORR i j, 31, 0⟩
abbrev BANK_FAILS (i : Nat) : Nat := 0x1380228 + 0x40 * i
abbrev BANK_FAILS_COUNT (i : Nat) : Fld := ⟨BANK_FAILS i, 31, 0⟩
abbrev BANK_WINDOWS (i : Nat) : Nat := 0x138022C + 0x40 * i
abbrev BANK_WINDOWS_COUNT (i : Nat) : Fld := ⟨BANK_WINDOWS i, 31, 0⟩
abbrev ROSIN_COND (i : Nat) : Nat := 0x1382000 + 0x10 * i
abbrev ROSIN_COND_ISOLATED (i : Nat) : Fld := ⟨ROSIN_COND i, 31, 31⟩
abbrev ROSIN_COND_KATRUNS (i : Nat) : Fld := ⟨ROSIN_COND i, 23, 0⟩
abbrev ROSIN_PST : Nat := 0x1382100
abbrev ROSIN_PST_RUNNING : Fld := ⟨ROSIN_PST, 31, 31⟩
abbrev ROSIN_PST_BANK : Fld := ⟨ROSIN_PST, 21, 16⟩
abbrev ROSIN_PST_PERIOD : Fld := ⟨ROSIN_PST, 15, 0⟩

-- KEY block, R453
abbrev KEY_STATE : Nat := 0x13C0000
abbrev KEY_STATE_ROOT : Fld := ⟨KEY_STATE, 31, 30⟩
abbrev KEY_STATE_VAULT_READY : Fld := ⟨KEY_STATE, 29, 29⟩
abbrev KEY_STATE_ZEROIZED : Fld := ⟨KEY_STATE, 28, 28⟩
abbrev KEY_CTL : Nat := 0x13C0004
abbrev KEY_CTL_TIMEOUT_MS : Fld := ⟨KEY_CTL, 15, 0⟩
abbrev KEY_CMD : Nat := 0x13C0008
abbrev KEY_CMD_GO : Fld := ⟨KEY_CMD, 31, 31⟩
abbrev KEY_CMD_OP : Fld := ⟨KEY_CMD, 3, 0⟩
abbrev KEY_CMD_RESULT : Nat := 0x13C000C
abbrev KEY_CMD_RESULT_BUSY : Fld := ⟨KEY_CMD_RESULT, 31, 31⟩
abbrev KEY_CMD_RESULT_DETAIL : Fld := ⟨KEY_CMD_RESULT, 15, 8⟩
abbrev KEY_CMD_RESULT_STATUS : Fld := ⟨KEY_CMD_RESULT, 7, 0⟩
abbrev KEY_CMD_SLOT : Nat := 0x13C0010
abbrev KEY_CMD_SLOT_SLOT : Fld := ⟨KEY_CMD_SLOT, 17, 0⟩
abbrev KEY_CMD_ATTR : Nat := 0x13C0014
abbrev KEY_CMD_ATTR_KALG : Fld := ⟨KEY_CMD_ATTR, 31, 28⟩
abbrev KEY_CMD_ATTR_PIN : Fld := ⟨KEY_CMD_ATTR, 27, 27⟩
abbrev KEY_CMD_ATTR_USE : Fld := ⟨KEY_CMD_ATTR, 21, 16⟩
abbrev KEY_CMD_ATTR_EPOCH : Fld := ⟨KEY_CMD_ATTR, 13, 0⟩
abbrev KEY_CMD_USERS : Nat := 0x13C0018
abbrev KEY_CMD_USERS_USERS : Fld := ⟨KEY_CMD_USERS, 6, 0⟩
abbrev KEY_CMD_LIMIT_LO : Nat := 0x13C001C
abbrev KEY_CMD_LIMIT_LO_LIM : Fld := ⟨KEY_CMD_LIMIT_LO, 31, 0⟩
abbrev KEY_CMD_LIMIT_HI : Nat := 0x13C0020
abbrev KEY_CMD_LIMIT_HI_LIM : Fld := ⟨KEY_CMD_LIMIT_HI, 31, 0⟩
abbrev KEY_CMD_SRC_LO : Nat := 0x13C0024
abbrev KEY_CMD_SRC_LO_ADDR : Fld := ⟨KEY_CMD_SRC_LO, 31, 0⟩
abbrev KEY_CMD_SRC_HI : Nat := 0x13C0028
abbrev KEY_CMD_SRC_HI_ADDR : Fld := ⟨KEY_CMD_SRC_HI, 7, 0⟩
abbrev KEY_CMD_SRC_LEN : Nat := 0x13C002C
abbrev KEY_CMD_SRC_LEN_LEN : Fld := ⟨KEY_CMD_SRC_LEN, 23, 0⟩
abbrev KEY_CMD_AUX : Nat := 0x13C0030
abbrev KEY_CMD_AUX_SLOT : Fld := ⟨KEY_CMD_AUX, 17, 0⟩
abbrev KEY_PEG_ACTIVE : Nat := 0x13C0034
abbrev KEY_PEG_ACTIVE_COUNT : Fld := ⟨KEY_PEG_ACTIVE, 18, 0⟩
abbrev KEY_PEG_PINNED : Nat := 0x13C0038
abbrev KEY_PEG_PINNED_COUNT : Fld := ⟨KEY_PEG_PINNED, 12, 0⟩
abbrev KEY_PEG_MISS_LO : Nat := 0x13C003C
abbrev KEY_PEG_MISS_LO_COUNT : Fld := ⟨KEY_PEG_MISS_LO, 31, 0⟩
abbrev KEY_PEG_MISS_HI : Nat := 0x13C0040
abbrev KEY_PEG_MISS_HI_COUNT : Fld := ⟨KEY_PEG_MISS_HI, 31, 0⟩
abbrev KEY_PRIV_ACTIVE : Nat := 0x13C0044
abbrev KEY_PRIV_ACTIVE_COUNT : Fld := ⟨KEY_PRIV_ACTIVE, 12, 0⟩
abbrev KEY_FAULT_SLOT : Nat := 0x13C0048
abbrev KEY_FAULT_SLOT_PRIV : Fld := ⟨KEY_FAULT_SLOT, 31, 31⟩
abbrev KEY_FAULT_SLOT_SLOT : Fld := ⟨KEY_FAULT_SLOT, 17, 0⟩
abbrev KEY_ZEROIZE : Nat := 0x13C004C
abbrev KEY_ZEROIZE_COUNT : Fld := ⟨KEY_ZEROIZE, 31, 0⟩
abbrev KEY_INFO (i : Nat) : Nat := 0x13C0100 + 0x4 * i
abbrev KEY_INFO_WORD (i : Nat) : Fld := ⟨KEY_INFO i, 31, 0⟩
abbrev CER_CTL : Nat := 0x13C1000
abbrev CER_CTL_START : Fld := ⟨CER_CTL, 31, 31⟩
abbrev CER_CTL_ABORT : Fld := ⟨CER_CTL, 30, 30⟩
abbrev CER_CTL_KIND : Fld := ⟨CER_CTL, 29, 28⟩
abbrev CER_CTL_K : Fld := ⟨CER_CTL, 27, 24⟩
abbrev CER_CTL_N : Fld := ⟨CER_CTL, 23, 20⟩
abbrev CER_CTL_SECLEN64 : Fld := ⟨CER_CTL, 16, 16⟩
abbrev CER_STATE : Nat := 0x13C1004
abbrev CER_STATE_STATE : Fld := ⟨CER_STATE, 31, 29⟩
abbrev CER_STATE_GOT : Fld := ⟨CER_STATE, 23, 16⟩
abbrev CER_STATE_INCOMPLETE : Fld := ⟨CER_STATE, 15, 8⟩
abbrev CER_STATE_LASTSTATUS : Fld := ⟨CER_STATE, 7, 0⟩
abbrev CER_TARGET : Nat := 0x13C1008
abbrev CER_TARGET_SLOT : Fld := ⟨CER_TARGET, 17, 0⟩
abbrev CER_STEP : Nat := 0x13C100C
abbrev CER_STEP_GO : Fld := ⟨CER_STEP, 31, 31⟩
abbrev CER_STEP_INDEX : Fld := ⟨CER_STEP, 3, 0⟩
abbrev CER_TIMEOUT : Nat := 0x13C1010
abbrev CER_TIMEOUT_S : Fld := ⟨CER_TIMEOUT, 11, 0⟩
abbrev CER_AUTHWIN : Nat := 0x13C1014
abbrev CER_AUTHWIN_AUTH : Fld := ⟨CER_AUTHWIN, 31, 31⟩
abbrev CER_AUTHWIN_S : Fld := ⟨CER_AUTHWIN, 11, 0⟩
abbrev CER_ID (i : Nat) : Nat := 0x13C1020 + 0x4 * i
abbrev CER_ID_ID (i : Nat) : Fld := ⟨CER_ID i, 31, 0⟩
abbrev CER_CHECK (i : Nat) : Nat := 0x13C1030 + 0x4 * i
abbrev CER_CHECK_CHK (i : Nat) : Fld := ⟨CER_CHECK i, 31, 0⟩

-- CASE block, R488
abbrev CASE_CMD : Nat := 0x1400000
abbrev CASE_CMD_GO : Fld := ⟨CASE_CMD, 31, 31⟩
abbrev CASE_CMD_OP : Fld := ⟨CASE_CMD, 3, 0⟩
abbrev CASE_CMD_RESULT : Nat := 0x1400004
abbrev CASE_CMD_RESULT_BUSY : Fld := ⟨CASE_CMD_RESULT, 31, 31⟩
abbrev CASE_CMD_RESULT_STEP : Fld := ⟨CASE_CMD_RESULT, 26, 24⟩
abbrev CASE_CMD_RESULT_CORR : Fld := ⟨CASE_CMD_RESULT, 23, 16⟩
abbrev CASE_CMD_RESULT_DETAIL : Fld := ⟨CASE_CMD_RESULT, 15, 8⟩
abbrev CASE_CMD_RESULT_STATUS : Fld := ⟨CASE_CMD_RESULT, 7, 0⟩
abbrev CASE_CMD_ADDR : Nat := 0x1400008
abbrev CASE_CMD_ADDR_BLOCK : Fld := ⟨CASE_CMD_ADDR, 24, 16⟩
abbrev CASE_CMD_ADDR_PAGE : Fld := ⟨CASE_CMD_ADDR, 15, 8⟩
abbrev CASE_CMD_ADDR_UNIT : Fld := ⟨CASE_CMD_ADDR, 6, 0⟩
abbrev CASE_CMD_LEN : Nat := 0x140000C
abbrev CASE_CMD_LEN_LEN : Fld := ⟨CASE_CMD_LEN, 12, 0⟩
abbrev CASE_CMD_BUF_LO : Nat := 0x1400010
abbrev CASE_CMD_BUF_LO_ADDR : Fld := ⟨CASE_CMD_BUF_LO, 31, 0⟩
abbrev CASE_CMD_BUF_HI : Nat := 0x1400014
abbrev CASE_CMD_BUF_HI_ADDR : Fld := ⟨CASE_CMD_BUF_HI, 7, 0⟩
abbrev CASE_STATUS : Nat := 0x1400018
abbrev CASE_STATUS_SUSPENDED : Fld := ⟨CASE_STATUS, 31, 31⟩
abbrev CASE_STATUS_TUNING_OK : Fld := ⟨CASE_STATUS, 30, 30⟩
abbrev CASE_STATUS_SPARES : Fld := ⟨CASE_STATUS, 4, 0⟩
abbrev CASE_XIP : Nat := 0x140001C
abbrev CASE_XIP_SLOT : Fld := ⟨CASE_XIP, 0, 0⟩
abbrev CASE_UE : Nat := 0x1400020
abbrev CASE_UE_COUNT : Fld := ⟨CASE_UE, 31, 0⟩
abbrev CASE_RESEND : Nat := 0x1400024
abbrev CASE_RESEND_COUNT : Fld := ⟨CASE_RESEND, 31, 0⟩
abbrev CASE_ERASE_SUSP : Nat := 0x1400028
abbrev CASE_ERASE_SUSP_COUNT : Fld := ⟨CASE_ERASE_SUSP, 31, 0⟩
abbrev CASE_XIP_STALL_LO : Nat := 0x140002C
abbrev CASE_XIP_STALL_LO_COUNT : Fld := ⟨CASE_XIP_STALL_LO, 31, 0⟩
abbrev CASE_XIP_STALL_HI : Nat := 0x1400030
abbrev CASE_XIP_STALL_HI_COUNT : Fld := ⟨CASE_XIP_STALL_HI, 31, 0⟩
abbrev CASE_FAIL_ADDR : Nat := 0x1400034
abbrev CASE_FAIL_ADDR_PAGE : Fld := ⟨CASE_FAIL_ADDR, 24, 8⟩
abbrev CASE_BAD : Nat := 0x1400038
abbrev CASE_BAD_COUNT : Fld := ⟨CASE_BAD, 31, 0⟩
abbrev CASE_SHIELDFIX : Nat := 0x140003C
abbrev CASE_SHIELDFIX_COUNT : Fld := ⟨CASE_SHIELDFIX, 31, 0⟩
abbrev CASE_REFRESH_CFG : Nat := 0x1400040
abbrev CASE_REFRESH_CFG_DAYS : Fld := ⟨CASE_REFRESH_CFG, 31, 16⟩
abbrev CASE_REFRESH_CFG_CORRMAX : Fld := ⟨CASE_REFRESH_CFG, 14, 8⟩
abbrev CASE_REFRESH_CFG_STEPMIN : Fld := ⟨CASE_REFRESH_CFG, 2, 0⟩
abbrev CASE_INFO (i : Nat) : Nat := 0x1400050 + 0x4 * i
abbrev CASE_INFO_WORD (i : Nat) : Fld := ⟨CASE_INFO i, 31, 0⟩
abbrev CASE_REGION_RANGE (i : Nat) : Nat := 0x1400100 + 0x10 * i
abbrev CASE_REGION_RANGE_FIRST (i : Nat) : Fld := ⟨CASE_REGION_RANGE i, 24, 16⟩
abbrev CASE_REGION_RANGE_COUNT (i : Nat) : Fld := ⟨CASE_REGION_RANGE i, 8, 0⟩
abbrev CASE_REGION_MODE (i : Nat) : Nat := 0x1400104 + 0x10 * i
abbrev CASE_REGION_MODE_SLC (i : Nat) : Fld := ⟨CASE_REGION_MODE i, 31, 31⟩
abbrev CASE_REGION_MODE_SHIELD (i : Nat) : Fld := ⟨CASE_REGION_MODE i, 30, 30⟩
abbrev CASE_REGION_MODE_UNIT (i : Nat) : Fld := ⟨CASE_REGION_MODE i, 4, 0⟩
abbrev CASE_REGION_RINGS (i : Nat) : Nat := 0x1400108 + 0x10 * i
abbrev CASE_REGION_RINGS_READ (i : Nat) : Fld := ⟨CASE_REGION_RINGS i, 7, 4⟩
abbrev CASE_REGION_RINGS_WRITE (i : Nat) : Fld := ⟨CASE_REGION_RINGS i, 3, 0⟩
abbrev CASE_GEN_RANGE (i : Nat) : Nat := 0x1400200 + 0x10 * i
abbrev CASE_GEN_RANGE_EN (i : Nat) : Fld := ⟨CASE_GEN_RANGE i, 31, 31⟩
abbrev CASE_GEN_RANGE_FIRST (i : Nat) : Fld := ⟨CASE_GEN_RANGE i, 24, 16⟩
abbrev CASE_GEN_RANGE_COUNT (i : Nat) : Fld := ⟨CASE_GEN_RANGE i, 8, 0⟩
abbrev CASE_GEN_MODE (i : Nat) : Nat := 0x1400204 + 0x10 * i
abbrev CASE_GEN_MODE_SLC (i : Nat) : Fld := ⟨CASE_GEN_MODE i, 31, 31⟩
abbrev CASE_GEN_MODE_SHIELD (i : Nat) : Fld := ⟨CASE_GEN_MODE i, 30, 30⟩
abbrev CASE_GEN_MODE_UNIT (i : Nat) : Fld := ⟨CASE_GEN_MODE i, 4, 0⟩
abbrev CASE_GEN_RINGS (i : Nat) : Nat := 0x1400208 + 0x10 * i
abbrev CASE_GEN_RINGS_READ (i : Nat) : Fld := ⟨CASE_GEN_RINGS i, 7, 4⟩
abbrev CASE_GEN_RINGS_WRITE (i : Nat) : Fld := ⟨CASE_GEN_RINGS i, 3, 0⟩
abbrev CASE_TUNING (i : Nat) : Nat := 0x1401000 + 0x4 * i
abbrev CASE_TUNING_WORD (i : Nat) : Fld := ⟨CASE_TUNING i, 31, 0⟩

-- EVREC block, R488
abbrev EVREC_CTL : Nat := 0x1500000
abbrev EVREC_CTL_FLUSH : Fld := ⟨EVREC_CTL, 31, 31⟩
abbrev EVREC_CTL_MAXAGE : Fld := ⟨EVREC_CTL, 15, 0⟩
abbrev EVREC_STATUS : Nat := 0x1500004
abbrev EVREC_STATUS_FLUSHING : Fld := ⟨EVREC_STATUS, 31, 31⟩
abbrev EVREC_STATUS_CLEARING : Fld := ⟨EVREC_STATUS, 30, 30⟩
abbrev EVREC_STATUS_CLRSTATUS : Fld := ⟨EVREC_STATUS, 23, 16⟩
abbrev EVREC_STATUS_FILL : Fld := ⟨EVREC_STATUS, 8, 0⟩
abbrev EVREC_NEWEST : Nat := 0x1500008
abbrev EVREC_NEWEST_SEQ : Fld := ⟨EVREC_NEWEST, 31, 0⟩
abbrev EVREC_OLDEST : Nat := 0x150000C
abbrev EVREC_OLDEST_SEQ : Fld := ⟨EVREC_OLDEST, 31, 0⟩
abbrev EVREC_LOST : Nat := 0x1500010
abbrev EVREC_LOST_COUNT : Fld := ⟨EVREC_LOST, 31, 0⟩
abbrev EVREC_CLEAR : Nat := 0x1500014
abbrev EVREC_CLEAR_GO : Fld := ⟨EVREC_CLEAR, 31, 31⟩
abbrev EVREC_PUT_CTL : Nat := 0x1500018
abbrev EVREC_PUT_CTL_GO : Fld := ⟨EVREC_PUT_CTL, 31, 31⟩
abbrev EVREC_PUT_CTL_CODE : Fld := ⟨EVREC_PUT_CTL, 15, 0⟩
abbrev EVREC_FLUSHES : Nat := 0x150001C
abbrev EVREC_FLUSHES_COUNT : Fld := ⟨EVREC_FLUSHES, 31, 0⟩
abbrev EVREC_PUT (i : Nat) : Nat := 0x1500040 + 0x4 * i
abbrev EVREC_PUT_DATA (i : Nat) : Fld := ⟨EVREC_PUT i, 31, 0⟩

-- LEDGER block, R488
abbrev LEDGER_STATUS : Nat := 0x1540000
abbrev LEDGER_STATUS_WAITING : Fld := ⟨LEDGER_STATUS, 22, 16⟩
abbrev LEDGER_STATUS_GRANTED : Fld := ⟨LEDGER_STATUS, 6, 0⟩
abbrev LEDGER_ACT (i : Nat) : Nat := 0x1540010 + 0x10 * i
abbrev LEDGER_ACT_REQ (i : Nat) : Fld := ⟨LEDGER_ACT i, 31, 31⟩
abbrev LEDGER_ACT_REL (i : Nat) : Fld := ⟨LEDGER_ACT i, 30, 30⟩
abbrev LEDGER_ACT_HOLDS (i : Nat) : Fld := ⟨LEDGER_ACT i, 15, 0⟩
abbrev LEDGER_CFG (i : Nat) : Nat := 0x1540014 + 0x10 * i
abbrev LEDGER_CFG_EN (i : Nat) : Fld := ⟨LEDGER_CFG i, 31, 31⟩
abbrev LEDGER_CFG_MAXWAIT (i : Nat) : Fld := ⟨LEDGER_CFG i, 30, 16⟩
abbrev LEDGER_CFG_PERIOD (i : Nat) : Fld := ⟨LEDGER_CFG i, 15, 0⟩
abbrev LEDGER_RUNS (i : Nat) : Nat := 0x1540018 + 0x10 * i
abbrev LEDGER_RUNS_RUNS (i : Nat) : Fld := ⟨LEDGER_RUNS i, 31, 0⟩
abbrev LEDGER_MAXSEEN (i : Nat) : Nat := 0x154001C + 0x10 * i
abbrev LEDGER_MAXSEEN_MAXWAITSEEN (i : Nat) : Fld := ⟨LEDGER_MAXSEEN i, 31, 0⟩
abbrev LEDGER_ROLL_FIRST (i : Nat) : Nat := 0x1540100 + 0x8 * i
abbrev LEDGER_ROLL_FIRST_EN (i : Nat) : Fld := ⟨LEDGER_ROLL_FIRST i, 31, 31⟩
abbrev LEDGER_ROLL_FIRST_FIRST (i : Nat) : Fld := ⟨LEDGER_ROLL_FIRST i, 20, 0⟩
abbrev LEDGER_ROLL_LAST (i : Nat) : Nat := 0x1540104 + 0x8 * i
abbrev LEDGER_ROLL_LAST_LAST (i : Nat) : Fld := ⟨LEDGER_ROLL_LAST i, 20, 0⟩

-- TAMPER block, R523
abbrev TAMPER_CTL : Nat := 0x1550000
abbrev TAMPER_CTL_BIST : Fld := ⟨TAMPER_CTL, 11, 0⟩
abbrev TAMPER_STATUS : Nat := 0x1550004
abbrev TAMPER_STATUS_LOGFULL : Fld := ⟨TAMPER_STATUS, 31, 31⟩
abbrev TAMPER_STATUS_ALARMED : Fld := ⟨TAMPER_STATUS, 30, 30⟩
abbrev TAMPER_STATUS_LAST : Fld := ⟨TAMPER_STATUS, 20, 16⟩
abbrev TAMPER_STATUS_EVENT : Fld := ⟨TAMPER_STATUS, 0, 0⟩
abbrev TAMPER_LOGCOUNT : Nat := 0x1550008
abbrev TAMPER_LOGCOUNT_COUNT : Fld := ⟨TAMPER_LOGCOUNT, 16, 0⟩
abbrev TAMPER_LOGLOST : Nat := 0x155000C
abbrev TAMPER_LOGLOST_COUNT : Fld := ⟨TAMPER_LOGLOST, 31, 0⟩
abbrev TAMPER_ALARMS : Nat := 0x1550010
abbrev TAMPER_ALARMS_COUNT : Fld := ⟨TAMPER_ALARMS, 31, 0⟩
abbrev TAMPER_EVIDBUF : Nat := 0x1550014
abbrev TAMPER_EVIDBUF_OVERFLOW : Fld := ⟨TAMPER_EVIDBUF, 31, 16⟩
abbrev TAMPER_EVIDBUF_FILL : Fld := ⟨TAMPER_EVIDBUF, 4, 0⟩
abbrev TAMPER_STICKY_LO : Nat := 0x1550020
abbrev TAMPER_STICKY_LO_FLAGS : Fld := ⟨TAMPER_STICKY_LO, 31, 0⟩
abbrev TAMPER_STICKY_HI : Nat := 0x1550024
abbrev TAMPER_STICKY_HI_FLAGS : Fld := ⟨TAMPER_STICKY_HI, 15, 0⟩
abbrev TAMPER_STICKY_CLR : Nat := 0x1550028
abbrev TAMPER_STICKY_CLR_GO : Fld := ⟨TAMPER_STICKY_CLR, 31, 31⟩
abbrev TAMPER_STICKY_CLR_CLRSTATUS : Fld := ⟨TAMPER_STICKY_CLR, 7, 0⟩
abbrev TSRC_CFG (i : Nat) : Nat := 0x1550100 + 0x20 * i
abbrev TSRC_CFG_EN (i : Nat) : Fld := ⟨TSRC_CFG i, 31, 31⟩
abbrev TSRC_CFG_P3 (i : Nat) : Fld := ⟨TSRC_CFG i, 30, 30⟩
abbrev TSRC_CFG_ACTION (i : Nat) : Fld := ⟨TSRC_CFG i, 29, 28⟩
abbrev TSRC_CFG_MODE (i : Nat) : Fld := ⟨TSRC_CFG i, 27, 27⟩
abbrev TSRC_CFG_LEVEL (i : Nat) : Fld := ⟨TSRC_CFG i, 26, 26⟩
abbrev TSRC_CFG_COUNT (i : Nat) : Fld := ⟨TSRC_CFG i, 23, 16⟩
abbrev TSRC_CFG_P3COUNT (i : Nat) : Fld := ⟨TSRC_CFG i, 11, 8⟩
abbrev TSRC_WINDOW (i : Nat) : Nat := 0x1550104 + 0x20 * i
abbrev TSRC_WINDOW_US (i : Nat) : Fld := ⟨TSRC_WINDOW i, 23, 0⟩
abbrev TSRC_STATUS (i : Nat) : Nat := 0x1550108 + 0x20 * i
abbrev TSRC_STATUS_LATCHED (i : Nat) : Fld := ⟨TSRC_STATUS i, 31, 31⟩
abbrev TSRC_STATUS_A (i : Nat) : Fld := ⟨TSRC_STATUS i, 30, 30⟩
abbrev TSRC_STATUS_B (i : Nat) : Fld := ⟨TSRC_STATUS i, 29, 29⟩
abbrev TSRC_STATUS_DETFAIL (i : Nat) : Fld := ⟨TSRC_STATUS i, 28, 28⟩
abbrev TSRC_STATUS_INWIN (i : Nat) : Fld := ⟨TSRC_STATUS i, 7, 0⟩
abbrev TSRC_EVENTS (i : Nat) : Nat := 0x155010C + 0x20 * i
abbrev TSRC_EVENTS_COUNT (i : Nat) : Fld := ⟨TSRC_EVENTS i, 31, 0⟩
abbrev TSRC_DISAGREES (i : Nat) : Nat := 0x1550110 + 0x20 * i
abbrev TSRC_DISAGREES_COUNT (i : Nat) : Fld := ⟨TSRC_DISAGREES i, 31, 0⟩
abbrev TSRC_FORCE (i : Nat) : Nat := 0x1550114 + 0x20 * i
abbrev TSRC_FORCE_B (i : Nat) : Fld := ⟨TSRC_FORCE i, 1, 1⟩
abbrev TSRC_FORCE_A (i : Nat) : Fld := ⟨TSRC_FORCE i, 0, 0⟩
abbrev TSRC_READING (i : Nat) : Nat := 0x1550118 + 0x20 * i
abbrev TSRC_READING_VALUE (i : Nat) : Fld := ⟨TSRC_READING i, 15, 0⟩
abbrev TSRC_SEED (i : Nat) : Nat := 0x155011C + 0x20 * i
abbrev TSRC_SEED_SEED (i : Nat) : Fld := ⟨TSRC_SEED i, 14, 0⟩

-- FAULT block, R523
abbrev FAULT_CTL : Nat := 0x1560000
abbrev FAULT_CTL_HOLD : Fld := ⟨FAULT_CTL, 31, 31⟩
abbrev FAULT_CTL_FORCEFULL : Fld := ⟨FAULT_CTL, 30, 30⟩
abbrev FAULT_CTL_PULSE : Fld := ⟨FAULT_CTL, 9, 0⟩
abbrev FAULT_NCTL : Nat := 0x1560004
abbrev FAULT_NCTL_RELEASE : Fld := ⟨FAULT_NCTL, 31, 31⟩
abbrev FAULT_NCTL_ASSERTED : Fld := ⟨FAULT_NCTL, 0, 0⟩
abbrev FAULT_PEND : Nat := 0x1560008
abbrev FAULT_PEND_PERSIST : Fld := ⟨FAULT_PEND, 4, 4⟩
abbrev FAULT_PEND_CLASS : Fld := ⟨FAULT_PEND, 3, 0⟩
abbrev FAULT_OPEN : Nat := 0x156000C
abbrev FAULT_OPEN_OPEN : Fld := ⟨FAULT_OPEN, 31, 31⟩
abbrev FAULT_OPEN_SOURCE : Fld := ⟨FAULT_OPEN, 8, 0⟩
abbrev FAULT_COUNT (i : Nat) : Nat := 0x1560010 + 0x4 * i
abbrev FAULT_COUNT_COUNT (i : Nat) : Fld := ⟨FAULT_COUNT i, 31, 0⟩
abbrev FAULT_LOGIDX : Nat := 0x1560020
abbrev FAULT_LOGIDX_NEWEST : Fld := ⟨FAULT_LOGIDX, 3, 0⟩
abbrev FAULT_PERSIST : Nat := 0x1560024
abbrev FAULT_PERSIST_COUNT : Fld := ⟨FAULT_PERSIST, 31, 0⟩
abbrev FAULT_LOG (i j : Nat) : Nat := 0x1560100 + 0x20 * i + 0x4 * j
abbrev FAULT_LOG_WORD (i j : Nat) : Fld := ⟨FAULT_LOG i j, 31, 0⟩
abbrev FAULT_LAST (i : Nat) : Nat := 0x1560400 + 0x4 * i
abbrev FAULT_LAST_WORD (i : Nat) : Fld := ⟨FAULT_LAST i, 31, 0⟩
abbrev FAULT_SRC (i : Nat) : Nat := 0x1561000 + 0x4 * i
abbrev FAULT_SRC_CLASS (i : Nat) : Fld := ⟨FAULT_SRC i, 31, 30⟩
abbrev FAULT_SRC_RAISED (i : Nat) : Fld := ⟨FAULT_SRC i, 23, 16⟩
abbrev FAULT_SRC_ACTION (i : Nat) : Fld := ⟨FAULT_SRC i, 5, 0⟩
abbrev FAULT_FORCE (i : Nat) : Nat := 0x1562000 + 0x4 * i
abbrev FAULT_FORCE_FORCE (i : Nat) : Fld := ⟨FAULT_FORCE i, 31, 0⟩

-- WDOG block, R523
abbrev WDOG_CAPO_CTL : Nat := 0x15A0000
abbrev WDOG_CAPO_CTL_EN : Fld := ⟨WDOG_CAPO_CTL, 31, 31⟩
abbrev WDOG_CAPO_CTL_TIMEOUT : Fld := ⟨WDOG_CAPO_CTL, 15, 0⟩
abbrev WDOG_CAPO_KICK : Nat := 0x15A0004
abbrev WDOG_CAPO_KICK_KEY : Fld := ⟨WDOG_CAPO_KICK, 15, 0⟩
abbrev WDOG_CAPO_STATUS : Nat := 0x15A0008
abbrev WDOG_CAPO_STATUS_BADKICK : Fld := ⟨WDOG_CAPO_STATUS, 31, 16⟩
abbrev WDOG_CAPO_STATUS_REMAIN : Fld := ⟨WDOG_CAPO_STATUS, 15, 0⟩
abbrev WDOG_MOD_CTL : Nat := 0x15A0010
abbrev WDOG_MOD_CTL_DBGSTOP : Fld := ⟨WDOG_MOD_CTL, 30, 30⟩
abbrev WDOG_MOD_CTL_TIMEOUT : Fld := ⟨WDOG_MOD_CTL, 15, 0⟩
abbrev WDOG_MOD_KICK : Nat := 0x15A0014
abbrev WDOG_MOD_KICK_KEY : Fld := ⟨WDOG_MOD_KICK, 15, 0⟩
abbrev WDOG_MOD_STATUS : Nat := 0x15A0018
abbrev WDOG_MOD_STATUS_LASTEXP : Fld := ⟨WDOG_MOD_STATUS, 31, 31⟩
abbrev WDOG_MOD_STATUS_EXPIRIES : Fld := ⟨WDOG_MOD_STATUS, 30, 24⟩
abbrev WDOG_MOD_STATUS_BADKICK : Fld := ⟨WDOG_MOD_STATUS, 23, 16⟩
abbrev WDOG_MOD_STATUS_REMAIN : Fld := ⟨WDOG_MOD_STATUS, 15, 0⟩
abbrev WDOG_FE_CTL : Nat := 0x15A0020
abbrev WDOG_FE_CTL_CONSEC : Fld := ⟨WDOG_FE_CTL, 7, 0⟩
abbrev WDOG_FE_HELD : Nat := 0x15A0024
abbrev WDOG_FE_HELD_MASK : Fld := ⟨WDOG_FE_HELD, 31, 0⟩

-- PWR block, R554
abbrev PWR_CTL : Nat := 0x15B0000
abbrev PWR_CTL_REQ : Fld := ⟨PWR_CTL, 31, 30⟩
abbrev PWR_CTL_RESET : Fld := ⟨PWR_CTL, 15, 0⟩
abbrev PWR_STATUS : Nat := 0x15B0004
abbrev PWR_STATUS_STATE : Fld := ⟨PWR_STATUS, 31, 30⟩
abbrev PWR_STATUS_PHASE : Fld := ⟨PWR_STATUS, 27, 24⟩
abbrev PWR_STATUS_REQERR : Fld := ⟨PWR_STATUS, 2, 0⟩
abbrev PWR_INPUT : Nat := 0x15B0008
abbrev PWR_INPUT_MV : Fld := ⟨PWR_INPUT, 16, 0⟩
abbrev PWR_BANK : Nat := 0x15B000C
abbrev PWR_BANK_MV : Fld := ⟨PWR_BANK, 16, 0⟩
abbrev PWR_RETAIN : Nat := 0x15B0010
abbrev PWR_RETAIN_DRAIN : Fld := ⟨PWR_RETAIN, 15, 0⟩
abbrev PWR_WATCH : Nat := 0x15B0014
abbrev PWR_WATCH_PERIOD : Fld := ⟨PWR_WATCH, 15, 0⟩
abbrev PWR_WAKEEN : Nat := 0x15B0018
abbrev PWR_WAKEEN_EN : Fld := ⟨PWR_WAKEEN, 4, 0⟩
abbrev PWR_WAKESRC : Nat := 0x15B001C
abbrev PWR_WAKESRC_CAUSE : Fld := ⟨PWR_WAKESRC, 10, 8⟩
abbrev PWR_WAKESRC_SRC : Fld := ⟨PWR_WAKESRC, 3, 0⟩
abbrev PWR_WAKETIMER : Nat := 0x15B0020
abbrev PWR_WAKETIMER_MS : Fld := ⟨PWR_WAKETIMER, 31, 0⟩
abbrev PWR_NOTIFY : Nat := 0x15B0024
abbrev PWR_NOTIFY_MSIEN : Fld := ⟨PWR_NOTIFY, 31, 31⟩
abbrev PWR_NOTIFY_VEC : Fld := ⟨PWR_NOTIFY, 10, 0⟩
abbrev PWR_DIPS : Nat := 0x15B0028
abbrev PWR_DIPS_COUNT : Fld := ⟨PWR_DIPS, 31, 0⟩
abbrev PWR_LASTDIP : Nat := 0x15B002C
abbrev PWR_LASTDIP_MS : Fld := ⟨PWR_LASTDIP, 31, 16⟩
abbrev PWR_LASTDIP_MINV : Fld := ⟨PWR_LASTDIP, 15, 0⟩
abbrev PWR_WAKETIME : Nat := 0x15B0030
abbrev PWR_WAKETIME_US : Fld := ⟨PWR_WAKETIME, 7, 0⟩

-- LIFE block, R554
abbrev LIFE_STATE : Nat := 0x15C0000
abbrev LIFE_STATE_SCOPE : Fld := ⟨LIFE_STATE, 4, 4⟩
abbrev LIFE_STATE_STATE : Fld := ⟨LIFE_STATE, 2, 0⟩
abbrev LIFE_CMD : Nat := 0x15C0004
abbrev LIFE_CMD_GO : Fld := ⟨LIFE_CMD, 31, 31⟩
abbrev LIFE_CMD_OP : Fld := ⟨LIFE_CMD, 3, 0⟩
abbrev LIFE_CMD_RESULT : Nat := 0x15C0008
abbrev LIFE_CMD_RESULT_BUSY : Fld := ⟨LIFE_CMD_RESULT, 31, 31⟩
abbrev LIFE_CMD_RESULT_STATUS : Fld := ⟨LIFE_CMD_RESULT, 7, 0⟩
abbrev LIFE_CMD_ARG : Nat := 0x15C000C
abbrev LIFE_CMD_ARG_SLOT : Fld := ⟨LIFE_CMD_ARG, 0, 0⟩
abbrev LIFE_BUF_LO : Nat := 0x15C0010
abbrev LIFE_BUF_LO_ADDR : Fld := ⟨LIFE_BUF_LO, 31, 0⟩
abbrev LIFE_BUF_HI : Nat := 0x15C0014
abbrev LIFE_BUF_HI_ADDR : Fld := ⟨LIFE_BUF_HI, 7, 0⟩
abbrev LIFE_BUF_LEN : Nat := 0x15C0018
abbrev LIFE_BUF_LEN_LEN : Fld := ⟨LIFE_BUF_LEN, 23, 0⟩
abbrev LIFE_BOOT : Nat := 0x15C001C
abbrev LIFE_BOOT_STAGE : Fld := ⟨LIFE_BOOT, 31, 29⟩
abbrev LIFE_BOOT_SLOT : Fld := ⟨LIFE_BOOT, 8, 8⟩
abbrev LIFE_BOOT_TRIAL : Fld := ⟨LIFE_BOOT, 7, 7⟩
abbrev LIFE_BOOT_TRIES : Fld := ⟨LIFE_BOOT, 5, 4⟩
abbrev LIFE_BOOT_FALLBACK : Fld := ⟨LIFE_BOOT, 0, 0⟩
abbrev LIFE_VERSION : Nat := 0x15C0020
abbrev LIFE_VERSION_VER : Fld := ⟨LIFE_VERSION, 31, 0⟩
abbrev LIFE_MINVER : Nat := 0x15C0024
abbrev LIFE_MINVER_VER : Fld := ⟨LIFE_MINVER, 31, 0⟩
abbrev LIFE_PRESET : Nat := 0x15C0028
abbrev LIFE_PRESET_VALID : Fld := ⟨LIFE_PRESET, 31, 31⟩
abbrev LIFE_PRESET_APPLIED : Fld := ⟨LIFE_PRESET, 28, 16⟩
abbrev LIFE_PRESET_REJECTED : Fld := ⟨LIFE_PRESET, 12, 0⟩
abbrev LIFE_DBGOPENS : Nat := 0x15C002C
abbrev LIFE_DBGOPENS_COUNT : Fld := ⟨LIFE_DBGOPENS, 31, 0⟩
abbrev LIFE_DBGLEFT : Nat := 0x15C0030
abbrev LIFE_DBGLEFT_S : Fld := ⟨LIFE_DBGLEFT, 31, 0⟩
abbrev LIFE_CHAL (i : Nat) : Nat := 0x15C0100 + 0x4 * i
abbrev LIFE_CHAL_WORD (i : Nat) : Fld := ⟨LIFE_CHAL i, 31, 0⟩
abbrev CAPO_FWIN (i : Nat) : Nat := 0x15C8000 + 0x4 * i
abbrev CAPO_FWIN_BASE (i : Nat) : Fld := ⟨CAPO_FWIN i, 13, 0⟩
abbrev CAPO_GATES : Nat := 0x15C8010
abbrev CAPO_GATES_COUNT : Fld := ⟨CAPO_GATES, 12, 0⟩
abbrev CAPO_STATUS : Nat := 0x15C8014
abbrev CAPO_STATUS_TSDEPTH : Fld := ⟨CAPO_STATUS, 31, 12⟩
abbrev CAPO_STATUS_STATE : Fld := ⟨CAPO_STATUS, 5, 4⟩
abbrev CAPO_STATUS_RING : Fld := ⟨CAPO_STATUS, 1, 0⟩
abbrev CAPO_LASTEXC : Nat := 0x15C8018
abbrev CAPO_LASTEXC_VECTOR : Fld := ⟨CAPO_LASTEXC, 21, 16⟩
abbrev CAPO_LASTEXC_DETAIL : Fld := ⟨CAPO_LASTEXC, 15, 8⟩
abbrev CAPO_LASTEXC_HPRIV : Fld := ⟨CAPO_LASTEXC, 1, 0⟩
abbrev CAPO_RETIGN : Nat := 0x15C801C
abbrev CAPO_RETIGN_COUNT : Fld := ⟨CAPO_RETIGN, 31, 0⟩

-- DEBUG block, R554
abbrev DEBUG_STATUS : Nat := 0x15D0000
abbrev DEBUG_STATUS_TAP : Fld := ⟨DEBUG_STATUS, 31, 31⟩
abbrev DEBUG_STATUS_WINDOW : Fld := ⟨DEBUG_STATUS, 30, 30⟩
abbrev DEBUG_STATUS_CAPOHALT : Fld := ⟨DEBUG_STATUS, 29, 29⟩
abbrev DEBUG_FEHALT : Nat := 0x15D0004
abbrev DEBUG_FEHALT_MASK : Fld := ⟨DEBUG_FEHALT, 31, 0⟩
abbrev DEBUG_REFUSED : Nat := 0x15D0008
abbrev DEBUG_REFUSED_COUNT : Fld := ⟨DEBUG_REFUSED, 31, 0⟩
abbrev DEBUG_MBOX (i : Nat) : Nat := 0x15D0100 + 0x4 * i
abbrev DEBUG_MBOX_WORD (i : Nat) : Fld := ⟨DEBUG_MBOX i, 31, 0⟩

-- PICK block, R585
abbrev PICK_CTL : Nat := 0x15E0000
abbrev PICK_CTL_RDR_EN : Fld := ⟨PICK_CTL, 31, 31⟩
abbrev PICK_CTL_TAG_EN : Fld := ⟨PICK_CTL, 30, 30⟩
abbrev PICK_CTL_PING_EN : Fld := ⟨PICK_CTL, 29, 29⟩
abbrev PICK_CTL_MAXRATE : Fld := ⟨PICK_CTL, 27, 26⟩
abbrev PICK_STATUS : Nat := 0x15E0004
abbrev PICK_STATUS_FIELD : Fld := ⟨PICK_STATUS, 31, 31⟩
abbrev PICK_STATUS_MODE : Fld := ⟨PICK_STATUS, 27, 24⟩
abbrev PICK_STATUS_TAGSTATE : Fld := ⟨PICK_STATUS, 21, 20⟩
abbrev PICK_STATUS_LASTSTATUS : Fld := ⟨PICK_STATUS, 7, 0⟩
abbrev PICK_WAIT : Nat := 0x15E0008
abbrev PICK_WAIT_CAPPERIOD : Fld := ⟨PICK_WAIT, 31, 16⟩
abbrev PICK_WAIT_CAPTHRESH : Fld := ⟨PICK_WAIT, 15, 0⟩
abbrev PICK_RDR : Nat := 0x15E000C
abbrev PICK_RDR_GUARD : Fld := ⟨PICK_RDR, 23, 16⟩
abbrev PICK_RDR_MAXTAGS : Fld := ⟨PICK_RDR, 11, 8⟩
abbrev PICK_RDR_POLLS : Fld := ⟨PICK_RDR, 3, 0⟩
abbrev PICK_BACKOFF : Nat := 0x15E0010
abbrev PICK_BACKOFF_BASE : Fld := ⟨PICK_BACKOFF, 31, 16⟩
abbrev PICK_BACKOFF_MAX : Fld := ⟨PICK_BACKOFF, 15, 0⟩
abbrev PICK_SESS : Nat := 0x15E0014
abbrev PICK_SESS_GO : Fld := ⟨PICK_SESS, 31, 31⟩
abbrev PICK_SESS_ABORT : Fld := ⟨PICK_SESS, 30, 30⟩
abbrev PICK_SESS_STATE : Fld := ⟨PICK_SESS, 29, 27⟩
abbrev PICK_SESS_SLOT : Fld := ⟨PICK_SESS, 17, 0⟩
abbrev PICK_SESSTMO : Nat := 0x15E0018
abbrev PICK_SESSTMO_MAXS : Fld := ⟨PICK_SESSTMO, 31, 16⟩
abbrev PICK_SESSTMO_STEPMS : Fld := ⟨PICK_SESSTMO, 15, 0⟩
abbrev PICK_UID (i : Nat) : Nat := 0x15E001C + 0x4 * i
abbrev PICK_UID_WORD (i : Nat) : Fld := ⟨PICK_UID i, 31, 0⟩
abbrev PICK_UIDLEN : Nat := 0x15E0028
abbrev PICK_UIDLEN_LEN : Fld := ⟨PICK_UIDLEN, 3, 0⟩
abbrev PICK_REFUSED : Nat := 0x15E002C
abbrev PICK_REFUSED_COUNT : Fld := ⟨PICK_REFUSED, 31, 0⟩
abbrev PICK_MIRROR : Nat := 0x15E0030
abbrev PICK_MIRROR_BUSY : Fld := ⟨PICK_MIRROR, 31, 31⟩
abbrev PICK_MIRROR_DEFERRED : Fld := ⟨PICK_MIRROR, 30, 30⟩
abbrev PICK_MIRROR_MSEQ : Fld := ⟨PICK_MIRROR, 15, 0⟩
abbrev PICK_VSEQ : Nat := 0x15E0034
abbrev PICK_VSEQ_SEQ : Fld := ⟨PICK_VSEQ, 31, 0⟩
abbrev PICK_UNVERIFIED : Nat := 0x15E0038
abbrev PICK_UNVERIFIED_COUNT : Fld := ⟨PICK_UNVERIFIED, 6, 0⟩
abbrev PICK_LINKERR : Nat := 0x15E003C
abbrev PICK_LINKERR_COUNT : Fld := ⟨PICK_LINKERR, 31, 0⟩
abbrev PICK_BUF_LO : Nat := 0x15E0040
abbrev PICK_BUF_LO_ADDR : Fld := ⟨PICK_BUF_LO, 31, 0⟩
abbrev PICK_BUF_HI : Nat := 0x15E0044
abbrev PICK_BUF_HI_ADDR : Fld := ⟨PICK_BUF_HI, 7, 0⟩
abbrev PICK_BUF_LEN : Nat := 0x15E0048
abbrev PICK_BUF_LEN_LEN : Fld := ⟨PICK_BUF_LEN, 12, 0⟩
abbrev PICK_CAHASH (i : Nat) : Nat := 0x15E0100 + 0x4 * i
abbrev PICK_CAHASH_WORD (i : Nat) : Fld := ⟨PICK_CAHASH i, 31, 0⟩
abbrev PICK_CAEN : Nat := 0x15E0180
abbrev PICK_CAEN_EN : Fld := ⟨PICK_CAEN, 3, 0⟩

-- CARD block, R585
abbrev CARD_CTL : Nat := 0x15F0000
abbrev CARD_CTL_EN : Fld := ⟨CARD_CTL, 31, 31⟩
abbrev CARD_CTL_CLASS : Fld := ⟨CARD_CTL, 29, 28⟩
abbrev CARD_CTL_CLKKHZ : Fld := ⟨CARD_CTL, 12, 0⟩
abbrev CARD_TIME : Nat := 0x15F0004
abbrev CARD_TIME_MAXWAIT : Fld := ⟨CARD_TIME, 31, 16⟩
abbrev CARD_TIME_IDLESTOP : Fld := ⟨CARD_TIME, 15, 0⟩
abbrev CARD_STATUS : Nat := 0x15F0008
abbrev CARD_STATUS_PRESENT : Fld := ⟨CARD_STATUS, 31, 31⟩
abbrev CARD_STATUS_SESSION : Fld := ⟨CARD_STATUS, 30, 30⟩
abbrev CARD_STATUS_PINOK : Fld := ⟨CARD_STATUS, 29, 29⟩
abbrev CARD_STATUS_STATE : Fld := ⟨CARD_STATUS, 27, 25⟩
abbrev CARD_STATUS_CLASSUSED : Fld := ⟨CARD_STATUS, 24, 24⟩
abbrev CARD_STATUS_CARDSTATE : Fld := ⟨CARD_STATUS, 22, 20⟩
abbrev CARD_STATUS_TRIES : Fld := ⟨CARD_STATUS, 19, 16⟩
abbrev CARD_STATUS_ERR : Fld := ⟨CARD_STATUS, 11, 8⟩
abbrev CARD_PPS : Nat := 0x15F000C
abbrev CARD_PPS_FI : Fld := ⟨CARD_PPS, 31, 16⟩
abbrev CARD_PPS_DI : Fld := ⟨CARD_PPS, 7, 0⟩
abbrev CARD_ATRLEN : Nat := 0x15F0010
abbrev CARD_ATRLEN_LEN : Fld := ⟨CARD_ATRLEN, 5, 0⟩
abbrev CARD_ATR (i : Nat) : Nat := 0x15F0020 + 0x4 * i
abbrev CARD_ATR_WORD (i : Nat) : Fld := ⟨CARD_ATR i, 31, 0⟩
abbrev CARD_XFER : Nat := 0x15F0040
abbrev CARD_XFER_GO : Fld := ⟨CARD_XFER, 31, 31⟩
abbrev CARD_XFER_SEAL : Fld := ⟨CARD_XFER, 30, 30⟩
abbrev CARD_BUF_LO : Nat := 0x15F0044
abbrev CARD_BUF_LO_ADDR : Fld := ⟨CARD_BUF_LO, 31, 0⟩
abbrev CARD_BUF_HI : Nat := 0x15F0048
abbrev CARD_BUF_HI_ADDR : Fld := ⟨CARD_BUF_HI, 7, 0⟩
abbrev CARD_CMDLEN : Nat := 0x15F004C
abbrev CARD_CMDLEN_LEN : Fld := ⟨CARD_CMDLEN, 12, 0⟩
abbrev CARD_RSPMAX : Nat := 0x15F0050
abbrev CARD_RSPMAX_LEN : Fld := ⟨CARD_RSPMAX, 12, 0⟩
abbrev CARD_RESULT : Nat := 0x15F0054
abbrev CARD_RESULT_BUSY : Fld := ⟨CARD_RESULT, 31, 31⟩
abbrev CARD_RESULT_SW : Fld := ⟨CARD_RESULT, 23, 8⟩
abbrev CARD_RESULT_STATUS : Fld := ⟨CARD_RESULT, 7, 0⟩
abbrev CARD_SESS : Nat := 0x15F0058
abbrev CARD_SESS_SLOT : Fld := ⟨CARD_SESS, 17, 0⟩
abbrev CARD_T1ERR : Nat := 0x15F005C
abbrev CARD_T1ERR_COUNT : Fld := ⟨CARD_T1ERR, 31, 0⟩
abbrev CARD_REMOVALS : Nat := 0x15F0060
abbrev CARD_REMOVALS_COUNT : Fld := ⟨CARD_REMOVALS, 31, 0⟩

/-! ## The tables -/

/-- The registers of the TIME block (R53). -/
def regsTIME : List RegDesc := [
  ⟨0x10000, 1, 0x4, 1, 0x4, false, [⟨5, 4, .rw, 0, .any⟩, ⟨3, 2, .rw, 0, .range 0 2⟩, ⟨0, 0, .rw, 0, .any⟩]⟩,
  ⟨0x10004, 1, 0x4, 1, 0x4, false, [⟨3, 3, .ro, 0, .any⟩, ⟨2, 0, .ro, 0, .any⟩]⟩,
  ⟨0x10008, 1, 0x4, 1, 0x4, false, [⟨31, 0, .ro, 0, .any⟩]⟩,
  ⟨0x1000C, 1, 0x4, 1, 0x4, false, [⟨9, 0, .rw, 100, .range 1 500⟩]⟩,
  ⟨0x10010, 1, 0x4, 1, 0x4, false, [⟨31, 0, .rw, 0, .any⟩]⟩,
  ⟨0x10014, 1, 0x4, 1, 0x4, false, [⟨15, 0, .rw, 0, .any⟩]⟩,
  ⟨0x10020, 1, 0x4, 1, 0x4, false, [⟨31, 31, .ro, 0, .any⟩, ⟨16, 0, .rw, 4000, .range 1000 96000⟩]⟩,
  ⟨0x10024, 1, 0x4, 1, 0x4, false, [⟨20, 0, .ro, 375000, .any⟩]⟩,
  ⟨0x10028, 1, 0x4, 1, 0x4, false, [⟨20, 0, .ro, 367500, .any⟩]⟩,
  ⟨0x10030, 1, 0x4, 1, 0x4, false, [⟨16, 0, .ro, 0, .any⟩]⟩,
  ⟨0x10038, 1, 0x4, 1, 0x4, false, [⟨31, 0, .ro, 0, .any⟩]⟩,
  ⟨0x1003C, 1, 0x4, 1, 0x4, false, [⟨15, 0, .ro, 0, .any⟩]⟩,
  ⟨0x10040, 1, 0x4, 1, 0x4, false, [⟨31, 31, .rw, 0, .any⟩, ⟨30, 30, .rw, 0, .any⟩, ⟨29, 29, .rw, 0, .any⟩, ⟨28, 24, .ro, 0, .any⟩, ⟨15, 0, .rw, 10000, .range 1 50000⟩]⟩,
  ⟨0x10048, 1, 0x4, 1, 0x4, false, [⟨31, 0, .ro, 0, .any⟩]⟩,
  ⟨0x1004C, 1, 0x4, 1, 0x4, false, [⟨11, 0, .ro, 0, .any⟩]⟩,
  ⟨0x10050, 1, 0x4, 1, 0x4, false, [⟨23, 0, .ro, 0, .any⟩]⟩,
  ⟨0x10100, 32, 0x4, 1, 0x4, false, [⟨31, 0, .rw, 0, .any⟩]⟩,
  ⟨0x10180, 32, 0x4, 1, 0x4, false, [⟨31, 0, .rw, 0, .any⟩]⟩,
  ⟨0x10200, 32, 0x4, 1, 0x4, false, [⟨23, 0, .ro, 0, .any⟩]⟩,
  ⟨0x10280, 32, 0x4, 1, 0x4, false, [⟨31, 0, .rw, 0, .any⟩]⟩]

/-- The registers of the NUT block (R96). -/
def regsNUT : List RegDesc := [
  ⟨0x20000, 1, 0x4, 1, 0x4, true, [⟨8, 0, .ro, 0, .any⟩]⟩,
  ⟨0x20004, 1, 0x4, 1, 0x4, true, [⟨31, 31, .wo, 0, .any⟩, ⟨7, 0, .wo, 0, .any⟩]⟩,
  ⟨0x20008, 1, 0x4, 1, 0x4, true, [⟨15, 8, .ro, 0, .any⟩, ⟨2, 0, .ro, 0, .any⟩]⟩,
  ⟨0x20010, 1, 0x4, 1, 0x4, true, [⟨31, 0, .ro, 0, .any⟩]⟩,
  ⟨0x20014, 1, 0x4, 1, 0x4, true, [⟨7, 0, .ro, 0, .any⟩]⟩,
  ⟨0x20018, 1, 0x4, 1, 0x4, true, [⟨28, 16, .ro, 0, .any⟩, ⟨9, 9, .ro, 0, .any⟩, ⟨8, 8, .ro, 0, .any⟩, ⟨7, 0, .ro, 0, .any⟩]⟩,
  ⟨0x2001C, 1, 0x4, 1, 0x4, true, [⟨31, 0, .rw, 0, .any⟩]⟩,
  ⟨0x20100, 1, 0x4, 1, 0x4, true, [⟨31, 6, .rw, 0, .any⟩]⟩,
  ⟨0x20104, 1, 0x4, 1, 0x4, true, [⟨7, 0, .rw, 0, .any⟩]⟩,
  ⟨0x20108, 1, 0x4, 1, 0x4, true, [⟨31, 6, .rw, 0, .any⟩]⟩,
  ⟨0x2010C, 1, 0x4, 1, 0x4, true, [⟨7, 0, .rw, 0, .any⟩]⟩,
  ⟨0x20110, 1, 0x4, 1, 0x4, true, [⟨2, 2, .rw, 0, .any⟩, ⟨1, 1, .rw, 0, .any⟩, ⟨0, 0, .rw, 0, .any⟩]⟩,
  ⟨0x20120, 8, 0x4, 1, 0x4, true, [⟨31, 0, .rw, 0, .any⟩]⟩,
  ⟨0x20140, 8, 0x4, 1, 0x4, true, [⟨31, 0, .rw, 0, .any⟩]⟩,
  ⟨0x28000, 256, 0x80, 1, 0x4, true, [⟨31, 6, .ro, 0, .any⟩]⟩,
  ⟨0x28004, 256, 0x80, 1, 0x4, true, [⟨7, 0, .ro, 0, .any⟩]⟩,
  ⟨0x28008, 256, 0x80, 1, 0x4, true, [⟨31, 6, .ro, 0, .any⟩]⟩,
  ⟨0x2800C, 256, 0x80, 1, 0x4, true, [⟨7, 0, .ro, 0, .any⟩]⟩,
  ⟨0x28010, 256, 0x80, 1, 0x4, true, [⟨2, 2, .ro, 0, .any⟩, ⟨1, 1, .ro, 0, .any⟩, ⟨0, 0, .ro, 0, .any⟩]⟩,
  ⟨0x28020, 256, 0x80, 8, 0x4, true, [⟨31, 0, .ro, 0, .any⟩]⟩,
  ⟨0x28040, 256, 0x80, 8, 0x4, true, [⟨31, 0, .ro, 0, .any⟩]⟩]

/-- The registers of the MEM block (R96). -/
def regsMEM : List RegDesc := [
  ⟨0x30000, 1, 0x4, 1, 0x4, false, [⟨31, 31, .rw, 1, .any⟩, ⟨15, 0, .rw, 1000, .range 100 60000⟩]⟩,
  ⟨0x30004, 1, 0x4, 1, 0x4, false, [⟨31, 0, .rw, 0, .any⟩]⟩,
  ⟨0x30008, 1, 0x4, 1, 0x4, false, [⟨31, 26, .ro, 0, .any⟩, ⟨25, 0, .ro, 0, .any⟩]⟩,
  ⟨0x30100, 8, 0x10, 1, 0x4, false, [⟨31, 0, .rw, 0, .any⟩]⟩,
  ⟨0x30104, 8, 0x10, 1, 0x4, false, [⟨31, 0, .rw, 0, .any⟩]⟩,
  ⟨0x30108, 8, 0x10, 1, 0x4, false, [⟨31, 0, .ro, 0, .any⟩]⟩,
  ⟨0x3010C, 8, 0x10, 1, 0x4, false, [⟨7, 0, .ro, 0, .any⟩]⟩]

/-- The registers of the DRAM block (R96). -/
def regsDRAM : List RegDesc := [
  ⟨0x40000, 1, 0x4, 1, 0x4, false, [⟨31, 31, .ro, 0, .any⟩, ⟨5, 0, .ro, 14, .any⟩]⟩,
  ⟨0x40004, 1, 0x4, 1, 0x4, false, [⟨31, 0, .rw, 0, .any⟩]⟩,
  ⟨0x40008, 1, 0x4, 1, 0x4, false, [⟨31, 0, .rw, 0, .any⟩]⟩,
  ⟨0x4000C, 1, 0x4, 1, 0x4, false, [⟨31, 0, .rw, 0, .any⟩]⟩,
  ⟨0x40010, 1, 0x4, 1, 0x4, false, [⟨31, 0, .ro, 0, .any⟩]⟩,
  ⟨0x40014, 1, 0x4, 1, 0x4, false, [⟨7, 0, .ro, 0, .any⟩]⟩,
  ⟨0x40018, 1, 0x4, 1, 0x4, false, [⟨6, 0, .ro, 0, .any⟩]⟩,
  ⟨0x40020, 1, 0x4, 1, 0x4, false, [⟨24, 8, .ro, 0, .any⟩, ⟨1, 1, .ro, 0, .any⟩, ⟨0, 0, .ro, 0, .any⟩]⟩,
  ⟨0x40024, 1, 0x4, 1, 0x4, false, [⟨31, 0, .rw, 0, .any⟩]⟩]

/-- The registers of the INTC block (R209). -/
def regsINTC : List RegDesc := [
  ⟨0x60000, 512, 0x4, 1, 0x4, true, [⟨31, 31, .rw, 0, .any⟩, ⟨30, 30, .ro, 0, .any⟩, ⟨29, 29, .ro, 0, .any⟩, ⟨28, 28, .rw, 0, .any⟩, ⟨21, 16, .rw, 0, .any⟩, ⟨14, 14, .rw, 0, .any⟩, ⟨13, 8, .rw, 32, .range 0 32⟩, ⟨3, 0, .rw, 0, .any⟩]⟩,
  ⟨0x60800, 33, 0x4, 1, 0x4, true, [⟨3, 0, .rw, 0, .any⟩]⟩,
  ⟨0x60A00, 64, 0x4, 1, 0x4, false, [⟨31, 16, .rw, 0, .any⟩, ⟨15, 0, .rw, 0, .any⟩]⟩]

/-- The registers of the PORT block (R260). -/
def regsPORT : List RegDesc := [
  ⟨0x80000, 4, 0x8000, 1, 0x4, false, [⟨31, 31, .rw, 0, .any⟩, ⟨7, 6, .rw, 0, .range 0 2⟩, ⟨5, 5, .rw, 1, .any⟩, ⟨1, 0, .rw, 0, .range 0 2⟩]⟩,
  ⟨0x80004, 4, 0x8000, 1, 0x4, false, [⟨31, 31, .ro, 0, .any⟩, ⟨1, 0, .ro, 0, .any⟩]⟩,
  ⟨0x80010, 4, 0x8000, 1, 0x4, false, [⟨31, 0, .ro, 0, .any⟩]⟩,
  ⟨0x80014, 4, 0x8000, 1, 0x4, false, [⟨31, 0, .ro, 0, .any⟩]⟩,
  ⟨0x80018, 4, 0x8000, 1, 0x4, false, [⟨31, 0, .rw, 0, .any⟩]⟩,
  ⟨0x8001C, 4, 0x8000, 1, 0x4, false, [⟨31, 0, .rw, 0, .any⟩]⟩,
  ⟨0x80020, 4, 0x8000, 1, 0x4, false, [⟨31, 0, .rw, 0, .any⟩]⟩,
  ⟨0x80024, 4, 0x8000, 1, 0x4, false, [⟨31, 0, .rw, 0, .any⟩]⟩,
  ⟨0x80028, 4, 0x8000, 1, 0x4, false, [⟨31, 0, .rw, 0, .any⟩]⟩,
  ⟨0x8002C, 4, 0x8000, 1, 0x4, false, [⟨31, 0, .rw, 0, .any⟩]⟩,
  ⟨0xA0000, 2, 0x100, 1, 0x4, false, [⟨1, 0, .rw, 0, .range 0 2⟩]⟩,
  ⟨0xA0004, 2, 0x100, 1, 0x4, false, [⟨31, 0, .rw, 0, .any⟩]⟩,
  ⟨0xA0008, 2, 0x100, 1, 0x4, false, [⟨31, 0, .rw, 0, .any⟩]⟩,
  ⟨0xB0000, 1, 0x4, 1, 0x4, false, [⟨17, 16, .rw, 0, .range 0 2⟩, ⟨11, 8, .rw, 1, .any⟩, ⟨7, 0, .rw, 0, .any⟩]⟩,
  ⟨0xB0004, 1, 0x4, 1, 0x4, false, [⟨15, 8, .rw, 128, .any⟩, ⟨7, 0, .rw, 128, .any⟩]⟩,
  ⟨0xB0008, 1, 0x4, 1, 0x4, false, [⟨31, 0, .rw, 1000000, .range 1 1000000000⟩]⟩,
  ⟨0xB000C, 1, 0x4, 1, 0x4, false, [⟨31, 0, .rw, 20000, .range 1 1000000⟩]⟩,
  ⟨0xB0010, 1, 0x4, 1, 0x4, false, [⟨11, 0, .rw, 60, .range 1 3600⟩]⟩,
  ⟨0xB0014, 1, 0x4, 1, 0x4, false, [⟨31, 0, .rw, 0, .any⟩]⟩,
  ⟨0xB0018, 1, 0x4, 1, 0x4, false, [⟨31, 0, .rw, 0, .any⟩]⟩]

/-- The registers of the CLASS block (R260). -/
def regsCLASS : List RegDesc := [
  ⟨0xC0000, 1, 0x4, 1, 0x4, false, [⟨31, 16, .rw, 102, .any⟩, ⟨15, 0, .rw, 848, .any⟩]⟩,
  ⟨0xC0004, 1, 0x4, 1, 0x4, false, [⟨3, 2, .rw, 0, .range 0 1⟩, ⟨1, 0, .rw, 0, .range 0 1⟩]⟩,
  ⟨0xC0008, 1, 0x4, 1, 0x4, false, [⟨15, 0, .rw, 0, .any⟩]⟩,
  ⟨0xC000C, 1, 0x4, 1, 0x4, false, [⟨15, 0, .rw, 1, .any⟩]⟩,
  ⟨0xC0010, 1, 0x4, 1, 0x4, false, [⟨31, 0, .rw, 0, .any⟩]⟩,
  ⟨0xC0014, 1, 0x4, 1, 0x4, false, [⟨31, 0, .rw, 0, .any⟩]⟩]

/-- The registers of the ASSOC block (R260). -/
def regsASSOC : List RegDesc := [
  ⟨0x100000, 1, 0x4, 1, 0x4, false, [⟨31, 31, .wo, 0, .any⟩, ⟨3, 0, .wo, 0, .any⟩]⟩,
  ⟨0x100004, 1, 0x4, 1, 0x4, false, [⟨31, 31, .ro, 0, .any⟩, ⟨12, 8, .ro, 0, .any⟩, ⟨7, 0, .ro, 0, .any⟩]⟩,
  ⟨0x100008, 1, 0x4, 1, 0x4, false, [⟨20, 0, .rw, 0, .any⟩]⟩,
  ⟨0x10000C, 1, 0x4, 1, 0x4, false, [⟨31, 30, .rw, 0, .range 0 1⟩, ⟨27, 24, .rw, 1, .range 1 15⟩, ⟨22, 16, .rw, 1, .range 1 100⟩, ⟨8, 0, .rw, 128, .range 1 500⟩]⟩,
  ⟨0x100010, 1, 0x4, 1, 0x4, false, [⟨21, 0, .ro, 0, .any⟩]⟩,
  ⟨0x100014, 1, 0x4, 1, 0x4, false, [⟨17, 0, .ro, 0, .any⟩]⟩,
  ⟨0x100018, 1, 0x4, 1, 0x4, false, [⟨31, 0, .rw, 0, .any⟩]⟩,
  ⟨0x10001C, 1, 0x4, 1, 0x4, false, [⟨31, 0, .rw, 0, .any⟩]⟩,
  ⟨0x100020, 1, 0x4, 1, 0x4, false, [⟨31, 0, .rw, 0, .any⟩]⟩,
  ⟨0x100024, 1, 0x4, 1, 0x4, false, [⟨31, 0, .rw, 0, .any⟩]⟩,
  ⟨0x100028, 1, 0x4, 1, 0x4, false, [⟨15, 0, .ro, 0, .any⟩]⟩,
  ⟨0x10002C, 1, 0x4, 1, 0x4, false, [⟨20, 0, .ro, 0, .any⟩]⟩,
  ⟨0x100100, 32, 0x4, 1, 0x4, false, [⟨31, 0, .rw, 0, .any⟩]⟩,
  ⟨0x100200, 33, 0x4, 1, 0x4, false, [⟨31, 0, .rw, 0, .any⟩]⟩,
  ⟨0x100284, 1, 0x4, 1, 0x4, false, [⟨7, 0, .rw, 0, .range 0 129⟩]⟩,
  ⟨0x100300, 8, 0x4, 1, 0x4, false, [⟨31, 0, .rw, 0, .any⟩]⟩,
  ⟨0x100320, 1, 0x4, 1, 0x4, false, [⟨16, 16, .rw, 0, .any⟩, ⟨15, 0, .rw, 102, .any⟩]⟩,
  ⟨0x180000, 1, 0x4, 1, 0x4, true, [⟨31, 31, .rw, 0, .any⟩, ⟨19, 16, .rw, 2, .range 1 15⟩, ⟨12, 8, .rw, 1, .any⟩, ⟨4, 0, .rw, 0, .any⟩]⟩,
  ⟨0x180004, 1, 0x4, 1, 0x4, false, [⟨31, 31, .ro, 0, .any⟩, ⟨29, 24, .ro, 0, .any⟩, ⟨16, 16, .w1c, 0, .any⟩, ⟨8, 0, .ro, 0, .any⟩]⟩,
  ⟨0x180008, 1, 0x4, 1, 0x4, false, [⟨31, 31, .ro, 0, .any⟩, ⟨17, 16, .ro, 0, .any⟩, ⟨7, 0, .ro, 0, .any⟩]⟩,
  ⟨0x180010, 1, 0x4, 1, 0x4, false, [⟨31, 0, .rw, 0, .any⟩]⟩,
  ⟨0x180014, 1, 0x4, 1, 0x4, false, [⟨31, 0, .rw, 0, .any⟩]⟩,
  ⟨0x180018, 1, 0x4, 1, 0x4, false, [⟨31, 0, .rw, 0, .any⟩]⟩,
  ⟨0x18001C, 1, 0x4, 1, 0x4, false, [⟨31, 0, .rw, 0, .any⟩]⟩,
  ⟨0x180020, 1, 0x4, 1, 0x4, false, [⟨31, 0, .rw, 0, .any⟩]⟩,
  ⟨0x180024, 1, 0x4, 1, 0x4, false, [⟨31, 0, .rw, 0, .any⟩]⟩,
  ⟨0x180028, 1, 0x4, 1, 0x4, false, [⟨31, 0, .rw, 0, .any⟩]⟩,
  ⟨0x18002C, 1, 0x4, 1, 0x4, false, [⟨31, 0, .rw, 0, .any⟩]⟩,
  ⟨0x180030, 1, 0x4, 1, 0x4, false, [⟨31, 0, .rw, 0, .any⟩]⟩,
  ⟨0x181000, 4096, 0x4, 1, 0x4, true, [⟨4, 0, .rw, 0, .any⟩]⟩,
  ⟨0x188000, 8192, 0x4, 1, 0x4, false, [⟨31, 0, .rw, 0, .any⟩]⟩]

/-- The registers of the BOW block (R260). -/
def regsBOW : List RegDesc := [
  ⟨0x200000, 3, 0x8, 1, 0x4, false, [⟨31, 0, .rw, 0, .any⟩]⟩,
  ⟨0x200004, 3, 0x8, 1, 0x4, false, [⟨31, 0, .rw, 1, .any⟩]⟩,
  ⟨0x200020, 1, 0x4, 1, 0x4, false, [⟨31, 0, .rw, 16777216, .any⟩]⟩,
  ⟨0x200024, 1, 0x4, 1, 0x4, false, [⟨31, 0, .rw, 0, .any⟩]⟩,
  ⟨0x200028, 1, 0x4, 1, 0x4, false, [⟨17, 0, .ro, 0, .any⟩]⟩,
  ⟨0x20002C, 1, 0x4, 1, 0x4, false, [⟨17, 0, .ro, 0, .any⟩]⟩,
  ⟨0x200030, 1, 0x4, 1, 0x4, false, [⟨7, 0, .ro, 0, .any⟩]⟩,
  ⟨0x200034, 1, 0x4, 1, 0x4, false, [⟨31, 0, .rw, 0, .any⟩]⟩,
  ⟨0x200100, 8, 0x8, 1, 0x4, false, [⟨31, 0, .ro, 0, .any⟩]⟩,
  ⟨0x200104, 8, 0x8, 1, 0x4, false, [⟨31, 0, .ro, 0, .any⟩]⟩]

/-- The registers of the FE block (R209). -/
def regsFE : List RegDesc := [
  ⟨0x300000, 32, 0x8000, 1, 0x4, false, [⟨1, 1, .ro, 1, .any⟩, ⟨0, 0, .rw, 1, .any⟩]⟩,
  ⟨0x300004, 32, 0x8000, 1, 0x4, false, [⟨16, 16, .w1c, 0, .any⟩, ⟨10, 8, .ro, 0, .any⟩, ⟨5, 4, .ro, 3, .any⟩, ⟨2, 0, .ro, 3, .any⟩]⟩,
  ⟨0x300008, 32, 0x8000, 1, 0x4, true, [⟨23, 0, .rw, 32768, .any⟩]⟩,
  ⟨0x30000C, 32, 0x8000, 1, 0x4, true, [⟨23, 0, .rw, 32768, .any⟩]⟩,
  ⟨0x300010, 32, 0x8000, 1, 0x4, true, [⟨15, 0, .rw, 32768, .any⟩]⟩,
  ⟨0x300014, 32, 0x8000, 1, 0x4, false, [⟨23, 0, .rw, 0, .any⟩]⟩,
  ⟨0x300020, 32, 0x8000, 8, 0x4, true, [⟨31, 31, .rw, 0, .any⟩, ⟨24, 24, .rw, 0, .any⟩, ⟨23, 0, .rw, 0, .any⟩]⟩,
  ⟨0x300040, 32, 0x8000, 4, 0x4, false, [⟨23, 0, .rw, 0, .any⟩]⟩,
  ⟨0x300050, 32, 0x8000, 2, 0x4, false, [⟨23, 0, .rw, 0, .any⟩]⟩,
  ⟨0x300058, 32, 0x8000, 2, 0x4, false, [⟨23, 0, .rw, 0, .any⟩]⟩,
  ⟨0x300060, 32, 0x8000, 2, 0x4, false, [⟨23, 0, .rw, 0, .any⟩]⟩,
  ⟨0x300068, 32, 0x8000, 1, 0x4, false, [⟨31, 16, .ro, 0, .any⟩, ⟨15, 0, .ro, 0, .any⟩]⟩,
  ⟨0x30006C, 32, 0x8000, 1, 0x4, false, [⟨21, 16, .ro, 0, .any⟩, ⟨15, 8, .ro, 0, .any⟩, ⟨1, 0, .ro, 0, .any⟩]⟩,
  ⟨0x300070, 32, 0x8000, 1, 0x4, false, [⟨31, 0, .rw, 0, .any⟩]⟩,
  ⟨0x300100, 32, 0x8000, 8, 0x8, true, [⟨31, 31, .rw, 0, .any⟩, ⟨20, 0, .rw, 0, .any⟩]⟩,
  ⟨0x300104, 32, 0x8000, 8, 0x8, true, [⟨20, 0, .rw, 0, .any⟩]⟩]

/-- The registers of the QUEUE block (R302). -/
def regsQUEUE : List RegDesc := [
  ⟨0x400000, 65536, 0x40, 1, 0x4, false, [⟨31, 12, .rw, 0, .any⟩]⟩,
  ⟨0x400004, 65536, 0x40, 1, 0x4, false, [⟨31, 0, .rw, 0, .any⟩]⟩,
  ⟨0x400008, 65536, 0x40, 1, 0x4, false, [⟨31, 31, .rw, 0, .any⟩, ⟨30, 30, .rw, 0, .any⟩, ⟨29, 29, .rw, 0, .any⟩, ⟨27, 17, .rw, 0, .any⟩, ⟨16, 0, .rw, 16, .pow2 16 65536⟩]⟩,
  ⟨0x40000C, 65536, 0x40, 1, 0x4, false, [⟨31, 31, .ro, 0, .any⟩, ⟨16, 16, .w1c, 0, .any⟩, ⟨3, 0, .ro, 0, .any⟩]⟩,
  ⟨0x400010, 65536, 0x40, 1, 0x4, false, [⟨31, 0, .ro, 0, .any⟩]⟩,
  ⟨0x400014, 65536, 0x40, 1, 0x4, false, [⟨31, 0, .ro, 0, .any⟩]⟩,
  ⟨0x400018, 65536, 0x40, 1, 0x4, false, [⟨31, 0, .ro, 0, .any⟩]⟩,
  ⟨0x40001C, 65536, 0x40, 1, 0x4, false, [⟨31, 0, .ro, 0, .any⟩]⟩,
  ⟨0x400020, 65536, 0x40, 1, 0x4, false, [⟨31, 0, .rw, 0, .any⟩]⟩,
  ⟨0x400024, 65536, 0x40, 1, 0x4, false, [⟨31, 0, .rw, 0, .any⟩]⟩]

/-- The registers of the QG block (R302). -/
def regsQG : List RegDesc := [
  ⟨0x800000, 1024, 0x40, 1, 0x4, false, [⟨23, 0, .rw, 0, .any⟩]⟩,
  ⟨0x800004, 1024, 0x40, 1, 0x4, false, [⟨15, 0, .rw, 0, .any⟩]⟩,
  ⟨0x800008, 1024, 0x40, 1, 0x4, false, [⟨23, 0, .ro, 0, .any⟩]⟩,
  ⟨0x80000C, 1024, 0x40, 1, 0x4, false, [⟨21, 16, .ro, 0, .any⟩, ⟨15, 15, .ro, 1, .any⟩, ⟨6, 0, .ro, 0, .any⟩]⟩,
  ⟨0x800010, 1024, 0x40, 1, 0x4, false, [⟨31, 0, .ro, 0, .any⟩]⟩,
  ⟨0x800014, 1024, 0x40, 1, 0x4, false, [⟨31, 0, .ro, 0, .any⟩]⟩]

/-- The registers of the BRIDGE block (R302). -/
def regsBRIDGE : List RegDesc := [
  ⟨0x1000000, 1, 0x4, 1, 0x4, false, [⟨31, 31, .ro, 0, .any⟩, ⟨30, 30, .ro, 0, .any⟩, ⟨26, 24, .ro, 0, .any⟩, ⟨19, 16, .ro, 0, .any⟩, ⟨12, 0, .ro, 0, .any⟩]⟩,
  ⟨0x1000004, 1, 0x4, 1, 0x4, false, [⟨29, 28, .ro, 0, .any⟩, ⟨25, 2, .ro, 16777215, .any⟩, ⟨1, 0, .rw, 2, .range 0 2⟩]⟩,
  ⟨0x1000008, 1, 0x4, 1, 0x4, true, [⟨31, 31, .rw, 0, .any⟩, ⟨4, 0, .ro, 0, .any⟩]⟩,
  ⟨0x100000C, 1, 0x4, 1, 0x4, false, [⟨31, 28, .ro, 0, .any⟩, ⟨15, 0, .ro, 0, .any⟩]⟩,
  ⟨0x1000010, 1, 0x4, 1, 0x4, false, [⟨31, 0, .rw, 0, .any⟩]⟩,
  ⟨0x1000014, 1, 0x4, 1, 0x4, false, [⟨31, 0, .w1c, 0, .any⟩]⟩,
  ⟨0x1000100, 64, 0x20, 1, 0x4, true, [⟨26, 26, .rw, 0, .any⟩, ⟨25, 16, .rw, 0, .any⟩, ⟨9, 0, .rw, 0, .any⟩]⟩,
  ⟨0x1000104, 64, 0x20, 1, 0x4, true, [⟨27, 16, .rw, 0, .any⟩, ⟨10, 0, .rw, 0, .any⟩]⟩,
  ⟨0x1000108, 64, 0x20, 1, 0x4, true, [⟨31, 31, .ro, 0, .any⟩, ⟨30, 30, .rw, 0, .any⟩, ⟨15, 0, .rw, 0, .any⟩]⟩,
  ⟨0x100010C, 64, 0x20, 1, 0x4, true, [⟨31, 0, .ro, 0, .any⟩]⟩,
  ⟨0x1000110, 64, 0x20, 1, 0x4, true, [⟨31, 0, .ro, 0, .any⟩]⟩,
  ⟨0x1000900, 64, 0x10, 1, 0x4, true, [⟨31, 0, .rw, 0, .mult 4096⟩]⟩,
  ⟨0x1000904, 64, 0x10, 1, 0x4, true, [⟨31, 0, .rw, 0, .any⟩]⟩,
  ⟨0x1000908, 64, 0x10, 1, 0x4, true, [⟨31, 31, .rw, 0, .any⟩, ⟨5, 0, .rw, 0, .any⟩]⟩,
  ⟨0x1080000, 2048, 0x10, 1, 0x4, false, [⟨31, 2, .rw, 0, .any⟩]⟩,
  ⟨0x1080004, 2048, 0x10, 1, 0x4, false, [⟨31, 0, .rw, 0, .any⟩]⟩,
  ⟨0x1080008, 2048, 0x10, 1, 0x4, false, [⟨31, 0, .rw, 0, .any⟩]⟩,
  ⟨0x108000C, 2048, 0x10, 1, 0x4, false, [⟨0, 0, .rw, 1, .any⟩]⟩,
  ⟨0x1088000, 64, 0x4, 1, 0x4, false, [⟨31, 0, .ro, 0, .any⟩]⟩]

/-- The registers of the SOUND block (R370). -/
def regsSOUND : List RegDesc := [
  ⟨0x1100000, 1, 0x4, 1, 0x4, true, [⟨23, 8, .rw, 60, .range 1 3600⟩, ⟨1, 0, .rw, 1, .range 1 2⟩]⟩,
  ⟨0x1100004, 1, 0x4, 1, 0x4, false, [⟨31, 16, .ro, 0, .any⟩, ⟨15, 0, .ro, 0, .any⟩]⟩,
  ⟨0x1100008, 1, 0x4, 1, 0x4, false, [⟨31, 28, .ro, 0, .any⟩, ⟨9, 0, .ro, 0, .any⟩]⟩,
  ⟨0x110000C, 1, 0x4, 1, 0x4, false, [⟨31, 16, .rw, 512, .any⟩, ⟨15, 0, .rw, 1024, .range 16 65535⟩]⟩,
  ⟨0x1100010, 1, 0x4, 1, 0x4, false, [⟨31, 0, .rw, 65536, .any⟩]⟩,
  ⟨0x1100014, 1, 0x4, 1, 0x4, false, [⟨11, 0, .ro, 0, .any⟩]⟩,
  ⟨0x1100018, 1, 0x4, 1, 0x4, false, [⟨31, 0, .rw, 0, .any⟩]⟩,
  ⟨0x110001C, 1, 0x4, 1, 0x4, false, [⟨31, 0, .ro, 0, .any⟩]⟩,
  ⟨0x1100020, 1, 0x4, 1, 0x4, false, [⟨31, 0, .ro, 0, .any⟩]⟩,
  ⟨0x1100024, 1, 0x4, 1, 0x4, false, [⟨31, 0, .ro, 0, .any⟩]⟩,
  ⟨0x1100028, 1, 0x4, 1, 0x4, false, [⟨1, 0, .ro, 1, .any⟩]⟩,
  ⟨0x1100100, 16, 0x40, 1, 0x4, false, [⟨0, 0, .rw, 0, .any⟩]⟩,
  ⟨0x1100104, 16, 0x40, 1, 0x4, false, [⟨31, 28, .ro, 3, .any⟩, ⟨25, 16, .ro, 0, .any⟩, ⟨11, 0, .ro, 0, .any⟩]⟩,
  ⟨0x1100108, 16, 0x40, 1, 0x4, false, [⟨31, 0, .ro, 0, .any⟩]⟩,
  ⟨0x110010C, 16, 0x40, 1, 0x4, false, [⟨31, 0, .ro, 0, .any⟩]⟩,
  ⟨0x1100110, 16, 0x40, 1, 0x4, false, [⟨31, 0, .ro, 0, .any⟩]⟩,
  ⟨0x1100114, 16, 0x40, 1, 0x4, false, [⟨31, 0, .ro, 0, .any⟩]⟩,
  ⟨0x1100118, 16, 0x40, 1, 0x4, false, [⟨31, 31, .ro, 0, .any⟩, ⟨23, 0, .ro, 0, .any⟩]⟩,
  ⟨0x1110000, 1024, 0x40, 1, 0x4, false, [⟨31, 3, .rw, 0, .any⟩]⟩,
  ⟨0x1110004, 1024, 0x40, 1, 0x4, false, [⟨7, 0, .rw, 0, .any⟩]⟩,
  ⟨0x1110008, 1024, 0x40, 1, 0x4, true, [⟨31, 31, .rw, 0, .any⟩, ⟨30, 30, .rw, 0, .any⟩, ⟨29, 29, .rw, 0, .any⟩, ⟨28, 28, .rw, 0, .any⟩, ⟨27, 26, .rw, 0, .any⟩, ⟨19, 16, .rw, 4, .range 4 12⟩]⟩,
  ⟨0x111000C, 1024, 0x40, 1, 0x4, true, [⟨14, 8, .rw, 0, .range 0 95⟩, ⟨7, 0, .rw, 64, .any⟩]⟩,
  ⟨0x1110010, 1024, 0x40, 1, 0x4, false, [⟨15, 0, .rw, 65535, .range 1 65535⟩]⟩,
  ⟨0x1110014, 1024, 0x40, 1, 0x4, false, [⟨31, 6, .rw, 0, .any⟩]⟩,
  ⟨0x1110018, 1024, 0x40, 1, 0x4, false, [⟨7, 0, .rw, 0, .any⟩]⟩,
  ⟨0x111001C, 1024, 0x40, 1, 0x4, false, [⟨31, 6, .rw, 0, .any⟩]⟩,
  ⟨0x1110020, 1024, 0x40, 1, 0x4, false, [⟨7, 0, .rw, 0, .any⟩]⟩,
  ⟨0x1110024, 1024, 0x40, 1, 0x4, false, [⟨31, 0, .rw, 0, .any⟩]⟩,
  ⟨0x1110028, 1024, 0x40, 1, 0x4, false, [⟨31, 0, .ro, 0, .any⟩]⟩,
  ⟨0x111002C, 1024, 0x40, 1, 0x4, false, [⟨31, 31, .ro, 0, .any⟩, ⟨30, 30, .w1c, 0, .any⟩, ⟨23, 16, .ro, 0, .any⟩, ⟨8, 8, .w1c, 0, .any⟩, ⟨3, 0, .ro, 0, .any⟩]⟩,
  ⟨0x1110030, 1024, 0x40, 1, 0x4, false, [⟨15, 0, .rw, 1000, .any⟩]⟩,
  ⟨0x1110034, 1024, 0x40, 1, 0x4, false, [⟨31, 31, .rw, 0, .any⟩, ⟨10, 0, .rw, 0, .any⟩]⟩,
  ⟨0x1110038, 1024, 0x40, 1, 0x4, false, [⟨31, 0, .rw, 0, .any⟩]⟩,
  ⟨0x111003C, 1024, 0x40, 1, 0x4, false, [⟨31, 31, .wo, 0, .any⟩]⟩]

/-- The registers of the VERIFY block (R382). -/
def regsVERIFY : List RegDesc := [
  ⟨0x1300000, 1, 0x4, 1, 0x4, false, [⟨31, 0, .rw, 0, .any⟩]⟩,
  ⟨0x1300100, 8, 0x4, 1, 0x4, false, [⟨31, 30, .ro, 0, .any⟩, ⟨27, 20, .ro, 0, .any⟩, ⟨19, 10, .ro, 0, .any⟩, ⟨9, 0, .ro, 0, .any⟩]⟩,
  ⟨0x1301000, 4, 0x100, 1, 0x4, true, [⟨7, 0, .rw, 64, .any⟩]⟩,
  ⟨0x1301004, 4, 0x100, 1, 0x4, false, [⟨31, 31, .wo, 0, .any⟩, ⟨30, 30, .wo, 0, .any⟩, ⟨27, 24, .wo, 0, .any⟩, ⟨22, 20, .wo, 0, .any⟩, ⟨17, 16, .wo, 0, .any⟩, ⟨11, 0, .wo, 0, .any⟩]⟩,
  ⟨0x1301008, 4, 0x100, 1, 0x4, false, [⟨25, 19, .rw, 0, .any⟩, ⟨18, 10, .rw, 0, .any⟩, ⟨9, 0, .rw, 0, .any⟩]⟩,
  ⟨0x130100C, 4, 0x100, 1, 0x4, false, [⟨31, 31, .w1c, 0, .any⟩, ⟨30, 30, .ro, 0, .any⟩, ⟨29, 29, .w1c, 0, .any⟩, ⟨28, 28, .ro, 0, .any⟩, ⟨15, 8, .ro, 0, .any⟩, ⟨7, 0, .ro, 0, .any⟩]⟩,
  ⟨0x1301010, 4, 0x100, 1, 0x4, false, [⟨31, 0, .rw, 0, .any⟩]⟩,
  ⟨0x1301014, 4, 0x100, 1, 0x4, false, [⟨7, 0, .rw, 0, .any⟩]⟩,
  ⟨0x1301018, 4, 0x100, 1, 0x4, false, [⟨23, 0, .rw, 0, .any⟩]⟩,
  ⟨0x130101C, 4, 0x100, 1, 0x4, false, [⟨31, 0, .rw, 0, .any⟩]⟩,
  ⟨0x1301020, 4, 0x100, 1, 0x4, false, [⟨7, 0, .rw, 0, .any⟩]⟩,
  ⟨0x1301024, 4, 0x100, 1, 0x4, false, [⟨23, 0, .rw, 0, .any⟩]⟩,
  ⟨0x1301028, 4, 0x100, 1, 0x4, false, [⟨31, 6, .rw, 0, .any⟩]⟩,
  ⟨0x130102C, 4, 0x100, 1, 0x4, false, [⟨7, 0, .rw, 0, .any⟩]⟩,
  ⟨0x1301030, 4, 0x100, 1, 0x4, false, [⟨31, 6, .rw, 0, .any⟩]⟩,
  ⟨0x1301034, 4, 0x100, 1, 0x4, false, [⟨7, 0, .rw, 0, .any⟩]⟩,
  ⟨0x1301038, 4, 0x100, 1, 0x4, false, [⟨15, 0, .rw, 100, .any⟩]⟩,
  ⟨0x130103C, 4, 0x100, 1, 0x4, false, [⟨31, 31, .wo, 0, .any⟩]⟩,
  ⟨0x1301040, 4, 0x100, 1, 0x4, false, [⟨31, 31, .rw, 0, .any⟩, ⟨10, 0, .rw, 0, .any⟩]⟩,
  ⟨0x1301044, 4, 0x100, 1, 0x4, false, [⟨31, 0, .ro, 0, .any⟩]⟩,
  ⟨0x1301048, 4, 0x100, 1, 0x4, false, [⟨31, 0, .ro, 0, .any⟩]⟩]

/-- The registers of the DIGEST block (R396). -/
def regsDIGEST : List RegDesc := [
  ⟨0x1340000, 1, 0x4, 1, 0x4, false, [⟨31, 28, .ro, 0, .any⟩, ⟨2, 0, .ro, 0, .any⟩]⟩,
  ⟨0x1340004, 1, 0x4, 1, 0x4, false, [⟨15, 8, .ro, 0, .any⟩, ⟨7, 0, .ro, 0, .any⟩]⟩,
  ⟨0x1340008, 1, 0x4, 1, 0x4, false, [⟨31, 0, .ro, 0, .any⟩]⟩,
  ⟨0x134000C, 1, 0x4, 1, 0x4, false, [⟨31, 0, .ro, 0, .any⟩]⟩,
  ⟨0x1340100, 8, 0x10, 1, 0x4, false, [⟨31, 28, .ro, 3, .any⟩, ⟨11, 0, .ro, 0, .any⟩]⟩,
  ⟨0x1340104, 8, 0x10, 1, 0x4, false, [⟨31, 0, .ro, 0, .any⟩]⟩,
  ⟨0x1340108, 8, 0x10, 1, 0x4, false, [⟨31, 0, .ro, 0, .any⟩]⟩,
  ⟨0x1341000, 8, 0x40, 1, 0x4, false, [⟨31, 3, .rw, 0, .any⟩]⟩,
  ⟨0x1341004, 8, 0x40, 1, 0x4, false, [⟨7, 0, .rw, 0, .any⟩]⟩,
  ⟨0x1341008, 8, 0x40, 1, 0x4, true, [⟨31, 31, .rw, 0, .any⟩, ⟨29, 29, .rw, 0, .any⟩, ⟨28, 28, .rw, 0, .any⟩, ⟨19, 16, .rw, 4, .range 4 12⟩]⟩,
  ⟨0x134100C, 8, 0x40, 1, 0x4, true, [⟨7, 0, .rw, 64, .any⟩]⟩,
  ⟨0x1341014, 8, 0x40, 1, 0x4, false, [⟨31, 6, .rw, 0, .any⟩]⟩,
  ⟨0x1341018, 8, 0x40, 1, 0x4, false, [⟨7, 0, .rw, 0, .any⟩]⟩,
  ⟨0x134101C, 8, 0x40, 1, 0x4, false, [⟨31, 6, .rw, 0, .any⟩]⟩,
  ⟨0x1341020, 8, 0x40, 1, 0x4, false, [⟨7, 0, .rw, 0, .any⟩]⟩,
  ⟨0x1341024, 8, 0x40, 1, 0x4, false, [⟨31, 0, .rw, 0, .any⟩]⟩,
  ⟨0x1341028, 8, 0x40, 1, 0x4, false, [⟨31, 0, .ro, 0, .any⟩]⟩,
  ⟨0x134102C, 8, 0x40, 1, 0x4, false, [⟨31, 31, .ro, 0, .any⟩, ⟨30, 30, .w1c, 0, .any⟩, ⟨23, 16, .ro, 0, .any⟩, ⟨8, 8, .w1c, 0, .any⟩, ⟨3, 0, .ro, 0, .any⟩]⟩,
  ⟨0x1341030, 8, 0x40, 1, 0x4, false, [⟨15, 0, .rw, 1000, .any⟩]⟩,
  ⟨0x1341034, 8, 0x40, 1, 0x4, false, [⟨31, 31, .rw, 0, .any⟩, ⟨10, 0, .rw, 0, .any⟩]⟩,
  ⟨0x1341038, 8, 0x40, 1, 0x4, false, [⟨31, 0, .rw, 0, .any⟩]⟩,
  ⟨0x134103C, 8, 0x40, 1, 0x4, false, [⟨31, 31, .wo, 0, .any⟩]⟩]

/-- The registers of the ROSIN block (R418). -/
def regsROSIN : List RegDesc := [
  ⟨0x1380000, 1, 0x4, 1, 0x4, true, [⟨22, 16, .rw, 16, .range 1 64⟩, ⟨9, 0, .rw, 64, .range 0 512⟩]⟩,
  ⟨0x1380004, 1, 0x4, 1, 0x4, false, [⟨31, 29, .ro, 0, .any⟩, ⟨22, 16, .ro, 0, .any⟩, ⟨10, 0, .ro, 0, .any⟩]⟩,
  ⟨0x1380008, 1, 0x4, 1, 0x4, true, [⟨15, 0, .rw, 10, .range 1 60000⟩]⟩,
  ⟨0x138000C, 1, 0x4, 1, 0x4, true, [⟨31, 28, .rw, 3, .range 1 15⟩, ⟨22, 16, .rw, 4, .range 2 64⟩, ⟨13, 0, .rw, 256, .range 16 10000⟩]⟩,
  ⟨0x1380010, 1, 0x4, 1, 0x4, true, [⟨7, 0, .rw, 51, .range 16 255⟩]⟩,
  ⟨0x1380014, 1, 0x4, 1, 0x4, true, [⟨10, 0, .rw, 700, .range 513 1024⟩]⟩,
  ⟨0x1380018, 1, 0x4, 1, 0x4, true, [⟨16, 0, .rw, 2048, .range 1 65536⟩]⟩,
  ⟨0x138001C, 1, 0x4, 1, 0x4, true, [⟨16, 0, .rw, 2048, .range 1 65536⟩]⟩,
  ⟨0x1380020, 1, 0x4, 1, 0x4, true, [⟨12, 0, .rw, 768, .range 1 8192⟩]⟩,
  ⟨0x1380024, 1, 0x4, 1, 0x4, true, [⟨23, 16, .rw, 3, .range 1 255⟩, ⟨11, 0, .rw, 60, .range 1 3600⟩]⟩,
  ⟨0x1380028, 1, 0x4, 1, 0x4, false, [⟨31, 0, .ro, 0, .any⟩]⟩,
  ⟨0x138002C, 1, 0x4, 1, 0x4, false, [⟨31, 0, .ro, 0, .any⟩]⟩,
  ⟨0x1380030, 1, 0x4, 1, 0x4, false, [⟨31, 0, .ro, 0, .any⟩]⟩,
  ⟨0x1380034, 1, 0x4, 1, 0x4, false, [⟨31, 28, .ro, 0, .any⟩, ⟨5, 0, .ro, 0, .any⟩]⟩,
  ⟨0x1380038, 1, 0x4, 1, 0x4, false, [⟨31, 0, .ro, 0, .any⟩]⟩,
  ⟨0x138003C, 1, 0x4, 1, 0x4, false, [⟨31, 0, .ro, 0, .any⟩]⟩,
  ⟨0x1380040, 2, 0x10, 1, 0x4, true, []⟩,
  ⟨0x1380060, 4, 0x10, 1, 0x4, true, [⟨7, 0, .rw, 1, .range 1 255⟩]⟩,
  ⟨0x1380044, 6, 0x10, 1, 0x4, false, [⟨31, 0, .rw, 0, .any⟩]⟩,
  ⟨0x1380048, 6, 0x10, 1, 0x4, false, [⟨31, 0, .ro, 0, .any⟩]⟩,
  ⟨0x138004C, 6, 0x10, 1, 0x4, false, [⟨31, 0, .ro, 0, .any⟩]⟩,
  ⟨0x13800C0, 1, 0x4, 1, 0x4, false, [⟨31, 31, .wo, 0, .any⟩, ⟨30, 30, .ro, 0, .any⟩, ⟨29, 29, .ro, 0, .any⟩, ⟨7, 0, .ro, 0, .any⟩]⟩,
  ⟨0x1380100, 16, 0x4, 1, 0x4, false, [⟨31, 0, .ro, 0, .any⟩]⟩,
  ⟨0x1380200, 64, 0x40, 1, 0x4, false, [⟨31, 30, .ro, 1, .any⟩, ⟨29, 29, .ro, 0, .any⟩, ⟨26, 24, .ro, 0, .any⟩]⟩,
  ⟨0x1380204, 64, 0x40, 1, 0x4, false, [⟨31, 0, .ro, 0, .any⟩]⟩,
  ⟨0x1380208, 64, 0x40, 8, 0x4, false, [⟨31, 0, .ro, 0, .any⟩]⟩,
  ⟨0x1380228, 64, 0x40, 1, 0x4, false, [⟨31, 0, .rw, 0, .any⟩]⟩,
  ⟨0x138022C, 64, 0x40, 1, 0x4, false, [⟨31, 0, .ro, 0, .any⟩]⟩,
  ⟨0x1382000, 4, 0x10, 1, 0x4, false, [⟨31, 31, .ro, 0, .any⟩, ⟨23, 0, .ro, 0, .any⟩]⟩,
  ⟨0x1382100, 1, 0x4, 1, 0x4, true, [⟨31, 31, .ro, 0, .any⟩, ⟨21, 16, .ro, 0, .any⟩, ⟨15, 0, .rw, 3600, .zeroOr 60 65535⟩]⟩]

/-- The registers of the KEY block (R453). -/
def regsKEY : List RegDesc := [
  ⟨0x13C0000, 1, 0x4, 1, 0x4, true, [⟨31, 30, .ro, 0, .any⟩, ⟨29, 29, .ro, 0, .any⟩, ⟨28, 28, .ro, 0, .any⟩]⟩,
  ⟨0x13C0004, 1, 0x4, 1, 0x4, true, [⟨15, 0, .rw, 1000, .range 1 60000⟩]⟩,
  ⟨0x13C0008, 1, 0x4, 1, 0x4, true, [⟨31, 31, .wo, 0, .any⟩, ⟨3, 0, .wo, 0, .any⟩]⟩,
  ⟨0x13C000C, 1, 0x4, 1, 0x4, true, [⟨31, 31, .ro, 0, .any⟩, ⟨15, 8, .ro, 0, .any⟩, ⟨7, 0, .ro, 0, .any⟩]⟩,
  ⟨0x13C0010, 1, 0x4, 1, 0x4, true, [⟨17, 0, .rw, 0, .any⟩]⟩,
  ⟨0x13C0014, 1, 0x4, 1, 0x4, true, [⟨31, 28, .rw, 0, .range 0 6⟩, ⟨27, 27, .rw, 0, .any⟩, ⟨21, 16, .rw, 0, .any⟩, ⟨13, 0, .rw, 0, .any⟩]⟩,
  ⟨0x13C0018, 1, 0x4, 1, 0x4, true, [⟨6, 0, .rw, 0, .any⟩]⟩,
  ⟨0x13C001C, 1, 0x4, 1, 0x4, true, [⟨31, 0, .rw, 0, .any⟩]⟩,
  ⟨0x13C0020, 1, 0x4, 1, 0x4, true, [⟨31, 0, .rw, 0, .any⟩]⟩,
  ⟨0x13C0024, 1, 0x4, 1, 0x4, true, [⟨31, 0, .rw, 0, .any⟩]⟩,
  ⟨0x13C0028, 1, 0x4, 1, 0x4, true, [⟨7, 0, .rw, 0, .any⟩]⟩,
  ⟨0x13C002C, 1, 0x4, 1, 0x4, true, [⟨23, 0, .rw, 0, .any⟩]⟩,
  ⟨0x13C0030, 1, 0x4, 1, 0x4, true, [⟨17, 0, .rw, 0, .any⟩]⟩,
  ⟨0x13C0034, 1, 0x4, 1, 0x4, true, [⟨18, 0, .ro, 0, .any⟩]⟩,
  ⟨0x13C0038, 1, 0x4, 1, 0x4, true, [⟨12, 0, .ro, 0, .any⟩]⟩,
  ⟨0x13C003C, 1, 0x4, 1, 0x4, true, [⟨31, 0, .ro, 0, .any⟩]⟩,
  ⟨0x13C0040, 1, 0x4, 1, 0x4, true, [⟨31, 0, .ro, 0, .any⟩]⟩,
  ⟨0x13C0044, 1, 0x4, 1, 0x4, true, [⟨12, 0, .ro, 0, .any⟩]⟩,
  ⟨0x13C0048, 1, 0x4, 1, 0x4, true, [⟨31, 31, .ro, 0, .any⟩, ⟨17, 0, .ro, 0, .any⟩]⟩,
  ⟨0x13C004C, 1, 0x4, 1, 0x4, true, [⟨31, 0, .ro, 0, .any⟩]⟩,
  ⟨0x13C0100, 8, 0x4, 1, 0x4, true, [⟨31, 0, .ro, 0, .any⟩]⟩,
  ⟨0x13C1000, 1, 0x4, 1, 0x4, true, [⟨31, 31, .wo, 0, .any⟩, ⟨30, 30, .wo, 0, .any⟩, ⟨29, 28, .rw, 0, .range 0 2⟩, ⟨27, 24, .rw, 2, .any⟩, ⟨23, 20, .rw, 2, .range 2 8⟩, ⟨16, 16, .rw, 0, .any⟩]⟩,
  ⟨0x13C1004, 1, 0x4, 1, 0x4, true, [⟨31, 29, .ro, 0, .any⟩, ⟨23, 16, .ro, 0, .any⟩, ⟨15, 8, .ro, 0, .any⟩, ⟨7, 0, .ro, 0, .any⟩]⟩,
  ⟨0x13C1008, 1, 0x4, 1, 0x4, true, [⟨17, 0, .rw, 0, .any⟩]⟩,
  ⟨0x13C100C, 1, 0x4, 1, 0x4, true, [⟨31, 31, .wo, 0, .any⟩, ⟨3, 0, .wo, 0, .any⟩]⟩,
  ⟨0x13C1010, 1, 0x4, 1, 0x4, true, [⟨11, 0, .rw, 600, .range 60 3600⟩]⟩,
  ⟨0x13C1014, 1, 0x4, 1, 0x4, true, [⟨31, 31, .ro, 0, .any⟩, ⟨11, 0, .rw, 300, .range 10 3600⟩]⟩,
  ⟨0x13C1020, 4, 0x4, 1, 0x4, true, [⟨31, 0, .rw, 0, .any⟩]⟩,
  ⟨0x13C1030, 4, 0x4, 1, 0x4, true, [⟨31, 0, .rw, 0, .any⟩]⟩]

/-- The registers of the CASE block (R488). -/
def regsCASE : List RegDesc := [
  ⟨0x1400000, 1, 0x4, 1, 0x4, false, [⟨31, 31, .wo, 0, .any⟩, ⟨3, 0, .wo, 0, .any⟩]⟩,
  ⟨0x1400004, 1, 0x4, 1, 0x4, false, [⟨31, 31, .ro, 0, .any⟩, ⟨26, 24, .ro, 0, .any⟩, ⟨23, 16, .ro, 0, .any⟩, ⟨15, 8, .ro, 0, .any⟩, ⟨7, 0, .ro, 0, .any⟩]⟩,
  ⟨0x1400008, 1, 0x4, 1, 0x4, false, [⟨24, 16, .rw, 0, .any⟩, ⟨15, 8, .rw, 0, .any⟩, ⟨6, 0, .rw, 0, .any⟩]⟩,
  ⟨0x140000C, 1, 0x4, 1, 0x4, false, [⟨12, 0, .rw, 0, .any⟩]⟩,
  ⟨0x1400010, 1, 0x4, 1, 0x4, false, [⟨31, 0, .rw, 0, .any⟩]⟩,
  ⟨0x1400014, 1, 0x4, 1, 0x4, false, [⟨7, 0, .rw, 0, .any⟩]⟩,
  ⟨0x1400018, 1, 0x4, 1, 0x4, false, [⟨31, 31, .ro, 0, .any⟩, ⟨30, 30, .ro, 1, .any⟩, ⟨4, 0, .ro, 16, .any⟩]⟩,
  ⟨0x140001C, 1, 0x4, 1, 0x4, false, [⟨0, 0, .ro, 0, .any⟩]⟩,
  ⟨0x1400020, 1, 0x4, 1, 0x4, false, [⟨31, 0, .rw, 0, .any⟩]⟩,
  ⟨0x1400024, 1, 0x4, 1, 0x4, false, [⟨31, 0, .rw, 0, .any⟩]⟩,
  ⟨0x1400028, 1, 0x4, 1, 0x4, false, [⟨31, 0, .rw, 0, .any⟩]⟩,
  ⟨0x140002C, 1, 0x4, 1, 0x4, false, [⟨31, 0, .ro, 0, .any⟩]⟩,
  ⟨0x1400030, 1, 0x4, 1, 0x4, false, [⟨31, 0, .ro, 0, .any⟩]⟩,
  ⟨0x1400034, 1, 0x4, 1, 0x4, false, [⟨24, 8, .ro, 0, .any⟩]⟩,
  ⟨0x1400038, 1, 0x4, 1, 0x4, false, [⟨31, 0, .ro, 0, .any⟩]⟩,
  ⟨0x140003C, 1, 0x4, 1, 0x4, false, [⟨31, 0, .ro, 0, .any⟩]⟩,
  ⟨0x1400040, 1, 0x4, 1, 0x4, false, [⟨31, 16, .rw, 365, .range 1 3650⟩, ⟨14, 8, .rw, 48, .range 1 72⟩, ⟨2, 0, .rw, 3, .range 1 7⟩]⟩,
  ⟨0x1400050, 4, 0x4, 1, 0x4, false, [⟨31, 0, .ro, 0, .any⟩]⟩,
  ⟨0x1400100, 9, 0x10, 1, 0x4, false, [⟨24, 16, .ro, 0, .any⟩, ⟨8, 0, .ro, 0, .any⟩]⟩,
  ⟨0x1400104, 9, 0x10, 1, 0x4, false, [⟨31, 31, .ro, 0, .any⟩, ⟨30, 30, .ro, 0, .any⟩, ⟨4, 0, .ro, 0, .any⟩]⟩,
  ⟨0x1400108, 9, 0x10, 1, 0x4, false, [⟨7, 4, .ro, 0, .any⟩, ⟨3, 0, .ro, 0, .any⟩]⟩,
  ⟨0x1400200, 8, 0x10, 1, 0x4, false, [⟨31, 31, .sl, 0, .any⟩, ⟨24, 16, .sl, 0, .any⟩, ⟨8, 0, .sl, 0, .any⟩]⟩,
  ⟨0x1400204, 8, 0x10, 1, 0x4, false, [⟨31, 31, .sl, 0, .any⟩, ⟨30, 30, .sl, 0, .any⟩, ⟨4, 0, .sl, 0, .any⟩]⟩,
  ⟨0x1400208, 8, 0x10, 1, 0x4, false, [⟨7, 4, .sl, 0, .any⟩, ⟨3, 0, .sl, 0, .any⟩]⟩,
  ⟨0x1401000, 1024, 0x4, 1, 0x4, false, [⟨31, 0, .ro, 0, .any⟩]⟩]

/-- The registers of the EVREC block (R488). -/
def regsEVREC : List RegDesc := [
  ⟨0x1500000, 1, 0x4, 1, 0x4, false, [⟨31, 31, .wo, 0, .any⟩, ⟨15, 0, .rw, 5, .range 1 3600⟩]⟩,
  ⟨0x1500004, 1, 0x4, 1, 0x4, false, [⟨31, 31, .ro, 0, .any⟩, ⟨30, 30, .ro, 0, .any⟩, ⟨23, 16, .ro, 0, .any⟩, ⟨8, 0, .ro, 0, .any⟩]⟩,
  ⟨0x1500008, 1, 0x4, 1, 0x4, false, [⟨31, 0, .ro, 0, .any⟩]⟩,
  ⟨0x150000C, 1, 0x4, 1, 0x4, false, [⟨31, 0, .ro, 0, .any⟩]⟩,
  ⟨0x1500010, 1, 0x4, 1, 0x4, false, [⟨31, 0, .ro, 0, .any⟩]⟩,
  ⟨0x1500014, 1, 0x4, 1, 0x4, false, [⟨31, 31, .wo, 0, .any⟩]⟩,
  ⟨0x1500018, 1, 0x4, 1, 0x4, false, [⟨31, 31, .wo, 0, .any⟩, ⟨15, 0, .wo, 0, .any⟩]⟩,
  ⟨0x150001C, 1, 0x4, 1, 0x4, false, [⟨31, 0, .ro, 0, .any⟩]⟩,
  ⟨0x1500040, 8, 0x4, 1, 0x4, false, [⟨31, 0, .rw, 0, .any⟩]⟩]

/-- The registers of the LEDGER block (R488). Table 13-16 gives PERIOD of activities 0 and 1 as 1 to 65,535 and no word on
0: it is stored (log entry 107). -/
def regsLEDGER : List RegDesc := [
  ⟨0x1540000, 1, 0x4, 1, 0x4, false, [⟨22, 16, .ro, 0, .any⟩, ⟨6, 0, .ro, 0, .any⟩]⟩,
  ⟨0x1540010, 7, 0x10, 1, 0x4, false, [⟨31, 31, .wo, 0, .any⟩, ⟨30, 30, .wo, 0, .any⟩, ⟨15, 0, .ro, 0, .any⟩]⟩,
  ⟨0x1540014, 2, 0x10, 1, 0x4, false, [⟨31, 31, .rw, 1, .any⟩, ⟨30, 16, .rw, 100, .range 1 32767⟩, ⟨15, 0, .rw, 0, .any⟩]⟩,
  ⟨0x1540034, 5, 0x10, 1, 0x4, false, [⟨31, 31, .rw, 1, .any⟩, ⟨30, 16, .rw, 100, .range 1 32767⟩]⟩,
  ⟨0x1540018, 7, 0x10, 1, 0x4, false, [⟨31, 0, .ro, 0, .any⟩]⟩,
  ⟨0x154001C, 7, 0x10, 1, 0x4, false, [⟨31, 0, .rw, 0, .any⟩]⟩,
  ⟨0x1540100, 16, 0x8, 1, 0x4, false, [⟨31, 31, .rw, 0, .any⟩, ⟨20, 0, .rw, 0, .any⟩]⟩,
  ⟨0x1540104, 16, 0x8, 1, 0x4, false, [⟨20, 0, .rw, 0, .any⟩]⟩]

/-- The registers of the TAMPER block (R523). -/
def regsTAMPER : List RegDesc := [
  ⟨0x1550000, 1, 0x4, 1, 0x4, true, [⟨11, 0, .rw, 60, .range 1 3600⟩]⟩,
  ⟨0x1550004, 1, 0x4, 1, 0x4, true, [⟨31, 31, .ro, 0, .any⟩, ⟨30, 30, .ro, 0, .any⟩, ⟨20, 16, .ro, 0, .any⟩, ⟨0, 0, .w1c, 0, .any⟩]⟩,
  ⟨0x1550008, 1, 0x4, 1, 0x4, true, [⟨16, 0, .ro, 0, .any⟩]⟩,
  ⟨0x155000C, 1, 0x4, 1, 0x4, true, [⟨31, 0, .ro, 0, .any⟩]⟩,
  ⟨0x1550010, 1, 0x4, 1, 0x4, true, [⟨31, 0, .ro, 0, .any⟩]⟩,
  ⟨0x1550014, 1, 0x4, 1, 0x4, true, [⟨31, 16, .ro, 0, .any⟩, ⟨4, 0, .ro, 0, .any⟩]⟩,
  ⟨0x1550020, 1, 0x4, 1, 0x4, true, [⟨31, 0, .ro, 0, .any⟩]⟩,
  ⟨0x1550024, 1, 0x4, 1, 0x4, true, [⟨15, 0, .ro, 0, .any⟩]⟩,
  ⟨0x1550028, 1, 0x4, 1, 0x4, true, [⟨31, 31, .wo, 0, .any⟩, ⟨7, 0, .ro, 0, .any⟩]⟩,
  ⟨0x1550100, 8, 0x20, 1, 0x4, true, [⟨31, 31, .sl, 1, .any⟩, ⟨30, 30, .sl, 0, .any⟩, ⟨29, 28, .sl, 0, .range 0 2⟩, ⟨27, 27, .sl, 0, .any⟩, ⟨26, 26, .sl, 0, .any⟩, ⟨23, 16, .sl, 1, .range 1 255⟩, ⟨11, 8, .sl, 1, .range 1 15⟩]⟩,
  ⟨0x1550200, 16, 0x20, 1, 0x4, true, [⟨31, 31, .sl, 1, .any⟩, ⟨30, 30, .sl, 0, .any⟩, ⟨29, 28, .sl, 0, .range 0 2⟩, ⟨23, 16, .sl, 1, .range 1 255⟩, ⟨11, 8, .sl, 1, .range 1 15⟩]⟩,
  ⟨0x1550104, 24, 0x20, 1, 0x4, true, [⟨23, 0, .sl, 10000, .range 1 16000000⟩]⟩,
  ⟨0x1550108, 24, 0x20, 1, 0x4, true, [⟨31, 31, .ro, 0, .any⟩, ⟨30, 30, .ro, 0, .any⟩, ⟨29, 29, .ro, 0, .any⟩, ⟨28, 28, .ro, 0, .any⟩, ⟨7, 0, .ro, 0, .any⟩]⟩,
  ⟨0x155010C, 24, 0x20, 1, 0x4, true, [⟨31, 0, .rw, 0, .any⟩]⟩,
  ⟨0x1550110, 24, 0x20, 1, 0x4, true, [⟨31, 0, .rw, 0, .any⟩]⟩,
  ⟨0x1550114, 24, 0x20, 1, 0x4, true, [⟨1, 1, .wo, 0, .any⟩, ⟨0, 0, .wo, 0, .any⟩]⟩,
  ⟨0x1550118, 24, 0x20, 1, 0x4, true, [⟨15, 0, .ro, 0, .any⟩]⟩,
  ⟨0x155011C, 8, 0x20, 1, 0x4, true, [⟨14, 0, .sl, 0, .range 1 32767⟩]⟩,
  ⟨0x155021C, 16, 0x20, 1, 0x4, true, []⟩]

/-- The registers of the FAULT block (R523). -/
def regsFAULT : List RegDesc := [
  ⟨0x1560000, 1, 0x4, 1, 0x4, true, [⟨31, 31, .rw, 0, .any⟩, ⟨30, 30, .rw, 0, .any⟩, ⟨9, 0, .rw, 10, .range 10 1000⟩]⟩,
  ⟨0x1560004, 1, 0x4, 1, 0x4, true, [⟨31, 31, .wo, 0, .any⟩, ⟨0, 0, .ro, 1, .any⟩]⟩,
  ⟨0x1560008, 1, 0x4, 1, 0x4, true, [⟨4, 4, .w1c, 0, .any⟩, ⟨3, 0, .w1c, 0, .any⟩]⟩,
  ⟨0x156000C, 1, 0x4, 1, 0x4, true, [⟨31, 31, .ro, 0, .any⟩, ⟨8, 0, .ro, 0, .any⟩]⟩,
  ⟨0x1560010, 4, 0x4, 1, 0x4, true, [⟨31, 0, .rw, 0, .any⟩]⟩,
  ⟨0x1560020, 1, 0x4, 1, 0x4, true, [⟨3, 0, .ro, 0, .any⟩]⟩,
  ⟨0x1560024, 1, 0x4, 1, 0x4, true, [⟨31, 0, .rw, 0, .any⟩]⟩,
  ⟨0x1560100, 16, 0x20, 8, 0x4, true, [⟨31, 0, .ro, 0, .any⟩]⟩,
  ⟨0x1560400, 8, 0x4, 1, 0x4, true, [⟨31, 0, .ro, 0, .any⟩]⟩,
  ⟨0x1561000, 320, 0x4, 1, 0x4, true, [⟨31, 30, .ro, 0, .any⟩, ⟨23, 16, .rw, 0, .any⟩, ⟨5, 0, .rw, 0, .any⟩]⟩,
  ⟨0x1562000, 10, 0x4, 1, 0x4, true, [⟨31, 0, .wo, 0, .any⟩]⟩]

/-- The registers of the WDOG block (R523). -/
def regsWDOG : List RegDesc := [
  ⟨0x15A0000, 1, 0x4, 1, 0x4, true, [⟨31, 31, .rw, 0, .any⟩, ⟨15, 0, .rw, 1000, .range 10 60000⟩]⟩,
  ⟨0x15A0004, 1, 0x4, 1, 0x4, true, [⟨15, 0, .wo, 0, .any⟩]⟩,
  ⟨0x15A0008, 1, 0x4, 1, 0x4, true, [⟨31, 16, .rw, 0, .any⟩, ⟨15, 0, .ro, 1000, .any⟩]⟩,
  ⟨0x15A0010, 1, 0x4, 1, 0x4, true, [⟨30, 30, .rw, 0, .any⟩, ⟨15, 0, .rw, 2000, .range 100 60000⟩]⟩,
  ⟨0x15A0014, 1, 0x4, 1, 0x4, true, [⟨15, 0, .wo, 0, .any⟩]⟩,
  ⟨0x15A0018, 1, 0x4, 1, 0x4, true, [⟨31, 31, .ro, 0, .any⟩, ⟨30, 24, .ro, 0, .any⟩, ⟨23, 16, .rw, 0, .any⟩, ⟨15, 0, .ro, 2000, .any⟩]⟩,
  ⟨0x15A0020, 1, 0x4, 1, 0x4, true, [⟨7, 0, .rw, 16, .any⟩]⟩,
  ⟨0x15A0024, 1, 0x4, 1, 0x4, true, [⟨31, 0, .w1c, 0, .any⟩]⟩]

/-- The registers of the PWR block (R554). -/
def regsPWR : List RegDesc := [
  ⟨0x15B0000, 1, 0x4, 1, 0x4, false, [⟨31, 30, .wo, 0, .range 0 1⟩, ⟨15, 0, .wo, 0, .any⟩]⟩,
  ⟨0x15B0004, 1, 0x4, 1, 0x4, false, [⟨31, 30, .ro, 0, .any⟩, ⟨27, 24, .ro, 0, .any⟩, ⟨2, 0, .ro, 0, .any⟩]⟩,
  ⟨0x15B0008, 1, 0x4, 1, 0x4, false, [⟨16, 0, .ro, 0, .any⟩]⟩,
  ⟨0x15B000C, 1, 0x4, 1, 0x4, false, [⟨16, 0, .ro, 0, .any⟩]⟩,
  ⟨0x15B0010, 1, 0x4, 1, 0x4, false, [⟨15, 0, .rw, 100, .range 1 10000⟩]⟩,
  ⟨0x15B0014, 1, 0x4, 1, 0x4, false, [⟨15, 0, .sl, 10, .range 5 1000⟩]⟩,
  ⟨0x15B0018, 1, 0x4, 1, 0x4, false, [⟨4, 0, .rw, 31, .any⟩]⟩,
  ⟨0x15B001C, 1, 0x4, 1, 0x4, false, [⟨10, 8, .ro, 0, .any⟩, ⟨3, 0, .ro, 0, .any⟩]⟩,
  ⟨0x15B0020, 1, 0x4, 1, 0x4, false, [⟨31, 0, .rw, 0, .any⟩]⟩,
  ⟨0x15B0024, 1, 0x4, 1, 0x4, false, [⟨31, 31, .rw, 0, .any⟩, ⟨10, 0, .rw, 0, .any⟩]⟩,
  ⟨0x15B0028, 1, 0x4, 1, 0x4, false, [⟨31, 0, .rw, 0, .any⟩]⟩,
  ⟨0x15B002C, 1, 0x4, 1, 0x4, false, [⟨31, 16, .ro, 0, .any⟩, ⟨15, 0, .ro, 0, .any⟩]⟩,
  ⟨0x15B0030, 1, 0x4, 1, 0x4, false, [⟨7, 0, .ro, 0, .any⟩]⟩]

/-- The registers of the LIFE block (R554). -/
def regsLIFE : List RegDesc := [
  ⟨0x15C0000, 1, 0x4, 1, 0x4, true, [⟨4, 4, .ro, 0, .any⟩, ⟨2, 0, .ro, 0, .any⟩]⟩,
  ⟨0x15C0004, 1, 0x4, 1, 0x4, true, [⟨31, 31, .wo, 0, .any⟩, ⟨3, 0, .wo, 0, .any⟩]⟩,
  ⟨0x15C0008, 1, 0x4, 1, 0x4, false, [⟨31, 31, .ro, 0, .any⟩, ⟨7, 0, .ro, 0, .any⟩]⟩,
  ⟨0x15C000C, 1, 0x4, 1, 0x4, false, [⟨0, 0, .rw, 0, .any⟩]⟩,
  ⟨0x15C0010, 1, 0x4, 1, 0x4, false, [⟨31, 0, .rw, 0, .any⟩]⟩,
  ⟨0x15C0014, 1, 0x4, 1, 0x4, false, [⟨7, 0, .rw, 0, .any⟩]⟩,
  ⟨0x15C0018, 1, 0x4, 1, 0x4, false, [⟨23, 0, .rw, 0, .any⟩]⟩,
  ⟨0x15C001C, 1, 0x4, 1, 0x4, false, [⟨31, 29, .ro, 0, .any⟩, ⟨8, 8, .ro, 0, .any⟩, ⟨7, 7, .ro, 0, .any⟩, ⟨5, 4, .ro, 0, .any⟩, ⟨0, 0, .ro, 0, .any⟩]⟩,
  ⟨0x15C0020, 1, 0x4, 1, 0x4, false, [⟨31, 0, .ro, 0, .any⟩]⟩,
  ⟨0x15C0024, 1, 0x4, 1, 0x4, true, [⟨31, 0, .ro, 0, .any⟩]⟩,
  ⟨0x15C0028, 1, 0x4, 1, 0x4, false, [⟨31, 31, .ro, 0, .any⟩, ⟨28, 16, .ro, 0, .any⟩, ⟨12, 0, .ro, 0, .any⟩]⟩,
  ⟨0x15C002C, 1, 0x4, 1, 0x4, false, [⟨31, 0, .ro, 0, .any⟩]⟩,
  ⟨0x15C0030, 1, 0x4, 1, 0x4, false, [⟨31, 0, .ro, 0, .any⟩]⟩,
  ⟨0x15C0100, 8, 0x4, 1, 0x4, false, [⟨31, 0, .ro, 0, .any⟩]⟩,
  ⟨0x15C8000, 4, 0x4, 1, 0x4, false, [⟨13, 0, .rw, 0, .any⟩]⟩,
  ⟨0x15C8010, 1, 0x4, 1, 0x4, true, [⟨12, 0, .rw, 0, .range 0 4096⟩]⟩,
  ⟨0x15C8014, 1, 0x4, 1, 0x4, false, [⟨31, 12, .ro, 0, .any⟩, ⟨5, 4, .ro, 0, .any⟩, ⟨1, 0, .ro, 0, .any⟩]⟩,
  ⟨0x15C8018, 1, 0x4, 1, 0x4, false, [⟨21, 16, .ro, 0, .any⟩, ⟨15, 8, .ro, 0, .any⟩, ⟨1, 0, .ro, 0, .any⟩]⟩,
  ⟨0x15C801C, 1, 0x4, 1, 0x4, false, [⟨31, 0, .rw, 0, .any⟩]⟩]

/-- The registers of the DEBUG block (R554). -/
def regsDEBUG : List RegDesc := [
  ⟨0x15D0000, 1, 0x4, 1, 0x4, false, [⟨31, 31, .ro, 0, .any⟩, ⟨30, 30, .ro, 0, .any⟩, ⟨29, 29, .ro, 0, .any⟩]⟩,
  ⟨0x15D0004, 1, 0x4, 1, 0x4, false, [⟨31, 0, .ro, 0, .any⟩]⟩,
  ⟨0x15D0008, 1, 0x4, 1, 0x4, false, [⟨31, 0, .rw, 0, .any⟩]⟩,
  ⟨0x15D0100, 64, 0x4, 1, 0x4, false, [⟨31, 0, .rw, 0, .any⟩]⟩]

/-- The registers of the PICK block (R585). -/
def regsPICK : List RegDesc := [
  ⟨0x15E0000, 1, 0x4, 1, 0x4, false, [⟨31, 31, .rw, 0, .any⟩, ⟨30, 30, .rw, 1, .any⟩, ⟨29, 29, .rw, 1, .any⟩, ⟨27, 26, .rw, 3, .any⟩]⟩,
  ⟨0x15E0004, 1, 0x4, 1, 0x4, false, [⟨31, 31, .ro, 0, .any⟩, ⟨27, 24, .ro, 0, .any⟩, ⟨21, 20, .ro, 0, .any⟩, ⟨7, 0, .ro, 0, .any⟩]⟩,
  ⟨0x15E0008, 1, 0x4, 1, 0x4, false, [⟨31, 16, .rw, 100, .range 10 1000⟩, ⟨15, 0, .rw, 50, .range 5 1000⟩]⟩,
  ⟨0x15E000C, 1, 0x4, 1, 0x4, false, [⟨23, 16, .rw, 51, .range 51 255⟩, ⟨11, 8, .rw, 4, .range 1 8⟩, ⟨3, 0, .rw, 3, .range 1 15⟩]⟩,
  ⟨0x15E0010, 1, 0x4, 1, 0x4, false, [⟨31, 16, .rw, 500, .range 100 10000⟩, ⟨15, 0, .rw, 60, .range 1 3600⟩]⟩,
  ⟨0x15E0014, 1, 0x4, 1, 0x4, false, [⟨31, 31, .wo, 0, .any⟩, ⟨30, 30, .wo, 0, .any⟩, ⟨29, 27, .ro, 0, .any⟩, ⟨17, 0, .rw, 262096, .range 262096 262109⟩]⟩,
  ⟨0x15E0018, 1, 0x4, 1, 0x4, false, [⟨31, 16, .rw, 300, .range 10 3600⟩, ⟨15, 0, .rw, 2000, .range 100 10000⟩]⟩,
  ⟨0x15E001C, 3, 0x4, 1, 0x4, false, [⟨31, 0, .ro, 0, .any⟩]⟩,
  ⟨0x15E0028, 1, 0x4, 1, 0x4, false, [⟨3, 0, .ro, 0, .any⟩]⟩,
  ⟨0x15E002C, 1, 0x4, 1, 0x4, false, [⟨31, 0, .rw, 0, .any⟩]⟩,
  ⟨0x15E0030, 1, 0x4, 1, 0x4, false, [⟨31, 31, .ro, 0, .any⟩, ⟨30, 30, .ro, 0, .any⟩, ⟨15, 0, .ro, 0, .any⟩]⟩,
  ⟨0x15E0034, 1, 0x4, 1, 0x4, false, [⟨31, 0, .ro, 0, .any⟩]⟩,
  ⟨0x15E0038, 1, 0x4, 1, 0x4, false, [⟨6, 0, .ro, 0, .any⟩]⟩,
  ⟨0x15E003C, 1, 0x4, 1, 0x4, false, [⟨31, 0, .rw, 0, .any⟩]⟩,
  ⟨0x15E0040, 1, 0x4, 1, 0x4, false, [⟨31, 0, .rw, 0, .any⟩]⟩,
  ⟨0x15E0044, 1, 0x4, 1, 0x4, false, [⟨7, 0, .rw, 0, .any⟩]⟩,
  ⟨0x15E0048, 1, 0x4, 1, 0x4, false, [⟨12, 0, .rw, 0, .any⟩]⟩,
  ⟨0x15E0100, 32, 0x4, 1, 0x4, false, [⟨31, 0, .sl, 0, .any⟩]⟩,
  ⟨0x15E0180, 1, 0x4, 1, 0x4, false, [⟨3, 0, .sl, 0, .any⟩]⟩]

/-- The registers of the CARD block (R585). -/
def regsCARD : List RegDesc := [
  ⟨0x15F0000, 1, 0x4, 1, 0x4, false, [⟨31, 31, .rw, 0, .any⟩, ⟨29, 28, .rw, 0, .range 0 2⟩, ⟨12, 0, .rw, 4000, .range 1000 5000⟩]⟩,
  ⟨0x15F0004, 1, 0x4, 1, 0x4, false, [⟨31, 16, .rw, 10000, .range 100 60000⟩, ⟨15, 0, .rw, 100, .any⟩]⟩,
  ⟨0x15F0008, 1, 0x4, 1, 0x4, false, [⟨31, 31, .ro, 0, .any⟩, ⟨30, 30, .ro, 0, .any⟩, ⟨29, 29, .ro, 0, .any⟩, ⟨27, 25, .ro, 0, .any⟩, ⟨24, 24, .ro, 0, .any⟩, ⟨22, 20, .ro, 0, .any⟩, ⟨19, 16, .ro, 0, .any⟩, ⟨11, 8, .ro, 0, .any⟩]⟩,
  ⟨0x15F000C, 1, 0x4, 1, 0x4, false, [⟨31, 16, .ro, 372, .any⟩, ⟨7, 0, .ro, 1, .any⟩]⟩,
  ⟨0x15F0010, 1, 0x4, 1, 0x4, false, [⟨5, 0, .ro, 0, .any⟩]⟩,
  ⟨0x15F0020, 8, 0x4, 1, 0x4, false, [⟨31, 0, .ro, 0, .any⟩]⟩,
  ⟨0x15F0040, 1, 0x4, 1, 0x4, false, [⟨31, 31, .wo, 0, .any⟩, ⟨30, 30, .wo, 0, .any⟩]⟩,
  ⟨0x15F0044, 1, 0x4, 1, 0x4, false, [⟨31, 0, .rw, 0, .any⟩]⟩,
  ⟨0x15F0048, 1, 0x4, 1, 0x4, false, [⟨7, 0, .rw, 0, .any⟩]⟩,
  ⟨0x15F004C, 1, 0x4, 1, 0x4, false, [⟨12, 0, .rw, 0, .range 4 4600⟩]⟩,
  ⟨0x15F0050, 1, 0x4, 1, 0x4, false, [⟨12, 0, .rw, 0, .range 0 4600⟩]⟩,
  ⟨0x15F0054, 1, 0x4, 1, 0x4, false, [⟨31, 31, .ro, 0, .any⟩, ⟨23, 8, .ro, 0, .any⟩, ⟨7, 0, .ro, 0, .any⟩]⟩,
  ⟨0x15F0058, 1, 0x4, 1, 0x4, false, [⟨17, 0, .rw, 262111, .range 262096 262111⟩]⟩,
  ⟨0x15F005C, 1, 0x4, 1, 0x4, false, [⟨31, 0, .rw, 0, .any⟩]⟩,
  ⟨0x15F0060, 1, 0x4, 1, 0x4, false, [⟨31, 0, .ro, 0, .any⟩]⟩]

/-- A register block of Table 2-6: base, size, the configuration fault source of R506, registers. -/
structure BlockDesc where
  base : Nat
  size : Nat
  cfg : Nat
  regs : List RegDesc
  deriving DecidableEq, Repr

/-- The register blocks of Table 2-6 that hold registers. The QUEUE and QG block is two entries. -/
def regBlocks : List BlockDesc := [
  ⟨0x10000, 0x10000, 25, regsTIME⟩,
  ⟨0x20000, 0x10000, 184, regsNUT⟩,
  ⟨0x30000, 0x10000, 184, regsMEM⟩,
  ⟨0x40000, 0x10000, 184, regsDRAM⟩,
  ⟨0x60000, 0x10000, 26, regsINTC⟩,
  ⟨0x80000, 0x40000, 32, regsPORT⟩,
  ⟨0xC0000, 0x40000, 32, regsCLASS⟩,
  ⟨0x100000, 0x100000, 32, regsASSOC⟩,
  ⟨0x200000, 0x100000, 32, regsBOW⟩,
  ⟨0x300000, 0x100000, 32, regsFE⟩,
  ⟨0x400000, 0x400000, 42, regsQUEUE⟩,
  ⟨0x800000, 0x800000, 42, regsQG⟩,
  ⟨0x1000000, 0x100000, 42, regsBRIDGE⟩,
  ⟨0x1100000, 0x200000, 62, regsSOUND⟩,
  ⟨0x1300000, 0x40000, 63, regsVERIFY⟩,
  ⟨0x1340000, 0x40000, 68, regsDIGEST⟩,
  ⟨0x1380000, 0x40000, 84, regsROSIN⟩,
  ⟨0x13C0000, 0x40000, 87, regsKEY⟩,
  ⟨0x1400000, 0x100000, 93, regsCASE⟩,
  ⟨0x1500000, 0x40000, 93, regsEVREC⟩,
  ⟨0x1540000, 0x10000, 95, regsLEDGER⟩,
  ⟨0x1550000, 0x10000, 136, regsTAMPER⟩,
  ⟨0x1560000, 0x40000, 137, regsFAULT⟩,
  ⟨0x15A0000, 0x10000, 130, regsWDOG⟩,
  ⟨0x15B0000, 0x10000, 143, regsPWR⟩,
  ⟨0x15C0000, 0x10000, 149, regsLIFE⟩,
  ⟨0x15D0000, 0x10000, 149, regsDEBUG⟩,
  ⟨0x15E0000, 0x10000, 174, regsPICK⟩,
  ⟨0x15F0000, 0x10000, 175, regsCARD⟩]

/-- Whether an offset is a register of a table row (R10). -/
def RegDesc.has (d : RegDesc) (off : Nat) : Bool :=
  decide (d.off ≤ off) &&
    (let r := off - d.off
     decide (r / d.s1 < d.n1) && decide (r % d.s1 % d.s2 = 0) && decide (r % d.s1 / d.s2 < d.n2))

/-- The block whose range holds an offset. -/
def blockOf (off : Nat) : Option BlockDesc :=
  regBlocks.find? (fun b => decide (b.base ≤ off) && decide (off < b.base + b.size))

/-- The table row of the register at an offset. -/
def regDescAt (off : Nat) : Option RegDesc :=
  match blockOf off with
  | some b => b.regs.find? (fun d => d.has off)
  | none => none

/-- Reset values that depend on the instance: BOW_KEYLIM_HI (Table 6-16), the split of function 0
(Table 7-15), VE_CURVE (Table 10-12), ROSIN_PORT weights (Table 11-7), LEDGER_ACT (Table 13-16),
the monitored quantities (Table 14-1) and the Case regions (Table 13-1). -/
def resetOverrides : List (Nat × Nat) := [
  (0x200014, 0x10000),
  (0x1000100, 0x4000000),
  (0x1000104, 0x8000000),
  (0x1300100, 0x80040100),
  (0x1300104, 0x80060180),
  (0x1380060, 0x4),
  (0x1380070, 0x38),
  (0x1380080, 0x1),
  (0x1380090, 0x3),
  (0x1540014, 0x8064003C),
  (0x1540024, 0x806405A0),
  (0x1550100, 0x64080200),
  (0x1550104, 0x2710),
  (0x155011C, 0x1),
  (0x1550120, 0x64080200),
  (0x1550124, 0x2710),
  (0x155013C, 0x2),
  (0x1550140, 0x64080200),
  (0x1550144, 0x2710),
  (0x155015C, 0x3),
  (0x1550160, 0x64080200),
  (0x1550164, 0x2710),
  (0x155017C, 0x4),
  (0x1550180, 0x64080200),
  (0x1550184, 0x2710),
  (0x155019C, 0x5),
  (0x15501A0, 0x64080200),
  (0x15501A4, 0x2710),
  (0x15501BC, 0x6),
  (0x15501C0, 0x64080200),
  (0x15501C4, 0x2710),
  (0x15501DC, 0x7),
  (0x15501E0, 0x64080200),
  (0x15501E4, 0x2710),
  (0x15501FC, 0x8),
  (0x1550200, 0xE0010100),
  (0x1550204, 0x1),
  (0x1550220, 0xE0010100),
  (0x1550224, 0x1),
  (0x1550240, 0xE0010100)] ++ [
  (0x1550244, 0x1),
  (0x1550260, 0xE0020200),
  (0x1550264, 0x2710),
  (0x1550280, 0xE0020200),
  (0x1550284, 0x3E8),
  (0x15502A0, 0xA0020100),
  (0x15502A4, 0x3E8),
  (0x15502C0, 0xA0080100),
  (0x15502C4, 0x3E8),
  (0x15502E0, 0xA0080100),
  (0x15502E4, 0x3E8),
  (0x1550300, 0xA0080100),
  (0x1550304, 0x3E8),
  (0x1550320, 0xE0080200),
  (0x1550324, 0x3E8),
  (0x1550340, 0x90050100),
  (0x1550344, 0x64),
  (0x1550360, 0xA0080100),
  (0x1550364, 0x3E8),
  (0x1550380, 0x90050100),
  (0x1550384, 0x64),
  (0x15503A0, 0x900A0100),
  (0x15503A4, 0xF4240),
  (0x15503C0, 0xE00A0200),
  (0x15503C4, 0xF4240),
  (0x15503E0, 0xC00A0300),
  (0x15503E4, 0x989680),
  (0x1400100, 0x8),
  (0x1400104, 0x80000009),
  (0x1400108, 0x11),
  (0x1400110, 0x80002),
  (0x1400114, 0x8000000C),
  (0x1400118, 0x0),
  (0x1400120, 0xA0004),
  (0x1400124, 0x80000005),
  (0x1400128, 0x10),
  (0x1400130, 0xE0022),
  (0x1400134, 0x8000000A),
  (0x1400138, 0x10),
  (0x1400140, 0x300080),
  (0x1400144, 0x80000009),
  (0x1400148, 0x0),
  (0x1400150, 0xB00008),
  (0x1400154, 0x4000000C),
  (0x1400158, 0x11),
  (0x1400160, 0xB80008),
  (0x1400164, 0x4000000C),
  (0x1400168, 0x11),
  (0x1400170, 0xC00010),
  (0x1400174, 0x0),
  (0x1400178, 0x0),
  (0x1400180, 0xD00130),
  (0x1400184, 0x0),
  (0x1400188, 0x0)]

/-- Table 14-5, 15-11 and 16-14: first and last source number, class (0 correctable, 1 contained,
2 security, 3 fatal) and default actions (bits of Table 14-4). -/
def faultRows : List (Nat × Nat × Nat × Nat) := [

  (0, 7, 0, 1),
  (8, 14, 1, 3),
  (15, 15, 2, 7),
  (16, 16, 1, 3),
  (17, 17, 2, 11),
  (18, 18, 1, 3),
  (19, 19, 3, 21),
  (20, 20, 2, 3),
  (21, 21, 1, 3),
  (22, 22, 1, 3),
  (23, 23, 3, 21),
  (24, 24, 3, 21),
  (25, 25, 1, 3),
  (26, 26, 1, 3),
  (27, 30, 0, 1),
  (31, 31, 0, 1),
  (32, 32, 1, 3),
  (33, 40, 2, 11),
  (41, 41, 0, 1),
  (42, 42, 1, 3),
  (43, 43, 2, 3),
  (44, 44, 2, 7),
  (45, 45, 2, 7),
  (46, 61, 2, 11),
  (62, 62, 1, 3),
  (63, 63, 1, 3),
  (64, 67, 2, 11),
  (68, 68, 1, 3),
  (69, 76, 2, 11),
  (77, 77, 1, 3),
  (78, 78, 2, 3),
  (79, 79, 2, 7),
  (80, 83, 2, 11),
  (84, 84, 1, 3),
  (85, 85, 2, 3),
  (86, 86, 2, 3),
  (87, 87, 1, 3),
  (88, 88, 1, 3),
  (89, 89, 1, 3),
  (90, 90, 1, 3),
  (91, 91, 1, 3),
  (92, 92, 1, 3),
  (93, 93, 1, 3),
  (94, 94, 0, 1),
  (95, 95, 1, 3),
  (96, 127, 1, 3),
  (128, 128, 3, 21),
  (129, 129, 3, 21),
  (130, 130, 1, 3),
  (131, 131, 2, 39),
  (132, 132, 2, 3),
  (133, 133, 2, 3),
  (134, 134, 2, 3),
  (135, 135, 2, 3),
  (136, 136, 1, 3),
  (137, 137, 1, 3),
  (184, 184, 1, 3),
  (138, 138, 0, 1),
  (139, 139, 1, 3),
  (140, 140, 3, 21),
  (141, 141, 1, 3),
  (142, 142, 1, 3),
  (143, 143, 1, 3),
  (144, 144, 2, 3),
  (145, 145, 2, 3),
  (146, 146, 2, 3),
  (147, 147, 2, 7),
  (148, 148, 1, 3),
  (149, 149, 1, 3),
  (168, 168, 1, 3),
  (169, 169, 1, 3),
  (170, 170, 1, 1),
  (171, 171, 0, 1),
  (172, 172, 1, 3),
  (173, 173, 1, 3),
  (174, 174, 1, 3),
  (175, 175, 1, 3)]

/-- Class of a fault source. Sources 185 to 319 are correctable (R506). -/
def faultClass (i : Nat) : Nat :=
  match faultRows.find? (fun r => decide (r.1 ≤ i) && decide (i ≤ r.2.1)) with
  | some r => r.2.2.1
  | none => 0

/-- Default actions of a fault source. Sources 185 to 319 have LOG alone (R506). -/
def faultActions (i : Nat) : Nat :=
  match faultRows.find? (fun r => decide (r.1 ≤ i) && decide (i ≤ r.2.1)) with
  | some r => r.2.2.2
  | none => 1

-- Names of the fault sources (Tables 14-5, 15-11, 16-14).
abbrev SRC_SRAM_CE (i : Nat) : Nat := 0 + i
abbrev SRC_SRAM_UE (i : Nat) : Nat := 8 + i
abbrev SRC_FAB_PARITY : Nat := 16
abbrev SRC_DUAL_MISMATCH : Nat := 17
abbrev SRC_DRAM_UE : Nat := 18
abbrev SRC_DRAM_POISON_FULL : Nat := 19
abbrev SRC_DRAM_TAG : Nat := 20
abbrev SRC_NUT_OVERLAP : Nat := 21
abbrev SRC_NUT_DENY : Nat := 22
abbrev SRC_CAPO_STACK : Nat := 23
abbrev SRC_CAPO_ENTRY : Nat := 24
abbrev SRC_TIME_CFG : Nat := 25
abbrev SRC_INTC_CFG : Nat := 26
abbrev SRC_PORT_LINK (i : Nat) : Nat := 27 + i
abbrev SRC_PTP_DEMOTE : Nat := 31
abbrev SRC_DPATH_CFG : Nat := 32
abbrev SRC_BOW_KAT (i : Nat) : Nat := 33 + i
abbrev SRC_BRIDGE_LINK : Nat := 41
abbrev SRC_BRIDGE_CFG : Nat := 42
abbrev SRC_BRIDGE_IDE : Nat := 43
abbrev SRC_TREMOLO : Nat := 44
abbrev SRC_REL_STATE : Nat := 45
abbrev SRC_SOUND_KAT (i : Nat) : Nat := 46 + i
abbrev SRC_SOUND_CFG : Nat := 62
abbrev SRC_VE_CFG : Nat := 63
abbrev SRC_VE_KAT (i : Nat) : Nat := 64 + i
abbrev SRC_DIG_CFG : Nat := 68
abbrev SRC_DIG_KAT (i : Nat) : Nat := 69 + i
abbrev SRC_ROSIN_RETIRE : Nat := 77
abbrev SRC_ROSIN_STOP : Nat := 78
abbrev SRC_ROSIN_FAIL : Nat := 79
abbrev SRC_ROSIN_COND_KAT (i : Nat) : Nat := 80 + i
abbrev SRC_ROSIN_CFG : Nat := 84
abbrev SRC_KEY_BLOB : Nat := 85
abbrev SRC_KEY_VAULT : Nat := 86
abbrev SRC_KEY_CFG : Nat := 87
abbrev SRC_CASE_UE : Nat := 88
abbrev SRC_CASE_LINK : Nat := 89
abbrev SRC_CASE_XIP : Nat := 90
abbrev SRC_CASE_SPARE_EMPTY : Nat := 91
abbrev SRC_CASE_TUNING : Nat := 92
abbrev SRC_CASE_CFG : Nat := 93
abbrev SRC_EVREC_LOST : Nat := 94
abbrev SRC_LEDGER_CFG : Nat := 95
abbrev SRC_FE_TICK (i : Nat) : Nat := 96 + i
abbrev SRC_WDOG_CAPO : Nat := 128
abbrev SRC_WDOG_MODULE : Nat := 129
abbrev SRC_WDOG_CFG : Nat := 130
abbrev SRC_TAMPER_ALARM : Nat := 131
abbrev SRC_TAMPER_PAIR : Nat := 132
abbrev SRC_TAMPER_DETFAIL : Nat := 133
abbrev SRC_TAMPER_LOGFULL : Nat := 134
abbrev SRC_TAMPER_FAULT : Nat := 135
abbrev SRC_TAMPER_CFG : Nat := 136
abbrev SRC_FAULT_CFG : Nat := 137
abbrev SRC_MEM_CFG : Nat := 184
abbrev SRC_PWR_WARN : Nat := 138
abbrev SRC_PWR_STOP : Nat := 139
abbrev SRC_PWR_WAKEFAIL : Nat := 140
abbrev SRC_PWR_OVERVOLT : Nat := 141
abbrev SRC_PWR_HOLDUP : Nat := 142
abbrev SRC_PWR_CFG : Nat := 143
abbrev SRC_LIFE_TRANSITION : Nat := 144
abbrev SRC_DEBUG_OPEN : Nat := 145
abbrev SRC_DEBUG_DENY : Nat := 146
abbrev SRC_BOOT_FALLBACK : Nat := 147
abbrev SRC_BOOT_PRESET : Nat := 148
abbrev SRC_LIFE_CFG : Nat := 149
abbrev SRC_PICK_LINK : Nat := 168
abbrev SRC_PICK_MEM : Nat := 169
abbrev SRC_PICK_HANDSHAKE : Nat := 170
abbrev SRC_CARD_PROTOCOL : Nat := 171
abbrev SRC_CARD_REMOVED_WRITE : Nat := 172
abbrev SRC_CARD_POWER : Nat := 173
abbrev SRC_PICK_CFG : Nat := 174
abbrev SRC_CARD_CFG : Nat := 175

/-- The reset value of the register at an offset (R13): the value of an instance-dependent entry, or
the fields' reset values put together. -/
def regReset (off : Nat) : BitVec 32 :=
  match resetOverrides.lookup off with
  | some v => BitVec.ofNat 32 v
  | none =>
    if 0x1561000 ≤ off ∧ off < 0x1561500 then
      let i := (off - 0x1561000) / 4
      BitVec.ofNat 32 (faultClass i * 2 ^ 30 + faultActions i)
    else
      match regDescAt off with
      | some d => BitVec.ofNat 32 (d.fields.foldl (fun acc f => acc + 2 ^ f.lo * f.reset) 0)
      | none => 0

end Sys2Proof.Machine
end

