-- ==== Sys2Proof/Machine/Sparse.lean ====
section
/-! DEFINITION. Sparse tables keyed by numbers: lists of key and value pairs with strictly rising keys.
They hold the register file, the memories and every large array of the spec (R16 numbers all instances
from zero). -/

namespace Sys2Proof.Machine

/-- The value stored at a key, if one is listed. -/
def tget {α : Type} : List (Nat × α) → Nat → Option α
  | [], _ => none
  | (j, v) :: t, k => if j = k then some v else tget t k

/-- The table without a key. -/
def terase {α : Type} : List (Nat × α) → Nat → List (Nat × α)
  | [], _ => []
  | (j, v) :: t, k => if j = k then terase t k else (j, v) :: terase t k

/-- A pair put in at the place its key has in the rising order. -/
def tinsert {α : Type} : List (Nat × α) → Nat → α → List (Nat × α)
  | [], k, v => [(k, v)]
  | (j, w) :: t, k, v => if k < j then (k, v) :: (j, w) :: t else (j, w) :: tinsert t k v

/-- The table with a key's value replaced. -/
def tset {α : Type} (t : List (Nat × α)) (k : Nat) (v : α) : List (Nat × α) :=
  tinsert (terase t k) k v

/-- The table with a key's value replaced; the default value is not listed. -/
def tsetD {α : Type} [DecidableEq α] (d : α) (t : List (Nat × α)) (k : Nat) (v : α) : List (Nat × α) :=
  if v = d then terase t k else tinsert (terase t k) k v

/-- The value at a key, or the default. -/
def tgetD {α : Type} (t : List (Nat × α)) (k : Nat) (d : α) : α :=
  match tget t k with
  | some v => v
  | none => d

/-- The canonical form: keys strictly rising, no value equal to what an unlisted key reads as. -/
def tableWf {α : Type} [DecidableEq α] (d : α) : List (Nat × α) → Bool
  | [] => true
  | [(_, v)] => decide (v ≠ d)
  | (j, v) :: (k, w) :: t => decide (j < k) && decide (v ≠ d) && tableWf d ((k, w) :: t)

end Sys2Proof.Machine
end

