-- ==== Sys2Proof/Machine/State.lean ====
section
/-! DEFINITION. The state of the module as plain data. Every register of the BAR0 window stands in one
sparse table keyed by its BAR0 offset (a register that is not listed holds its reset value); the other
fields hold the state the spec gives the units that no register shows. -/

namespace Sys2Proof.Machine

/-- Faults of the model: none is raised by any command. Every event the spec describes has an effect or is
one that does not occur in the state it meets (log entry 2). -/
inductive Fault where
  /-- Never raised. Safe: no run ends here. -/
  | never
  deriving DecidableEq, Repr

/-- Refusals of the model. -/
inductive Refusal where
  /-- A command whose meaning is not modelled yet; raised by the dispatch alone. Safe: the run ends. -/
  | notModelled (mnemonic : String)
  deriving DecidableEq, Repr

/-- The stamps of R49: operating time in ms, power-cycle count, TAI time when valid. -/
structure Stamp where
  opTime : Nat
  pwrCyc : Nat
  taiValid : Bool
  taiSec : Nat
  taiNs : Nat
  deriving DecidableEq, Repr

/-- An event record (Table 13-8). -/
structure EvRec where
  stamp : Stamp
  lostBefore : Bool
  pad : Bool
  source : Nat
  code : Nat
  status : Nat
  origin : Nat
  seq : Nat
  payload : Bytes
  deriving DecidableEq, Repr

/-- The event recorder (R478 to R484). -/
structure EvState where
  /-- records in the buffer, oldest first, with the cycle at which each entered -/
  buf : List (EvRec × Nat)
  nextSeq : Nat
  /-- records of EVRING by their place in it, 64 bytes each -/
  ring : List (Nat × EvRec)
  /-- next place of EVRING to be written -/
  wp : Nat
  /-- a record was dropped since the last one was accepted -/
  lostPend : Bool
  /-- records the running flush writes; none when no flush runs -/
  flushN : Option Nat
  /-- a flush was requested while one runs -/
  again : Bool
  /-- OLDEST after a clear (R484) -/
  oldestFloor : Option Nat
  /-- WINBASE, one copy per function (0 to 63) and one for the Capo (64) -/
  winBase : List (Nat × Nat)
  deriving DecidableEq, Repr

/-- An open fault record (Table 14-6). -/
structure FaultRec where
  source : Nat
  cls : Nat
  actions : Nat
  second : Nat
  merges : Nat
  info : Nat
  forced : Bool
  raised : Bool
  mforced : Bool
  stamp : Stamp
  /-- the record opened at this cycle -/
  openedAt : Nat
  deriving DecidableEq, Repr

/-- The fault collector beside its registers (R504 to R515). -/
structure FaultState where
  open_ : Option FaultRec
  /-- cycle at which the running FAULT_N pulse ends -/
  pulseEnd : Option Nat
  /-- a RELEASE held until the pulse ends -/
  relHeld : Bool
  /-- FAULT_N held low by a reset until RELEASE (R515) -/
  bootHold : Bool
  /-- a raise asked for the zeroize of R496 and it has not run yet -/
  zeroizeDue : Bool
  /-- the sources other than instanced ones whose unit ISOLATE took out of service (Table 14-4) -/
  isolated : List Nat
  /-- instanced sources whose unit is in reset and waits for its known-answer test (R505) -/
  inReset : List Nat
  /-- the FAULT_LOG entry the next record takes -/
  logNext : Nat
  deriving DecidableEq, Repr

/-- The power states of R524: P0 Run, P1 Gated, P2 Retain, P3 Watch. -/
inductive PState where
  | p0 | p1 | p2 | p3
  deriving DecidableEq, Repr

/-- The causes of a module reset, PWR_WAKESRC.CAUSE (Table 15-13); a wake after a confirmed alarm in P2 Retain (R497) is
recorded by its source, TAMPER. -/
inductive ResetCause where
  | fault | wdog | rstN | software | wakeFail | restore | tamper
  deriving DecidableEq, Repr

/-- The timebase and the tick generator beside their registers (chapter "The drone tick and module time"). -/
structure TimeState where
  /-- module time in thirds of a femtosecond: a cycle of R7 is 2,000,000 of them -/
  modTime : Nat
  /-- frequency correction in units of half a part per million of the nominal rate -/
  freq : Int
  /-- frequency estimate of the last lock (R21) -/
  freqLock : Int
  /-- slew in force, same units -/
  slew : Int
  everLocked : Bool
  good : Nat
  bad : Nat
  /-- cycle at which LOCKED, and HOLDOVER, was last entered -/
  lockedAt : Nat
  holdAt : Nat
  /-- cycle of the last valid measurement of the selected source -/
  lastSrc : Nat
  /-- TIME_SEC has been written (R20); a PTP source has given the seconds count -/
  secWritten : Bool
  ptpSec : Bool
  /-- ticks run; the next edge is a stop edge (R26) -/
  ticking : Bool
  stopPend : Bool
  /-- a tick runs between two edges -/
  inTick : Bool
  /-- the next tick is the first since RUN was set or since a stop edge (R27) -/
  firstTick : Bool
  /-- the rate in force -/
  rate : Nat
  /-- cycle of the edge of the current tick -/
  edge : Nat
  /-- ends of the running 1PPS output pulse -/
  ppsEnd : Option Nat
  /-- operating time in ms and the cycles counted toward the next one (R50) -/
  opTime : Nat
  opSub : Nat
  /-- operating time mirrored to the Case die (R51) and the cycle of the last mirroring -/
  opMirror : Nat
  opMirrorAt : Nat
  /-- a flush asked for after a supply warning has not ended yet (R51) -/
  mirrorDue : Bool
  deriving DecidableEq, Repr

/-- One part of a fabric access in the answer to its requester (R93, R94). -/
structure ReplyPart where
  addr : Nat
  len : Nat
  granted : Bool
  /-- a granted part that met a data error, a decode fault or a transfer that failed twice -/
  error : Bool
  data : Bytes
  deriving DecidableEq, Repr

/-- Memory and fabric beside their registers (chapter "Data tree, control tree, memory and the Nut"). -/
structure MemState where
  /-- the on-die memories and the DRAM: bytes by 40-bit internal address; an unlisted address reads 0 -/
  cells : List Host.Cell
  /-- host memory by host address; an unlisted address reads 0 -/
  host : List Host.Cell
  /-- the ordering code is OT48-M32-E: 28 GiB of DRAM are mapped (Table 0-1, R60) -/
  m32 : Bool
  /-- SRAM words whose stored bits a disturbance changed, by address: true where the code cannot correct them -/
  upsets : List (Nat × Bool)
  /-- poisoned SRAM words, by address (R71) -/
  poison : List Nat
  /-- SRAM words whose corrected data waits to be written back (R70) -/
  writebacks : List Nat
  /-- DRAM lines whose stored ciphertext and tag are not those their data was written with (R76) -/
  lines : List (Nat × (Bytes × Bytes))
  /-- DRAM lines in the poison list (R79) -/
  dramPoison : List Nat
  /-- parity errors the next fabric transfer meets, CRC mismatches the next DRAM burst meets, whether the next host read
  fails; function under which the last access through an outbound window was issued (R301) -/
  parityNext : Nat
  crcNext : Nat
  hostFails : Bool
  hostFn : Nat
  /-- guard pages: version and generation bit (R81, R84); an unlisted page has version 0 -/
  versions : List (Nat × (Nat × Bool))
  /-- dirty pages waiting in the guard's queue (R82) -/
  guardQueue : List Nat
  /-- keys of R69 drawn at the last boot, by identity; 0 when lost -/
  bootKeys : Nat
  guardKey : Nat
  /-- the guard key of the last sweep's old generation; cycle at which the running sweep began -/
  guardPrev : Nat
  sweepAt : Nat
  /-- the last access' answer to its requester -/
  reply : List ReplyPart
  deriving DecidableEq, Repr

/-- An output staged by a Fret program during a tick (R34, R164): a GOOSE for an association, a job
descriptor for a ring, a verdict on a frame, an event record with its code, payload and world. -/
inductive Staged where
  | gosub (assoc : Nat) (frame : Bytes)
  | jobput (ring : Nat) (desc : Bytes) (trust : Bool)
  | verdict (ref code : Nat)
  | evput (code : Nat) (payload : Bytes) (trust : Bool)
  deriving DecidableEq, Repr

/-- What a Diurn processor does: FE_STATUS.STATE (Table 5-11) and CAPO_STATUS.STATE (Table 5-13). -/
inductive RunState where
  | running | wait | parked | held | stopped
  deriving DecidableEq, Repr

/-- A Diurn processor (R105 to R109, R180): special registers with their banks (SP four, EVB, TSB and TSL
two on a Fret engine, one on the Capo), chain depths, and its place in the tick. -/
structure Proc where
  pc : Addr24
  sw : Word36
  sp : List Addr24
  fp : Addr24
  tb : Addr24
  evb : List Addr24
  tsb : List Addr24
  tsl : List Addr24
  gtb : Addr24
  ls : List Addr24
  le : List Addr24
  lc : List Addr24
  lx : List Addr24
  ix : List Word36
  depth : List Nat
  run : RunState
  /-- TWAIT has retired in the current tick -/
  twaited : Bool
  /-- the budget-exceeded exception was delivered in this tick (R38) -/
  budgetGiven : Bool
  /-- at the first boundary of a tick entry that ends a TWAIT park (R207) -/
  parkEntry : Bool
  /-- staged outputs of the tick, in order -/
  staged : List Staged
  /-- cycle at which the processor's next instruction begins (R133) -/
  now : Nat
  /-- consecutive abandoned ticks (R516) -/
  abandons : Nat
  /-- halted by the debug port (R551) -/
  halted : Bool
  deriving DecidableEq, Repr

/-! ## Key store -/

/-- Peg slot states (Table 12-3). -/
inductive PegSt where
  | free | reserved | active | spent | faulted
  deriving DecidableEq, Repr

/-- A Peg slot (Table 12-2), its place in the resident set, and which reports of R240 have been made for this
installation. -/
structure Peg where
  st : PegSt
  kalg : Nat
  use : Nat
  users : Nat
  epoch : Nat
  pin : Bool
  count : Nat
  limit : Nat
  key : Bytes
  resident : Bool
  lastUse : Nat
  spentSeen : Bool
  warned : Bool
  deriving DecidableEq, Repr

/-- Private-key slot states (R433). -/
inductive PrivSt where
  | free | reserved | generating | active | lost
  deriving DecidableEq, Repr

/-- A private-key slot (R432): its attributes, public and private key, whether its record with the valid mark
stands in the vault, the root key under which it was written; for LMS the next index QN and the reservation
head RH in force and the burnt count, whether a reservation runs, whether the warning was made (R365 to R368);
for LMS `order` is its masking order and `pset` holds h with the Winternitz choice (16 × OTS + set). -/
structure Priv where
  st : PrivSt
  scheme : Nat
  pset : Nat
  order : Nat
  use : Nat
  users : Nat
  pub : Bytes
  key : Bytes
  stored : Bool
  root : Nat
  qn : Nat
  rh : Nat
  burnt : Nat
  reserving : Bool
  warned : Bool
  deriving DecidableEq, Repr

/-- A key command with the registers read when GO was written (R451). -/
structure KeyCmd where
  op : Nat
  mid : Nat
  slot : Nat
  attr : Nat
  users : Nat
  limit : Nat
  src : Nat
  len : Nat
  aux : Nat
  at_ : Nat
  deriving DecidableEq, Repr

/-- A share on a quorum card (R444). -/
structure Share where
  id : Bytes
  x : Nat
  k : Nat
  n : Nat
  seclen : Nat
  bytes : Bytes
  check : Bytes
  deriving DecidableEq, Repr

/-- A running ceremony: values staged at START, shares accepted, secret drawn. -/
structure Ceremony where
  kind : Nat
  k : Nat
  n : Nat
  seclen : Nat
  target : Nat
  startedAt : Nat
  /-- CER_ID and CER_CHECK as staged at START -/
  id : Bytes
  check : Bytes
  shares : List Share
  secret : Bytes
  deriving DecidableEq, Repr

/-- The key store (R419 to R449). -/
structure KeyState where
  pegs : List (Nat × Peg)
  privs : List (Nat × Priv)
  /-- identity of the root key held; none when absent -/
  rootKey : Option Nat
  /-- identity of the root key whose check value stands in the vault header -/
  vaultRoot : Nat
  blobKey : Nat
  /-- order of uses, for the resident set's least recently used slot -/
  useClock : Nat
  /-- a command that waits (R436, R452) -/
  waiting : Option KeyCmd
  cer : Option Ceremony
  /-- cycle at which an authorisation expires (R448) -/
  authUntil : Nat
  deriving DecidableEq, Repr

/-! ## Data path -/

/-- Where a frame in the buffer stands on its way (R220 to R250): to be classified; its entry has to be filled
into the hot cache; to be verified under its entry; verified, with the key's epoch and whether it was key B. -/
inductive FrameStage where
  | received
  | fill (entry : Nat)
  | matched (entry : Nat)
  | verified (entry : Nat) (epoch : Nat) (keyB : Bool)
  deriving DecidableEq, Repr

/-- A frame in the frame buffer: its number in order of reception, where it came from (0 to 3 a port, 4 the
Bridge), its octets and view, its time stamp, its stage. -/
structure Frame where
  id : Nat
  src : Nat
  octets : Bytes
  view : MsgView
  tsSec : Nat
  tsNs : Nat
  stage : FrameStage
  deriving DecidableEq, Repr

/-- A frame held for a verdict (R250, R306): its entry, engine, TICK_COUNT at the replay step, how many edges
have started a tick since, the order of that step, and what its completion carries. -/
structure Held where
  entry : Nat
  engine : Nat
  tick : Nat
  edges : Nat
  order : Nat
  src : Nat
  octets : Bytes
  epoch : Nat
  status : Nat
  tsSec : Nat
  tsNs : Nat
  deriving DecidableEq, Repr

/-- An entry of a pair's duplicate-discard table (R213): pair, source address, sequence number, cycle. -/
structure DupEntry where
  pair : Nat
  mac : Nat
  seq : Nat
  at_ : Nat
  deriving DecidableEq, Repr

/-- A way of the hot cache that holds an entry (R227). -/
structure HotWay where
  entry : Nat
  dirty : Bool
  used : Nat
  deriving DecidableEq, Repr

/-- A verified sample set (R45): smpCnt, channels with quality bits, bits 35:0 of TICK_COUNT at its verdict, and the
cycle of the verdict (R171). -/
structure SampleSet where
  smpCnt : Nat
  chans : List (Nat × Nat)
  tick : Nat
  cycle : Nat
  deriving DecidableEq, Repr

/-- The sample sets of an association by cut (R44): before the current edge, in the tick's work window, in its
guard band. -/
structure Samples where
  edge : Option SampleSet
  live : Option SampleSet
  guard : Option SampleSet
  deriving DecidableEq, Repr

/-- An item that waits for a delivery queue (R278): a frame's octets or none for a status-only item, and what
the completion carries (Table 7-5). -/
structure Item where
  octets : Option Bytes
  status : Nat
  assoc : Option Nat
  src : Nat
  epoch : Nat
  tsSec : Nat
  tsNs : Nat
  tick : Nat
  deriving DecidableEq, Repr

/-- What a submission has come to: its slot fetched with its frame still to be fetched, its work under way, or
finished with the status, association, epoch, length, time and tick of its completion. -/
inductive SubStage where
  | working
  | done (status : Nat) (assoc : Option Nat) (epoch len tsSec tsNs tick : Nat)
  deriving DecidableEq, Repr

/-- A fetched submission (R282 to R285), in count order of its queue; `entered` tells whether its frame has entered the
frame buffer (R608). -/
structure Sub where
  count : Nat
  cookie : Nat
  entered : Bool
  stage : SubStage
  deriving DecidableEq, Repr

/-- A queue's engine state beside its registers: items that wait for delivery, the posted slot held on die
(buffer address and length), submissions fetched and not yet completed with the count of the next slot to
fetch. -/
structure QueueState where
  items : List Item
  slot : Option (Nat × Nat)
  subs : List Sub
  nextFetch : Nat
  deriving DecidableEq, Repr

/-- A release request (R313 to R317): the codewords of its slot, its publish entry, its frame, where it came
from (a queue and submission count, or an engine's GOSUB), the ticks in which it was presented, the order in
which it entered. -/
structure RelReq where
  stateW : Nat
  va : Nat
  vb : Nat
  assoc : Nat
  octets : Bytes
  view : MsgView
  host : Option (Nat × Nat)
  engine : Nat
  hold : Bool
  presented : Nat
  order : Nat
  deriving DecidableEq, Repr

/-- A PTP partner (R218): sourcePortIdentity and the port it is heard on. -/
structure Partner where
  ident : Nat
  port : Nat
  deriving DecidableEq, Repr

/-- The SPDM responder (R298): how far a connection is negotiated (1 version, 2 capabilities, 3 algorithms), the session
with its number, whether FINISH has ended its handshake, and the key updates made in it. -/
structure Spdm where
  conn : Nat
  session : Option (Nat × Bool × Nat)
  deriving DecidableEq, Repr

/-- One arbiter of R294: the function served with the turns it has left, EQUAL and WEIGHT of the functions as the round
found them, for each function the group served with its turns left, for each group the queue served last. -/
structure Arb where
  fn : Nat
  fnLeft : Nat
  modes : List (Nat × (Bool × Nat))
  grp : List (Nat × (Nat × Nat))
  last : List (Nat × Nat)
  deriving DecidableEq, Repr

/-- The data path beside its registers (chapters "The association path", "Queues, the Bridge and the host",
"Measurement plausibility and interlock release"). -/
structure DataState where
  frames : List Frame
  nextFrame : Nat
  dups : List DupEntry
  /-- frames sent: the last one per port, with the pair's sequence number where it has one -/
  sent : List (Nat × (Bytes × Option Nat))
  /-- next sequence number per pair; cycle of its last supervision frame sent and received -/
  pairSeq : List (Nat × Nat)
  pairTx : List (Nat × Nat)
  pairRx : List (Nat × Nat)
  /-- the levels of the ports' sideband inputs (R588) -/
  sfp : List (Nat × SfpPins)
  /-- pairs whose partner supervision frames have stopped -/
  supvLost : List Nat
  /-- PTP partners: demoted ones with the cycle until which they are; ranks heard; the selected master -/
  demoted : List (Partner × Nat)
  ranks : List (Partner × Nat)
  master : Option Partner
  /-- hot cache ways that hold an entry, by way number; order of uses -/
  hot : List (Nat × HotWay)
  hotClock : Nat
  /-- cycle of the last supervision sweep (R231) -/
  supAt : Nat
  /-- pinned valid entries with their hot-cache sets (R228) -/
  pins : List (Nat × Nat)
  /-- keys of the association hashes and of the lookup mix, by identity -/
  idKey : Nat
  mixKey : Nat
  samples : List (Nat × Samples)
  held : List (Nat × Held)
  heldOrder : Nat
  /-- slots listed to each engine in the current tick, frames not listed, references decided in the tick -/
  heldList : List (Nat × List Nat)
  heldOver : List (Nat × Nat)
  decided : List (Nat × Nat)
  gfail : List Nat
  /-- object table banks (R312) -/
  objCur : List (Nat × Word36)
  objShadow : List (Nat × Word36)
  /-- release request slots, the list of the current tick, FE_B waits for its start -/
  rel : List (Nat × RelReq)
  relOrder : Nat
  relList : List Nat
  feBWaits : Bool
  /-- engines that started a tick at the last edge -/
  ran : List Nat
  queues : List (Nat × QueueState)
  /-- the delivery and the submission arbiter; the last turn was a submission -/
  arbD : Arb
  arbS : Arb
  lastSubmit : Bool
  /-- completions written and not covered by a doorbell since, by queue (source 113) -/
  unread : List (Nat × Nat)
  /-- BRIDGE_LINK as it was last read (source 384) -/
  linkRead : Word32
  /-- pending completions by vector: group and the deadline the group's first one set (R290); pending bits; messages
  sent -/
  due : List (Nat × List (Nat × Nat))
  msix : List (Nat × Nat)
  vfEnable : Bool
  vfVecs : List (Nat × Nat)
  /-- the last response in the DOE mailbox; the SPDM responder; for each IDE stream the slot named last and the slot
  whose key it uses (R299) -/
  doe : Bytes
  spdm : Spdm
  ide : List (Nat × (Nat × Option Nat))
  deriving DecidableEq, Repr
/-! ## Job rings, cells, engines and the entropy array -/

/-- A job ring beside its registers: the count of the next slot to dispatch, counts returned to the ring for an
entropy stop in slot order (R364), counts past CONS whose completion is written (R333), the cycle since which the ring's
next job is its next (R363). -/
structure RingState where
  next : Nat
  back : List Nat
  written : List Nat
  headAt : Nat
  deriving DecidableEq, Repr

/-- A job on a cell (R351): ring, count, descriptor words, cycle of dispatch, masking order, the key it loaded with
its scheme and parameter set, the LMS index it was issued, whether it waits for one, whether it needs entropy. -/
structure Job where
  ring : Nat
  count : Nat
  words : List Nat
  at_ : Nat
  order : Nat
  key : Bytes
  keyPset : Nat
  index : Option Nat
  waitsIndex : Bool
  entropy : Bool
  /-- bytes of randomness drawn so far -/
  drew : Nat
  deriving DecidableEq, Repr

/-- A completion (Table 9-5) that waits to be written; `own`: the job where it came to its own end, which a colliding
event may still decide (R369, R395). -/
structure Compl where
  ring : Nat
  count : Nat
  status : Nat
  detail : Nat
  order : Nat
  cell : Nat
  ran : Bool
  outLen : Nat
  result : Nat
  irq : Bool
  own : Option Job
  deriving DecidableEq, Repr

/-- The Soundboard and the digest engine beside their registers. -/
structure JobState where
  rings : List (Nat × RingState)
  jobs : List (Nat × Job)
  ending : List Compl
  /-- ring last dispatched at each priority (R351) -/
  lastRing : List (Nat × Nat)
  /-- bytes in the cells' entropy buffers (R362), grants handed over and not placed yet -/
  fill : List (Nat × Nat)
  grants : Nat
  /-- the cell whose buffer was refilled last (R362) -/
  turn : Nat
  /-- cells whose known-answer test is due (R327) -/
  katDue : List Nat
  /-- cycle of the last known-answer test of a cell, digest core or verification engine, by fault source (R327, R383,
  R395) -/
  kats : List (Nat × Nat)
  /-- identity of the wrap key and the key-check key (R390) -/
  wrapKey : Nat
  deriving DecidableEq, Repr

/-- A command of a verification engine: VE_CMD and VE_PARAM as written, buffers, cycle of GO, and its result: status,
detail, output bytes; whether that result is decided, so that no abort or timeout replaces it (R380). -/
structure VeCmd where
  word : Word32
  param : Word32
  inAddr : Nat
  inLen : Nat
  outAddr : Nat
  at_ : Nat
  input : Bytes
  result : Option (Nat × Nat × Bytes)
  decided : Bool
  deriving DecidableEq, Repr

/-- The verification engines: the running commands; the parameters of the loaded curves. -/
structure VeState where
  cmds : List (Nat × VeCmd)
  curves : List (Nat × Bytes)
  deriving DecidableEq, Repr

/-- The Rosin array beside its registers. -/
structure RosinState where
  /-- conditioned bytes in the reserve, oldest first; raw windows waiting in each conditioner -/
  reserve : Bytes
  cond : List (Nat × List Bytes)
  /-- last bit and length of the running run of each bank (R401) -/
  run : List (Nat × (Bool × Nat))
  /-- banks whose start-up test passed, banks that failed it once (R407) -/
  passed : List Nat
  failedOnce : List Nat
  /-- cycles of each bank's failures, cycles of burst stops -/
  fails : List (Nat × List Nat)
  bursts : List Nat
  stopAt : Nat
  timedOut : Bool
  lastRead : Nat
  /-- port whose turn the weighted round is at, and grants left of it (R413) -/
  port : Nat
  left : Nat
  /-- keys that wait for KEYLOAD, in order: those of a boot, or those a zeroize replaces (R408, R422, `bootKeyNames`) -/
  keyload : List Nat
  /-- thresholds and cutoffs of a bank's window in progress where they have been rewritten since it began (Table 11-3):
  by 64 times the kind of window (adaptive proportion, health, start-up) plus the bank -/
  limits : List (Nat × List Nat)
  /-- words of the pull port that have been read since the grant -/
  pullRead : List Nat
  /-- cycle at which the periodic self-test was last run -/
  pstAt : Nat
  deriving DecidableEq, Repr

/-! ## The Case die and the maintenance ledger -/

/-- A logical block of the Case die (R455, R457, R465, R466, R474): units programmed since its last erase (pages in
two-bit mode), erases of its physical block, retry start, flag for refresh, erase intent without completion, the
operating time in ms at which its oldest page was programmed. -/
structure CaseBlk where
  next : Nat
  erases : Nat
  retry : Nat
  flagged : Bool
  intent : Bool
  since : Nat
  deriving DecidableEq, Repr

/-- What a die operation does: the read or program of a Capo command, an erase, a relocation by command or by the
controller itself. -/
inductive DieWork where
  | read (len : Nat)
  | program (unit_ : Nat) (bytes : Bytes)
  | erase
  | relocate (cmd : Bool)
  deriving DecidableEq, Repr

/-- A die operation with its class in the order of R463 (0 reads, 3 Capo commands, 4 maintenance). -/
structure DieOp where
  cls : Nat
  block : Nat
  page : Nat
  work : DieWork
  deriving DecidableEq, Repr

/-- The Case die and its controller beside the registers. -/
structure CaseState where
  /-- bytes by logical block × 2^20 + page × 4,096 + offset; an unlisted byte is erased and reads 0xFF -/
  cells : List Host.Cell
  blocks : List (Nat × CaseBlk)
  /-- the block map: the physical block of a logical block that has another than its own number (R455) -/
  map : List (Nat × Nat)
  /-- spare blocks left: the physical block, in plane block mod 4, and its erases (R455, R456) -/
  spares : List (Nat × Nat)
  /-- operations that wait for their plane in arrival order; the one on each plane; suspended erases -/
  waiting : List DieOp
  running : List (Nat × DieOp)
  asleep : List (Nat × DieOp)
  /-- blocks whose program or erase failed with no spare left (R462) -/
  noSpare : List Nat
  /-- the newest shield copy: block, pair, data; copies made (R468) -/
  shield : Option (Nat × Nat × Bytes)
  shieldSeq : Nat
  /-- pages of the running slot in the read cache, least recently used first; pages whose last read failed -/
  cache : List Nat
  badPages : List Nat
  /-- the requester and the buffer of the Capo command that runs (R460) -/
  cmd : Option (Nat × Nat)
  deriving DecidableEq, Repr

/-- A request that waits for the ledger (R485, R487): activity, cycle, block for a relocation, whether its wait has been
reported. -/
structure LedReq where
  act : Nat
  since : Nat
  block : Nat
  noted : Bool
  deriving DecidableEq, Repr

/-- The maintenance ledger beside its registers. -/
structure LedgerState where
  waiting : List LedReq
  /-- the block of the CASE_REFRESH grant -/
  block : Option Nat
  /-- cycle at which a periodic activity was last begun -/
  lastRun : List (Nat × Nat)
  /-- changes made by the table scrub (Table 13-10); no register shows the count -/
  scrubFixes : Nat
  deriving DecidableEq, Repr

/-! ## Tamper monitors and watchdogs -/

/-- A monitored quantity (R491 to R498): events in the window (cycle, detectors that reported, injected), events without
a partner yet (detector B, cycle, injected), the last event, consecutive watch cycles with an event. -/
structure TQty where
  events : List (Nat × Nat × Bool)
  lone : List (Bool × Nat × Bool)
  lastEv : Nat
  watch : Nat
  deriving DecidableEq, Repr

/-- The tamper monitors beside their registers. -/
structure TamperState where
  qty : List (Nat × TQty)
  /-- log entries (bytes 0 to 27) that wait to be programmed, and the evidence buffer (R500) -/
  log : List Bytes
  evid : List Bytes
  /-- the sticky-flag mirror in META (R502) -/
  mirror : Nat
  /-- the lost count mirrored to META (R501) -/
  lostMirror : Nat
  /-- the cycle at which a loop's sequence last began with its SEED (R490); that of the last detector test (R495) -/
  loopAt : List (Nat × Nat)
  bistAt : Nat
  deriving DecidableEq, Repr

/-- The Capo and module watchdogs (R517 to R520): cycle of the last reload, cycle since which each is paused, whether
the first key of a kick is the register's last write, the module watchdog's TIMEOUT in force. -/
structure WdogState where
  capoAt : Nat
  capoPaused : Option Nat
  capoKey : Bool
  modAt : Nat
  modPaused : Option Nat
  modKey : Bool
  modTimeout : Nat
  deriving DecidableEq, Repr

/-! ## Power, lifecycle, debug -/

/-- The power controller beside its registers (R525 to R536). -/
structure PowerState where
  /-- RETAIN has been requested and WAIT not executed; the drain of an accepted request began at this cycle -/
  retainReq : Bool
  draining : Option Nat
  /-- a confirmed alarm in P2 Retain makes the next wake a module reset (R497) -/
  alarmReset : Bool
  /-- the dip: cycle of its warning, lowest bank voltage in mV, cycle of restored input -/
  dipAt : Option Nat
  minBank : Nat
  restoredAt : Option Nat
  /-- load shed in force; the orderly stop has begun -/
  shed : Bool
  stopped : Bool
  /-- held in reset at 32 V -/
  resetHeld : Bool
  /-- RST_N and PERST_N are low -/
  rstLow : Bool
  perstLow : Bool
  /-- a cold boot waits for RST_N to rise -/
  coldWaits : Bool
  /-- a boot waits for its keys (R408, R538): whether FAULT_N stays low after it, and what it finds -/
  bootWait : Option (Bool × BootEnv)
  /-- cycle of the last boot or restore of the input, for the holdup check -/
  restoreAt : Nat
  deriving DecidableEq, Repr

/-- A commit record (Table 15-6). -/
structure Commit where
  kind : Nat
  slot : Nat
  seq : Nat
  version : Nat
  minver : Nat
  length : Nat
  digest : Bytes
  deriving DecidableEq, Repr

/-- A lifecycle command that waits for entropy or for the end of a Case suspension (R475, R548): its operation, and what
META holds for PROVISION. -/
structure LifeReq where
  op : Nat
  prov : ProvData
  deriving DecidableEq, Repr

/-- Lifecycle, images and debug beside their registers (R540 to R553). -/
structure LifeSt where
  /-- commit records in META, oldest first; the sequence number of the running one -/
  commits : List Commit
  running : Option Nat
  /-- no slot was accepted at the last boot (R541) -/
  bootFailed : Bool
  /-- the boot ROM applies the preset image: SL fields take writes (R545) -/
  applying : Bool
  /-- the preset image in META, and what PROVISION found there -/
  preset : Bytes
  prov : ProvData
  /-- measurements in index order (Table 15-7) -/
  measured : List Bytes
  /-- cycle of an unused debug challenge; cycle at which Debug-opened ends -/
  chalAt : Option Nat
  dbgUntil : Nat
  waiting : Option LifeReq
  /-- halt requests that wait for a permitted state: MID and processor (R551) -/
  haltReq : List (Nat × Nat)
  /-- processors halted, with the MID of the debug master that halts each -/
  halters : List (Nat × Nat)
  /-- processors that execute one instruction and halt again, with the MID -/
  stepReq : List (Nat × Nat)
  /-- breakpoints: MID, processor, word address -/
  breaks : List (Nat × (Nat × Nat))
  deriving DecidableEq, Repr

/-! ## Pickguard and card port -/

/-- A session (R566 to R570): role (reader or tag), its start and last step, HELLO, the credential's ID, keys KMP, KPM and
KMAC with T once keyed, the counters of both directions. -/
structure PickSess where
  reader : Bool
  startAt : Nat
  stepAt : Nat
  ident : Bytes
  kmp : Bytes
  kpm : Bytes
  kmac : Bytes
  t : Bytes
  ctrOut : Nat
  ctrIn : Nat
  deriving DecidableEq, Repr

/-- The Pickguard beside its registers. -/
structure PickState where
  /-- word memory: words that are not zero -/
  words : List (Nat × Word32)
  /-- FDET_N is low; cycle at which the external field was detected; cycle of its loss -/
  fdet : Bool
  fieldAt : Nat
  lossAt : Option Nat
  /-- the reader's field is on -/
  rdrField : Bool
  /-- the tag: UID, ISO-DEP exchange open, application selected, WRITE_VISIT used, slot a READ_MIRROR reads -/
  uid : Bytes
  isoDep : Bool
  app : Bool
  visitUsed : Bool
  reading : Option Nat
  /-- the last answer of the tag: data and status word -/
  answer : Bytes
  /-- the last message sent or received in a session -/
  message : Bytes
  sess : Option PickSess
  /-- badges resolved by the running poll that wait to be served; a failed session's status to be answered -/
  badges : List Bytes
  failed : Option Nat
  /-- backoff list, oldest first: UID, failures, cycle until which it holds (R565) -/
  backoff : List (Bytes × (Nat × Nat))
  /-- a mirror copy has been requested; cycle at which a deferred one began to wait -/
  copyReq : Bool
  deferAt : Nat
  deriving DecidableEq, Repr

/-- The card port beside its registers. -/
structure CardState where
  /-- the class of the running activation is A after AUTO's first try; cold resets for PPS -/
  triedB : Bool
  /-- the card's credential from GET_INFO, T of its session, its keys and counters -/
  cred : Bytes
  sess : Option PickSess
  /-- whether the running transfer is sealed, its APDU, cycle of its start -/
  xfer : Option (Bool × Bytes × Nat)
  /-- consecutive T=1 errors -/
  t1errs : Nat
  /-- clock-stop indicator of the ATR; the clock is stopped; cycle of the last traffic -/
  clockStop : Bool
  stopped : Bool
  lastAt : Nat
  deriving DecidableEq, Repr


/-- The state of the module. -/
structure State where
  /-- core-clock cycles since reset (R7, R8) -/
  clock : Nat
  /-- registers that differ from their reset value, by BAR0 offset -/
  regs : List (Nat × Word32)
  /-- second copies of dual-stored registers that differ from the first (R74, R75) -/
  dual : List (Nat × Word32)
  /-- latched _HI values, by 2^26 × master + offset (R67) -/
  hiLatch : List (Nat × Word32)
  /-- TOP_UNMAPPED and TOP_NARROWWR (R65, R66): the spec gives them no offset -/
  topUnmapped : Nat
  topNarrow : Nat
  /-- the model's own counter of free values used (log entry 3) -/
  freeCtr : Nat
  pstate : PState
  /-- a module reset that has been asked for (R537) -/
  resetPend : Option ResetCause
  time : TimeState
  mem : MemState
  ev : EvState
  flt : FaultState
  /-- Diurn processors by number, 0 to 31 FE0 to FE31, 32 the Capo; one not listed is as after reset -/
  procs : List (Nat × Proc)
  key : KeyState
  data : DataState
  jobs : JobState
  ve : VeState
  rosin : RosinState
  die : CaseState
  led : LedgerState
  tamp : TamperState
  wdog : WdogState
  pwr : PowerState
  lcs : LifeSt
  pick : PickState
  card : CardState
  /-- TARGET, WORLD and GROUP written while a source was in service, as a register word (R205) -/
  intcHeld : List (Nat × Word32)
  /-- cycle at which the hold-off of a moderation group ends (R207) -/
  holdoffs : List (Nat × Nat)
  /-- the commands that wait, first in first out -/
  pending : List Instr
  deriving DecidableEq, Repr

/-- The outcome of a command. -/
abbrev Out := Host.Outcome State Fault Refusal

/-- The stamps before any has been taken. -/
def Stamp.zero : Stamp := ⟨0, 0, false, 0, 0⟩

/-- The timebase after reset: state FREERUN, ticks stopped, rate 4,000 (Tables 1-6 to 1-10). -/
def TimeState.reset : TimeState where
  modTime := 0
  freq := 0
  freqLock := 0
  slew := 0
  everLocked := false
  good := 0
  bad := 0
  lockedAt := 0
  holdAt := 0
  lastSrc := 0
  secWritten := false
  ptpSec := false
  ticking := false
  stopPend := false
  inTick := false
  firstTick := true
  rate := 4000
  edge := 0
  ppsEnd := none
  opTime := 0
  opSub := 0
  opMirror := 0
  opMirrorAt := 0
  mirrorDue := false

/-- Memory after reset: nothing listed, nothing poisoned. -/
def MemState.reset : MemState where
  cells := []
  host := []
  m32 := false
  upsets := []
  poison := []
  writebacks := []
  lines := []
  dramPoison := []
  parityNext := 0
  crcNext := 0
  hostFails := false
  hostFn := 0
  versions := []
  guardQueue := []
  bootKeys := 0
  guardKey := 0
  guardPrev := 0
  sweepAt := 0
  reply := []

/-- The event recorder after reset: empty buffer and ring. -/
def EvState.reset : EvState where
  buf := []
  nextSeq := 0
  ring := []
  wp := 0
  lostPend := false
  flushN := none
  again := false
  oldestFloor := none
  winBase := []

/-- The fault collector after reset: no record open, FAULT_N low until the boot releases it (R515). -/
def FaultState.reset : FaultState where
  open_ := none
  pulseEnd := none
  relHeld := false
  bootHold := true
  zeroizeDue := false
  isolated := []
  inReset := []
  logNext := 0

/-- A processor after module reset (R108): every special register zero but SW; a Fret engine held
(FE_CTL.HOLD resets to 1), the Capo running at the boot ROM (log entry 12). -/
def Proc.reset (p : Nat) : Proc where
  pc := 0
  sw := if p < 32 then 3 else 0
  sp := [0, 0, 0, 0]
  fp := 0
  tb := 0
  evb := [0, 0]
  tsb := [0, 0]
  tsl := [0, 0]
  gtb := 0
  ls := [0, 0, 0, 0]
  le := [0, 0, 0, 0]
  lc := [0, 0, 0, 0]
  lx := [0, 0, 0, 0]
  ix := [0, 0, 0, 0]
  depth := [0, 0]
  run := if p < 32 then .held else .running
  twaited := false
  budgetGiven := false
  parkEntry := false
  staged := []
  now := 0
  abandons := 0
  halted := false

/-- The key store after reset: every Peg slot FREE, nothing in the vault, no root key (KEY_STATE.ROOT ABSENT). -/
def KeyState.reset : KeyState where
  pegs := []
  privs := []
  rootKey := none
  vaultRoot := 0
  blobKey := 0
  useClock := 0
  waiting := none
  cer := none
  authUntil := 0

/-- The data path after reset: no frame, no entry, no request. -/
def DataState.reset : DataState where
  frames := []
  nextFrame := 0
  dups := []
  sent := []
  pairSeq := []
  pairTx := []
  pairRx := []
  sfp := []
  supvLost := []
  demoted := []
  ranks := []
  master := none
  hot := []
  hotClock := 0
  supAt := 0
  pins := []
  idKey := 0
  mixKey := 0
  samples := []
  held := []
  heldOrder := 0
  heldList := []
  heldOver := []
  decided := []
  gfail := []
  objCur := []
  objShadow := []
  rel := []
  relOrder := 0
  relList := []
  feBWaits := false
  ran := []
  queues := []
  arbD := ⟨63, 0, [], [], []⟩
  arbS := ⟨63, 0, [], [], []⟩
  lastSubmit := true
  unread := []
  linkRead := 0
  due := []
  msix := []
  vfEnable := false
  vfVecs := []
  doe := []
  spdm := ⟨0, none⟩
  ide := []

/-- Rings, cells and digest engine after reset: no job. -/
def JobState.reset : JobState where
  rings := []
  jobs := []
  ending := []
  lastRing := []
  fill := []
  grants := 0
  turn := 15
  katDue := []
  kats := []
  wrapKey := 0

/-- The verification engines after reset. -/
def VeState.reset : VeState where
  cmds := []
  curves := []

/-- The Rosin array after reset: STATE OFF, nothing in it. -/
def RosinState.reset : RosinState where
  reserve := []
  cond := []
  run := []
  passed := []
  failedOnce := []
  fails := []
  bursts := []
  stopAt := 0
  timedOut := false
  lastRead := 0
  port := 2
  left := 0
  keyload := []
  limits := []
  pullRead := []
  pstAt := 0

/-- The Case die as delivered: erased, four spares in each plane (Table 13-1). -/
def CaseState.reset : CaseState where
  cells := []
  blocks := []
  map := []
  spares := [(192, 0), (193, 0), (194, 0), (195, 0), (196, 0), (197, 0), (198, 0), (199, 0), (200, 0), (201, 0),
    (202, 0), (203, 0), (204, 0), (205, 0), (206, 0), (207, 0)]
  waiting := []
  running := []
  asleep := []
  noSpare := []
  shield := none
  shieldSeq := 0
  cache := []
  badPages := []
  cmd := none

/-- The ledger after reset: no request. -/
def LedgerState.reset : LedgerState where
  waiting := []
  block := none
  lastRun := []
  scrubFixes := 0

/-- The tamper monitors after reset: no event. -/
def TamperState.reset : TamperState where
  qty := []
  log := []
  evid := []
  mirror := 0
  lostMirror := 0
  loopAt := []
  bistAt := 0

/-- The watchdogs after reset: both start at TIMEOUT (R517, R520), the module watchdog's being 2,000 ms. -/
def WdogState.reset : WdogState where
  capoAt := 0
  capoPaused := none
  capoKey := false
  modAt := 0
  modPaused := none
  modKey := false
  modTimeout := 2000

/-- The power controller after reset: no dip, no request. -/
def PowerState.reset : PowerState where
  retainReq := false
  draining := none
  alarmReset := false
  dipAt := none
  minBank := 0
  restoredAt := none
  shed := false
  stopped := false
  resetHeld := false
  rstLow := false
  perstLow := false
  coldWaits := false
  bootWait := none
  restoreAt := 0

/-- Lifecycle Blank, nothing written to META. -/
def LifeSt.reset : LifeSt where
  commits := []
  running := none
  bootFailed := false
  applying := false
  preset := []
  prov := ⟨[], [], [], []⟩
  measured := []
  chalAt := none
  dbgUntil := 0
  waiting := none
  haltReq := []
  halters := []
  stepReq := []
  breaks := []

/-- The Pickguard after reset: no field, no session, its word memory erased. -/
def PickState.reset : PickState where
  words := []
  fdet := false
  fieldAt := 0
  lossAt := none
  rdrField := false
  uid := []
  isoDep := false
  app := false
  visitUsed := false
  reading := none
  answer := []
  message := []
  sess := none
  badges := []
  failed := none
  backoff := []
  copyReq := false
  deferAt := 0

/-- The card port after reset: no card. -/
def CardState.reset : CardState where
  triedB := false
  cred := []
  sess := none
  xfer := none
  t1errs := 0
  clockStop := false
  stopped := false
  lastAt := 0

/-- The module right after reset: every register at the reset value of its table, no command waiting. -/
def State.reset : State where
  clock := 0
  regs := []
  dual := []
  hiLatch := []
  topUnmapped := 0
  topNarrow := 0
  freeCtr := 0
  pstate := .p0
  resetPend := none
  time := TimeState.reset
  mem := MemState.reset
  ev := EvState.reset
  flt := FaultState.reset
  procs := []
  key := KeyState.reset
  data := DataState.reset
  jobs := JobState.reset
  ve := VeState.reset
  rosin := RosinState.reset
  die := CaseState.reset
  led := LedgerState.reset
  tamp := TamperState.reset
  wdog := WdogState.reset
  pwr := PowerState.reset
  lcs := LifeSt.reset
  pick := PickState.reset
  card := CardState.reset
  intcHeld := []
  holdoffs := []
  pending := []

end Sys2Proof.Machine
end

