-- ==== Sys2Proof/Machine/Status.lean ====
section
/-! DEFINITION. The status identifiers of R15 and their 8-bit codes (R252, Table 6-5). -/

namespace Sys2Proof.Machine

/-- Accepted, or operation complete. -/
abbrev stOK : Nat := 0x00
/-- Accepted under R247. -/
abbrev stRESTART : Nat := 0x01
/-- Check value does not match. -/
abbrev stAUTH_FAIL : Nat := 0x10
/-- Refused by the replay step. -/
abbrev stREPLAY : Nat := 0x11
/-- Key usage limit reached. -/
abbrev stKEY_SPENT : Nat := 0x12
/-- No valid key for the identifier, or slot empty. -/
abbrev stKEY_ABSENT : Nat := 0x13
/-- Security extension missing. -/
abbrev stNO_TAG : Nat := 0x14
/-- Tag length differs from TAGLEN. -/
abbrev stTAG_LENGTH : Nat := 0x15
/-- Frame structure invalid. -/
abbrev stMALFORMED : Nat := 0x20
/-- A length field or operand out of range. -/
abbrev stBAD_LENGTH : Nat := 0x21
/-- No entry matches. -/
abbrev stNO_ASSOC : Nat := 0x22
/-- Discarded by role. -/
abbrev stROLE_DROP : Nat := 0x23
/-- Supervision time passed without an accepted frame. -/
abbrev stSUPERVISION_LOST : Nat := 0x24
/-- Authentic, fails plausibility. -/
abbrev stPLAUS_FAIL : Nat := 0x30
/-- Refused by the interlock program. -/
abbrev stINTERLOCK_DENY : Nat := 0x31
/-- Discarded by policy. -/
abbrev stPOLICY_DROP : Nat := 0x32
/-- The two release decisions disagree. -/
abbrev stTREMOLO_MISMATCH : Nat := 0x33
/-- Tick abandoned. -/
abbrev stTICK_ABANDON : Nat := 0x34
/-- Held frame released without a verdict. -/
abbrev stHOLD_EXPIRED : Nat := 0x35
/-- Queue stopped on a host error. -/
abbrev stQUEUE_ERROR : Nat := 0x40
/-- No entropy within the timeout. -/
abbrev stENTROPY_UNAVAILABLE : Nat := 0x50
/-- Operation aborted, or output buffer full. -/
abbrev stABORTED : Nat := 0x51
/-- Operation exceeded its time limit. -/
abbrev stTIMEOUT : Nat := 0x52
/-- Parameter or configuration refused. -/
abbrev stBAD_PARAM : Nat := 0x53
/-- Operation code not assigned. -/
abbrev stBAD_OPCODE : Nat := 0x54
/-- Key of the wrong kind for the operation. -/
abbrev stKEY_TYPE : Nat := 0x55
/-- Signature or digest comparison failed. -/
abbrev stVERIFY_FAIL : Nat := 0x56
/-- Loaded curve failed its sanity checks. -/
abbrev stCURVE_INVALID : Nat := 0x57
/-- No one-time signature index left. -/
abbrev stINDEX_EXHAUSTED : Nat := 0x58
/-- Saved or slot state not valid. -/
abbrev stSTATE_INVALID : Nat := 0x59
/-- Not allowed in the current state or identity. -/
abbrev stNOT_PERMITTED : Nat := 0x5A
/-- Unit occupied. -/
abbrev stBUSY : Nat := 0x5B
/-- Unit erased by an alarm. -/
abbrev stZEROIZED : Nat := 0x5C
/-- Association insert found no place. -/
abbrev stTABLE_FULL : Nat := 0x60
/-- Association insert found its match key already present. -/
abbrev stDUPLICATE : Nat := 0x61

/-- The codes a Fret program may set with VERDICT (Table 6-5, last column). -/
def verdictCodes : List Nat := [0x00, 0x30, 0x31, 0x32]

/-- The codes of Table 6-5, the only ones that a unit produces (R252). -/
def statusCodes : List Nat :=
  [stOK, stRESTART, stAUTH_FAIL, stREPLAY, stKEY_SPENT, stKEY_ABSENT, stNO_TAG, stTAG_LENGTH, stMALFORMED,
   stBAD_LENGTH, stNO_ASSOC, stROLE_DROP, stSUPERVISION_LOST, stPLAUS_FAIL, stINTERLOCK_DENY, stPOLICY_DROP,
   stTREMOLO_MISMATCH, stTICK_ABANDON, stHOLD_EXPIRED, stQUEUE_ERROR, stENTROPY_UNAVAILABLE, stABORTED,
   stTIMEOUT, stBAD_PARAM, stBAD_OPCODE, stKEY_TYPE, stVERIFY_FAIL, stCURVE_INVALID, stINDEX_EXHAUSTED,
   stSTATE_INVALID, stNOT_PERMITTED, stBUSY, stZEROIZED, stTABLE_FULL, stDUPLICATE]

/-- The code of a status that the spec does not give: one of the list, whichever (log entry 3). -/
def anyStatus (v : Nat) : Nat := statusCodes.getD (v % statusCodes.length) stOK

/-- The code of a failure that the spec does not give: one of the list beyond OK and RESTART. -/
def anyFailure (v : Nat) : Nat := (statusCodes.drop 2).getD (v % (statusCodes.length - 2)) stABORTED

/-- A status code that another unit reports: one of the list (R252). -/
def listedStatus (v : Nat) : Nat := if statusCodes.contains v then v else anyFailure v

end Sys2Proof.Machine
end

