-- ==== Sys2Proof/Machine/Ops.lean ====
section
/-! DEFINITION. The operations every unit uses: reading and writing registers and their fields, free
values, time, byte memories, interrupt request lines, event records. -/

namespace Sys2Proof.Machine

/-! ## Registers -/

/-- The value a register holds: the stored one, or its reset value (R13). -/
def State.rd (s : State) (off : Nat) : Word32 := tgetD s.regs off (regReset off)

/-- A register with a whole value put in by the hardware, in both copies (R75). -/
def State.wr (s : State) (off : Nat) (v : Word32) : State :=
  { s with regs := tset s.regs off v, dual := terase s.dual off }

/-- The field of a word. -/
def wordField (w : Word32) (hi lo : Nat) : Nat := w.toNat / 2 ^ lo % 2 ^ (hi + 1 - lo)

/-- A word with a field replaced by a value of the field's width. -/
def wordSet (w : Word32) (hi lo v : Nat) : Word32 :=
  BitVec.ofNat 32
    (2 ^ (hi + 1) * (w.toNat / 2 ^ (hi + 1)) + 2 ^ lo * (v % 2 ^ (hi + 1 - lo)) + w.toNat % 2 ^ lo)

/-- The value of a register's field. -/
def State.get (s : State) (f : Fld) : Nat := wordField (s.rd f.off) f.hi f.lo

/-- A hardware update of a field: both copies of that field (R75). -/
def State.put (s : State) (f : Fld) (v : Nat) : State :=
  { s with
    regs := tset s.regs f.off (wordSet (s.rd f.off) f.hi f.lo v)
    dual := match tget s.dual f.off with
      | none => s.dual
      | some w =>
        if wordSet w f.hi f.lo v = wordSet (s.rd f.off) f.hi f.lo v then terase s.dual f.off
        else tset s.dual f.off (wordSet w f.hi f.lo v) }

/-- The largest value a field can hold. -/
def Fld.max (f : Fld) : Nat := 2 ^ (f.hi + 1 - f.lo) - 1

/-- A saturating count in a field. -/
def State.inc (s : State) (f : Fld) : State := s.put f (satAt f.max (s.get f + 1))

/-- A saturating count by more than one. -/
def State.incBy (s : State) (f : Fld) (n : Nat) : State := s.put f (satAt f.max (s.get f + n))

/-- A count that wraps. -/
def State.incWrap (s : State) (f : Fld) : State := s.put f (s.get f + 1)

/-- The 64-bit value of a counter split into a _LO and a _HI register (R67). -/
def State.get64 (s : State) (lo hi : Nat) : Nat := (s.rd lo).toNat + 2 ^ 32 * (s.rd hi).toNat

/-- A 64-bit value put into a _LO and a _HI register. -/
def State.put64 (s : State) (lo hi v : Nat) : State :=
  (s.wr lo (BitVec.ofNat 32 v)).wr hi (BitVec.ofNat 32 (v / 2 ^ 32))

/-- A count in a 64-bit counter. -/
def State.inc64 (s : State) (lo hi n : Nat) : State :=
  s.put64 lo hi (satAt (2 ^ 64 - 1) (s.get64 lo hi + n))

/-- Whether a one-bit field is set. -/
def State.on (s : State) (f : Fld) : Bool := decide (s.get f = 1)

/-- A one-bit field as a Boolean. -/
def State.putB (s : State) (f : Fld) (b : Bool) : State := s.put f (if b then 1 else 0)

/-! ## Free values -/

/-- A fresh free value and the state with the counter advanced (log entry 3). -/
def State.free (s : State) : Nat × State :=
  (Config.freeValue s.freeCtr, { s with freeCtr := s.freeCtr + 1 })

/-- Fresh free bytes. -/
def State.freeB (s : State) (n : Nat) : Bytes × State :=
  (Config.freeBytes n s.freeCtr, { s with freeCtr := s.freeCtr + 1 })

/-! ## Interrupt request lines (Table 5-8) -/

/-- The request line of an interrupt source raised. -/
def State.setIrq (s : State) (i : Nat) : State := s.put (INTC_SRC_LEVEL i) 1

/-- The request line of an interrupt source lowered. -/
def State.clrIrq (s : State) (i : Nat) : State := s.put (INTC_SRC_LEVEL i) 0

/-- The request line following a condition. -/
def State.irq (s : State) (i : Nat) (b : Bool) : State := s.putB (INTC_SRC_LEVEL i) b

/-! ## Time -/

/-- Thirds of a femtosecond in a second and in a nanosecond; cycles in a millisecond and in a second (R7). -/
def thirdsPerSec : Nat := 3000000000000000
def thirdsPerNs : Nat := 3000000
def cyclesPerMs : Nat := 1500000
def cyclesPerSec : Nat := 1500000000

/-- The values derived from a tick rate (R28): N, G, W; D of R30. -/
def tickN (r : Nat) : Nat := cyclesPerSec / r
def tickG (r : Nat) : Nat := ceilDiv (tickN r) 50
def tickW (r : Nat) : Nat := tickN r - tickG r
def tickD (r slewMax : Nat) : Nat := ceilDiv (tickN r * (slewMax + 5)) 1000000

/-- An integer kept within ± m. -/
def clampTo (m i : Int) : Int := max (-m) (min m i)

/-- How far module time advances in one cycle, in thirds of a femtosecond: the nominal rate with the frequency estimate
and the slew, which never exceeds the TIME_SLEWMAX in force (R22), within what keeps every tick between N − 1 − D and
N + 1 + D cycles (R30; log entry 108). -/
def State.perCycle (s : State) : Nat :=
  let r := s.time.rate
  let d := tickD r (s.get TIME_SLEWMAX_PPM)
  let p := (2000000 + s.time.freq + clampTo (2 * s.get TIME_SLEWMAX_PPM) s.time.slew).toNat
  max (ceilDiv thirdsPerSec (r * (tickN r + 1 + d))) (min (thirdsPerSec / (r * (tickN r - 1 - d))) p)

/-- Whether operating time advances: in P0 Run, P1 Gated and P2 Retain (R50). -/
def State.opRuns (s : State) : Bool := decide (s.pstate ≠ .p3)

/-- Cycles pass: the clock, module time and operating time advance. -/
def State.pass (s : State) (n : Nat) : State :=
  { s with
    clock := s.clock + n
    time := { s.time with
      modTime := s.time.modTime + n * s.perCycle
      opTime := if s.opRuns then (s.time.opTime + (s.time.opSub + n) / cyclesPerMs) % 2 ^ 44
        else s.time.opTime
      opSub := if s.opRuns then (s.time.opSub + n) % cyclesPerMs else s.time.opSub } }

/-- The time up to a cycle passes (log entry 9). -/
def State.passTo (s : State) (c : Nat) : State := s.pass (c - s.clock)

/-- Module time as TAI seconds and nanoseconds. -/
def State.taiSec (s : State) : Nat := s.time.modTime / thirdsPerSec % 2 ^ 48
def State.taiNs (s : State) : Nat := s.time.modTime % thirdsPerSec / thirdsPerNs

/-- Whether stamps mark TAI as valid: the timebase is LOCKED or HOLDOVER (R49). -/
def State.taiOk (s : State) : Bool :=
  s.get TIME_STATE_STATE = 2 || s.get TIME_STATE_STATE = 3

/-- The three stamps of R49. -/
def State.stamp (s : State) : Stamp where
  opTime := s.time.opTime
  pwrCyc := s.get PWRCYC_COUNT
  taiValid := s.taiOk
  taiSec := if s.taiOk then s.taiSec else 0
  taiNs := if s.taiOk then s.taiNs else 0

/-- A processor's state. -/
def State.proc (s : State) (p : Nat) : Proc := tgetD s.procs p (Proc.reset p)

/-- A processor's state replaced. -/
def State.setProc (s : State) (p : Nat) (pr : Proc) : State := { s with procs := tset s.procs p pr }

/-- Whether the logic runs: it is powered, in P0 Run or P1 Gated, and not held in reset by RST_N (R524, R595). -/
def State.logicUp (s : State) : Bool := decide (s.pstate = .p0 ∨ s.pstate = .p1) && !s.pwr.rstLow

/-- Whether the Soundboard, the verification engines and the digest cores dispatch no new work: the load is shed, a
retain entry drains, or the logic does not run (R526, R533). -/
def State.noDispatch (s : State) : Bool := s.pwr.shed || s.pwr.draining.isSome || !s.logicUp

/-! ## Byte memories -/

/-- The byte of a canonical memory at an address; unlisted bytes read 0 (log entry 7). -/
def cellRead (m : List Host.Cell) (a : Nat) : Byte := tgetD m a 0

/-- A byte written, in canonical form: a byte of 0 is not listed. -/
def cellWrite (m : List Host.Cell) (a : Nat) (b : Byte) : List Host.Cell := tsetD 0 m a b

/-- Bytes at consecutive addresses. -/
def cellsRead (m : List Host.Cell) (a : Nat) : Nat → Bytes
  | 0 => []
  | n + 1 => cellRead m a :: cellsRead m (a + 1) n

/-- Bytes written at consecutive addresses, in ascending order. -/
def cellsWrite (m : List Host.Cell) (a : Nat) : Bytes → List Host.Cell
  | [] => m
  | b :: bs => cellsWrite (cellWrite m a b) (a + 1) bs

/-- The canonical form of a byte memory: addresses strictly rising, no byte equal to what an unlisted
address reads as. -/
def Memory.wf (m : List Host.Cell) : Bool := tableWf 0 m

/-- Bytes of the internal map read and written. -/
def State.peek (s : State) (a n : Nat) : Bytes := cellsRead s.mem.cells a n
def State.poke (s : State) (a : Nat) (bs : Bytes) : State :=
  { s with mem := { s.mem with cells := cellsWrite s.mem.cells a bs } }

/-- `n` bytes of SRAM from an address on written zero: nothing of their words is poisoned, upset or waits to be written
back (R71, R326). -/
def State.sramClear (s : State) (lo n : Nat) : State :=
  let out (a : Nat) : Bool := !(decide (lo ≤ a) && decide (a < lo + n))
  { s with mem := { s.mem with
    cells := s.mem.cells.filter (fun c => out c.1)
    upsets := s.mem.upsets.filter (fun e => out e.1)
    poison := s.mem.poison.filter out
    writebacks := s.mem.writebacks.filter out } }

/-- Bytes of host memory read and written. -/
def State.hostRead (s : State) (a n : Nat) : Bytes := cellsRead s.mem.host a n
def State.hostWrite (s : State) (a : Nat) (bs : Bytes) : State :=
  { s with mem := { s.mem with host := cellsWrite s.mem.host a bs } }

/-! ## CRCs of the records -/

/-- One step of CRC-16/CCITT-FALSE over a byte (R477, R507). -/
def crc16Bits : Nat → Nat → Nat
  | 0, c => c
  | k + 1, c => crc16Bits k (if c / 2 ^ 15 % 2 = 1 then ((c * 2) % 65536) ^^^ 0x1021 else c * 2 % 65536)

/-- CRC-16/CCITT-FALSE: initial value 0xFFFF, polynomial 0x1021. -/
def crc16 (bs : Bytes) : Nat := bs.foldl (fun c b => crc16Bits 8 (c ^^^ (b.toNat * 256))) 0xFFFF

/-- One bit step of CRC-32. -/
def crc32Bits : Nat → Nat → Nat
  | 0, c => c
  | k + 1, c => crc32Bits k (if c % 2 = 1 then c / 2 ^^^ 0xEDB88320 else c / 2)

/-- CRC-32 of IEEE 802.3 (R499; log entry 14). -/
def crc32 (bs : Bytes) : Nat :=
  bs.foldl (fun c b => crc32Bits 8 (c ^^^ b.toNat)) 0xFFFFFFFF ^^^ 0xFFFFFFFF

end Sys2Proof.Machine
end

