-- ==== Sys2Proof/Machine/Faults.lean ====
section
/-! DEFINITION. Event records entering the recorder's buffer (R477 to R480) and the fault collector:
raising a source, its record and its actions (R504 to R514). -/

namespace Sys2Proof.Machine

/-! ## Event records -/

/-- A flush asked for after a supply warning mirrors operating time when it ends (R51). -/
def State.flushMark (s : State) : State :=
  { s with time := { s.time with mirrorDue := s.time.mirrorDue || s.pwr.dipAt.isSome } }

/-- A flush starts, or another follows the running one (R480). -/
def State.flushStart (s : State) : State :=
  match s.ev.flushN with
  | some _ => ({ s with ev := { s.ev with again := true } }).flushMark
  | none => ((({ s with ev := { s.ev with flushN := some s.ev.buf.length } }).put EVREC_STATUS_FLUSHING 1)).flushMark

/-- Payload bytes brought to 32. -/
def payload32 (bs : Bytes) : Bytes := bs.take 32 ++ List.replicate (32 - bs.length) 0

/-- The record of a class correctable source that joins the open record or opens one, with its counts;
used where a record finds no room, before any action of the source is taken. -/
def State.openOrMerge (s : State) (src info : Nat) (forced : Bool) (cls acts : Nat) : State :=
  match s.flt.open_ with
  | none =>
    let r : FaultRec := ⟨src, cls, acts, 0xFFFF, 0, info, forced, false, false, s.stamp, s.clock⟩
    (({ s with flt := { s.flt with open_ := some r } }).put FAULT_OPEN_OPEN 1).put FAULT_OPEN_SOURCE src
  | some r =>
    let r' : FaultRec :=
      { r with
        cls := max r.cls cls
        raised := r.raised || decide (r.cls < cls)
        actions := r.actions ||| acts
        second := if r.second = 0xFFFF then src else r.second
        merges := satAt 255 (r.merges + 1)
        mforced := r.mforced || forced }
    { s with flt := { s.flt with open_ := some r' } }

/-- FAULT_N driven low; its pulse starts again and a held RELEASE is cancelled (R514). -/
def State.faultN (s : State) : State :=
  { s.put FAULT_NCTL_ASSERTED 1 with
    flt := { s.flt with pulseEnd := some (s.clock + 1500 * s.get FAULT_CTL_PULSE), relHeld := false } }

/-- The state of a unit taken out of service by its source (Table 14-4, ISOLATE): a lane, cell,
verification engine, digest core or conditioner; another source is noted as isolated. -/
def State.isolate (s : State) (src : Nat) : State :=
  if 33 ≤ src ∧ src ≤ 40 then
    s.put BOW_LANE_STATUS_ISOLATED (s.get BOW_LANE_STATUS_ISOLATED ||| 2 ^ (src - 33))
  else if 46 ≤ src ∧ src ≤ 61 then
    ((s.put (CELL_STATUS_STATE (src - 46)) 5).put SOUND_STATUS_BUSY
      (s.get SOUND_STATUS_BUSY &&& (0xFFFF - 2 ^ (src - 46)))).put SOUND_STATUS_ISOLATED
      (s.get SOUND_STATUS_ISOLATED ||| 2 ^ (src - 46))
  else if 64 ≤ src ∧ src ≤ 67 then s.put (VE_STATUS_ISOLATED (src - 64)) 1
  else if 69 ≤ src ∧ src ≤ 76 then
    (s.put (CORE_STATUS_STATE (src - 69)) 5).put DIG_STATUS_ISOLATED
      (s.get DIG_STATUS_ISOLATED ||| 2 ^ (src - 69))
  else if 80 ≤ src ∧ src ≤ 83 then s.put (ROSIN_COND_ISOLATED (src - 80)) 1
  else { s with flt := { s.flt with isolated := src :: s.flt.isolated.filter (· ≠ src) } }

/-- Whether a source's domain is a unit (R505): a lane, cell, verification engine, digest core or
conditioner. The engine of FE_TICK is reset by its abandon. -/
def unitSource (src : Nat) : Bool :=
  decide (33 ≤ src ∧ src ≤ 40) || decide (46 ≤ src ∧ src ≤ 61) || decide (64 ≤ src ∧ src ≤ 67) ||
    decide (69 ≤ src ∧ src ≤ 76) || decide (80 ≤ src ∧ src ≤ 83)

/-- The reset of a source's domain (R505): a unit is cleared and waits for its known-answer test; for the
module a reset is requested, which the row MODULE_RESET performs after the record's flush. -/
def State.resetDomain (s : State) (src : Nat) : State :=
  if 96 ≤ src ∧ src ≤ 127 then s
  else if unitSource src then
    let s1 := { s with flt := { s.flt with inReset := src :: s.flt.inReset.filter (· ≠ src) } }
    if 46 ≤ src ∧ src ≤ 61 then s1.put (CELL_STATUS_STATE (src - 46)) 3
    else if 69 ≤ src ∧ src ≤ 76 then s1.put (CORE_STATUS_STATE (src - 69)) 3
    else s1
  else { s with resetPend := some .fault }

/-- The actions of a raised source (Table 14-4). -/
def State.actions (s : State) (src cls acts : Nat) : State :=
  let s1 := if acts / 2 % 2 = 1 then
    (s.put FAULT_PEND_CLASS (s.get FAULT_PEND_CLASS ||| 2 ^ cls)).setIrq cls else s
  let s2 := if acts / 4 % 2 = 1 then s1.faultN else s1
  let s3 := if acts / 8 % 2 = 1 then s2.isolate src else s2
  let s4 := if acts / 16 % 2 = 1 then s3.resetDomain src else s3
  if acts / 32 % 2 = 1 then { s4 with flt := { s4.flt with zeroizeDue := true } } else s4

/-- A source raised: counted, recorded, its actions taken; a forced raise takes RESET and ZEROIZE only
with FORCEFULL (R508, R511). -/
def State.raiseCore (s : State) (src info : Nat) (forced : Bool) : State :=
  let s1 := s.inc (FAULT_SRC_RAISED src)
  let cls := faultClass src
  let a := s1.get (FAULT_SRC_ACTION src)
  let acts := if forced && !(s1.on FAULT_CTL_FORCEFULL) then a % 16 else a
  (s1.openOrMerge src info forced cls acts).actions src cls acts

/-- A record enters the buffer (R478, R479) with the stamps of R49: from 240 records only those of
security- and fatal-class sources; one that finds no room is counted and EVREC_LOST is raised. It starts a
flush when it asks for one or when it is the 192nd (R480). -/
def State.evPut (s : State) (source code status origin : Nat) (pl : Bytes) (high flush : Bool) : State :=
  let n := s.ev.buf.length
  if n < 240 || (n < 256 && high) then
    let r : EvRec := ⟨s.stamp, s.ev.lostPend, false, source, code, status, origin, s.ev.nextSeq, payload32 pl⟩
    let s1 : State := { s with ev := { s.ev with
      buf := s.ev.buf ++ [(r, s.clock)], nextSeq := (s.ev.nextSeq + 1) % 2 ^ 32, lostPend := false } }
    let s2 := (s1.put EVREC_STATUS_FILL (n + 1)).put EVREC_NEWEST_SEQ r.seq
    let s3 := if s.ev.buf.isEmpty && s.ev.ring.isEmpty then s2.put EVREC_OLDEST_SEQ r.seq else s2
    if flush || decide (192 ≤ n + 1) then s3.flushStart else s3
  else
    (({ s with ev := { s.ev with lostPend := true } }).inc EVREC_LOST_COUNT).setIrq 324
      |>.raiseCore SRC_EVREC_LOST 0 false

/-- The SOURCE field of a hardware unit's record: its interrupt source number (Table 13-8). -/
def srcHw (irq : Nat) : Nat := irq
/-- The SOURCE field of a Fret program's record. -/
def srcFret (trust : Bool) (n : Nat) : Nat := 2 ^ 14 + (if trust then 32 else 0) + n
/-- The SOURCE field of a Capo record. -/
def srcCapo (ring : Nat) : Nat := 2 * 2 ^ 14 + ring

/-! ## Fault records -/

/-- The 32 bytes of a fault record (Table 14-6). -/
def FaultRec.bytes (r : FaultRec) (selfTest : Nat) : Bytes :=
  let b := natToBytes 2 r.source ++ natToBytes 1 r.cls ++ natToBytes 1 r.actions ++ natToBytes 2 r.second ++
    natToBytes 1 r.merges ++ natToBytes 1 selfTest ++ natToBytes 4 r.info ++ natToBytes 6 r.stamp.opTime ++
    natToBytes 3 r.stamp.pwrCyc ++
    natToBytes 1 ((if r.stamp.taiValid then 1 else 0) + (if r.forced then 2 else 0) +
      (if r.raised then 4 else 0) + (if r.mforced then 8 else 0)) ++
    natToBytes 4 r.stamp.taiSec ++ natToBytes 4 r.stamp.taiNs
  b ++ natToBytes 2 (crc16 b)

/-- Eight register words put at an offset from 32 bytes, byte 4w in bits 7:0 of word w. -/
def State.putWords (s : State) (off : Nat) : Nat → Bytes → State
  | 0, _ => s
  | n + 1, bs => (s.wr off (BitVec.ofNat 32 (bytesToNat (bs.take 4)))).putWords (off + 4) n (bs.drop 4)

/-- Whether Table 14-5 names a self-test for a source. -/
def hasSelfTest (src : Nat) : Bool :=
  decide (src ≤ 18) || decide (src = 20) || decide (33 ≤ src ∧ src ≤ 40) || decide (src = 45) ||
    decide (46 ≤ src ∧ src ≤ 61) || decide (64 ≤ src ∧ src ≤ 67) || decide (69 ≤ src ∧ src ≤ 76) ||
    decide (80 ≤ src ∧ src ≤ 83) || decide (src = 85 ∨ src = 86 ∨ src = 88 ∨ src = 89)

/-- Whether a source reports an uncorrectable error, whose record starts a flush (R480). -/
def uncorrectableSource (src : Nat) : Bool :=
  decide (8 ≤ src ∧ src ≤ 15) || decide (src = SRC_DRAM_UE) || decide (src = SRC_CASE_UE)

/-- The open record closes with a self-test result (R507, R510): copied into FAULT_LOG, into FAULT_LAST
for the classes security and fatal, counted, and entered in the event recorder. -/
def State.faultClose (s : State) (selfTest : Nat) : State :=
  match s.flt.open_ with
  | none => s
  | some r =>
    let res := if hasSelfTest r.source then selfTest else 0
    let bs := r.bytes res
    let j := s.flt.logNext
    let s1 : State := { s with flt := { s.flt with open_ := none, logNext := (j + 1) % 16 } }
    let s2 := ((s1.put FAULT_OPEN_OPEN 0).putWords (FAULT_LOG j 0) 8 bs).put FAULT_LOGIDX_NEWEST j
    let s3 := if 2 ≤ r.cls then s2.putWords (FAULT_LAST 0) 8 bs else s2
    let s4 := s3.inc (FAULT_COUNT_COUNT r.cls)
    let s5 := if res = 2 then ((s4.inc FAULT_PERSIST_COUNT).put FAULT_PEND_PERSIST 1).setIrq 4 else s4
    s5.evPut (srcHw r.cls) (0x1000 + r.source) stOK 0xFF bs (decide (2 ≤ r.cls))
      (decide (2 ≤ r.cls) || uncorrectableSource r.source)

/-- A source raised; a fatal-class source that merges ends the record's self-test and closes it (R509). -/
def State.raiseBase (s : State) (src info : Nat) (forced : Bool) : State :=
  let merged := s.flt.open_.isSome
  let s1 := s.raiseCore src info forced
  if merged && decide (faultClass src = 3) then s1.faultClose 3 else s1

end Sys2Proof.Machine
end

