-- ==== Sys2Proof/Machine/QueueStop.lean ====
section
/-! DEFINITION. Records of hardware units, the stop of a queue and what it lets go (R287, R608), and IDE streams that leave
Secure (R300). -/

namespace Sys2Proof.Machine

/-! ## Records of hardware units (Table 13-8) -/

/-- A record of a hardware unit whose code and payload the spec does not give: SOURCE is its interrupt source
number (Table 13-8), the rest free values (log entry 18). -/
def State.evUnit (s : State) (irq st : Nat) : State :=
  let c := s.free
  let p := c.2.freeB 32
  p.2.evPut (srcHw irq) (c.1 % 65536) st 0xFF p.1 false false

/-- The same for a record whose payload the spec says to name something: it stands first in the payload, the rest is
free (log entry 18). -/
def State.evUnitNaming (s : State) (irq st : Nat) (known : Bytes) : State :=
  let c := s.free
  let p := c.2.freeB 32
  p.2.evPut (srcHw irq) (c.1 % 65536) st 0xFF ((known ++ p.1).take 32) false false

/-- A record of a hardware unit whose status the spec does not give either. -/
def State.evUnitFree (s : State) (irq : Nat) : State :=
  let c := s.free
  c.2.evUnit irq (anyStatus c.1)

/-! ## Queues beside their registers -/

/-- The number of queues. -/
abbrev queueCount : Nat := 65536

/-- A queue beside its registers. -/
def State.queue (s : State) (q : Nat) : QueueState := tgetD s.data.queues q ⟨[], none, [], 0⟩
def State.setQueue (s : State) (q : Nat) (x : QueueState) : State :=
  { s with data := { s.data with queues := tsetD ⟨[], none, [], 0⟩ s.data.queues q x } }

/-- Completions of a queue that no doorbell has covered since, with source 113 requested while CLASS_KDCQ's queue holds one
(Table 6-8; log entry 120). -/
def State.kdcLine (s : State) : State := s.irq 113 (decide (0 < tgetD s.data.unread (s.get CLASS_KDCQ_QUEUE) 0))
def State.putUnread (s : State) (q n : Nat) : State :=
  ({ s with data := { s.data with unread := tsetD 0 s.data.unread q n } }).kdcLine

/-! ## Stops (R287) -/

/-- Queue errors (Table 7-8). -/
abbrev qeDbRange : Nat := 1
abbrev qeDbBack : Nat := 2
abbrev qeHostAbort : Nat := 3
abbrev qeHostTimeout : Nat := 4
abbrev qeIde : Nat := 5

/-- Every waiting item of a queue discarded and counted. -/
def State.dropItems (s : State) (q : Nat) : State :=
  let x := s.queue q
  (s.setQueue q { x with items := [] }).incBy (QUEUE_DROP_COUNT q) x.items.length

/-- What a queue held beside its registers leaves it (R287, R608): items are discarded and counted, the held slot and
the submissions fetched are let go; a request of theirs in the release path completes nothing. -/
def State.queueClear (s : State) (q : Nat) : State :=
  let s1 := s.dropItems q
  let away (r : RelReq) : RelReq :=
    match r.host with
    | some (p, n) => if p = q then { r with host := some (p, n + 2 ^ 32) } else r
    | none => r
  let s2 := (s1.setQueue q { (s1.queue q) with slot := none, subs := [] }).putUnread q 0
  { s2 with data := { s2.data with rel := s2.data.rel.map (fun e => (e.1, away e.2)) } }

/-- The queues with EN = 1. -/
def State.enabledQueues (s : State) : List Nat :=
  s.regs.filterMap (fun e =>
    if QUEUE_CFG 0 ≤ e.1 ∧ e.1 < QUEUE_CFG queueCount ∧ (e.1 - QUEUE_CFG 0) % 64 = 0 ∧ 2 ^ 31 ≤ e.2.toNat then
      some ((e.1 - QUEUE_CFG 0) / 64) else none)

/-- A queue stops; a zeroize that its record asks for follows. -/
def State.queueStopBase (s : State) (q err : Nat) : State :=
  let s1 := ((s.put (QUEUE_STATUS_STOPPED q) 1).put (QUEUE_STATUS_ERR q) err).queueClear q
  let s2 := (((s1.put BRIDGE_ERR_CODE 1).put BRIDGE_ERR_QUEUE q).setIrq 385)
  s2.evUnit 385 stQUEUE_ERROR

/-! ## IDE streams (R299, R300) -/

/-- Bit `i` of a mask. -/
def bitOf (m i : Nat) : Bool := decide (m / 2 ^ i % 2 = 1)

/-- A stream leaves Secure: its bit clears, BRIDGE_IDE is requested; with REQUIRE = 1 every queue stops and the fault source
is raised. -/
def State.ideLeave (s : State) (stream : Nat) : State :=
  let m := s.get BRIDGE_IDE_SECURE
  if stream < 5 ∧ bitOf m stream = true then
    let s1 := ({ s with data := { s.data with ide := terase s.data.ide stream } }.put BRIDGE_IDE_SECURE
      (m - 2 ^ stream)).setIrq 386
    if s1.on BRIDGE_IDE_REQUIRE then
      let qs := s1.enabledQueues.filter (fun q => !(s1.on (QUEUE_STATUS_STOPPED q)))
      (qs.foldl (fun t q => t.queueStopBase q qeIde) s1).raiseBase SRC_BRIDGE_IDE 0 false
    else s1
  else s

/-- The streams that use the key of a slot. -/
def State.ideUsers (s : State) (slot : Nat) : List Nat :=
  (s.data.ide.filter (fun e => decide (e.2.2 = some slot))).map (fun e => e.1)

end Sys2Proof.Machine
end

