-- ==== Sys2Proof/Machine/KeyBase.lean ====
section
/-! DEFINITION. The slots of the key store as state, the reports every key use can make, and the key store's
zeroize (R240, R425 to R433, R449). -/

namespace Sys2Proof.Machine

/-! ## Names of the computations `Config.crypto` and `Config.cryptoOk` stand for (log entry 6) -/

abbrev cySha3_512 : Nat := 1
abbrev cySha3_256 : Nat := 2
abbrev cyRootCheck : Nat := 3
abbrev cyBlobEnc : Nat := 4
abbrev cyBlobTag : Nat := 5
abbrev cyEnvelopeOpen : Nat := 6
abbrev cyEnvelopeOk : Nat := 7
abbrev cyHkdf : Nat := 8
abbrev cyFit : Nat := 9
abbrev cyShare : Nat := 10
abbrev cyCombine : Nat := 11
abbrev cyFrameTag : Nat := 12
abbrev cyExtend : Nat := 13
abbrev cyJob : Nat := 14
abbrev cyJobPub : Nat := 15
abbrev cyJobKey : Nat := 16
abbrev cyJobSecret : Nat := 17
abbrev cyJobOk : Nat := 18
abbrev cySha384 : Nat := 20
abbrev cySha512 : Nat := 21
abbrev cyDigest : Nat := 22
abbrev cyState : Nat := 23
abbrev cyStateOk : Nat := 24
abbrev cySha256 : Nat := 25
abbrev cySession : Nat := 26
abbrev cySessionOk : Nat := 27
abbrev cyImage : Nat := 28
abbrev cyDebug : Nat := 29
abbrev cySpdm : Nat := 30
abbrev cyStateKey : Nat := 31
abbrev cyPrime : Nat := 32
abbrev cyShake256 : Nat := 36
abbrev cyKmac256 : Nat := 37
abbrev cyCredential : Nat := 38
abbrev cyMeasure : Nat := 39

/-! ## Peg slots -/

/-- A FREE slot. -/
def Peg.free : Peg := ⟨.free, 0, 0, 0, 0, false, 0, 0, [], false, 0, false, false⟩

/-- KALG codes (Table 12-2). -/
abbrev kaAES128 : Nat := 0
abbrev kaAES256 : Nat := 1
abbrev kaHMAC16 : Nat := 2
abbrev kaHMAC32 : Nat := 3
abbrev kaKMAC : Nat := 4
abbrev kaSECRET : Nat := 5
abbrev kaBRIDGE : Nat := 6

/-- USE bits of a Peg slot. -/
abbrev useVERIFY : Nat := 0
abbrev useSIGN : Nat := 1
abbrev useDIGEST : Nat := 2
abbrev useKDF : Nat := 3
abbrev useBRIDGE : Nat := 4
abbrev usePICK : Nat := 5

/-- Key bytes of a KALG (Table 12-2). -/
def keyLen (kalg : Nat) : Nat := if kalg = kaAES128 ∨ kalg = kaHMAC16 then 16 else 32

/-- A Peg slot. -/
def State.peg (s : State) (i : Nat) : Peg := tgetD s.key.pegs i Peg.free

/-- Whether a slot is never evicted (R429). -/
def pegPinned (i : Nat) (p : Peg) : Bool := decide (p.st ≠ .free) && (p.pin || decide (262096 ≤ i))

/-- The counts of KEY_PEG_ACTIVE and KEY_PEG_PINNED. -/
def State.pegCounts (s : State) : State :=
  (s.put KEY_PEG_ACTIVE_COUNT (s.key.pegs.filter fun e => decide (e.2.st = .active ∨ e.2.st = .spent)).length).put
    KEY_PEG_PINNED_COUNT (s.key.pegs.filter fun e => pegPinned e.1 e.2).length

/-- A Peg slot replaced; a stream of the Bridge that uses its key leaves Secure where the slot is ACTIVE no more
(Table 12-7). -/
def State.setPeg (s : State) (i : Nat) (p : Peg) : State :=
  let s1 := ({ s with key := { s.key with pegs := tsetD Peg.free s.key.pegs i p } }).pegCounts
  if p.st = .active then s1 else (s1.ideUsers i).foldl State.ideLeave s1

/-- The code of a Peg state. -/
def PegSt.code : PegSt → Nat
  | .free => 0
  | .reserved => 1
  | .active => 2
  | .spent => 3
  | .faulted => 4

/-! ## Private-key slots -/

/-- A FREE private-key slot. -/
def Priv.free : Priv := ⟨.free, 0, 0, 0, 0, 0, [], [], false, 0, 0, 0, 0, false, false⟩

/-- A private-key slot as held. -/
def State.priv (s : State) (i : Nat) : Priv := tgetD s.key.privs i Priv.free

/-- The state a private-key slot reads: LOST while no root key is present (R420). -/
def State.privSt (s : State) (i : Nat) : PrivSt :=
  if s.get KEY_STATE_ROOT = 0 then .lost else (s.priv i).st

/-- The code of a private-key state. -/
def PrivSt.code : PrivSt → Nat
  | .free => 0
  | .reserved => 1
  | .generating => 2
  | .active => 3
  | .lost => 4

/-- The count of KEY_PRIV_ACTIVE. -/
def State.privCount (s : State) : State :=
  s.put KEY_PRIV_ACTIVE_COUNT
    (if s.get KEY_STATE_ROOT = 0 then 0 else (s.key.privs.filter fun e => decide (e.2.st = .active)).length)

/-- A private-key slot replaced. -/
def State.setPriv (s : State) (i : Nat) (p : Priv) : State :=
  ({ s with key := { s.key with privs := tsetD Priv.free s.key.privs i p } }).privCount

/-- Schemes of private keys (Table 12-11). -/
abbrev scMLKEM : Nat := 0
abbrev scMLDSA : Nat := 1
abbrev scSLHDSA : Nat := 2
abbrev scLMS : Nat := 3
abbrev scMCE : Nat := 4
abbrev scHQC : Nat := 5
abbrev scEC : Nat := 6
abbrev scX25519 : Nat := 7
abbrev scED25519 : Nat := 8

/-- USE bits of a private-key slot (R432). -/
abbrev puSIGN : Nat := 0
abbrev puAGREE : Nat := 1
abbrev puSPDM : Nat := 2
abbrev puPICK : Nat := 3
abbrev puENVELOPE : Nat := 4

/-! ## Key use (R239, R240) -/

/-- A KEY_SPENT on a slot reported: always counted, the first of an installation with BOW_SPENT_SLOT, a record
and BOW_KEYSPENT. -/
def State.spentReport (s : State) (i : Nat) : State :=
  let s1 := s.inc BOW_KEYSPENT_COUNT_COUNT
  let p := s1.peg i
  if p.spentSeen then s1
  else (((s1.setPeg i { p with spentSeen := true }).put BOW_SPENT_SLOT_SLOT i).setIrq 111).evUnit 111 stKEY_SPENT

/-- One use of a slot's key as one action: false where the limit is reached (R239). -/
def State.pegUse (s : State) (i : Nat) : Bool × State :=
  let p := s.peg i
  if p.limit ≤ p.count then (false, s.spentReport i)
  else
    let c := p.count + 1
    let warn := !p.warned && decide (p.limit - c ≤ s.get64 BOW_KEYWARN_LO BOW_KEYWARN_HI)
    let s1 : State := { s with key := { s.key with useClock := s.key.useClock + 1 } }
    let s2 := s1.setPeg i { p with
      count := c, st := if p.limit ≤ c then .spent else p.st, lastUse := s1.key.useClock, warned := p.warned || warn }
    (true, if warn then (s2.put BOW_WARN_SLOT_SLOT i).setIrq 112 else s2)

/-! ## Results of commands and ceremonies -/

/-- A key command ends: its status and detail, BUSY 0, source KEY_CMD_DONE. -/
def State.keyEnd (s : State) (st det : Nat) : State :=
  ((((({ s with key := { s.key with waiting := none } }).put KEY_CMD_RESULT_BUSY 0).put KEY_CMD_RESULT_DETAIL det).put
    KEY_CMD_RESULT_STATUS st).setIrq 464)

/-- CER_STATE changes (Table 12-12): source KEY_CER. -/
def State.cerPut (s : State) (st got incomplete last : Nat) : State :=
  ((((s.put CER_STATE_STATE st).put CER_STATE_GOT got).put CER_STATE_INCOMPLETE incomplete).put
    CER_STATE_LASTSTATUS last).setIrq 466

/-- A ceremony ends FAILED; shares and partial secrets are erased (R447). -/
def State.cerFail (s : State) (st : Nat) : State :=
  match s.key.cer with
  | none => s
  | some _ =>
    ({ s with key := { s.key with cer := none } }).cerPut 4 (s.get CER_STATE_GOT) (s.get CER_STATE_INCOMPLETE) st

/-- The slot of KEY_FAULT_SLOT with source KEY_FAULT. -/
def State.keyFaultSlot (s : State) (priv : Bool) (i : Nat) : State :=
  ((s.putB KEY_FAULT_SLOT_PRIV priv).put KEY_FAULT_SLOT_SLOT i).setIrq 465

/-! ## The card port's end (R575, R583) -/

/-- A transfer over the card port ends: its status, source CARD_DONE (Table 16-16). -/
def State.cardDone (s : State) (st sw : Nat) : State :=
  let s1 : State := { s with card := { s.card with xfer := none } }
  (((s1.put CARD_RESULT_BUSY 0).put CARD_RESULT_STATUS st).put CARD_RESULT_SW sw).setIrq 485

/-- The card is deactivated: session and PIN verification end, a running transfer ends with ABORTED. -/
def State.cardOff (s : State) : State :=
  let s1 : State := { s with card := { s.card with sess := none, t1errs := 0, stopped := false } }
  let s2 := ((s1.put CARD_STATUS_STATE 0).put CARD_STATUS_SESSION 0).put CARD_STATUS_PINOK 0
  if s2.card.xfer.isSome then s2.cardDone stABORTED 0 else s2

/-- CARD_STATUS.ERR set: source CARD_ERR. -/
def State.cardErr (s : State) (e : Nat) : State := (s.put CARD_STATUS_ERR e).setIrq 486

/-- Private-key slots whose root key is gone: a record reads LOST, a slot without one is FREE when a new root key comes
(R420, R421, R449). -/
def lostPrivs (ps : List (Nat × Priv)) : List (Nat × Priv) :=
  (ps.filter (fun e => e.2.stored)).map (fun e => (e.1, { e.2 with st := .lost, key := [] }))

/-- The key store's zeroize (R449): root key and Peg slots erased, blob key to be replaced, private-key slots
LOST, ceremony and command ended, ZEROIZED set and counted, its source and record. -/
def State.keyZeroize (s : State) : State :=
  let s1 : State := { s with key := { s.key with
    pegs := [], rootKey := none, blobKey := 0
    privs := lostPrivs s.key.privs } }
  let s2 := (List.range 5).foldl State.ideLeave (((s1.put KEY_STATE_ROOT 0).pegCounts).privCount)
  let s3 := s2.cerFail stZEROIZED
  let s4 := if s3.key.waiting.isSome then s3.keyEnd stZEROIZED 0 else s3
  (((s4.put KEY_STATE_ZEROIZED 1).inc KEY_ZEROIZE_COUNT).setIrq 467).evUnit 467 stZEROIZED

end Sys2Proof.Machine
end

