-- ==== Sys2Proof/Machine/LedgerBase.lean ====
section
/-! DEFINITION. The maintenance ledger: requests, conflicts, grants and releases (R485 to R487). -/

namespace Sys2Proof.Machine

/-- Activities (Table 13-10). -/
abbrev laTABLE : Nat := 0
abbrev laDRAM : Nat := 1
abbrev laREFRESH : Nat := 2
abbrev laROLL : Nat := 3
abbrev laCOMMIT : Nat := 4
abbrev laLMS : Nat := 5
abbrev laPST : Nat := 6

/-- Whether a logical block lies in VAULT (Table 13-1). -/
def inVault (b : Nat) : Bool := decide (48 ≤ b ∧ b ≤ 175)

/-- Grants an activity holds. -/
def State.ledHolds (s : State) (a : Nat) : Nat := s.get (LEDGER_ACT_HOLDS a)

/-- The sum of the bits of activities that meet a condition. -/
def actMask (f : Nat → Bool) : Nat := (List.range 7).foldl (fun m a => if f a then m + 2 ^ a else m) 0

/-- LEDGER_STATUS follows requests and grants. -/
def State.ledPut (s : State) : State :=
  (s.put LEDGER_STATUS_WAITING (actMask (fun a => s.led.waiting.any (fun r => decide (r.act = a))))).put
    LEDGER_STATUS_GRANTED (actMask (fun a => decide (0 < s.ledHolds a)))

/-- Whether a request is held back: the load is shed and it is a hardware activity's (R533), or it meets a conflict with
an activity that holds a grant (Table 13-11). -/
def State.ledConflict (s : State) (r : LedReq) : Bool :=
  (s.pwr.shed && decide (r.act ≠ laROLL ∧ r.act ≠ laCOMMIT)) ||
  (decide (r.act ≠ laROLL) && decide (0 < s.ledHolds r.act)) ||
    (decide (r.act = laREFRESH) &&
      (decide (0 < s.ledHolds laCOMMIT) || (inVault r.block && decide (0 < s.ledHolds laLMS)))) ||
    (decide (r.act = laCOMMIT) && decide (0 < s.ledHolds laREFRESH)) ||
    (decide (r.act = laLMS) && decide (0 < s.ledHolds laREFRESH) && (s.led.block.any inVault))

/-- The request granted next: the oldest without conflict, an LMS reservation ahead of a refresh (R485). -/
def State.ledNext (s : State) : Option LedReq :=
  let ok := s.led.waiting.filter (fun r => !(s.ledConflict r))
  match ok.head? with
  | none => none
  | some r =>
    if r.act = laREFRESH then
      match ok.find? (fun q => decide (q.act = laLMS)) with
      | some q => some q
      | none => some r
    else some r

/-- A request waits; an activity other than EPOCH_ROLL has one request waiting at most, CASE_REFRESH one for each
block. A hardware activity with EN = 0 makes none. -/
def State.ledRequest (s : State) (a block : Nat) : State :=
  let hw := decide (a ≠ laROLL ∧ a ≠ laCOMMIT)
  if hw && !(s.on (LEDGER_CFG_EN a)) then s
  else if decide (a ≠ laROLL) && s.led.waiting.any (fun r => decide (r.act = a ∧ r.block = block)) then s
  else ({ s with led := { s.led with waiting := s.led.waiting ++ [LedReq.mk a s.clock block false] } }).ledPut

/-- The first request of a list that equals one, taken out. -/
def removeFirst (r : LedReq) : List LedReq → List LedReq
  | [] => []
  | q :: qs => if q = r then qs else q :: removeFirst r qs

/-- A request is granted: counted, its wait recorded, source LEDGER_GRANT for a firmware activity. -/
def State.ledGrant (s : State) (r : LedReq) : State :=
  let wait := (s.clock - r.since) / cyclesPerMs
  let s1 : State := { s with led := { s.led with
    waiting := removeFirst r s.led.waiting, block := if r.act = laREFRESH then some r.block else s.led.block } }
  let s2 := (s1.put (LEDGER_ACT_HOLDS r.act) (s.ledHolds r.act + 1)).inc (LEDGER_RUNS_RUNS r.act)
  let s3 := s2.put (LEDGER_MAXSEEN_MAXWAITSEEN r.act) (satAt (2 ^ 32 - 1) (max wait (s2.get (LEDGER_MAXSEEN_MAXWAITSEEN r.act))))
  (if r.act = laROLL ∨ r.act = laCOMMIT then s3.setIrq 327 else s3).ledPut

/-- A grant is released. -/
def State.ledRelease (s : State) (a : Nat) : State :=
  let s1 := s.put (LEDGER_ACT_HOLDS a) (s.ledHolds a - 1)
  ({ s1 with led := { s1.led with block := if a = laREFRESH then none else s1.led.block } }).ledPut

/-- Work of a hardware activity begins where the ledger grants it: under the grant it holds, or under one it gets at
once; otherwise its request waits. -/
def State.ledEnter (s : State) (a block : Nat) : Bool × State :=
  if decide (0 < s.ledHolds a) && decide (a ≠ laREFRESH ∨ s.led.block = some block) then (true, s)
  else
    let s1 := s.ledRequest a block
    match s1.ledNext with
    | some r => if r.act = a ∧ r.block = block then (true, s1.ledGrant r) else (false, s1)
    | none => (false, s1)

end Sys2Proof.Machine
end

