-- ==== Sys2Proof/Machine/Curve.lean ====
section
/-! DEFINITION. Public arithmetic:  RSA and its encodings (RFC 8017), short Weierstrass curves and ECDSA
(FIPS 186-5), as the verification engine and the Soundboard's point checks use them (R353, R375, R376, Table 10-2). -/

namespace Sys2Proof.Machine

/-- The number a big-endian field holds. -/
def beNat (b : Bytes) : Nat := bytesToNat b.reverse

/-- A number as a big-endian field of `k` bytes. -/
def beBytes (k n : Nat) : Bytes := (natToBytes k n).reverse

/-- Bits of a number. -/
def bitLen (n : Nat) : Nat := if n = 0 then 0 else Nat.log2 n + 1

/-- x to the power e modulo n, over the `k` low bits of e. -/
def modPow : Nat → Nat → Nat → Nat → Nat
  | 0, _, _, n => 1 % n
  | k + 1, x, e, n =>
    let h := modPow k (x * x % n) (e / 2) n
    if e % 2 = 1 then x * h % n else h

/-- The inverse modulo a prime of at most 528 bits. -/
def modInv (x p : Nat) : Nat := modPow 528 (x % p) (p - 2) p

/-! ## Curves -/

/-- A curve y² = x³ + ax + b over a prime field with its base point, that point's order and the cofactor (Table 10-1). -/
structure Curve where
  p : Nat
  a : Nat
  b : Nat
  gx : Nat
  gy : Nat
  n : Nat
  h : Nat
  deriving DecidableEq, Repr

/-- P-256 and P-384, the curves of slots 0 and 1 (log entry 127). -/
def curveP256 : Curve where
  p := 0xffffffff00000001000000000000000000000000ffffffffffffffffffffffff
  a := 0xffffffff00000001000000000000000000000000fffffffffffffffffffffffc
  b := 0x5ac635d8aa3a93e7b3ebbd55769886bc651d06b0cc53b0f63bce3c3e27d2604b
  gx := 0x6b17d1f2e12c4247f8bce6e563a440f277037d812deb33a0f4a13945d898c296
  gy := 0x4fe342e2fe1a7f9b8ee7eb4a7c0f9e162bce33576b315ececbb6406837bf51f5
  n := 0xffffffff00000000ffffffffffffffffbce6faada7179e84f3b9cac2fc632551
  h := 1

def curveP384 : Curve where
  p := 0xfffffffffffffffffffffffffffffffffffffffffffffffffffffffffffffffeffffffff0000000000000000ffffffff
  a := 0xfffffffffffffffffffffffffffffffffffffffffffffffffffffffffffffffeffffffff0000000000000000fffffffc
  b := 0xb3312fa7e23ee7e4988e056be3f82d19181d9c6efe8141120314088f5013875ac656398d8a2ed19d2a85c8edd3ec2aef
  gx := 0xaa87ca22be8b05378eb1c71ef320ad746e1d3b628ba79b9859f741e082542a385502f25dbf55296c3a545e3872760ab7
  gy := 0x3617de4a96262c6f5d9e98bf9292dc29f8f41dbd289a147ce9da3113b5f0b8c00a60b1ce1d7e819d7a431d7c90ea0e5f
  n := 0xffffffffffffffffffffffffffffffffffffffffffffffffc7634d81f4372ddf581a0db248b0a77aecec196accc52973
  h := 1

/-- The built-in curve of parameter set 0 or 1 (Table 9-7). -/
def builtIn (k : Nat) : Curve := if k = 0 then curveP256 else curveP384

/-- Lp and Ln of a curve. -/
def Curve.lp (c : Curve) : Nat := ceilDiv (bitLen c.p) 8
def Curve.ln (c : Curve) : Nat := ceilDiv (bitLen c.n) 8

/-- A point of a curve; none is the point at infinity. -/
abbrev Point := Option (Nat × Nat)

/-- The sum of two points. -/
def Curve.add (c : Curve) : Point → Point → Point
  | none, q => q
  | some u, none => some u
  | some (x1, y1), some (x2, y2) =>
    if x1 = x2 ∧ (y1 + y2) % c.p = 0 then none
    else
      let l := (if x1 = x2 then (3 * x1 * x1 + c.a) * modInv (2 * y1) c.p
        else (y2 + c.p - y1) * modInv (x2 + c.p - x1) c.p) % c.p
      let x3 := (l * l + 2 * c.p - x1 - x2) % c.p
      some (x3, (l * (x1 + c.p - x3) + c.p - y1) % c.p)

/-- A multiple of a point, over the `k` low bits of the factor. -/
def Curve.mul (c : Curve) : Nat → Nat → Point → Point
  | 0, _, _ => none
  | k + 1, m, q =>
    let r := c.mul k (m / 2) (c.add q q)
    if m % 2 = 1 then c.add q r else r

/-- Whether two coordinates satisfy the curve equation. -/
def Curve.has (c : Curve) (x y : Nat) : Bool := decide (y ^ 2 % c.p = (x ^ 3 + c.a * x + c.b) % c.p)

/-- The point that X ‖ Y spells. -/
def Curve.point (c : Curve) (b : Bytes) : Nat × Nat := (beNat (b.take c.lp), beNat ((b.drop c.lp).take c.lp))

/-- Full validation of a public point (R353, R376). -/
def pointOk (c : Curve) (b : Bytes) : Bool :=
  let q := c.point b
  decide (q.1 < c.p) && decide (q.2 < c.p) && c.has q.1 q.2 && (decide (c.h ≤ 1) || (c.mul 528 c.n (some q)).isNone)

/-- Whether r and s lie in 1 to n − 1 (R376). -/
def sigRange (c : Curve) (sig : Bytes) : Bool :=
  let r := beNat (sig.take c.ln)
  let s := beNat ((sig.drop c.ln).take c.ln)
  decide (1 ≤ r ∧ r < c.n ∧ 1 ≤ s ∧ s < c.n)

/-- The number of a digest's leftmost bits(n) bits (R375). -/
def digestNat (c : Curve) (d : Bytes) : Nat := beNat d / 2 ^ (8 * d.length - bitLen c.n)

/-- The signature equation of ECDSA (FIPS 186-5); `sig` is r ‖ s ‖ digest. -/
def ecdsaOk (c : Curve) (pub sig : Bytes) : Bool :=
  let r := beNat (sig.take c.ln)
  let w := modInv (beNat ((sig.drop c.ln).take c.ln)) c.n
  let u := digestNat c (sig.drop (2 * c.ln)) * w % c.n
  let v := r * w % c.n
  match c.add (c.mul 528 u (some (c.gx, c.gy))) (c.mul 528 v (some (c.point pub))) with
  | none => false
  | some (x, _) => decide (x % c.n = r)

/-- The modulus check of FIPS 203 on an encapsulation key: every 12-bit coefficient lies below 3,329 (R353). -/
def mlkemKeyOk (pset : Nat) (b : Bytes) : Bool :=
  let n := bytesToNat (b.take (384 * (pset + 2)))
  (List.range (256 * (pset + 2))).all (fun i => decide (n / 4096 ^ i % 4096 < 3329))

/-! ## RSA encodings (RFC 8017) -/

/-- Digest bytes of HASH; the digest. -/
def hashLen (h : Nat) : Nat := [32, 48, 64].getD h 0
def sha2 (h : Nat) (b : Bytes) : Bytes :=
  Config.crypto (if h = 0 then cySha256 else if h = 1 then cySha384 else cySha512) [b] (hashLen h)

/-- EMSA-PKCS1-v1_5 of a digest in `k` bytes, with the DigestInfo of HASH. -/
def pkcs1 (k h : Nat) (digest : Bytes) : Bytes :=
  let n := hashLen h
  let info : Bytes := [0x30, BitVec.ofNat 8 (17 + n), 0x30, 0x0d, 0x06, 0x09, 0x60, 0x86, 0x48, 0x01, 0x65, 0x03, 0x04, 0x02,
    BitVec.ofNat 8 (1 + h), 0x05, 0x00, 0x04, BitVec.ofNat 8 n]
  [0, 1] ++ List.replicate (k - 22 - n) 0xff ++ [0] ++ info ++ digest

/-- MGF1: `n` blocks from a counter on. -/
def mgf1 (h : Nat) (seed : Bytes) : Nat → Nat → Bytes
  | 0, _ => []
  | n + 1, i => sha2 h (seed ++ beBytes 4 i) ++ mgf1 h seed n (i + 1)

/-- EMSA-PSS-VERIFY of a digest against the number `m`, with a salt of `sl` bytes and a modulus of `bits` bits. -/
def pssOk (h sl bits m : Nat) (digest : Bytes) : Bool :=
  let hl := hashLen h
  let em := ceilDiv (bits - 1) 8
  let b := beBytes em m
  let dl := em - hl - 1
  let mask := mgf1 h ((b.drop dl).take hl) (ceilDiv dl hl) 0
  let db := beBytes dl ((beNat (b.take dl) ^^^ beNat (mask.take dl)) % 2 ^ (bits - 1 - 8 * (em - dl)))
  let salt := db.drop (dl - sl)
  decide (m < 2 ^ (bits - 1)) && decide (hl + sl + 2 ≤ em) && decide (b.getLast? = some 0xbc) &&
    decide (beNat (db.take (dl - sl)) = 1) && decide (sha2 h (List.replicate 8 0 ++ digest ++ salt) = (b.drop dl).take hl)

end Sys2Proof.Machine
end

