-- ==== Sys2Proof/Machine/JobBase.lean ====
section
/-! DEFINITION. Job rings as registers, jobs that end, and what a stop of entropy delivery and a zeroize do to the
Soundboard and the digest engine (R325 to R340, R364, R395). Ring r is Soundboard ring r for r below 1,024 and
digest ring r − 1,024 from there (R384). -/

namespace Sys2Proof.Machine

/-- The register set of a ring (Table 9-16). -/
def ringBase (r : Nat) : Nat := if r < 1024 then JR_BASE_LO r else DR_BASE_LO (r - 1024)
def ringFld (r off hi lo : Nat) : Fld := ⟨ringBase r + off, hi, lo⟩
def rgEN (r : Nat) : Fld := ringFld r 0x08 31 31
def rgSERIAL (r : Nat) : Fld := ringFld r 0x08 30 30
def rgSECOUT (r : Nat) : Fld := ringFld r 0x08 29 29
def rgINTEN (r : Nat) : Fld := ringFld r 0x08 28 28
def rgPRIO (r : Nat) : Fld := ringFld r 0x08 27 26
def rgLOG2SIZE (r : Nat) : Fld := ringFld r 0x08 19 16
def rgIRQLINE (r : Nat) : Fld := ringFld r 0x0C 14 8
def rgMID (r : Nat) : Fld := ringFld r 0x0C 7 0
def rgCELLS (r : Nat) : Fld := ringFld r 0x10 15 0
def rgPROD (r : Nat) : Fld := ringFld r 0x24 31 0
def rgCONS (r : Nat) : Fld := ringFld r 0x28 31 0
def rgSTOPPED (r : Nat) : Fld := ringFld r 0x2C 31 31
def rgIRQPEND (r : Nat) : Fld := ringFld r 0x2C 30 30
def rgINFLIGHT (r : Nat) : Fld := ringFld r 0x2C 23 16
def rgCFGREJ (r : Nat) : Fld := ringFld r 0x2C 8 8
def rgERR (r : Nat) : Fld := ringFld r 0x2C 3 0
def rgTIMEOUT (r : Nat) : Fld := ringFld r 0x30 15 0
def rgMSIEN (r : Nat) : Fld := ringFld r 0x34 31 31
def rgVEC (r : Nat) : Fld := ringFld r 0x34 10 0
def rgDROP (r : Nat) : Fld := ringFld r 0x38 31 0

/-- The slots of a ring (R341). -/
def State.ringSize (s : State) (r : Nat) : Nat := 2 ^ s.get (rgLOG2SIZE r)

/-- A 40-bit address held in a pair of registers, its low bits below the _LO field zero. -/
def State.addr40 (s : State) (lo : Nat) : Nat := (s.rd lo).toNat + 2 ^ 32 * ((s.rd (lo + 4)).toNat % 256)

/-- Free-running counts are taken modulo 2^32 (R333, R273). -/
def cmod (n : Nat) : Nat := n % 2 ^ 32
def cdiff (a b : Nat) : Nat := (a + 2 ^ 32 - b % 2 ^ 32) % 2 ^ 32

/-- The state of a ring beside its registers. -/
def State.ring (s : State) (r : Nat) : RingState := tgetD s.jobs.rings r ⟨0, [], [], 0⟩
def State.setRing (s : State) (r : Nat) (x : RingState) : State :=
  { s with jobs := { s.jobs with rings := tset s.jobs.rings r x } }

/-- Jobs of a ring on cells. -/
def State.ringJobs (s : State) (r : Nat) : List (Nat × Job) := s.jobs.jobs.filter (fun e => decide (e.2.ring = r))

/-- JR_STATUS.INFLIGHT: the jobs of a ring on cells; of a digest ring, on its core until their completion (R384, R385). -/
def State.putInflight (s : State) (r : Nat) : State :=
  s.put (rgINFLIGHT r)
    (if r < 1024 then (s.ringJobs r).length else (s.jobs.ending.filter (fun c => decide (c.ring = r) && c.ran)).length)

/-- The count of the slot a ring offers next; none where nothing is posted. -/
def State.ringHead (s : State) (r : Nat) : Option Nat :=
  let x := s.ring r
  match x.back with
  | c :: _ => some c
  | [] => if x.next = s.get (rgPROD r) then none else some x.next

/-- The ring's next job is its next from now on (R363; log entry 42). -/
def State.headNow (s : State) (r : Nat) : State := s.setRing r { s.ring r with headAt := s.clock }

/-- The head of a ring is taken. -/
def State.ringPop (s : State) (r : Nat) : State :=
  let x := s.ring r
  s.setRing r (match x.back with
    | _ :: t => { x with back := t, headAt := s.clock }
    | [] => { x with next := cmod (x.next + 1), headAt := s.clock })

/-- A count put among counts in slot order from CONS `c0` on. -/
def slotInsert (c0 c : Nat) : List Nat → List Nat
  | [] => [c]
  | d :: ds => if cdiff c c0 < cdiff d c0 then c :: d :: ds else d :: slotInsert c0 c ds

/-- A job returns to its ring, where it is dispatched again in slot order (R337, R364). -/
def State.ringBack (s : State) (r c : Nat) : State :=
  let x := s.ring r
  s.setRing r { x with back := slotInsert (s.get (rgCONS r)) c x.back, headAt := s.clock }

/-- A completion that waits to be written. -/
def State.jobEnding (s : State) (c : Compl) : State :=
  { s with jobs := { s.jobs with ending := s.jobs.ending ++ [c] } }

/-! ## LMS indices (R365 to R368) -/

/-- The height of an LMS set (Table 9-7). -/
def lmsHeight (pset : Nat) : Nat := 5 * (pset % 16 + 1)

/-- The warning when the remaining indices first fall to the level, once per key (R368). -/
def State.lmsWarn (s : State) (slot : Nat) : State :=
  let p := s.priv slot
  let left := 2 ^ lmsHeight p.pset - p.qn
  if !p.warned && decide (s.get SOUND_LMS_WARN_LEVEL ≠ 0) && decide (left ≤ s.get SOUND_LMS_WARN_LEVEL) then
    ((s.setPriv slot { p with warned := true }).put SOUND_LMSWARN_SLOT_SLOT slot).setIrq 145
  else s

/-- A reservation starts where the indices run low: it asks the ledger (R366). -/
def State.lmsLow (s : State) (slot : Nat) : State :=
  let p := s.priv slot
  if p.rh - p.qn ≤ s.get SOUND_LMS_RES_LOW ∧ p.rh < 2 ^ lmsHeight p.pset ∧ p.reserving = false then
    (s.setPriv slot { p with reserving := true }).ledRequest laLMS 0
  else s

/-- The LMS keys looked at when the vault is ready after a boot has set QN to RH (R365, R366, R368). -/
def State.lmsBoot (s : State) : State :=
  (s.key.privs.filter (fun e => decide ((s.priv e.1).st = .active ∧ (s.priv e.1).scheme = scLMS))).foldl
    (fun t e => (t.lmsWarn e.1).lmsLow e.1) s

/-- An LMS index that was issued and not used (R367). -/
def State.burn (s : State) (j : Job) : State :=
  match j.index with
  | none => s
  | some _ =>
    let slot := j.words.getD 1 0 % 4096
    let p := s.priv slot
    if p.st = .active then s.setPriv slot { p with burnt := p.burnt + 1 } else s

/-- A cell whose job has ended clears its memory (R326); one that is ISOLATED stays so (Table 9-1). -/
def State.cellClear (s : State) (n : Nat) : State :=
  let s1 := s.put SOUND_STATUS_BUSY (s.get SOUND_STATUS_BUSY &&& (0xFFFF - 2 ^ n))
  if s1.get (CELL_STATUS_STATE n) = 5 then s1 else s1.put (CELL_STATUS_STATE n) 2

/-- The job of a cell leaves it. -/
def State.cellDrop (s : State) (n r : Nat) : State :=
  (({ s with jobs := { s.jobs with jobs := terase s.jobs.jobs n } }).cellClear n).putInflight r

/-- A slot being filled by key generation that did not complete returns to RESERVED (R433). -/
def State.genUndo (s : State) (j : Job) : State :=
  let slot := j.words.getD 1 0 % 4096
  let p := s.priv slot
  if p.st = .generating && decide (j.words.getD 1 0 / 2 ^ 30 = 1) then s.setPriv slot { p with st := .reserved } else s

/-- What a finished job gave its slots is taken back where another event decides its end: the key it generated, the
secret it sent to a Peg slot, the index it used (R367, R369; log entry 126). -/
def State.finUndo (s : State) (c : Compl) : State :=
  match c.own with
  | none => s
  | some j =>
    if c.status ≠ stOK then s
    else
      let slot := j.words.getD 1 0 % 4096
      let op := j.words.getD 0 0 / 2 ^ 24
      let peg := j.words.getD 11 0 % 2 ^ 18
      let s1 := s.burn j
      let p := s1.priv slot
      let s2 :=
        if [0x01, 0x08, 0x10, 0x18, 0x28, 0x30, 0x34, 0x36].contains op && decide (p.st = .active) then
          s1.setPriv slot { p with st := .reserved, pub := [], key := [], stored := false }
        else s1
      if bitOf (j.words.getD 11 0) 31 && decide ((s2.peg peg).st = .active) then
        s2.setPeg peg { s2.peg peg with st := .reserved, key := [] }
      else s2

/-- Completions not yet written of jobs that came to their own end, decided by another event: they carry its status
(Tables 9-11 and 10-8). -/
def State.endOver (s : State) (st : Nat) (p : Compl → Bool) : State :=
  let hit (c : Compl) : Bool := c.own.isSome && p c
  let s1 := (s.jobs.ending.filter hit).foldl State.finUndo s
  { s1 with jobs := { s1.jobs with ending := s1.jobs.ending.map (fun c =>
    if hit c then { c with status := st, detail := 0, outLen := 0, result := 0, own := none } else c) } }

/-- The job on cell `n` ends with a status that is not its own result: its cell clears, its index is spent, its
completion waits to be written. -/
def State.cellEnd (s : State) (n st det : Nat) : State :=
  match tget s.jobs.jobs n with
  | none => s
  | some j =>
    let s1 := ((s.burn j).genUndo j).cellDrop n j.ring
    (s1.jobEnding ⟨j.ring, j.count, st, det, j.order, n, true, 0, 0, bitOf (j.words.getD 0 0) 17, none⟩).inc64
      (CELL_JOBS_LO n) (CELL_JOBS_HI n) 1

/-- A stop of entropy delivery at the Soundboard (R364): buffers and grants discarded; every running job that
needs entropy, and one whose completion is not written yet (Table 9-11), returns to its ring. -/
def State.soundEntropyStop (s : State) : State :=
  let s1 : State := { s with jobs := { s.jobs with fill := [], grants := 0 } }
  let s2 := s1.jobs.jobs.foldl (fun t e =>
    if e.2.entropy then (((t.burn e.2).genUndo e.2).cellDrop e.1 e.2.ring).ringBack e.2.ring e.2.count else t) s1
  let back (c : Compl) : Bool := c.own.any (fun j => j.entropy)
  let s3 := (s2.jobs.ending.filter back).foldl (fun t c => (t.finUndo c).ringBack c.ring c.count) s2
  { s3 with jobs := { s3.jobs with ending := s3.jobs.ending.filter (fun c => !(back c)) } }

/-- The Soundboard's zeroize (R328): running jobs and finished ones without their completion end with ZEROIZED, the
cells' memories are cleared. -/
def State.soundZeroize (s : State) : State :=
  let s1 := (s.endOver stZEROIZED (fun c => decide (c.ring < 1024)))
  let s2 := s1.jobs.jobs.foldl (fun t e => t.cellEnd e.1 stZEROIZED 0) s1
  (({ s2 with jobs := { s2.jobs with fill := [] } }).sramClear 0x7000000 0x400000).inc SOUND_ZEROIZE_COUNT

/-- The digest engine's zeroize (R390, Table 10-8): its running jobs end with ZEROIZED, the wrap keys are replaced; the
count of exports starts again. -/
def State.digestZeroize (s : State) : State :=
  let s1 := s.endOver stZEROIZED (fun c => decide (1024 ≤ c.ring))
  let r := s1.free
  ({ r.2 with jobs := { r.2.jobs with wrapKey := r.1 } }).put64 DIG_EXPORT_LO DIG_EXPORT_HI 0

/-! ## Known-answer tests (R327, R383, R395) -/

/-- The cycle at which a unit's test falls due: at once where it has not run since module reset, else `sec` seconds after
the last one. -/
def State.katDueAt (s : State) (src sec : Nat) : Nat :=
  (tget s.jobs.kats src).elim s.clock (fun c => c + cyclesPerSec * sec)

/-- A unit's test runs now; a reset of its domain is over (R505). -/
def State.katRun (s : State) (src : Nat) : State :=
  { s with
    jobs := { s.jobs with kats := tset s.jobs.kats src s.clock }
    flt := { s.flt with inReset := s.flt.inReset.filter (· ≠ src) } }

end Sys2Proof.Machine
end

