-- ==== Sys2Proof/Machine/RosinBase.lean ====
section
/-! DEFINITION. The Rosin array's state, draws from its reserve, and stops of delivery (R405, R409 to R414). -/

namespace Sys2Proof.Machine

/-- The values of ROSIN_STATE.STATE. -/
abbrev roOff : Nat := 0
abbrev roStartup : Nat := 1
abbrev roReady : Nat := 2
abbrev roStopped : Nat := 3
abbrev roFailed : Nat := 4

/-- ROSIN_STATE.STATE with SOUND_ENTSTATE after it (R418) and source ROSIN_STATE. -/
def State.rosinPut (s : State) (st : Nat) : State :=
  ((s.put ROSIN_STATE_STATE st).put SOUND_ENTSTATE_STATE
    (if st = roReady then 0 else if st ≤ roStartup then 1 else 2)).irq 448 (decide (st ≠ s.rosin.lastRead))

/-- The reserve with its fill register. -/
def State.putReserve (s : State) (bs : Bytes) : State :=
  ({ s with rosin := { s.rosin with reserve := bs } }).put ROSIN_STATE_RESERVE (bs.length / 64)

/-- Bytes of the reserve handed to a port. -/
def State.rosinTake (s : State) (port n : Nat) : Bytes × State :=
  (s.rosin.reserve.take n,
    ((s.putReserve (s.rosin.reserve.drop n)).inc64 ROSIN_OUT_LO ROSIN_OUT_HI n).inc64 (ROSIN_BYTES_LO port)
      (ROSIN_BYTES_HI port) n)

/-- Whether a port can draw a grant now: none beside KEYLOAD while a key waits there (R413, R414). -/
def State.canDraw (s : State) (port : Nat) : Bool :=
  decide (s.get ROSIN_STATE_STATE = roReady) && decide (64 ≤ s.rosin.reserve.length) &&
    (decide (port = 0) || s.rosin.keyload.isEmpty) && (decide (port ≤ 2) || decide (s.get ROSIN_CTL_FLOOR * 64 < s.rosin.reserve.length))

/-- Whether every new request ends with ENTROPY_UNAVAILABLE at once (R412). -/
def State.entropyGone (s : State) : Bool :=
  s.rosin.timedOut && decide (s.get ROSIN_STATE_STATE ≠ roReady)

/-- Banks not retired. -/
def State.bankRetired (s : State) (b : Nat) : Bool :=
  if b < 32 then bitOf (s.get ROSIN_RETIRED_LO_MASK) b else bitOf (s.get ROSIN_RETIRED_HI_MASK) (b - 32)
def banks : List Nat := List.range 64
def State.healthy (s : State) : List Nat := banks.filter (fun b => !(s.bankRetired b))

/-- Causes of ROSIN_LASTSTOP. -/
abbrev rcBurst : Nat := 1
abbrev rcMinbanks : Nat := 2
abbrev rcCond : Nat := 3
abbrev rcTamper : Nat := 4

/-- The start-up test opens in every bank that is not retired (R406, R411). -/
def State.rosinRestart (s : State) : State :=
  let s1 : State := { s with rosin := { s.rosin with passed := [], failedOnce := [], run := [] } }
  s1.healthy.foldl (fun t b => t.put (BANK_STATUS_STATE b) 1) (s1.put ROSIN_STATE_HEALTHY s1.healthy.length)

/-- A stop of delivery (R409, R410): everything held is discarded, the cause recorded, the source raised, a record
written. FAILED lasts until module reset. An expired wait timeout of an earlier stop stays expired until READY (R412). -/
def State.rosinStop (s : State) (cause bank : Nat) (failed : Bool) : State :=
  if s.get ROSIN_STATE_STATE = roFailed then s
  else
    let s1 := (s.putReserve []).soundEntropyStop
    let s2 : State := { s1 with rosin := { s1.rosin with cond := [], stopAt := s1.clock } }
    let s3 := ((s2.put ROSIN_LASTSTOP_CAUSE cause).put ROSIN_LASTSTOP_BANK (if cause = rcBurst then bank else 0)).inc
      ROSIN_STOPS_COUNT
    let s4 := s3.rosinPut (if failed then roFailed else roStopped)
    let s5 := s4.raiseBase (if failed then SRC_ROSIN_FAIL else SRC_ROSIN_STOP) 0 false
    let s6 := s5.evUnitFree 448
    if failed then s6 else s6.rosinRestart

/-- A bank is retired (R405). -/
def State.bankRetire (s : State) (b : Nat) : State :=
  if s.bankRetired b then s
  else
    let s1 := s.put (BANK_STATUS_STATE b) 3
    let s2 := if b < 32 then s1.put ROSIN_RETIRED_LO_MASK (s1.get ROSIN_RETIRED_LO_MASK ||| 2 ^ b)
      else s1.put ROSIN_RETIRED_HI_MASK (s1.get ROSIN_RETIRED_HI_MASK ||| 2 ^ (b - 32))
    let s3 := (s2.put ROSIN_STATE_HEALTHY s2.healthy.length).setIrq 449
    (s3.raiseBase SRC_ROSIN_RETIRE 0 false).evUnitFree 449

/-- The array enters FAILED when too few banks are left (R409). -/
def State.minBanks (s : State) (cause : Nat) : State :=
  if s.healthy.length < s.get ROSIN_CTL_MINBANKS ∧ s.get ROSIN_STATE_STATE ≠ roOff then s.rosinStop cause 0 true else s

/-- A conditioner that failed its known-answer test (R409, R416): isolated, its banks retired, delivery
stopped. -/
def State.condFail (s : State) (c : Nat) : State :=
  let s1 := (s.put (ROSIN_COND_ISOLATED c) 1).raiseBase (SRC_ROSIN_COND_KAT c) c false
  let s2 := (List.range 16).foldl (fun t i => t.bankRetire (16 * c + i)) s1
  if s2.healthy.length < s2.get ROSIN_CTL_MINBANKS then s2.rosinStop rcCond 0 true
  else if s2.get ROSIN_STATE_STATE = roReady then s2.rosinStop rcCond 0 false
  else s2

/-- A known-answer test of conditioner `c` that passes or fails (R409, R416). -/
def State.condKat (s : State) (fails : List Nat) (c : Nat) : State :=
  let s1 := s.put (ROSIN_COND_KATRUNS c) (s.get (ROSIN_COND_KATRUNS c) + 1)
  if fails.contains c && !(s.on (ROSIN_COND_ISOLATED c)) then s1.condFail c else s1

/-! ## KEYLOAD -/

/-- The keys KEYLOAD draws: at a boot those of R69, R84, R225, R226, R390 and R422; after a zeroize the blob key and the
wrap key (R390, R422). -/
abbrev bkMem : Nat := 0
abbrev bkGuard : Nat := 1
abbrev bkId : Nat := 2
abbrev bkMix : Nat := 3
abbrev bkWrap : Nat := 4
abbrev bkBlob : Nat := 5
def bootKeyNames : List Nat := [bkMem, bkGuard, bkId, bkMix, bkWrap, bkBlob]
def zeroizeKeyNames : List Nat := [bkWrap, bkBlob]

/-- The key of a name takes an identity. -/
def State.keyLoaded (s : State) (name v : Nat) : State :=
  if name = bkMem then { s with mem := { s.mem with bootKeys := v } }
  else if name = bkGuard then { s with mem := { s.mem with guardKey := v } }
  else if name = bkId then { s with data := { s.data with idKey := v } }
  else if name = bkMix then { s with data := { s.data with mixKey := v } }
  else if name = bkWrap then { s with jobs := { s.jobs with wrapKey := v } }
  else { s with key := { s.key with blobKey := v } }

/-- A grant to KEYLOAD: the next key that waits is drawn. -/
def State.keyloadDraw (s : State) : State :=
  match s.rosin.keyload with
  | [] => s
  | k :: ks =>
    if s.rosin.reserve.length < 64 then s else
    let r := s.rosinTake 0 64
    { r.2 with rosin := { r.2.rosin with keyload := ks } }.keyLoaded k (bytesToNat r.1 + 1)

end Sys2Proof.Machine
end

