-- ==== Sys2Proof/Machine/Zeroize.lean ====
section
/-! DEFINITION. The zeroize of every unit that holds secrets (R496), and raising a source with all its
actions. -/

namespace Sys2Proof.Machine

/-- The reader's field goes off: no badge is served; the reader waits again where it is enabled. -/
def State.readerOff (s : State) : State :=
  let s1 : State := { s with pick := { s.pick with rdrField := false, badges := [] } }
  if s.get PICK_STATUS_MODE = 4 then s1 else s1.put PICK_STATUS_MODE (if s.on PICK_CTL_RDR_EN then 1 else 0)

/-- A session over the antenna ends with a status: its keys erased, STATE CLOSED, source PICK_SESSION. -/
def State.pickEnd (s : State) (st : Nat) : State :=
  let s1 : State := { s with pick := { s.pick with sess := none } }
  ((s1.put PICK_SESS_STATE 5).put PICK_STATUS_LASTSTATUS st).setIrq 481

/-- Open Pickguard and card sessions end and the reader's field goes off (R584). -/
def State.sessZeroize (s : State) : State :=
  let s1 := if s.pick.sess.isSome then s.pickEnd stZEROIZED else s
  let s2 := ({ s1 with pick := { s1.pick with failed := none } }).readerOff
  let s3 : State := { s2 with card := { s2.card with sess := none } }
  (s3.put CARD_STATUS_SESSION 0).put CARD_STATUS_PINOK 0

/-- The zeroize of R496: the key store, the Soundboard, the digest engine and the Rosin array (cause TAMPER); sessions
end (R584); the blob key is drawn anew on the KEYLOAD port (R422). -/
def State.zeroizeAll (s : State) : State :=
  let s1 := ((s.soundZeroize.keyZeroize).digestZeroize).sessZeroize
  let s2 := if s1.get ROSIN_STATE_STATE = roOff then s1 else s1.rosinStop rcTamper 0 false
  { s2 with
    flt := { s2.flt with zeroizeDue := false }
    rosin := { s2.rosin with keyload := s2.rosin.keyload ++ zeroizeKeyNames.filter (fun k => !(s2.rosin.keyload.contains k)) } }

/-- A zeroize that a raise asked for runs. -/
def State.settle (s : State) : State := if s.flt.zeroizeDue then s.zeroizeAll else s

/-- A source raised with all its actions (R508, Table 14-4). -/
def State.raise (s : State) (src info : Nat) : State := (s.raiseBase src info false).settle

/-- INFO of a forced raise, which is handled as a real one (R507, R511, R517): the instance of an instanced source, the
Capo's PC for WDOG_CAPO; of a memory source, which names no access here, it is free. -/
def State.forcedInfo (s : State) (src : Nat) : Nat × State :=
  if src ≤ 15 ∨ src = SRC_DRAM_UE ∨ src = SRC_DRAM_TAG then
    let r := s.free
    (r.1 % 2 ^ 32, r.2)
  else if src = SRC_WDOG_CAPO then ((s.proc 32).pc.toNat, s)
  else
    match [(27, 30), (33, 40), (46, 61), (64, 67), (69, 76), (80, 83), (96, 127)].find? (fun r =>
      decide (r.1 ≤ src) && decide (src ≤ r.2)) with
    | some r => (src - r.1, s)
    | none => (0, s)

/-- A forced raise (R511). -/
def State.raiseForced (s : State) (src : Nat) : State :=
  let i := s.forcedInfo src
  (i.2.raiseBase src i.1 true).settle

/-- A record of a unit that is no record of a fault source of class security or fatal enters the buffer. -/
def State.evEnter (s : State) (source code status origin : Nat) (pl : Bytes) : State :=
  (s.evPut source code status origin pl false false).settle

end Sys2Proof.Machine
end

