-- ==== Sys2Proof/Machine/Proc.lean ====
section
/-! DEFINITION. The Diurn processors' state: status word fields, banks, tick entry, tick abandon, and the
interrupt controller's choice (chapters "The Diurn machine" and "Worlds, rings, exceptions and
interrupts"). -/

namespace Sys2Proof.Machine

/-! ## Status word (Table 3-4) -/

/-- A field of the status word. -/
def swGet (w : Word36) (hi lo : Nat) : Nat := w.toNat / 2 ^ lo % 2 ^ (hi + 1 - lo)

/-- The status word with a field replaced. -/
def swSet (w : Word36) (hi lo v : Nat) : Word36 :=
  BitVec.ofNat 36
    (2 ^ (hi + 1) * (w.toNat / 2 ^ (hi + 1)) + 2 ^ lo * (v % 2 ^ (hi + 1 - lo)) + w.toNat % 2 ^ lo)

def Proc.flagN (pr : Proc) : Bool := decide (swGet pr.sw 35 35 = 1)
def Proc.flagZ (pr : Proc) : Bool := decide (swGet pr.sw 34 34 = 1)
def Proc.flagV (pr : Proc) : Bool := decide (swGet pr.sw 33 33 = 1)
def Proc.flagC (pr : Proc) : Bool := decide (swGet pr.sw 32 32 = 1)
def Proc.flagT (pr : Proc) : Bool := decide (swGet pr.sw 30 30 = 1)
def Proc.dze (pr : Proc) : Bool := decide (swGet pr.sw 29 29 = 1)
def Proc.ove (pr : Proc) : Bool := decide (swGet pr.sw 28 28 = 1)
def Proc.ipl (pr : Proc) : Nat := swGet pr.sw 23 20
def Proc.ldepth (pr : Proc) : Nat := swGet pr.sw 19 17
def Proc.priv (pr : Proc) : Nat := swGet pr.sw 1 0

/-- A bit of the status word set or cleared. -/
def Proc.setBit (pr : Proc) (i : Nat) (b : Bool) : Proc := { pr with sw := swSet pr.sw i i (if b then 1 else 0) }

/-- A bit of the status word set when a value is given. -/
def Proc.setBit? (pr : Proc) (i : Nat) : Option Bool → Proc
  | none => pr
  | some b => pr.setBit i b

/-! ## Banks (Table 5-1) -/

/-- Whether a processor number names a Fret engine. -/
def isFret (p : Nat) : Bool := decide (p < 32)

/-- The world a privilege state lies in: bit 1 of PRIV on a Fret engine; the Capo has one bank. -/
def worldOf (p priv : Nat) : Nat := if isFret p then priv / 2 else 0

/-- The chain and bank of the current privilege state. -/
def Proc.world (pr : Proc) (p : Nat) : Nat := worldOf p pr.priv

/-- Whether the current code runs at the supervisor level of Table 3-3: LEVEL = 1 on a Fret engine,
ring 0 on the Capo. -/
def Proc.super (pr : Proc) (p : Nat) : Bool :=
  if isFret p then decide (pr.priv % 2 = 1) else decide (pr.priv = 0)

/-- The master identity a processor issues in a privilege state (R57). -/
def midOf (p priv : Nat) : Nat := if isFret p then (if 2 ≤ priv then 0x20 + p else p) else 0x40 + priv

/-- A 24-bit address from a number. -/
def a24 (n : Nat) : Addr24 := BitVec.ofNat 24 n

/-- SP of the current privilege state. -/
def Proc.spv (pr : Proc) : Nat := (pr.sp.getD pr.priv 0).toNat

/-! ## Tick entry and abandon -/

/-- The values a Fret engine loads at a tick entry (R181). -/
def State.tickEntryProc (s : State) (n : Nat) : Proc :=
  let pr := s.proc n
  { pr with
    pc := a24 (s.get (FE_TENTRY_ADDR n))
    sw := 3
    sp := [a24 (s.get (FE_INIT_SP_ADDR n 0)), a24 (s.get (FE_INIT_SP_ADDR n 1)),
      a24 (s.get (FE_INIT_SP_ADDR n 2)), a24 (s.get (FE_INIT_SP_ADDR n 3))]
    fp := a24 (s.get (FE_INIT_FP_ADDR n))
    evb := [a24 (s.get (FE_INIT_EVB_ADDR n 0)), a24 (s.get (FE_INIT_EVB_ADDR n 1))]
    tsb := [a24 (s.get (FE_INIT_TSB_ADDR n 0)), a24 (s.get (FE_INIT_TSB_ADDR n 1))]
    tsl := [a24 (s.get (FE_INIT_TSL_ADDR n 0)), a24 (s.get (FE_INIT_TSL_ADDR n 1))]
    ls := [0, 0, 0, 0]
    le := [0, 0, 0, 0]
    lc := [0, 0, 0, 0]
    lx := [0, 0, 0, 0]
    ix := [0, 0, 0, 0]
    depth := [0, 0] }

/-- A source completed: no longer in service; a TARGET, WORLD or GROUP written meanwhile takes effect
(R205). -/
def State.irqComplete (s : State) (i : Nat) : State :=
  let s1 := s.put (INTC_SRC_ACTIVE i) 0
  match tget s.intcHeld i with
  | none => s1
  | some w =>
    let s2 := ((s1.put (INTC_SRC_TARGET i) (wordField w 13 8)).put (INTC_SRC_WORLD i) (wordField w 14 14)).put
      (INTC_SRC_GROUP i) (wordField w 21 16)
    { s2 with intcHeld := terase s2.intcHeld i }

/-- The interrupt sources whose register has been written or requested: the others have PRIO 0. -/
def State.irqSources (s : State) : List Nat :=
  s.regs.filterMap (fun e =>
    if INTC_SRC 0 ≤ e.1 ∧ e.1 < INTC_SRC 512 then some ((e.1 - INTC_SRC 0) / 4) else none)

/-- Every source in service with an engine as target is completed at its tick entry (R208). -/
def State.irqTickEntry (s : State) (n : Nat) : State :=
  s.irqSources.foldl (fun t i =>
    if t.on (INTC_SRC_ACTIVE i) && decide (t.get (INTC_SRC_TARGET i) = n) then t.irqComplete i else t) s

/-- A tick entry of engine `n`: its values loaded, its sources completed. -/
def State.tickEntry (s : State) (n : Nat) : State := (s.setProc n (s.tickEntryProc n)).irqTickEntry n

/-- Causes of an abandon, FE_STATUS.ABANDON_CAUSE. -/
inductive AbandonCause where
  | edge | stack | entryFail | tabandon
  deriving DecidableEq, Repr

def AbandonCause.code : AbandonCause → Nat
  | .edge => 1
  | .stack => 2
  | .entryFail => 3
  | .tabandon => 4

/-- The engine's watchdog counts an abandoned tick and holds the engine at CONSEC (R516). -/
def State.feWatchdog (s : State) (n : Nat) : State :=
  let pr := s.proc n
  let k := pr.abandons + 1
  let c := s.get WDOG_FE_CTL_CONSEC
  if c ≠ 0 ∧ c ≤ k then
    (((s.setProc n { pr with abandons := 0 }).put (FE_CTL_HOLD n) 1).put WDOG_FE_HELD_MASK
      (s.get WDOG_FE_HELD_MASK ||| 2 ^ n)).setIrq 69
  else s.setProc n { pr with abandons := k }

/-- While RUN = 0, HELD follows HOLD at once (R182). -/
def State.holdNow (s : State) (n : Nat) : State :=
  if s.on TIME_CTL_RUN then s
  else
    let h := s.on (FE_CTL_HOLD n)
    let s1 := s.putB (FE_CTL_HELD n) h
    let pr := s1.proc n
    if pr.run = .parked ∧ h then s1.setProc n { pr with run := .held }
    else if pr.run = .held ∧ !h then s1.setProc n { pr with run := .parked }
    else s1

/-- A tick abandon of engine `n` (R42): outputs discarded, PC recorded, counted, the tick-watchdog source
raised, a record written, the engine reset to its tick entry and parked. -/
def State.feAbandon (s : State) (n : Nat) (cause : AbandonCause) : State :=
  let pr := s.proc n
  let s1 := s.setProc n { pr with staged := [] }
  let s2 := s1.put (FE_ABANDON_PC_PC n) pr.pc.toNat
  let s3 := (s2.inc (FE_ABANDON_COUNT n)).put (FE_STATUS_ABANDON_CAUSE n) cause.code
  let s4 := s3.raise (SRC_FE_TICK n) n
  let s5 := s4.evEnter (srcHw 1) (0x1000 + SRC_FE_TICK n) stTICK_ABANDON 0xFF (natToBytes 4 n)
  let s6 := s5.tickEntry n
  let s7 := s6.setProc n { s6.proc n with
    run := .parked, twaited := false, parkEntry := false }
  (s7.feWatchdog n).holdNow n

/-! ## The interrupt controller (R204 to R207) -/

/-- Whether a source requests: its line or its FORCE bit, and it is not in service (R204). -/
def State.irqPending (s : State) (i : Nat) : Bool :=
  (s.on (INTC_SRC_LEVEL i) || s.on (INTC_SRC_FORCE i)) && !(s.on (INTC_SRC_ACTIVE i))

/-- The cycle at which a processor's next instruction begins: its last boundary. -/
def State.procStart (s : State) (p : Nat) : Nat := max (s.proc p).now s.clock

/-- Whether the hold-off of a source's group runs at the boundary of target `p` (R207). -/
def State.heldOff (s : State) (i p : Nat) : Bool :=
  decide (s.procStart p < tgetD s.holdoffs (s.get (INTC_SRC_GROUP i)) 0)

/-- Whether a pending source is deliverable to target `p` (R206). A hold-off does not keep it from a target in
WAIT or at the first boundary of a tick entry that ends a TWAIT park (R207). -/
def State.irqDeliverable (s : State) (i p : Nat) : Bool :=
  let pr := s.proc p
  s.irqPending i && s.on (INTC_SRC_EN i) && decide (s.get (INTC_SRC_TARGET i) = p) &&
    decide (s.get (INTC_THRESH_THRESH p) < s.get (INTC_SRC_PRIO i)) &&
    decide (pr.ipl < s.get (INTC_SRC_PRIO i)) && (decide (pr.run = .running) || decide (pr.run = .wait)) &&
    (!(isFret p) || s.on (INTC_SRC_WORLD i) || decide (pr.priv / 2 = 0)) &&
    (!(s.heldOff i p) || decide (pr.run = .wait) || pr.parkEntry)

/-- The deliverable source of highest priority, the lowest number among equals (R206). -/
def State.irqChoice (s : State) (p : Nat) : Option Nat :=
  s.irqSources.foldl (fun best i =>
    if s.irqDeliverable i p then
      match best with
      | none => some i
      | some j =>
        if s.get (INTC_SRC_PRIO j) < s.get (INTC_SRC_PRIO i) ∨
            (s.get (INTC_SRC_PRIO j) = s.get (INTC_SRC_PRIO i) ∧ i < j) then some i else some j
    else best) none

end Sys2Proof.Machine
end

