-- ==== Sys2Proof/Machine/Nut.lean ====
section
/-! DEFINITION. The Nut: regions, the check of an access, denials, commits (R85 to R95). -/

namespace Sys2Proof.Machine

/-- The 64 B granule of an address. -/
def granule (a : Nat) : Nat := a / 64

/-- First and last granule of a committed region (Table 2-12). -/
def State.nutStart (s : State) (n : Nat) : Nat :=
  2 ^ 26 * s.get (NUT_REGION_START_HI_ADDR n) + s.get (NUT_REGION_START_LO_ADDR n)
def State.nutEnd (s : State) (n : Nat) : Nat :=
  2 ^ 26 * s.get (NUT_REGION_END_HI_ADDR n) + s.get (NUT_REGION_END_LO_ADDR n)

/-- The enabled regions. A region never committed is disabled. -/
def State.nutEnabled (s : State) : List Nat :=
  s.regs.filterMap (fun e =>
    if NUT_REGION_CTL 0 ≤ e.1 ∧ e.1 < NUT_REGION_CTL 256 ∧ (e.1 - NUT_REGION_CTL 0) % 128 = 0 ∧
        e.2.toNat % 2 = 1 then
      some ((e.1 - NUT_REGION_CTL 0) / 128) else none)

/-- The enabled region that covers a granule. -/
def State.nutCover (s : State) (g : Nat) : Option Nat :=
  s.nutEnabled.find? (fun n => decide (s.nutStart n ≤ g) && decide (g ≤ s.nutEnd n))

/-- Bit `mid` of a mask of 256 bits held in eight registers (Table 2-13). -/
def State.nutMask (s : State) (write : Bool) (n mid : Nat) : Bool :=
  let w := if write then s.get (NUT_REGION_WMASK_MASK n (mid / 32)) else s.get (NUT_REGION_RMASK_MASK n (mid / 32))
  decide (w / 2 ^ (mid % 32) % 2 = 1)

/-- Internal addresses of the control registers (Table 2-4). -/
def regWindow : Nat := 0x10000000

/-- Whether a granule lies in a range of internal addresses. -/
def inRange (a lo hi : Nat) : Bool := decide (lo ≤ a) && decide (a ≤ hi)

/-- The accesses of Capo ring 0 that no region governs (R86): the NUT, LIFE and FAULT blocks, Capo memory
and the boot ROM before hand-over. -/
def ring0Free (a : Nat) : Bool :=
  inRange a (regWindow + 0x20000) (regWindow + 0x2FFFF) || inRange a (regWindow + 0x15C0000) (regWindow + 0x15CFFFF) ||
    inRange a (regWindow + 0x1560000) (regWindow + 0x159FFFF) || inRange a 0x2000000 0x2387FFF ||
    inRange a 0xA000000 0xA03FFFF

/-- Whether an access meets a rule that denies it whatever the regions say: cell memory is reached by Capo ring 0
alone, while the cell is OFFLINE (R324); the boot ROM is read by ring 0 alone (Table 2-4). -/
def State.nutBarred (s : State) (mid a : Nat) : Bool :=
  (inRange a 0x7000000 0x73FFFFF &&
    !(decide (mid = 0x40) && decide (s.get (CELL_STATUS_STATE ((a - 0x7000000) / 0x40000)) = 4))) ||
    (inRange a 0xA000000 0xA03FFFF && decide (mid ≠ 0x40))

/-- Whether an access to a granule is granted (R85, R86). -/
def State.nutGrant (s : State) (mid g : Nat) (write fetch : Bool) : Bool :=
  let a := g * 64
  if s.nutBarred mid a then false
  else if mid = 0x40 && (ring0Free a || s.nutEnabled.isEmpty) then true
  else if inRange a (regWindow + 0x20000) (regWindow + 0x2FFFF) then false
  else match s.nutCover g with
    | none => false
    | some n => s.nutMask write n mid && (!fetch || s.on (NUT_REGION_CTL_X n))

/-- Writes over the fabric into the local tick memory of an engine that runs (R183). -/
def State.tickMemLocked (s : State) (a : Nat) (write : Bool) : Bool :=
  write && decide (a < 0x1000000) && s.on TIME_CTL_RUN && !(s.on (FE_CTL_HELD (a / 0x80000)))

/-- One part of an access: first byte, length, granted. -/
structure AccPart where
  addr : Nat
  len : Nat
  granted : Bool
  deriving DecidableEq, Repr

/-- The granules of an access from granule `g`: for each the region that covers it and whether the access is granted
there. -/
def State.accGranules (s : State) (mid : Nat) (write fetch : Bool) (g : Nat) : Nat → List (Nat × (Option Nat × Bool))
  | 0 => []
  | n + 1 =>
    (g, (s.nutCover g, s.nutGrant mid g write fetch && !(s.tickMemLocked (g * 64) write))) ::
      s.accGranules mid write fetch (g + 1) n

/-- Runs of consecutive places with one value: first place, value and number. -/
def runsOf {α : Type} [DecidableEq α] : List (Nat × α) → List (Nat × (α × Nat))
  | [] => []
  | (g, r) :: t =>
    match runsOf t with
    | (g', (r', n)) :: u => if r = r' then (g, (r, n + 1)) :: u else (g, (r, 1)) :: (g', (r', n)) :: u
    | [] => [(g, (r, 1))]

/-- The parts of an access of `len` bytes at `a` with the Nut's decision on each (R93): an access is split where the
region changes, and where the decision does. -/
def State.accParts (s : State) (mid a len : Nat) (write fetch : Bool) : List AccPart :=
  let g0 := granule a
  let n := granule (a + len - 1) + 1 - g0
  (runsOf (s.accGranules mid write fetch g0 n)).map (fun r =>
    let lo := max a (r.1 * 64)
    let hi := min (a + len) ((r.1 + r.2.2) * 64)
    ⟨lo, hi - lo, r.2.1.2⟩)

/-- A denied access recorded once (R95): counted, its lowest denied address, MID, direction and the length
of its first denied part recorded, NUT_DENY raised. -/
def State.nutDeny (s : State) (mid a len : Nat) (write fetch : Bool) : State :=
  let s1 := s.inc NUT_FAULT_COUNT_COUNT
  let s2 := (s1.put NUT_FAULT_ADDR_LO_ADDR a).put NUT_FAULT_ADDR_HI_ADDR (a / 2 ^ 32)
  let s3 := (((s2.put NUT_FAULT_INFO_LEN len).putB NUT_FAULT_INFO_FETCH fetch).putB NUT_FAULT_INFO_WRITE
    write).put NUT_FAULT_INFO_MID mid
  s3.raise SRC_NUT_DENY 0

/-! ## Committing a region (R88 to R90) -/

/-- The staging set's start and end granules. -/
def State.stageStart (s : State) : Nat := 2 ^ 26 * s.get NUT_STAGE_START_HI_ADDR + s.get NUT_STAGE_START_LO_ADDR
def State.stageEnd (s : State) : Nat := 2 ^ 26 * s.get NUT_STAGE_END_HI_ADDR + s.get NUT_STAGE_END_LO_ADDR

/-- The lowest-numbered other enabled region that shares a granule with the staged one. -/
def State.nutOverlap (s : State) (n : Nat) : Option Nat :=
  ((s.nutEnabled.filter (fun k => decide (k ≠ n))).filter (fun k =>
    decide (s.nutStart k ≤ s.stageEnd) && decide (s.stageStart ≤ s.nutEnd k))).min?

/-- Mask words of the staging set copied into a region. -/
def State.copyMasks (s : State) (n : Nat) : Nat → State
  | 0 => s
  | k + 1 =>
    ((s.copyMasks n k).wr (NUT_REGION_RMASK n k) (s.rd (NUT_STAGE_RMASK k))).wr (NUT_REGION_WMASK n k)
      (s.rd (NUT_STAGE_WMASK k))

/-- The staging set written into region `n` as one act. -/
def State.nutStore (s : State) (n : Nat) : State :=
  let s1 := ((((s.wr (NUT_REGION_START_LO n) (s.rd NUT_STAGE_START_LO)).wr (NUT_REGION_START_HI n)
    (s.rd NUT_STAGE_START_HI)).wr (NUT_REGION_END_LO n) (s.rd NUT_STAGE_END_LO)).wr (NUT_REGION_END_HI n)
    (s.rd NUT_STAGE_END_HI)).wr (NUT_REGION_CTL n) (s.rd NUT_STAGE_CTL)
  let s2 := s1.copyMasks n 8
  s2.put NUT_STATUS_ENABLED s2.nutEnabled.length

/-- A commit with its checks in order: LOCKED, END_BEFORE_START, OVERLAP (R88, R89). -/
def State.nutCommit (s : State) (n : Nat) : State :=
  let res (t : State) (r o : Nat) : State := (t.put NUT_COMMIT_RESULT_RESULT r).put NUT_COMMIT_RESULT_OTHER o
  if s.on (NUT_REGION_CTL_LOCK n) then res s 3 0
  else if s.stageEnd < s.stageStart then res s 2 0
  else if s.on NUT_STAGE_CTL_EN then
    match s.nutOverlap n with
    | some k => (res s 1 k).raise SRC_NUT_OVERLAP 0
    | none => res (s.nutStore n) 0 0
  else res (s.nutStore n) 0 0

end Sys2Proof.Machine
end

