-- ==== Sys2Proof/Machine/Memory.lean ====
section
/-! DEFINITION. On-chip SRAM errors, the patrol scrubber, the fabric links, DRAM bursts and tags, the
version guard (R60, R68 to R84). -/

namespace Sys2Proof.Machine

/-! ## SRAM (R70 to R72) -/

/-- The SRAM partition an internal address lies in (Tables 2-4, 2-7). -/
def sramPart (a : Nat) : Option Nat :=
  if a < 0x1000000 then some 0
  else if a < 0x1800000 then some 1
  else if inRange a 0x4000000 0x57FFFFF then some 2
  else if inRange a 0x6000000 0x61FFFFF then some 3
  else if inRange a 0x2000000 0x2387FFF then some 4
  else if inRange a 0x7000000 0x73FFFFF then some 5
  else if inRange a 0x8000000 0x81FFFFF then some 6
  else none

/-- The address of the SRAM word that holds a byte. -/
def wordAddr (a : Nat) : Nat := a / 8 * 8

/-- The INFO of a memory source: bits 39:8 of an address (Table 14-6). -/
def memInfo (a : Nat) : Nat := a / 256 % 2 ^ 32

/-- Whether a word at `w` of 8 bytes, or a line of 64, shares a byte with `n` bytes at `a`. -/
def overlaps (size w a n : Nat) : Bool := decide (w < a + n) && decide (a < w + size)

/-- A correctable error of a word (R70): its write-back waits, it is counted and SRAM_CE raised. The words
of partition 7 have no address. -/
def State.sramCe (s : State) (p a : Nat) : State :=
  let w := wordAddr a
  let s1 : State :=
    if p = 7 then s
    else { s with mem := { s.mem with writebacks := w :: s.mem.writebacks.filter (· ≠ w) } }
  (s1.inc (MEM_PART_CE_COUNT p)).raise (SRC_SRAM_CE p) (if p = 7 then 0 else memInfo w)

/-- An uncorrectable error of a word (R71): poisoned, recorded, SRAM_UE raised. -/
def State.sramUe (s : State) (p a : Nat) : State :=
  let w := if p = 7 then 0 else wordAddr a
  let s1 : State :=
    if p = 7 then s
    else { s with mem := { s.mem with
      upsets := terase s.mem.upsets w, poison := w :: s.mem.poison.filter (· ≠ w) } }
  let s2 := ((s1.inc (MEM_PART_UE_COUNT p)).put (MEM_PART_ADDR_LO_ADDR p) w).put (MEM_PART_ADDR_HI_ADDR p)
    (w / 2 ^ 32)
  s2.raise (SRC_SRAM_UE p) (memInfo w)

/-- Stored bits of a word changed; more errors than the code corrects stay more. -/
def State.sramUpset (s : State) (a : Nat) (hard : Bool) : State :=
  let w := wordAddr a
  if (sramPart w).isSome && !(s.mem.poison.contains w) then
    { s with mem := { s.mem with upsets := tset s.mem.upsets w (hard || tgetD s.mem.upsets w false) } }
  else s

/-- The words with changed bits in a range of bytes. -/
def State.upsetsIn (s : State) (a n : Nat) : List (Nat × Bool) := s.mem.upsets.filter (fun e => overlaps 8 e.1 a n)

/-- SRAM words stored by a write: a write cancels a pending write-back (R70) and stores new bits; a full-word write
clears a poison mark (R71), and so does one of the bits that the code cannot correct (log entry 103). -/
def State.sramStored (s : State) (a n : Nat) : State :=
  let full (w : Nat) : Bool := decide (a ≤ w) && decide (w + 8 ≤ a + n)
  { s with mem := { s.mem with
      writebacks := s.mem.writebacks.filter (fun w => !(overlaps 8 w a n))
      upsets := s.mem.upsets.filter (fun e => !(overlaps 8 e.1 a n) || (e.2 && !(full e.1)))
      poison := s.mem.poison.filter (fun w => !(full w)) } }

/-- Whether a poisoned word lies in a range of bytes. -/
def State.poisoned (s : State) (a n : Nat) : Bool := s.mem.poison.any (fun w => overlaps 8 w a n)

/-- Bytes read from SRAM: every word's errors are corrected or reported (R70); none where a word cannot be corrected or
is poisoned (R71). -/
def State.sramRead (s : State) (a n : Nat) : Option Bytes × State :=
  let bad := s.upsetsIn a n
  let s1 := bad.foldl (fun t e =>
    let p := (sramPart e.1).getD 0
    if e.2 then t.sramUe p e.1 else t.sramCe p e.1) s
  (if s.poisoned a n || bad.any (fun e => e.2) then none else some (s.peek a n), s1)

/-- What the array of a partition holds for the word at an address (R68): the row it stands in and its scrambled bits
with the check bits, 7 for a 36-bit word and 8 for a 64-bit word, under the key of the boot; `word` tells whether the
partition is a word memory. -/
def State.sramImage (s : State) (word : Bool) (a : Nat) : Nat × Nat :=
  let bitsOf := if word then 36 else 64
  let v := bytesToNat (s.peek (wordAddr a) 8) % 2 ^ bitsOf
  let k := if word then 7 else 8
  let code := v + 2 ^ bitsOf * (Config.secded bitsOf v % 2 ^ k)
  (Config.sramRow s.mem.bootKeys ((sramPart a).getD 7) (a / 8),
    Config.sramScramble s.mem.bootKeys (wordAddr a) (bitsOf + k) code)

/-- SRAM_WRITEBACK: the corrected word is written back, unless a write came first (R70). -/
def execSramWriteback (a : Nat) (s : State) : Out :=
  if s.mem.writebacks.contains a then
    .next { s with mem := { s.mem with
      writebacks := s.mem.writebacks.filter (· ≠ a)
      upsets := s.mem.upsets.filter (fun e => !(decide (e.1 = a)) || e.2) } }
  else .next s

/-- SCRUB_READ: the patrol scrubber reads one word of a partition, whose bits a disturbance may have changed (R72). -/
def execScrubRead (p a : Nat) (ecc : Ecc) (s : State) : Out :=
  if s.on MEM_SCRUB_CTL_EN && decide (p = 7) then
    match ecc with
    | .clean => .next s
    | .correctable => .next (s.sramCe 7 a)
    | .uncorrectable => .next (s.sramUe 7 a)
  else if s.on MEM_SCRUB_CTL_EN && decide (sramPart a = some p) then
    let s1 := match ecc with
      | .clean => s
      | .correctable => s.sramUpset a false
      | .uncorrectable => s.sramUpset a true
    .next (s1.sramRead (wordAddr a) 8).2
  else .next s

/-! ## DRAM (R76 to R80) -/

/-- First address of the DRAM, and first past what the ordering code maps (R60, Table 0-1). -/
def dramBase : Nat := 0x8000000000
def State.mappedGib (s : State) : Nat := if s.mem.m32 then 28 else 14
def State.dramTop (s : State) : Nat := dramBase + 2 ^ 30 * s.mappedGib

/-- Line address of a byte. -/
def lineAddr (a : Nat) : Nat := a / 64 * 64

/-- A failing line's address recorded. -/
def State.dramFailAddr (s : State) (l : Nat) : State :=
  (s.put DRAM_FAIL_ADDR_LO_ADDR l).put DRAM_FAIL_ADDR_HI_ADDR (l / 2 ^ 32)

/-- The poison list with its count register. -/
def State.putDramPoison (s : State) (l : List Nat) : State :=
  ({ s with mem := { s.mem with dramPoison := l } }).put DRAM_POISON_COUNT l.length

/-- A burst with `k` CRC mismatches in a row (R78): up to three re-sends are counted. -/
def State.dramBurst (s : State) (k : Nat) : State := s.incBy DRAM_CRC_RESEND_COUNT (min k 3)

/-- A burst whose fourth transfer failed too (R79): a write enters the poison list. -/
def State.dramCrcFail (s : State) (l : Nat) (write : Bool) : State :=
  let s1 := ((s.inc DRAM_CRC_FAIL_COUNT).dramFailAddr l).raise SRC_DRAM_UE (memInfo l)
  if write && !(s1.mem.dramPoison.contains l) then
    if 64 ≤ s1.mem.dramPoison.length then s1.raise SRC_DRAM_POISON_FULL (memInfo l)
    else s1.putDramPoison (s1.mem.dramPoison ++ [l])
  else s1

/-- A line whose tag does not verify (R80). -/
def State.dramTagFail (s : State) (l : Nat) : State :=
  ((s.inc DRAM_TAG_FAIL_COUNT).dramFailAddr l).raise SRC_DRAM_TAG (memInfo l)

/-- Whether a listed line lies in a range of bytes. -/
def State.dramPoisoned (s : State) (a n : Nat) : Bool := s.mem.dramPoison.any (fun l => overlaps 64 l a n)

/-- The burst of a line over the link (R78, R79): false where its fourth transfer failed too. -/
def State.dramLink (s : State) (l : Nat) (write : Bool) : Bool × State :=
  let k := s.mem.crcNext
  if k = 0 then (true, s)
  else
    let s1 := ({ s with mem := { s.mem with crcNext := 0 } }).dramBurst k
    if 3 < k then (false, s1.dramCrcFail l write) else (true, s1)

/-- DRAM initialisation begins (R77): every mapped line becomes zero with a valid tag, and INIT_DONE reads 0
until the row DRAM_INIT_COMPLETE. A read of a line not yet written waits for it and reads zero. -/
def State.dramInitStart (s : State) : State :=
  (({ s with mem := { s.mem with
      cells := s.mem.cells.filter (fun c => decide (c.1 < dramBase)), lines := [] } }).putDramPoison []).put
    DRAM_INFO_INIT_DONE 0

/-- DRAM_INIT_COMPLETE (R77). -/
def execDramInitComplete (s : State) : Out := .next (s.put DRAM_INFO_INIT_DONE 1)

/-! ## The version guard (R81 to R84) -/

/-- The guard page of an address in versioned DRAM (Table 2-8): 65,536 pages of the association table, 4,096
of the blob region. -/
def guardPage (a : Nat) : Option Nat :=
  if inRange a dramBase 0x8010FFFFFF then some ((a - dramBase) / 4096) else none

/-- The guard pages that `n` bytes at `a` touch. -/
def guardPages (a n : Nat) : List Nat :=
  (List.range ((a + n - 1) / 4096 + 1 - a / 4096)).filterMap (fun i => guardPage ((a / 4096 + i) * 4096))

/-- Pages of the versioned DRAM (R84). -/
abbrev guardPageCount : Nat := 69632

/-- The cycles of a sweep, at most 40 ms (R84; log entry 102). -/
def sweepLen : Nat := 1 + Config.sweepCycles % (40 * cyclesPerMs)

/-- The next page of a running sweep, which goes in ascending page order (R84, Table 2-16). -/
def State.sweepPage (s : State) : Nat :=
  if s.on GUARD_STATE_SWEEP then min (guardPageCount - 1) ((s.clock - s.mem.sweepAt) * guardPageCount / sweepLen) else 0

/-- Version and generation of a page: an unlisted page has version 0 under the key of the last sweep; a page that the
running sweep has passed has version 0 under the new key. -/
def State.pageVersion (s : State) (p : Nat) : Nat × Bool :=
  let g := s.on GUARD_STATE_GEN
  let v := tgetD s.mem.versions p (0, if s.on GUARD_STATE_SWEEP then !g else g)
  if v.2 ≠ g ∧ p < s.sweepPage then (0, g) else v

/-- A write to a versioned page waits in the guard's queue, merged with one that waits already (R82). -/
def State.guardEnqueue (s : State) (p : Nat) : State :=
  if s.mem.guardQueue.contains p then s
  else { s with mem := { s.mem with guardQueue := s.mem.guardQueue ++ [p] } }

/-- Whether the guard's queue takes a page: a full one holds further evictions (R82). -/
def State.guardTakes (s : State) (p : Nat) : Bool :=
  s.mem.guardQueue.contains p || decide (s.mem.guardQueue.length < 64)

/-- A key sweep starts (R84): a new key from the Rosin array through its loader of keys (Table 11-2), GEN flipped. -/
def State.guardSweep (s : State) : State :=
  let r := s.rosinTake 0 64
  let s1 : State := { r.2 with mem := { r.2.mem with
    guardPrev := s.mem.guardKey, guardKey := bytesToNat (r.1.take 32), sweepAt := s.clock } }
  (s1.putB GUARD_STATE_GEN (!(s.on GUARD_STATE_GEN))).put GUARD_STATE_SWEEP 1

/-- A page's version and generation stored. -/
def State.putVersion (s : State) (p n : Nat) : State :=
  { s with mem := { s.mem with versions := tset s.mem.versions p (n, s.on GUARD_STATE_GEN) } }

/-- Whether the oldest page waits for the key of a sweep: its version would pass 2^32 − 1 and the array has no grant for
the loader, which waits without limit (R84, R412, Table 11-2). -/
def State.guardStalls (s : State) : Bool :=
  match s.mem.guardQueue with
  | [] => true
  | p :: _ =>
    decide (s.pageVersion p = (2 ^ 32 - 1, s.on GUARD_STATE_GEN)) && !(s.canDraw 0)

/-- The oldest waiting page written back (R81, R82): its version incremented, its 64 lines re-tagged. A page
whose version would pass 2^32 − 1 starts a sweep; a page of the old generation is re-tagged under the new key
and version 0 at once (R84). -/
def State.guardWriteback (s : State) : State :=
  if s.guardStalls then s
  else match s.mem.guardQueue with
  | [] => s
  | p :: rest =>
    let s1 := ({ s with mem := { s.mem with guardQueue := rest } }).inc GUARD_WB_COUNT
    let v := s1.pageVersion p
    if v.2 ≠ s1.on GUARD_STATE_GEN then s1.putVersion p 0
    else if v.1 = 2 ^ 32 - 1 then s1.guardSweep.putVersion p 0
    else s1.putVersion p (v.1 + 1)

/-- GUARD_WRITEBACK. -/
def execGuardWriteback (s : State) : Out := .next s.guardWriteback

/-- GUARD_SWEEP_COMPLETE (R84): time passes to the sweep's end; the pages of the old generation have version 0 under the
new key. -/
def execGuardSweepComplete (s : State) : Out :=
  if s.on GUARD_STATE_SWEEP then
    let s1 := s.passTo (s.mem.sweepAt + sweepLen)
    let g := s1.on GUARD_STATE_GEN
    .next (({ s1 with mem := { s1.mem with
      versions := s1.mem.versions.filter (fun e => decide (e.2.2 = g) && decide (e.2.1 ≠ 0)) } }).put
      GUARD_STATE_SWEEP 0)
  else .next s

/-! ## Lines: encryption, tags, reads and writes (R76, R78 to R82) -/

/-- Numbers of the two computations of R76 among the cryptographic ones (log entry 6). -/
abbrev cyDramXts : Nat := 40
abbrev cyDramPlain : Nat := 41
abbrev cyDramTag : Nat := 42

/-- The key and the version under which a line is tagged: version 0 for a tagged line, the page's version for a versioned
one, under the guard key of the page's generation (R76, R84). -/
def State.lineVersion (s : State) (l : Nat) : Nat × Nat :=
  match guardPage l with
  | none => (s.mem.bootKeys, 0)
  | some p =>
    let v := s.pageVersion p
    (if v.2 = s.on GUARD_STATE_GEN then s.mem.guardKey else s.mem.guardPrev, v.1)

/-- The tag of a line's ciphertext: a keyed function of the ciphertext, the address and the version (R76). -/
def State.lineTag (s : State) (l : Nat) (c : Bytes) : Bytes :=
  let v := s.lineVersion l
  Config.crypto cyDramTag [natToBytes 32 v.1, c, natToBytes 5 l, natToBytes 4 v.2] 8

/-- The ciphertext and tag stored for a line: AES-256 in XTS mode of its data, tweaked by its address (R76). -/
def State.lineImage (s : State) (l : Nat) : Bytes × Bytes :=
  match tget s.mem.lines l with
  | some x => x
  | none =>
    let c := Config.crypto cyDramXts [natToBytes 32 s.mem.bootKeys, natToBytes 5 l, s.peek l 64] 64
    (c, s.lineTag l c)

/-- Whether the tag of a line verifies (R80). -/
def State.lineVerifies (s : State) (l : Nat) : Bool :=
  decide ((s.lineImage l).2 = s.lineTag l (s.lineImage l).1)

/-- The 64 bytes a line that verifies delivers. -/
def State.lineData (s : State) (l : Nat) : Bytes :=
  match tget s.mem.lines l with
  | some x => Config.crypto cyDramPlain [natToBytes 32 s.mem.bootKeys, natToBytes 5 l, x.1] 64
  | none => s.peek l 64

/-- The lines with another image that share a byte with a range. -/
def State.linesIn (s : State) (a n : Nat) : List (Nat × (Bytes × Bytes)) :=
  s.mem.lines.filter (fun e => overlaps 64 e.1 a n)

/-- The bytes that lines which verify deliver. -/
def State.dramBytes (s : State) (a n : Nat) : Bytes :=
  if (s.linesIn a n).isEmpty then s.peek a n
  else
    (((List.range (n / 64 + 2)).flatMap (fun i => s.lineData (lineAddr a + 64 * i))).drop (a % 64)).take n

/-- Bytes read from DRAM: none where the burst failed four times, a line's tag does not verify or a line stands in the
poison list (R78 to R80). -/
def State.dramRead (s : State) (a n : Nat) : Option Bytes × State :=
  let r := s.dramLink (lineAddr a) false
  if !r.1 then (none, r.2)
  else
    match (s.linesIn a n).find? (fun e => !(s.lineVerifies e.1)) with
    | some e => (none, r.2.dramTagFail e.1)
    | none => (if s.dramPoisoned a n then none else some (s.dramBytes a n), r.2)

/-- Lines stored by a successful write leave the poison list (R79); a wholly written line has the image of its new data
(R76; log entry 103). -/
def State.dramStored (s : State) (a n : Nat) : State :=
  let s1 : State := { s with mem := { s.mem with
    lines := s.mem.lines.filter (fun e => !(decide (a ≤ e.1) && decide (e.1 + 64 ≤ a + n))) } }
  if s1.dramPoisoned a n then s1.putDramPoison (s1.mem.dramPoison.filter (fun l => !(overlaps 64 l a n))) else s1

/-- Pages written wait in the guard's queue; where it is full, the oldest write-back is made at once (R82; log
entry 104). -/
def State.guardTouch (s : State) (a n : Nat) : State :=
  (guardPages a n).foldl (fun t p => if t.guardTakes p then t.guardEnqueue p else t.guardWriteback.guardEnqueue p) s

/-- Bytes written to DRAM: the line of a burst that failed four times is dropped (R79), the others are stored and the
version guard follows (R81). -/
def State.dramWrite (s : State) (a : Nat) (bs : Bytes) : State :=
  let r := s.dramLink (lineAddr a) true
  let k := if r.1 then 0 else min bs.length (lineAddr a + 64 - a)
  if k = bs.length then r.2
  else (((r.2.poke (a + k) (bs.drop k)).dramStored (a + k) (bs.length - k)).guardTouch (a + k) (bs.length - k))

/-! ## Memory by address -/

/-- Bytes of on-die memory or DRAM as a requester reads them. -/
def State.memRead (s : State) (a n : Nat) : Option Bytes × State :=
  if dramBase ≤ a then s.dramRead a n else s.sramRead a n

/-- Bytes stored in on-die memory or DRAM. -/
def State.memStore (s : State) (a : Nat) (bs : Bytes) : State :=
  if dramBase ≤ a then s.dramWrite a bs else (s.poke a bs).sramStored a bs.length

/-- A transfer over a fabric link (R73): a parity error is re-sent once; false where the second transfer failed too. -/
def State.transfer (s : State) (a : Nat) : Bool × State :=
  let k := s.mem.parityNext
  if k = 0 then (true, s)
  else
    let s1 : State := { s with mem := { s.mem with parityNext := 0 } }
    if 2 ≤ k then (false, (s1.inc FAB_PARITY_COUNT).raise SRC_FAB_PARITY (memInfo a)) else (true, s1)

/-! ## Disturbances -/

/-- What has disturbed the memories, the links and the dual-stored registers since the last command takes its place in
the state (log entry 90). -/
def State.disturb (s : State) (d : FabEnv) : State :=
  let s1 := match d.sram with
    | none => s
    | some e => s.sramUpset e.1 e.2
  let s2 : State := match d.dram with
    | none => s1
    | some e =>
      if dramBase ≤ e.1 ∧ e.1 < s1.dramTop then
        { s1 with mem := { s1.mem with lines := tset s1.mem.lines (lineAddr e.1) e.2 } }
      else s1
  let s3 : State := match d.dual with
    | none => s2
    | some e => { s2 with dual := if e.2 = s2.rd e.1 then terase s2.dual e.1 else tset s2.dual e.1 e.2 }
  { s3 with mem := { s3.mem with
    parityNext := s3.mem.parityNext + d.parityErrors
    crcNext := s3.mem.crcNext + d.dramResends
    hostFails := s3.mem.hostFails || d.hostError } }

/-! ## NUT_COMMIT -/

/-- A write of NUT_COMMIT (R88). -/
def State.nutCommitWrite (s : State) (v : Word32) : State :=
  if wordField v 31 31 = 1 then s.nutCommit (wordField v 7 0) else s

/-- NUT_COMMIT: a write of NUT_COMMIT with GO = 1. -/
def execNutCommit (region : Nat) (s : State) : Out := .next (s.nutCommit (region % 256))

end Sys2Proof.Machine
end

