-- ==== Sys2Proof/Machine/Regs.lean ====
section
/-! DEFINITION. The write of a register by software: which fields it stores, which values it refuses
(R11, R14, R75), and the plain value a read returns. -/

namespace Sys2Proof.Machine

/-- The lifecycle states of LIFE_STATE.STATE. -/
abbrev lcBlank : Nat := 0
abbrev lcProvisioned : Nat := 1
abbrev lcSealed : Nat := 2
abbrev lcDebug : Nat := 3
abbrev lcRetired : Nat := 4

/-- The lifecycle state. -/
def State.life (s : State) : Nat := s.get LIFE_STATE_STATE

/-- Whether SL fields are open (R11): Blank and Provisioned, and while the boot ROM applies the preset (R545). -/
def State.slOpen (s : State) : Bool := decide (s.life ≤ lcProvisioned) || s.lcs.applying

/-- What a write does to one register: its new value, whether a field was stored, whether a value was
refused. -/
structure RegWrite where
  val : Word32
  stored : Bool
  refused : Bool
  deriving DecidableEq, Repr

/-- A written word's effect on one field (R11, R14). -/
def FieldDesc.write (f : FieldDesc) (open_ : Bool) (w : Word32) (r : RegWrite) : RegWrite :=
  let v := wordField w f.hi f.lo
  let cur := wordField r.val f.hi f.lo
  let store : RegWrite :=
    if f.allow.ok v then { r with val := wordSet r.val f.hi f.lo v, stored := true }
    else { r with refused := true }
  match f.acc with
  | .rw => store
  | .sl => if open_ then store else r
  | .w1c => if v = 0 then r else { r with val := wordSet r.val f.hi f.lo (cur - (cur &&& v)), stored := true }
  | .w1s => if v = 0 then r else { r with val := wordSet r.val f.hi f.lo (cur ||| v), stored := true }
  | .ro => r
  | .wo => r

/-- A written word's effect on a register of a table row. -/
def State.regEffect (s : State) (off : Nat) (v : Word32) : RegWrite :=
  match regDescAt off with
  | none => ⟨s.rd off, false, false⟩
  | some d => d.fields.foldl (fun r f => f.write s.slOpen v r) ⟨s.rd off, false, false⟩

/-- The configuration fault source of the block that holds a register (R506). -/
def cfgSource (off : Nat) : Nat :=
  match blockOf off with
  | some b => b.cfg
  | none => SRC_MEM_CFG

/-- A write of a register by the rules of its table: its fields stored, a refused value raised once (R11,
R14, R75). -/
def State.regStore (s : State) (off : Nat) (v : Word32) : State :=
  let r := s.regEffect off v
  let s1 := if r.stored then s.wr off r.val else s
  if r.refused then s1.raise (cfgSource off) 0 else s1

/-- A register written but for the fields of a list that the write refuses: each keeps its value, and the write's refused
values are raised once (R14). -/
def State.storeBut (s : State) (off : Nat) (v : Word32) (bad : List (Fld × Bool)) : State :=
  let keep := bad.filter (fun e => e.2)
  let w := keep.foldl (fun w e => wordSet w e.1.hi e.1.lo (s.get e.1)) v
  let s1 := s.regStore off w
  if keep.isEmpty || (s.regEffect off w).refused then s1 else s1.raise (cfgSource off) 0

/-- The value of a written field, or the field's own value where the written one is refused. -/
def State.accepted (s : State) (f : Fld) (v : Word32) : Nat :=
  match regDescAt f.off with
  | none => s.get f
  | some d =>
    match d.fields.find? (fun x => decide (x.hi = f.hi ∧ x.lo = f.lo)) with
    | none => s.get f
    | some x => if x.allow.ok (wordField v f.hi f.lo) then wordField v f.hi f.lo else s.get f

/-- The bits of a register that a read returns: WO and RSV bits read zero (R11). -/
def readMask (d : RegDesc) (w : Word32) : Word32 :=
  d.fields.foldl (fun acc f => if f.acc = .wo then acc else wordSet acc f.hi f.lo (wordField w f.hi f.lo)) 0

end Sys2Proof.Machine
end

