-- ==== Sys2Proof/Machine/Timebase.lean ====
section
/-! DEFINITION. The timebase: its source, its states, the servo, the 1PPS pins and the tick rate (R19 to
R28, R46 to R51). -/

namespace Sys2Proof.Machine

/-- The values of TIME_CTL.SRC (Table 1-7) and of TIME_STATE.STATE (Table 1-8). -/
abbrev srcPtp : Nat := 0
abbrev srcPps : Nat := 1
abbrev srcFree : Nat := 2
abbrev tbFreerun : Nat := 0
abbrev tbLocking : Nat := 1
abbrev tbLocked : Nat := 2
abbrev tbHoldover : Nat := 3
abbrev tbExpired : Nat := 4

/-- Whether the seconds count is known under the selected source (R20, Table 1-8). -/
def State.secKnown (s : State) : Bool :=
  if s.get TIME_CTL_SRC = srcPps then s.time.secWritten
  else if s.get TIME_CTL_SRC = srcPtp then s.time.ptpSec else false

/-- TAI_VALID follows the state and the seconds count. -/
def State.taiUpdate (s : State) : State := s.putB TIME_STATE_TAI_VALID (s.taiOk && s.secKnown)

/-- The timebase enters a state. -/
def State.tbEnter (s : State) (st : Nat) : State :=
  let s1 := s.put TIME_STATE_STATE st
  let t := s1.time
  let t1 : TimeState :=
    if st = tbLocked then { t with everLocked := true, lockedAt := s.clock, freqLock := t.freq, bad := 0 }
    else if st = tbHoldover then { t with holdAt := s.clock }
    else if st = tbLocking then { t with good := 0, bad := 0 }
    else t
  ({ s1 with time := t1 }).taiUpdate

/-- The correction of module time by one servo update (R22): while RUN = 0 a step to the source, while
RUN = 1 a slew of at most TIME_SLEWMAX parts per million; the frequency estimate stays within 5 ppm. -/
def State.servoPhase (s : State) (d : Int) : State :=
  let ns := d / thirdsPerNs
  let f := clampTo 10 (Config.servoFreq ns s.freeCtr)
  let m : Int := 2 * s.get TIME_SLEWMAX_PPM
  let t := s.time
  if s.on TIME_CTL_RUN then
    { s with freeCtr := s.freeCtr + 1
             time := { t with freq := f, slew := clampTo m (Config.servoSlew ns s.freeCtr) } }
  else
    { s with freeCtr := s.freeCtr + 1
             time := { t with freq := f, slew := 0, modTime := ((t.modTime : Int) + d).toNat } }

/-- TIME_OFFSET takes a measured offset; one that does not fit 32 bits leaves a free value. -/
def State.putOffset (s : State) (ns : Int) : State :=
  if -(2 ^ 31 : Int) ≤ ns ∧ ns < (2 ^ 31 : Int) then s.put TIME_OFFSET_OFFSET (ns % (2 ^ 32 : Int)).toNat
  else
    let r := s.free
    r.2.put TIME_OFFSET_OFFSET r.1

/-- A valid measurement of the selected source: its offset from module time in thirds of a femtosecond
(R21, R22). -/
def State.servo (s : State) (d : Int) : State :=
  let st := s.get TIME_STATE_STATE
  let s1 := (s.putOffset (d / thirdsPerNs)).servoPhase d
  let s2 : State := { s1 with time := { s1.time with lastSrc := s.clock } }
  let a := d.natAbs
  if st = tbLocking then
    let g := if a ≤ 250 * thirdsPerNs then s2.time.good + 1 else 0
    let s3 : State := { s2 with time := { s2.time with good := g } }
    if 16 ≤ g then s3.tbEnter tbLocked else s3
  else if st = tbLocked then
    let b := if 1000 * thirdsPerNs < a then s2.time.bad + 1 else 0
    let s3 : State := { s2 with time := { s2.time with bad := b, freqLock := s2.time.freq } }
    if 4 ≤ b then s3.tbEnter tbLocking else s3
  else s2.tbEnter tbLocking

/-- The cycles without a measurement after which a source counts as lost (R21): three sync intervals of one
second (log entry 15), or 1.5 s without a 1PPS edge. -/
def State.lossCycles (s : State) : Nat :=
  if s.get TIME_CTL_SRC = srcPps then 1500 * cyclesPerMs else 3 * cyclesPerSec

/-- The selected source is lost (R21): slewing stops; LOCKED goes to HOLDOVER after 300 s in it, else to
HOLDOVER_EXPIRED; LOCKING to HOLDOVER_EXPIRED or FREERUN. A source lost in LOCKING before any lock leaves the rate it had (log entry 109). -/
def State.sourceLost (s : State) : State :=
  let st := s.get TIME_STATE_STATE
  let t := s.time
  if st = tbLocked then
    ({ s with time := { t with slew := 0 } }).tbEnter
      (if 300 * cyclesPerSec ≤ s.clock - t.lockedAt then tbHoldover else tbExpired)
  else if st = tbLocking then
    if t.everLocked then
      ({ s with time := { t with slew := 0, freq := t.freqLock } }).tbEnter tbExpired
    else ({ s with time := { t with slew := 0 } }).tbEnter tbFreerun
  else s

/-- SOURCE_LOST: the time without a measurement has passed. -/
def execSourceLost (s : State) : Out :=
  let st := s.get TIME_STATE_STATE
  if (st = tbLocked ∨ st = tbLocking) ∧ s.get TIME_CTL_SRC ≠ srcFree then
    .next (s.passTo (s.time.lastSrc + s.lossCycles)).sourceLost
  else .next s

/-- HOLDOVER_EXPIRY: 30 s in HOLDOVER end in HOLDOVER_EXPIRED (R21, Table 1-1). -/
def execHoldoverExpiry (s : State) : Out :=
  if s.get TIME_STATE_STATE = tbHoldover then
    .next ((s.passTo (s.time.holdAt + 30 * cyclesPerSec)).tbEnter tbExpired)
  else .next s

/-- The offset of a 1PPS edge from module time: the nearest second boundary minus module time. -/
def State.ppsOffset (s : State) : Int :=
  let f := s.time.modTime % thirdsPerSec
  if 2 * f ≤ thirdsPerSec then -(f : Int) else (thirdsPerSec : Int) - f

/-- PPS_IN_EDGE (R48): an edge of the selected polarity is timestamped; one more than 100 ms from the
expected boundary is counted in IN_REJECT; otherwise it steers module time where PPS_IN is selected (R19). -/
def execPpsInEdge (falling : Bool) (s : State) : Out :=
  if s.on PPS_CTL_IN_EDGE = falling then
    let d := s.ppsOffset
    if 100000000 * thirdsPerNs < d.natAbs then .next (s.inc PPS_CTL_IN_REJECT)
    else if s.get TIME_CTL_SRC = srcPps then .next (s.servo d)
    else .next s
  else .next s

/-- The cycle of the second boundary that is reached now or next (R47). -/
def State.secondCycle (s : State) : Nat :=
  let f := s.time.modTime % thirdsPerSec
  if f < s.perCycle then s.clock else s.clock + ceilDiv (thirdsPerSec - f) s.perCycle

/-- PPS_OUT_PULSE (R47): the 1PPS output pulses at a second boundary for OUT_WIDTH × 10 µs. -/
def execPpsOutPulse (s : State) : Out :=
  if s.on PPS_CTL_OUT_EN && (s.taiOk || s.on PPS_CTL_OUT_ALWAYS) then
    let s1 := s.passTo s.secondCycle
    .next { s1 with time := { s1.time with ppsEnd := some (s1.clock + 15000 * s1.get PPS_CTL_OUT_WIDTH) } }
  else .next s

/-- Operating time mirrored to the Case die (R51). -/
def State.mirrorOpTime (s : State) : State :=
  { s with time := { s.time with opMirror := s.time.opTime, opMirrorAt := s.clock, mirrorDue := false } }

/-- OPTIME_MIRROR: every 60 s (R51). -/
def execOptimeMirror (s : State) : Out :=
  .next (s.passTo (s.time.opMirrorAt + 60 * cyclesPerSec)).mirrorOpTime

/-- The number, in the grid of the rate in force, of the next tick edge after now (R24). -/
def State.edgeIndex (s : State) : Nat := s.time.modTime % thirdsPerSec * s.time.rate / thirdsPerSec + 1

/-- The cycle of the next tick edge: the first at which module time is at or after the grid point (R24). -/
def State.edgeCycle (s : State) : Nat :=
  s.clock + ceilDiv (thirdsPerSec * s.edgeIndex - s.time.modTime % thirdsPerSec * s.time.rate)
    (s.time.rate * s.perCycle)

/-! ## Rate and seconds -/

/-- A rate takes effect (R25, R28). -/
def State.rateInForce (s : State) (r : Nat) : State :=
  (((({ s with time := { s.time with rate := r } }).put TICK_RATE_RATE r).put TICK_RATE_PENDING 0).put
    TICK_CYCLES_N (tickN r)).put TICK_WORK_W (tickW r)

/-- A pending rate takes effect, if there is one. -/
def State.ratePending (s : State) : State :=
  if s.on TICK_RATE_PENDING then s.rateInForce (s.get TICK_RATE_RATE) else s

/-- A write of TICK_RATE (R23, R25). -/
def State.tickRateWrite (s : State) (v : Word32) : State :=
  let r := wordField v 16 0
  let s1 := s.regStore TICK_RATE v
  if 1000 ≤ r ∧ r ≤ 96000 then
    if s.on TIME_CTL_RUN then s1.put TICK_RATE_PENDING 1 else s1.rateInForce r
  else s1

/-- TICK_RATE_WRITE. -/
def execTickRateWrite (v : Word32) (s : State) : Out := .next (s.tickRateWrite v)

/-- A write of TIME_SEC_LO or TIME_SEC_HI (R20): it sets the seconds of module time while RUN = 0. The write of either half
alone counts as the write that lets TAI_VALID rise (log entry 110). -/
def State.timeSecWrite (s : State) (hi : Bool) (v : Word32) : State :=
  if s.on TIME_CTL_RUN then s
  else
    let sec := s.taiSec
    let sec' := if hi then 2 ^ 32 * (v.toNat % 2 ^ 16) + sec % 2 ^ 32 else 2 ^ 32 * (sec / 2 ^ 32) + v.toNat
    ({ s with time := { s.time with
        modTime := thirdsPerSec * sec' + s.time.modTime % thirdsPerSec, secWritten := true } }).taiUpdate

/-- TIME_SEC_WRITE. -/
def execTimeSecWrite (hi : Bool) (v : Word32) (s : State) : Out := .next (s.timeSecWrite hi v)

/-- A change of SRC by a write of TIME_CTL (R21): the lock history starts anew; the timebase is FREERUN
until the new source delivers a measurement (log entry 16), at the rate it had (log entry 109); with FREE no source is
selected. -/
def State.srcChanged (s : State) : State :=
  let s1 : State := { s with time := { s.time with
    everLocked := false, slew := 0, good := 0, bad := 0, lastSrc := s.clock } }
  let s2 := if s1.get TIME_CTL_SRC = srcFree then s1.put TIME_OFFSET_OFFSET 0 else s1
  s2.tbEnter tbFreerun

/-- A write of TIME_CTL but for what a clear of RUN does to release requests: SRC and RUN take effect
(R21, R26). -/
def State.timeCtlBase (s : State) (v : Word32) : State :=
  let run := s.on TIME_CTL_RUN
  let src := s.get TIME_CTL_SRC
  let s1 := s.regStore TIME_CTL v
  let s2 := if s1.get TIME_CTL_SRC ≠ src then s1.srcChanged else s1
  let on := s2.on TIME_CTL_RUN
  if run && !on then { s2 with time := { s2.time with stopPend := s2.time.ticking } }
  else if !run && on then
    { s2 with time := { s2.time with
        ticking := true, firstTick := s2.time.firstTick || s2.time.stopPend || !s2.time.inTick } }
  else s2

end Sys2Proof.Machine
end

