-- ==== Sys2Proof/Machine/Dma.lean ====
section
/-! DEFINITION. Buffers of bytes that units other than the Diurn processors read and write: where they may lie, how
they are packed, and the fabric accesses that reach them (R301, R331, R332, R373). -/

namespace Sys2Proof.Machine

/-- A buffer of octets in a word memory holds four octets a word (R331): the internal addresses of Fret tick
memory, common word memory and Capo word memory. -/
def wordMem (a : Nat) : Bool := decide (a < 0x1800000) || inRange a 0x2000000 0x237FFFF

/-- First address of general-use DRAM (Table 2-8). -/
def genBase : Nat := 0x8011000000

/-- Whether bytes lie wholly in general-use DRAM, in common word memory, in Capo word memory. -/
def State.inGen (s : State) (a n : Nat) : Bool := decide (genBase ≤ a) && decide (a + n ≤ s.dramTop)
def inCommon (a n : Nat) : Bool := decide (0x1000000 ≤ a) && decide (a + n ≤ 0x1800000)
def inCapo (a n : Nat) : Bool := decide (0x2000000 ≤ a) && decide (a + n ≤ 0x2380000)

/-! ## Host memory through the outbound windows (R300, R301) -/

/-- First address of the windows, and first past them. -/
abbrev obwBase : Nat := 0xC000000000
abbrev obwTop : Nat := 0x10000000000

/-- Whether memory requests pass between the module and the host: the link is up and, with REQUIRE = 1, a stream is
Secure (R300). -/
def State.hostLink (s : State) : Bool :=
  s.on BRIDGE_LINK_UP && (!(s.on BRIDGE_IDE_REQUIRE) || decide (s.get BRIDGE_IDE_SECURE ≠ 0))

/-- The window of an outbound address. -/
def obwOf (a : Nat) : Nat := (a - obwBase) / 2 ^ 32

/-- The host address behind an outbound address; none where the window is disabled. -/
def State.hostAddr (s : State) (a : Nat) : Option Nat :=
  let k := obwOf a
  if obwBase ≤ a ∧ a < obwTop ∧ s.on (OBW_CTL_EN k) then
    some ((s.get (OBW_HOST_LO_ADDR k) + 2 ^ 32 * s.get (OBW_HOST_HI_ADDR k) + a % 2 ^ 32) % 2 ^ 64)
  else none

/-- Bytes cut where a window ends: address and number of each piece. -/
def obwPieces (a n : Nat) : List (Nat × Nat) :=
  (List.range (obwOf (a + n - 1) + 1 - obwOf a)).map (fun i =>
    let lo := max a (obwBase + 2 ^ 32 * (obwOf a + i))
    (lo, min (a + n) (obwBase + 2 ^ 32 * (obwOf a + i + 1)) - lo))

/-- Whether bytes lie in enabled outbound windows. -/
def State.inHost (s : State) (a n : Nat) : Bool :=
  decide (obwBase ≤ a) && decide (a + n ≤ obwTop) && (obwPieces a n).all (fun p => (s.hostAddr p.1).isSome)

/-- Bytes of host memory through the windows. -/
def State.hostBytes (s : State) (a n : Nat) : Bytes :=
  (obwPieces a n).flatMap (fun p => (s.hostAddr p.1).elim [] (fun h => s.hostRead h p.2))

/-- The function under which an access through a window is issued. -/
def State.asFn (s : State) (a : Nat) : State :=
  { s with mem := { s.mem with hostFn := s.get (OBW_CTL_FN (obwOf a)) } }

/-- A read of the host through the windows; none where a window is disabled, no request passes, or the host answers with
an error or not at all. -/
def State.hostFetch (s : State) (a n : Nat) : Option Bytes × State :=
  if s.inHost a n && s.hostLink then
    let s1 := s.asFn a
    if s.mem.hostFails then (none, { s1 with mem := { s1.mem with hostFails := false } }) else (some (s.hostBytes a n), s1)
  else (none, s)

/-- A write to the host through the windows; false where no request passes. -/
def State.hostStore (s : State) (a : Nat) (bs : Bytes) : Bool × State :=
  if s.inHost a bs.length && s.hostLink then
    (true, (obwPieces a bs.length).foldl (fun t p =>
      (t.hostAddr p.1).elim t (fun h => t.hostWrite h ((bs.drop (p.1 - a)).take p.2))) (s.asFn a))
  else (false, s)

/-! ## Bursts -/

/-- The bytes a buffer of `n` octets spans in memory: eight to a word of four octets in a word memory. -/
def bufSpan (a n : Nat) : Nat := if wordMem a then ceilDiv n 4 * 8 else n

/-- The first part of a read or write that the Nut denies. -/
def State.nutRefuses (s : State) (mid a n : Nat) (write : Bool) : Option AccPart :=
  (s.accParts mid a n write false).find? (fun p => !p.granted)

/-- Whether bytes lie in memory or in enabled outbound windows. -/
def State.memDecodes (s : State) (a n : Nat) : Bool :=
  if obwBase ≤ a then s.inHost a n
  else if dramBase ≤ a then decide (a + n ≤ s.dramTop)
  else (sramPart a).isSome && (sramPart (a + n - 1)).isSome

/-- Bytes of one burst as its target delivers them. -/
def State.burstData (s : State) (a n : Nat) : Option Bytes × State :=
  if !(s.memDecodes a n) then (none, s)
  else
    let t := s.transfer a
    if !t.1 then (none, t.2)
    else if obwBase ≤ a then t.2.hostFetch a n
    else t.2.memRead a n

/-- One burst read by a master over the fabric; none where a part is denied, decodes to nothing or delivers a data
error (R60, R71, R73, R79, R80, R93). -/
def State.burstRead (s : State) (mid a n : Nat) : Option Bytes × State :=
  match s.nutRefuses mid a n false with
  | some p => (none, s.nutDeny mid p.addr p.len false false)
  | none => s.burstData a n

/-- One part of a burst written. -/
def State.partStore (s : State) (a : Nat) (bs : Bytes) : Bool × State :=
  if !(s.memDecodes a bs.length) then (false, s)
  else
    let t := s.transfer a
    if !t.1 then (false, t.2)
    else if obwBase ≤ a then t.2.hostStore a bs
    else (true, t.2.memStore a bs)

/-- One burst written by a master over the fabric: the granted parts are stored; false where a part was denied, decodes
to nothing or its transfer fails (R93). -/
def State.burstWrite (s : State) (mid a : Nat) (bs : Bytes) : Bool × State :=
  let parts := s.accParts mid a bs.length true false
  let r := parts.foldl (fun (r : Bool × State) p =>
    if p.granted then
      let q := r.2.partStore p.addr ((bs.drop (p.addr - a)).take p.len)
      (r.1 && q.1, q.2)
    else r) (true, s)
  match parts.find? (fun p => !p.granted) with
  | some p => (false, r.2.nutDeny mid p.addr p.len true false)
  | none => r

/-- The longest burst of a DMA engine, a cell or the Bridge (section "Straddling accesses"). -/
abbrev burstMax : Nat := 4096

/-- Bytes read in bursts in ascending order, until one fails (log entry 105). -/
def State.burstsRead (s : State) (mid a n : Nat) : Nat → Option Bytes × State
  | 0 => (some [], s)
  | k + 1 =>
    let r := s.burstRead mid a (min n burstMax)
    if n ≤ burstMax then r
    else
      match r.1 with
      | none => r
      | some b =>
        let q := r.2.burstsRead mid (a + burstMax) (n - burstMax) k
        (q.1.map (fun c => b ++ c), q.2)

/-- Bytes written in bursts in ascending order, until one fails (log entry 105). -/
def State.burstsWrite (s : State) (mid a : Nat) (bs : Bytes) : Nat → Bool × State
  | 0 => (true, s)
  | k + 1 =>
    let r := s.burstWrite mid a (bs.take burstMax)
    if bs.length ≤ burstMax then r
    else if r.1 then r.2.burstsWrite mid (a + burstMax) (bs.drop burstMax) k
    else r

/-- Bytes read and written by a master over the fabric. -/
def State.dmaRead (s : State) (mid a n : Nat) : Option Bytes × State := s.burstsRead mid a n (ceilDiv n burstMax)
def State.dmaWrite (s : State) (mid a : Nat) (bs : Bytes) : Bool × State :=
  s.burstsWrite mid a bs (ceilDiv bs.length burstMax)

/-! ## Buffers -/

/-- Octets of the words of a word memory: four to a word, octet 4i in bits 7:0 (R331). -/
def unpackWords : Nat → Bytes → Bytes
  | 0, _ => []
  | n + 1, bs => bs.take 4 ++ unpackWords n (bs.drop 8)

/-- Octets packed four to a word, the rest of each word zero (R331, R332). -/
def packWords : Nat → Bytes → Bytes
  | 0, _ => []
  | n + 1, bs =>
    (bs.take 4 ++ List.replicate (4 - (bs.take 4).length) 0) ++ [0, 0, 0, 0] ++ packWords n (bs.drop 4)

/-- The octets of a buffer as its memory holds them, and a buffer's octets from its memory. -/
def bufPack (a : Nat) (bs : Bytes) : Bytes := if wordMem a then packWords (ceilDiv bs.length 4) bs else bs
def bufUnpack (a n : Nat) (bs : Bytes) : Bytes := if wordMem a then (unpackWords (ceilDiv n 4) bs).take n else bs

/-- A buffer of `n` octets read by a master. -/
def State.bufRead (s : State) (mid a n : Nat) : Option Bytes × State :=
  let r := s.dmaRead mid a (bufSpan a n)
  (r.1.map (bufUnpack a n), r.2)

/-- A buffer written by a master. -/
def State.bufWrite (s : State) (mid a : Nat) (bs : Bytes) : Bool × State := s.dmaWrite mid a (bufPack a bs)

/-- A buffer's octets as they stand in memory, without an access. -/
def State.bufPeek (s : State) (a n : Nat) : Bytes :=
  bufUnpack a n (if obwBase ≤ a then s.hostBytes a (bufSpan a n) else s.peek a (bufSpan a n))

/-- A buffer read by the key store, which the Nut does not check (R58); none on a data error. -/
def State.keyRead (s : State) (a n : Nat) : Option Bytes × State :=
  let r := s.memRead a (bufSpan a n)
  (r.1.map (bufUnpack a n), r.2)

/-- A buffer written by a unit that the Nut does not check. -/
def State.bufStore (s : State) (a : Nat) (bs : Bytes) : State := s.memStore a (bufPack a bs)

end Sys2Proof.Machine
end

