-- ==== Sys2Proof/Machine/Keys.lean ====
section
/-! DEFINITION. The key store: the resident set and blobs, installation, the commands of KEY_CMD, the vault copy, key
ceremonies (R419 to R453). -/

namespace Sys2Proof.Machine

/-! ## Blobs and the resident set (R429, R430) -/

/-- Header bytes of a blob (Table 12-4). -/
def pegHeader (p : Peg) : Bytes :=
  natToBytes 1 p.st.code ++ natToBytes 1 p.kalg ++ natToBytes 1 p.use ++
    natToBytes 1 (p.users + (if p.pin then 128 else 0)) ++ natToBytes 2 p.epoch ++ [0, 0] ++ natToBytes 8 p.count ++
    natToBytes 8 p.limit

/-- The blob of a slot under the blob key (Table 12-4). -/
def State.pegBlob (s : State) (i : Nat) (p : Peg) : Bytes :=
  let inputs := [natToBytes 8 s.key.blobKey, natToBytes 4 i, pegHeader p,
    p.key ++ List.replicate (32 - p.key.length) 0]
  pegHeader p ++ Config.crypto cyBlobEnc inputs 32 ++ Config.crypto cyBlobTag inputs 8

/-- Where a slot's blob stands. -/
def blobAddr (i : Nat) : Nat := 0x8010000000 + 64 * i

/-- The resident slots. -/
def State.resident (s : State) : List (Nat × Peg) := s.key.pegs.filter (fun e => e.2.resident)

/-- The least recently used resident slot that is not pinned. -/
def State.pegVictim (s : State) : Option (Nat × Peg) :=
  (s.resident.filter (fun e => !(pegPinned e.1 e.2))).foldl (fun best e =>
    match best with
    | none => some e
    | some b => if e.2.lastUse < b.2.lastUse then some e else some b) none

/-- Whether a resident slot's blob in DRAM is not the one it would be written as. -/
def State.pegDirty (s : State) (i : Nat) (p : Peg) : Bool := decide (s.peek (blobAddr i) 64 ≠ s.pegBlob i p)

/-- Whether a place in the resident set can be had at once: a dirty victim is held while the guard's queue is full (R82,
R429). -/
def State.pegRoom (s : State) : Bool :=
  decide (s.resident.length < 8192) ||
    match s.pegVictim with
    | none => true
    | some (i, p) => !(s.pegDirty i p) || (guardPage (blobAddr i)).all s.guardTakes

/-- A place in the resident set is freed: a dirty victim's blob is written through the version guard. -/
def State.pegEvict (s : State) : State :=
  if s.resident.length < 8192 then s
  else
    match s.pegVictim with
    | none => s
    | some (i, p) =>
      (if s.pegDirty i p then s.memStore (blobAddr i) (s.pegBlob i p) else s).setPeg i { p with resident := false }

/-- A key installed into a RESERVED slot (R427, R429): ACTIVE with a count of 0, resident, most recently used. -/
def State.pegInstall (s : State) (i : Nat) (key : Bytes) : State :=
  let s1 := s.pegEvict
  let s2 : State := { s1 with key := { s1.key with useClock := s1.key.useClock + 1 } }
  let p := s2.peg i
  let a := if p.kalg = kaAES128 then 0 else if p.kalg = kaAES256 then 1 else 2
  let dflt := if kaSECRET ≤ p.kalg then 2 ^ 64 - 1 else s2.get64 (BOW_KEYLIM_LO a) (BOW_KEYLIM_HI a)
  s2.setPeg i { p with
    st := .active, count := 0, limit := if p.limit = 0 then dflt else p.limit, key := key, resident := true
    lastUse := s2.key.useClock, spentSeen := false, warned := false }

/-- Whether a slot's key can be used at once: it holds one and is resident. -/
def State.pegHere (s : State) (i : Nat) : Bool := (s.peg i).resident

/-! ## Commands -/

/-- Detail codes of key commands (Table 9-4). -/
abbrev dtFIELD : Nat := 0x01
abbrev dtPSET : Nat := 0x02
abbrev dtMASK : Nat := 0x03
abbrev dtIN_A : Nat := 0x04
abbrev dtIN_B : Nat := 0x05
abbrev dtOUT : Nat := 0x06
abbrev dtWINDOW : Nat := 0x07
abbrev dtKEY : Nat := 0x08
abbrev dtDEST : Nat := 0x09
abbrev dtPUBKEY : Nat := 0x0A
abbrev dtENTROPY : Nat := 0x0B
abbrev dtMEMORY : Nat := 0x0C
abbrev dtINDEX : Nat := 0x0D
abbrev dtSECOUT : Nat := 0x0E

/-- What a command comes to: its end, or a wait for something that another command brings. -/
inductive KeyOut where
  | fin (st det : Nat) (s : State)
  | wait
  deriving DecidableEq, Repr

/-- Public key bytes of a scheme and set (Table 9-8); none where the set is not assigned (Table 9-7). -/
def pubLen (scheme pset : Nat) : Option Nat :=
  if scheme = scMLKEM then [800, 1184, 1568][pset]?
  else if scheme = scMLDSA then [1312, 1952, 2592][pset]?
  else if scheme = scSLHDSA then [32, 32, 48, 48, 64, 64, 32, 32, 48, 48, 64, 64][pset]?
  else if scheme = scLMS then if pset < 5 then some 56 else none
  else if scheme = scMCE then if pset = 0 then some 1047319 else none
  else if scheme = scHQC then [2249, 4522, 7245][pset]?
  else if scheme = scEC then [64, 96][pset]?
  else if scheme = scX25519 ∨ scheme = scED25519 then if pset = 0 then some 32 else none
  else none

/-- Public bytes in an import payload: none for Classic McEliece (R437). -/
def payloadPub (scheme pset : Nat) : Option Nat :=
  (pubLen scheme pset).map (fun n => if scheme = scMCE then 0 else n)

/-- Whether USE names only consumers that R423 grants for a KALG (R426). -/
def useFits (kalg use : Nat) : Bool :=
  let allowed :=
    if kalg ≤ kaAES256 then 0b000011
    else if kalg ≤ kaHMAC32 then 0b000111
    else if kalg = kaKMAC then 0b000100
    else if kalg = kaSECRET then 0b101000
    else 0b010000
  decide (use ≠ 0) && decide (use ||| allowed = allowed)

/-- RESERVE_PEG (R426, R427, R429). -/
def State.cmdReservePeg (s : State) (c : KeyCmd) : KeyOut :=
  let kalg := c.attr / 2 ^ 28
  let pin := bitOf c.attr 27
  let use := c.attr / 2 ^ 16 % 64
  let epoch := c.attr % 2 ^ 14
  let bridge := decide (262112 ≤ c.slot ∧ c.slot ≤ 262143)
  let pick := decide (262096 ≤ c.slot ∧ c.slot ≤ 262111)
  let a := if kalg = kaAES128 then 0 else if kalg = kaAES256 then 1 else 2
  let dflt := if kaSECRET ≤ kalg then 2 ^ 64 - 1 else s.get64 (BOW_KEYLIM_LO a) (BOW_KEYLIM_HI a)
  if (s.peg c.slot).st ≠ .free then .fin stSTATE_INVALID dtKEY s
  else if !(useFits kalg use) || (decide (kalg = kaBRIDGE) != bridge) || (bitOf use usePICK && !pick) then
    .fin stBAD_PARAM dtFIELD s
  else if dflt < c.limit then .fin stBAD_PARAM dtFIELD s
  else
    let p : Peg := { Peg.free with
      st := .reserved, kalg := kalg, use := use, users := c.users, epoch := epoch, pin := pin, limit := c.limit }
    if pegPinned c.slot p && decide (4096 ≤ s.get KEY_PEG_PINNED_COUNT) then .fin stBAD_PARAM dtFIELD s
    else .fin stOK 0 (s.setPeg c.slot p)

/-- ERASE_PEG (R442, Table 12-3). -/
def State.cmdErasePeg (s : State) (c : KeyCmd) : KeyOut := .fin stOK 0 (s.setPeg c.slot Peg.free)

/-- The words of KEY_INFO written from a list. -/
def State.putInfo (s : State) (i : Nat) : List Nat → State
  | [] => s
  | v :: vs => (s.put (KEY_INFO_WORD i) v).putInfo (i + 1) vs

/-- INFO_PEG (Table 12-11). -/
def State.cmdInfoPeg (s : State) (c : KeyCmd) : KeyOut :=
  let p := s.peg c.slot
  .fin stOK 0 (s.putInfo 0 [2 ^ 28 * p.st.code + (if p.pin then 2 ^ 27 else 0) + 2 ^ 24 * p.kalg + 2 ^ 16 * p.use +
    p.epoch, p.users, p.count % 2 ^ 32, p.count / 2 ^ 32, p.limit % 2 ^ 32, p.limit / 2 ^ 32,
    if p.resident then 1 else 0, 0])

/-- LOWER_LIMIT (R428). -/
def State.cmdLowerLimit (s : State) (c : KeyCmd) : KeyOut :=
  let p := s.peg c.slot
  if p.st ≠ .active ∧ p.st ≠ .spent then .fin stSTATE_INVALID dtKEY s
  else if p.limit < c.limit then .fin stBAD_PARAM dtFIELD s
  else .fin stOK 0 (s.setPeg c.slot { p with limit := c.limit, st := if c.limit ≤ p.count then .spent else p.st })

/-- Whether a command's buffer lies where R451 allows. -/
def State.keyBufOk (s : State) (c : KeyCmd) : Bool := s.inGen c.src c.len || inCapo c.src (bufSpan c.src c.len)

/-- The check of an input slot for key derivation (R439, R440): a status, or none where it passes. -/
def State.kdfRefuse (s : State) (i : Nat) : Option Nat :=
  let p := s.peg i
  if p.st = .free ∨ p.st = .faulted then some stKEY_ABSENT
  else if p.st = .spent then some stKEY_SPENT
  else if p.st ≠ .active ∨ p.kalg ≠ kaSECRET ∨ !(bitOf p.use useKDF) then some stNOT_PERMITTED
  else none

/-- DERIVE (R440). -/
def State.cmdDerive (s : State) (c : KeyCmd) : KeyOut :=
  if !(s.keyBufOk c) then .fin stBAD_PARAM dtWINDOW s
  else
    match s.keyRead c.src c.len with
    | (none, s) => .fin stABORTED dtMEMORY s
    | (some b, s) =>
      let n := bytesToNat (b.take 2)
      if c.len < 2 + n ∨ 1024 < n ∨ 1024 < c.len - 2 - n then .fin stBAD_LENGTH 0 s
      else if (s.peg c.slot).st ≠ .reserved then .fin stSTATE_INVALID dtKEY s
      else
        match s.kdfRefuse c.aux with
        | some st => .fin st dtKEY s
        | none =>
          if !(s.pegHere c.aux) || !s.pegRoom then .wait
          else
            let key := (s.peg c.aux).key
            match s.pegUse c.aux with
            | (false, s1) => .fin stKEY_SPENT dtKEY s1
            | (true, s1) =>
              let out := Config.crypto cyHkdf [key, (b.drop 2).take n, b.drop (2 + n)] (keyLen (s1.peg c.slot).kalg)
              .fin stOK 0 (s1.pegInstall c.slot out)

/-- An envelope's parts: header bytes, payload and tag (Table 12-6); a format 0x0002 envelope has its payload
from byte 16 on (R439). -/
def envBody (b : Bytes) : Nat := if bytesToNat (b.take 2) = 2 then 16 else 1136

/-- The key encryption key's inputs: the two module keys that open an envelope (R437). -/
def State.envKeys (s : State) : List Bytes := [(s.priv 4094).key, (s.priv 4093).key]

/-- Whether a cell is IDLE for the decapsulations of an envelope (R438). -/
def State.cellIdle (s : State) : Bool := (List.range 16).any (fun n => decide (s.get (CELL_STATUS_STATE n) = 0))

/-- IMPORT_GKE (R438). -/
def State.cmdImportGke (s : State) (c : KeyCmd) : KeyOut :=
  if !(s.keyBufOk c) then .fin stBAD_PARAM dtWINDOW s
  else
    match s.keyRead c.src c.len with
    | (none, s) => .fin stABORTED dtMEMORY s
    | (some b, s) =>
      let plen := bytesToNat ((b.drop 8).take 4)
      let kalg := bytesToNat ((b.drop 3).take 1)
      let epoch := bytesToNat ((b.drop 4).take 2)
      if c.len ≠ 1152 + plen ∨ kaBRIDGE < kalg ∨ plen ≠ keyLen kalg then .fin stBAD_LENGTH 0 s
      else if bytesToNat (b.take 2) ≠ 1 ∨ bytesToNat ((b.drop 2).take 1) ≠ 1 ∨ 2 ^ 14 ≤ epoch ∨
          bytesToNat ((b.drop 6).take 2) ≠ 0 ∨ bytesToNat ((b.drop 12).take 4) ≠ 0 then .fin stBAD_PARAM dtFIELD s
      else if (s.peg c.slot).st ≠ .reserved then .fin stSTATE_INVALID dtKEY s
      else if epoch ≠ (s.peg c.slot).epoch ∨ kalg ≠ (s.peg c.slot).kalg then .fin stBAD_PARAM dtKEY s
      else if !(s.on KEY_STATE_VAULT_READY) || !(s.cellIdle) || !s.pegRoom then .wait
      else if !(Config.cryptoOk cyEnvelopeOk (b :: s.envKeys)) then .fin stVERIFY_FAIL 0 s
      else .fin stOK 0 (s.pegInstall c.slot (Config.crypto cyEnvelopeOpen (b :: s.envKeys) plen))

/-- Slots 4,088 to 4,095 hold the module's own keys (R434). -/
def moduleSlot (i : Nat) : Bool := decide (4088 ≤ i ∧ i ≤ 4095)

/-- Whether vault writes wait (R452). -/
def State.vaultHeld (s : State) : Bool := s.on CASE_STATUS_SUSPENDED

/-- IMPORT_PRIV (R438, R439): from an envelope of either format. -/
def State.cmdImportPriv (s : State) (c : KeyCmd) : KeyOut :=
  if !(s.keyBufOk c) then .fin stBAD_PARAM dtWINDOW s
  else if moduleSlot c.slot then .fin stNOT_PERMITTED 0 s
  else
    match s.keyRead c.src c.len with
    | (none, s) => .fin stABORTED dtMEMORY s
    | (some b, s) =>
      let fmt := bytesToNat (b.take 2)
      let body := envBody b
      let plen := bytesToNat ((b.drop 8).take 4)
      let scheme := bytesToNat ((b.drop 3).take 1)
      let pset := bytesToNat ((b.drop 4).take 1)
      match payloadPub scheme pset with
      | none => .fin stBAD_LENGTH 0 s
      | some pub =>
        if c.len ≠ body + plen + 16 ∨ plen ≠ pub + Config.privLen scheme pset then .fin stBAD_LENGTH 0 s
        else if (fmt ≠ 1 ∧ fmt ≠ 2) ∨ bytesToNat ((b.drop 2).take 1) ≠ 2 ∨ scheme = scLMS ∨
            bytesToNat ((b.drop 5).take 3) ≠ 0 ∨ bytesToNat ((b.drop 12).take 4) ≠ 0 ∨ 4096 ≤ c.slot then
          .fin stBAD_PARAM dtFIELD s
        else if s.privSt c.slot ≠ .free then .fin stSTATE_INVALID dtKEY s
        else
          let store (t : State) (keys : List Bytes) : KeyOut :=
            if !(Config.cryptoOk cyEnvelopeOk (b :: keys)) then .fin stVERIFY_FAIL 0 t
            else
              let pay := Config.crypto cyEnvelopeOpen (b :: keys) plen
              let r := t.free
              .fin stOK 0 (r.2.setPriv c.slot { Priv.free with
                st := .active, scheme := scheme, pset := pset, order := 1 + r.1 % 2, use := c.attr / 2 ^ 16 % 32
                users := c.users, pub := pay.take pub, key := pay.drop pub, stored := true
                root := r.2.key.rootKey.getD 0 })
          if !(s.on KEY_STATE_VAULT_READY) || s.vaultHeld then .wait
          else if fmt = 1 then
            if !(s.cellIdle) then .wait else store s s.envKeys
          else
            match s.kdfRefuse c.aux with
            | some st => .fin st dtKEY s
            | none =>
              if !(s.pegHere c.aux) then .wait
              else
                let key := (s.peg c.aux).key
                match s.pegUse c.aux with
                | (false, s1) => .fin stKEY_SPENT dtKEY s1
                | (true, s1) => store s1 [key]

/-- RESERVE_PRIV (R433, R434). -/
def State.cmdReservePriv (s : State) (c : KeyCmd) : KeyOut :=
  if moduleSlot c.slot then .fin stNOT_PERMITTED 0 s
  else if 4096 ≤ c.slot then .fin stBAD_PARAM dtFIELD s
  else if !(s.on KEY_STATE_VAULT_READY) then .wait
  else if s.privSt c.slot ≠ .free then .fin stSTATE_INVALID dtKEY s
  else .fin stOK 0 (s.setPriv c.slot { Priv.free with
    st := .reserved, use := c.attr / 2 ^ 16 % 32, users := c.users })

/-- DESTROY_PRIV (R433, R434): the slot is FREE; a running reservation of it is abandoned (R452). -/
def State.cmdDestroyPriv (s : State) (c : KeyCmd) : KeyOut :=
  if moduleSlot c.slot then .fin stNOT_PERMITTED 0 s
  else if 4096 ≤ c.slot then .fin stBAD_PARAM dtFIELD s
  else if !(s.on KEY_STATE_VAULT_READY) || s.vaultHeld then .wait
  else .fin stOK 0 (s.setPriv c.slot Priv.free)

/-- INFO_PRIV (Table 12-11). -/
def State.cmdInfoPriv (s : State) (c : KeyCmd) : KeyOut :=
  if 4096 ≤ c.slot then .fin stBAD_PARAM dtFIELD s
  else
    let p := s.priv c.slot
    .fin stOK 0 (s.putInfo 0 [2 ^ 28 * (s.privSt c.slot).code + 2 ^ 20 * (p.scheme % 16) + 2 ^ 16 * (p.pset % 16) +
      p.order % 4 * 2 ^ 8, Config.privInfo p.use p.users, 0, 0, 0, 0, 0, 0])

/-- The slots of the module's own keys with their USE and USERS (Table 12-5; log entry 25). -/
def moduleSlots : List (Nat × Nat × Nat) :=
  [(4088, 0, 1), (4089, 0, 1), (4090, 2 ^ puPICK, 2), (4091, 2 ^ puPICK, 1), (4092, 0, 1), (4093, 2 ^ puENVELOPE, 1),
    (4094, 2 ^ puENVELOPE, 1), (4095, 2 ^ puSPDM, 1)]

/-- REKEY_ROOT handling makes the module's own slots RESERVED, ready for the key generations of ring 0 firmware (R434). -/
def State.moduleReserve (s : State) : State :=
  moduleSlots.foldl (fun t e => t.setPriv e.1 { Priv.free with st := .reserved, use := e.2.1, users := e.2.2 }) s

/-- REKEY_ROOT (R421, R549): a new root key drawn on the KEY port; every record under an earlier one LOST;
ZEROIZED cleared (R449). -/
def State.cmdRekeyRoot (s : State) : KeyOut :=
  let life := s.life
  if s.get KEY_STATE_ROOT ≠ 0 then .fin stNOT_PERMITTED 0 s
  else if life = lcDebug ∨ life = lcRetired ∨ (life = lcSealed ∧ !(s.on CER_AUTHWIN_AUTH)) then
    .fin stNOT_PERMITTED 0 s
  else if s.entropyGone then .fin stENTROPY_UNAVAILABLE dtENTROPY (s.inc (ROSIN_UNAVAIL_COUNT 2))
  else if !(s.canDraw 2) || s.vaultHeld then .wait
  else
    let d := s.rosinTake 2 64
    let id := bytesToNat (d.1.take 32) + 1
    let s1 : State := { d.2 with key := { d.2.key with
      rootKey := some id, vaultRoot := id
      privs := lostPrivs d.2.key.privs } }
    let s2 := (((s1.put KEY_STATE_ROOT 1).put KEY_STATE_ZEROIZED 0).moduleReserve).privCount
    .fin stOK 0 (if life = lcSealed then s2.put CER_AUTHWIN_AUTH 0 else s2)

/-- A command's own rules. -/
def State.keyRun (s : State) (c : KeyCmd) : KeyOut :=
  match c.op with
  | 1 => s.cmdReservePeg c
  | 2 => s.cmdImportGke c
  | 3 => s.cmdErasePeg c
  | 4 => s.cmdInfoPeg c
  | 5 => s.cmdLowerLimit c
  | 6 => s.cmdDerive c
  | 8 => s.cmdReservePriv c
  | 9 => s.cmdImportPriv c
  | 10 => s.cmdDestroyPriv c
  | 11 => s.cmdInfoPriv c
  | 15 => s.cmdRekeyRoot
  | _ => .fin stBAD_OPCODE 0 s

/-- Operation codes of KEY_CMD that are assigned. -/
def keyOpAssigned (op : Nat) : Bool :=
  decide (1 ≤ op ∧ op ≤ 6) || decide (8 ≤ op ∧ op ≤ 11) || decide (op = 15)

/-- A command runs until its end or a wait. -/
def State.keyAttempt (s : State) (c : KeyCmd) : State :=
  match s.keyRun c with
  | .fin st det s1 => (s1.keyEnd st det).settle
  | .wait => { s with key := { s.key with waiting := some c } }

/-- A waiting command tries again. -/
def State.keyRetry (s : State) : State :=
  match s.key.waiting with
  | none => s
  | some c => s.keyAttempt c

/-- A write of KEY_CMD with GO = 1 (R451): the checks in order, then the command. In Retired only INFO_PEG and
INFO_PRIV are accepted (R547). -/
def State.keyGo (s : State) (mid op : Nat) : State :=
  if s.on KEY_CMD_RESULT_BUSY then s
  else
    let s0 := (s.put KEY_CMD_RESULT_BUSY 1).irq 464 false
    let priv := decide (8 ≤ op)
    if !(keyOpAssigned op) then s0.keyEnd stBAD_OPCODE 0
    else if !(decide (mid = 0x40) || (!priv && decide (mid = 0x41))) then s0.keyEnd stNOT_PERMITTED 0
    else if s0.on KEY_STATE_ZEROIZED && !(decide (op = 4 ∨ op = 11 ∨ op = 3 ∨ op = 15)) then s0.keyEnd stZEROIZED 0
    else if decide (s0.life = lcRetired) && !(decide (op = 4 ∨ op = 11)) then s0.keyEnd stNOT_PERMITTED 0
    else
      s0.keyAttempt ⟨op, mid, s0.get KEY_CMD_SLOT_SLOT, (s0.rd KEY_CMD_ATTR).toNat, s0.get KEY_CMD_USERS_USERS,
        s0.get64 KEY_CMD_LIMIT_LO KEY_CMD_LIMIT_HI, s0.addr40 KEY_CMD_SRC_LO, s0.get KEY_CMD_SRC_LEN_LEN,
        s0.get KEY_CMD_AUX_SLOT, s0.clock⟩

/-- The rows of KEY_CMD: a master writes it with GO = 1 and the row's OP. -/
def execReservePeg (mid : Nat) (s : State) : Out := .next (s.keyGo mid 1)
/-- IMPORT_GKE. -/
def execImportGke (mid : Nat) (s : State) : Out := .next (s.keyGo mid 2)
/-- ERASE_PEG. -/
def execErasePeg (mid : Nat) (s : State) : Out := .next (s.keyGo mid 3)
/-- INFO_PEG. -/
def execInfoPeg (mid : Nat) (s : State) : Out := .next (s.keyGo mid 4)
/-- LOWER_LIMIT. -/
def execLowerLimit (mid : Nat) (s : State) : Out := .next (s.keyGo mid 5)
/-- DERIVE. -/
def execDerive (mid : Nat) (s : State) : Out := .next (s.keyGo mid 6)
/-- RESERVE_PRIV. -/
def execReservePriv (mid : Nat) (s : State) : Out := .next (s.keyGo mid 8)
/-- IMPORT_PRIV. -/
def execImportPriv (mid : Nat) (s : State) : Out := .next (s.keyGo mid 9)
/-- DESTROY_PRIV. -/
def execDestroyPriv (mid : Nat) (s : State) : Out := .next (s.keyGo mid 10)
/-- INFO_PRIV. -/
def execInfoPriv (mid : Nat) (s : State) : Out := .next (s.keyGo mid 11)
/-- REKEY_ROOT. -/
def execRekeyRoot (mid : Nat) (s : State) : Out := .next (s.keyGo mid 15)

/-- KEY_CMD_UNASSIGNED: an OP that names no command. -/
def execKeyCmdUnassigned (mid op : Nat) (s : State) : Out :=
  if keyOpAssigned (op % 16) then .next s else .next (s.keyGo mid (op % 16))

/-- KEY_CMD_TIMEOUT: a command still running after TIMEOUT_MS (R451). -/
def execKeyCmdTimeout (s : State) : Out :=
  match s.key.waiting with
  | none => .next s
  | some c => .next ((s.passTo (c.at_ + cyclesPerMs * s.get KEY_CTL_TIMEOUT_MS)).keyEnd stTIMEOUT 0)

/-- VAULT_COPY (R436): every valid record is copied once the Rosin array is READY; records of `bad` fail their
authentication (KEY_VAULT). Commands that waited for it go on. -/
def execVaultCopy (bad : List Nat) (s : State) : Out :=
  if s.get ROSIN_STATE_STATE = roReady ∧ s.on KEY_STATE_VAULT_READY = false then
    let s1 := bad.foldl (fun t i =>
      if t.get KEY_STATE_ROOT = 1 && (t.priv i).stored then
        (((t.setPriv i { t.priv i with st := .lost }).keyFaultSlot true i).raise SRC_KEY_VAULT 0)
      else t) s
    .next ((s1.put KEY_STATE_VAULT_READY 1).lmsBoot.keyRetry)
  else .next s

/-- PEG_BLOB_LOAD (R429, R430): a bus request for a slot that is not resident loads its blob, counted in
KEY_PEG_MISS. A blob that fails its tag, or whose line fails, makes the slot FAULTED. The load is held while the eviction it
needs is held (R82). -/
def execPegBlobLoad (i : Nat) (env : FabEnv) (u : State) : Out :=
  let s := u.disturb env
  let p := s.peg i
  if p.resident = false ∧ (p.st = .active ∨ p.st = .spent) ∧ s.pegRoom = true then
    let s1 := s.inc64 KEY_PEG_MISS_LO KEY_PEG_MISS_HI 1
    let a := blobAddr i
    let fail (t : State) : State := ((t.setPeg i { p with st := .faulted }).keyFaultSlot false i).raise SRC_KEY_BLOB 0
    match s1.dramRead a 64 with
    | (none, s2) => .next (fail s2).keyRetry
    | (some b, s2) =>
      if b ≠ s2.pegBlob i p then .next (fail s2).keyRetry
      else
        let s3 := s2.pegEvict
        let s4 : State := { s3 with key := { s3.key with useClock := s3.key.useClock + 1 } }
        .next (s4.setPeg i { p with resident := true, lastUse := s4.key.useClock }).keyRetry
  else .next s

/-- KEY_CMD_RESULT_READ. -/
def execKeyCmdResultRead (s : State) : Out := .next (s.clrIrq 464)
/-- KEY_FAULT_SLOT_READ. -/
def execKeyFaultSlotRead (s : State) : Out := .next (s.clrIrq 465)
/-- CER_STATE_READ. -/
def execCerStateRead (s : State) : Out := .next (s.clrIrq 466)

/-! ## Ceremonies (R443 to R448) -/

/-- Kinds of CER_CTL.KIND. -/
abbrev ckIn : Nat := 0
abbrev ckOut : Nat := 1
abbrev ckAuth : Nat := 2

/-- Bytes held in consecutive registers, byte 4k in bits 7:0 of word k. -/
def State.regBytes (s : State) (off : Nat) : Nat → Bytes
  | 0 => []
  | n + 1 => natToBytes 4 (s.rd off).toNat ++ s.regBytes (off + 4) n

/-- A ceremony starts with the staged values (R443). SHARE_OUT draws its secret and writes CER_CHECK, or waits for the
KEY port (R412, R413). -/
def State.cerStart (s : State) : State :=
  let kind := s.get CER_CTL_KIND
  let k := s.get CER_CTL_K
  let n := s.get CER_CTL_N
  let long := s.on CER_CTL_SECLEN64
  let target := s.get CER_TARGET_SLOT
  let busy := decide (s.get CER_STATE_STATE = 1 ∨ s.get CER_STATE_STATE = 2)
  if busy then s
  else if k < 2 ∨ n < k ∨ (long ∧ kind ≠ ckAuth ∧ (s.peg target).kalg ≠ kaSECRET) then s.raise SRC_KEY_CFG 0
  else
    let len := if long then 64 else 32
    if kind = ckOut ∧ s.entropyGone = true then (s.inc (ROSIN_UNAVAIL_COUNT 2)).cerPut 4 0 0 stENTROPY_UNAVAILABLE
    else
      let ready := decide (kind = ckOut) && s.canDraw 2
      let d := if ready then s.rosinTake 2 64 else ([], s)
      let c : Ceremony := ⟨kind, k, n, len, target, s.clock, s.regBytes (CER_ID 0) 4, s.regBytes (CER_CHECK 0) 4, [],
        d.1.take len⟩
      let s2 := ({ d.2 with key := { d.2.key with cer := some c } }).cerPut (if kind = ckOut then 2 else 1) 0 0 stOK
      if ready then
        s2.putWords (CER_CHECK 0) 4 ((Config.crypto cySha3_256 [c.id ++ c.secret] 32).take 16)
      else s2

/-- CER_CTL.ABORT (R447). -/
def State.cerAbort (s : State) : State := s.cerFail stABORTED

/-- A write of CER_CTL (Table 12-12): only Capo ring 0 starts or aborts a ceremony. -/
def State.cerCtlWrite (s : State) (mid : Nat) (v : Word32) : State :=
  let s1 := s.regStore CER_CTL v
  if mid ≠ 0x40 then s1
  else
    let s2 := if wordField v 30 30 = 1 then s1.cerAbort else s1
    if wordField v 31 31 = 1 ∧ s2.accepted CER_CTL_KIND v = wordField v 29 28 then s2.cerStart else s2

/-- SHARE_IN: a write of CER_CTL that starts one. -/
def execShareIn (mid : Nat) (v : Word32) (s : State) : Out :=
  if wordField v 31 31 = 1 ∧ wordField v 29 28 = ckIn then .next (s.cerCtlWrite mid v) else .next s
/-- SHARE_OUT: a write of CER_CTL that starts one. -/
def execShareOut (mid : Nat) (v : Word32) (s : State) : Out :=
  if wordField v 31 31 = 1 ∧ wordField v 29 28 = ckOut then .next (s.cerCtlWrite mid v) else .next s
/-- AUTHORISE: a write of CER_CTL that starts one. -/
def execAuthorise (mid : Nat) (v : Word32) (s : State) : Out :=
  if wordField v 31 31 = 1 ∧ wordField v 29 28 = ckAuth then .next (s.cerCtlWrite mid v) else .next s
/-- CER_ABORT: a write of CER_CTL with ABORT. -/
def execCerAbort (mid : Nat) (v : Word32) (s : State) : Out :=
  if wordField v 30 30 = 1 then .next (s.cerCtlWrite mid v) else .next s

/-- The secret of a ceremony installed in its target, and the ceremony COMPLETE; a target that is not RESERVED takes
no secret and the ceremony ends FAILED (log entry 19). -/
def State.cerInstall (s : State) (c : Ceremony) (secret : Bytes) (got inc_ : Nat) : State :=
  let p := s.peg c.target
  let s1 : State := { s with key := { s.key with cer := none } }
  if p.st ≠ .reserved then s1.cerPut 4 got inc_ stSTATE_INVALID
  else
    let key := if keyLen p.kalg = secret.length then secret else Config.crypto cyFit [secret] (keyLen p.kalg)
    (s1.pegInstall c.target key).cerPut 3 got inc_ stOK

/-- A refused step: LASTSTATUS, the ceremony goes on. -/
def State.cerRefuse (s : State) (st : Nat) : State :=
  s.cerPut (s.get CER_STATE_STATE) (s.get CER_STATE_GOT) (s.get CER_STATE_INCOMPLETE) st

/-- A share delivered in a SHARE_IN step (R445); the one that completes the secret is held while the installation's eviction
would be held (R82). -/
def State.cerShare (s : State) (c : Ceremony) (sh : Share) : State :=
  let got := s.get CER_STATE_GOT
  if sh.id ≠ c.id ∨ sh.k ≠ c.k ∨ sh.n ≠ c.n ∨ sh.seclen ≠ c.seclen ∨ sh.x < 1 ∨ c.n < sh.x ∨
      c.shares.any (fun t => decide (t.x = sh.x)) then s.cerRefuse stBAD_PARAM
  else
    let shares := c.shares ++ [sh]
    let got' := got ||| 2 ^ (sh.x - 1)
    let c' := { c with shares := shares }
    if shares.length < c.k then ({ s with key := { s.key with cer := some c' } }).cerPut 1 got' 0 stOK
    else
      let secret := Config.crypto cyCombine (shares.map (fun t => natToBytes 1 t.x ++ t.bytes)) c.seclen
      let chk := (Config.crypto cySha3_256 [c.id ++ secret] 32).take 16
      if chk = c.check then if s.pegRoom then s.cerInstall c' secret got' 0 else s
      else (s.cerPut 1 got' 0 stOK).cerFail stVERIFY_FAIL

/-- The removal of a card during a share write (R446, R583). -/
def State.cerRemoved (s : State) (i : Nat) : State :=
  let s0 := s.cardOff.cardErr 5
  let s1 := s0.cerPut (s.get CER_STATE_STATE) (s.get CER_STATE_GOT) (s.get CER_STATE_INCOMPLETE ||| 2 ^ (i - 1)) stABORTED
  (((s1.inc CARD_REMOVALS_COUNT).raise SRC_CARD_REMOVED_WRITE 0).evUnit 466 stABORTED)

/-- A ceremony step with the card present (R445, R446, R448, R582); the confirmation that installs is held while the
installation's eviction would be held (R82). -/
def State.cerStep (s : State) (mid index : Nat) (ans : CardAnswer) : State :=
  match s.key.cer with
  | none => s
  | some c =>
    if mid ≠ 0x40 ∨ (c.kind = ckOut ∧ c.secret.isEmpty = true) then s
    else if !(s.on CARD_STATUS_SESSION) || !(s.on CARD_STATUS_PINOK) then s.cerRefuse stNOT_PERMITTED
    else
      match ans with
      | .refused st => s.cerRefuse (listedStatus st)
      | .share id x k n len bs chk =>
        if c.kind = ckIn then s.cerShare c ⟨id, x, k, n, len, bs, chk⟩ else s
      | .present card =>
        if c.kind = ckAuth then
          if c.shares.any (fun t => decide (t.x = card)) then s.cerRefuse stBAD_PARAM
          else
            let shares := c.shares ++ [⟨[], card, c.k, c.n, 0, [], []⟩]
            let got := 2 ^ shares.length - 1
            if shares.length < c.k then
              ({ s with key := { s.key with cer := some { c with shares := shares } } }).cerPut 1 got 0 stOK
            else
              let s1 : State := { s with key := { s.key with
                cer := none, authUntil := s.clock + cyclesPerSec * s.get CER_AUTHWIN_S } }
              (s1.cerPut 3 got 0 stOK).put CER_AUTHWIN_AUTH 1
        else s
      | .confirmed =>
        if c.kind = ckOut ∧ 1 ≤ index ∧ index ≤ c.n then
          let got := s.get CER_STATE_GOT ||| 2 ^ (index - 1)
          let inc_ := s.get CER_STATE_INCOMPLETE
          if got = 2 ^ c.n - 1 then if s.pegRoom then s.cerInstall c c.secret got inc_ else s
          else s.cerPut 2 got inc_ stOK
        else if c.kind = ckOut then s.cerRefuse stBAD_PARAM
        else s
      | .removed => if c.kind = ckOut ∧ 1 ≤ index ∧ index ≤ c.n then s.cerRemoved index else s

/-- CER_STEP: a write of CER_STEP with GO and the answer of the card. -/
def execCerStep (mid index : Nat) (ans : CardAnswer) (s : State) : Out := .next (s.cerStep mid (index % 16) ans)

/-- CER_TIMEOUT: a ceremony that is not COMPLETE in time (R447). -/
def execCerTimeout (s : State) : Out :=
  match s.key.cer with
  | none => .next s
  | some c => .next ((s.passTo (c.startedAt + cyclesPerSec * s.get CER_TIMEOUT_S)).cerFail stTIMEOUT)

/-- AUTHWIN_EXPIRY (R448). -/
def execAuthwinExpiry (s : State) : Out :=
  if s.on CER_AUTHWIN_AUTH then .next ((s.passTo s.key.authUntil).put CER_AUTHWIN_AUTH 0) else .next s

end Sys2Proof.Machine
end

