-- ==== Sys2Proof/Machine/Jobs.lean ====
section
/-! DEFINITION. Job rings (R330 to R342): where they may lie, slots and completions, posting, stops, aborts,
configuration writes. -/

namespace Sys2Proof.Machine

/-- The ring's owner, base, window. -/
def State.ringOwner (s : State) (r : Nat) : Nat := s.get (rgMID r)
def State.ringAddr (s : State) (r : Nat) : Nat := s.addr40 (ringBase r) / 8 * 8
def State.winLo (s : State) (r : Nat) : Nat := s.addr40 (ringBase r + 0x14) / 64 * 64
def State.winHi (s : State) (r : Nat) : Nat := s.addr40 (ringBase r + 0x1C) / 64 * 64 + 63

/-- Whether `n` bytes of memory at an address lie where Table 9-2 allows for an owner. -/
def State.ownerMem (s : State) (owner a n : Nat) : Bool :=
  if owner < 0x40 then inCommon a n
  else if owner < 0x44 then s.inGen a n || inCommon a n || inCapo a n
  else s.inGen a n || s.inHost a n

/-- The owners Table 9-2 allows. -/
def ownerOk (mid : Nat) : Bool := decide (mid < 0x44) || decide (mid = 0x80)

/-- The USERS bit of a ring's owner (Table 12-2). -/
def userBit (mid : Nat) : Nat :=
  if mid < 0x20 then 5 else if mid < 0x40 then 4 else if mid < 0x44 then mid - 0x40 else 6

/-- The address of the slot of a count (R331, R333). -/
def State.slotAddr (s : State) (r count : Nat) : Nat :=
  s.ringAddr r + count % s.ringSize r * bufSpan (s.ringAddr r) 64

/-- The identity under which a ring's jobs reach memory: the cell's, or the DMA engine of the digest core (R57, R384). -/
def jobMid (r cell : Nat) : Nat := if r < 1024 then 0x50 + cell else 0x60 + (r - 1024)

/-- Little-endian words of a slot. -/
def wordsOf : Nat → Bytes → List Nat
  | 0, _ => []
  | n + 1, bs => bytesToNat (bs.take 4) :: wordsOf n (bs.drop 4)

/-- A slot fetched: its words, or none on a data error. -/
def State.fetchSlot (s : State) (mid r count : Nat) : Option (List Nat) × State :=
  let b := s.bufRead mid (s.slotAddr r count) 64
  (b.1.map (wordsOf 16), b.2)

/-- The words of a slot as they stand in memory. -/
def State.peekSlot (s : State) (r count : Nat) : List Nat :=
  wordsOf 16 (s.bufPeek (s.slotAddr r count) 64)

/-- JOB_LINE[k] (R342). -/
def State.jobLine (s : State) (k : Nat) : State :=
  s.irq (160 + k) ((List.range 1024).any (fun q =>
    s.on (rgINTEN q) && decide (s.get (rgIRQLINE q) = k) && s.on (rgIRQPEND q)))

/-- Interrupt lines of rings: JOB_LINE[k] (R342) or DIG_RING[k] (R384). -/
def State.ringLine (s : State) (r : Nat) : State :=
  if r < 1024 then s.jobLine (s.get (rgIRQLINE r))
  else s.irq (264 + (r - 1024)) (s.on (rgINTEN r) && s.on (rgIRQPEND r))

/-- The message of a vector, counted by its global number; a masked vector sets its pending bit instead (R290), and so
does one while no memory request passes to the host (R300; log entry 121). -/
def State.msiSend (s : State) (vec : Nat) : State :=
  if s.on (MSIX_VCTL_MASK vec) || !s.hostLink then
    s.put (MSIX_PBA_PEND (vec / 32)) (s.get (MSIX_PBA_PEND (vec / 32)) ||| 2 ^ (vec % 32))
  else { s with data := { s.data with msix := tset s.data.msix vec (tgetD s.data.msix vec 0 + 1) } }

/-- CONS moves past the leading slots whose completion is written (R333). -/
def State.advance (s : State) (r : Nat) : Nat → State
  | 0 => s
  | n + 1 =>
    let c := s.get (rgCONS r)
    let x := s.ring r
    if x.written.contains c then
      ((s.setRing r { x with written := x.written.filter (· ≠ c) }).put (rgCONS r) (cmod (c + 1))).advance r n
    else s

/-- The core of a digest ring is free once its job's completion is written (R385); an isolated one stays so. -/
def State.coreFree (s : State) (r : Nat) : State :=
  if r < 1024 then s
  else
    let s1 := s.putInflight r
    if s1.get (CORE_STATUS_STATE (r - 1024)) = 1 then s1.put (CORE_STATUS_STATE (r - 1024)) 0 else s1

/-- A completion written into its slot (R336, Table 9-5), CONS advanced, an IRQ job signalled (R342). -/
def State.writeCompletion (s : State) (c : Compl) : State :=
  let phase := if c.count / s.ringSize c.ring % 2 = 0 then 2 ^ 31 else 0
  let w13 := phase + (if c.ran then 2 ^ 28 else 0) + 2 ^ 24 * (if c.ran then c.cell else 0) + 2 ^ 16 * c.detail +
    c.order * 2 ^ 8 + c.status
  let a := s.slotAddr c.ring c.count
  let bs := natToBytes 4 w13 ++ natToBytes 4 c.outLen ++ natToBytes 4 c.result
  let s1 := (s.bufWrite (jobMid c.ring c.cell) (a + bufSpan a 52) bs).2
  let x := s1.ring c.ring
  let s2 := ((s1.setRing c.ring { x with written := c.count :: x.written }).advance c.ring 4097).coreFree c.ring
  if c.irq then
    let s3 := (s2.put (rgIRQPEND c.ring) 1).ringLine c.ring
    if s3.on (rgMSIEN c.ring) then s3.msiSend (s3.get (FN_VEC_VEC_BASE 0) + s3.get (rgVEC c.ring)) else s3
  else s2

/-- JOB_COMPLETION: the completion of a job that has ended is written (R336); those of a digest ring and of a ring with
SERIAL = 1 in slot order (R337, R384). -/
def execJobCompletion (r count : Nat) (s : State) : Out :=
  let inOrder := decide (1024 ≤ r) || s.on (rgSERIAL r)
  match s.jobs.ending.find? (fun c => decide (c.ring = r) && (inOrder || decide (c.count = count))) with
  | none => .next s
  | some c =>
    if c.count ≠ count then .next s else
    let s1 : State := { s with jobs := { s.jobs with ending := s.jobs.ending.filter (fun d => decide (d ≠ c)) } }
    .next (s1.writeCompletion c)

/-- A ring stops (R338). -/
def State.ringStop (s : State) (r err : Nat) : State :=
  let s1 := (s.put (rgSTOPPED r) 1).put (rgERR r) err
  if r < 1024 then
    ((((s1.put SOUND_ERR_CODE 1).put SOUND_ERR_RING r).setIrq 144).evUnitFree 144).settle
  else ((((s1.put DIG_ERR_CODE 1).put DIG_ERR_RING (r - 1024)).setIrq 272).evUnitFree 272).settle

/-- A write of JR_PROD (R334). -/
def State.prodWrite (s : State) (mid r p : Nat) : State :=
  if mid ≠ s.ringOwner r ∨ s.ringOwner r < 0x40 then s.inc SOUND_PRODIGN_COUNT
  else if !(s.on (rgEN r)) then s
  else
    let p' := s.get (rgPROD r)
    let c := s.get (rgCONS r)
    if 2 ^ 31 ≤ cdiff p p' then s.ringStop r 2
    else if s.ringSize r < cdiff p c then s.ringStop r 1
    else (if (s.ringHead r).isNone then s.headNow r else s).put (rgPROD r) (cmod p)

/-- JR_PROD_WRITE. -/
def execJrProdWrite (mid r : Nat) (v : Word32) (s : State) : Out :=
  if r < 1032 then .next (s.prodWrite mid r v.toNat) else .next s

/-- A committed JOBPUT (R335). The words of the block are four octets each. -/
def State.jobPost (s : State) (mid r : Nat) (desc : Bytes) : State :=
  let p := s.get (rgPROD r)
  if s.ringOwner r = mid && s.on (rgEN r) && !(s.on (rgSTOPPED r)) && decide (cdiff p (s.get (rgCONS r)) < s.ringSize r)
  then
    let a := s.slotAddr r p
    let bs := desc.take 52
    ((if (s.ringHead r).isNone then s.headNow r else s).bufStore a bs).put (rgPROD r) (cmod (p + 1))
  else s.inc (rgDROP r)

/-- Posted jobs of a ring without a completion written, in slot order. -/
def State.outstanding (s : State) (r : Nat) : List Nat :=
  let c := s.get (rgCONS r)
  ((List.range (cdiff (s.get (rgPROD r)) c)).map (fun i => cmod (c + i))).filter
    (fun k => !((s.ring r).written.contains k))

/-- A ring abort (R339): running jobs stop, every posted job that has no completion gets ABORTED, also one that has
finished (Table 9-11), EN becomes 0. -/
def State.ringAbort (s : State) (r : Nat) : State :=
  let mine (c : Compl) : Bool := decide (c.ring = r)
  let s1 := ((s.ringJobs r).foldl (fun t e => t.cellEnd e.1 stABORTED 0) s).endOver stABORTED mine
  let fin := s1.jobs.ending.filter mine
  let s2 : State := { s1 with jobs := { s1.jobs with ending := s1.jobs.ending.filter (fun c => !(mine c)) } }
  let s3 := (s2.outstanding r).foldl (fun t k =>
    match fin.find? (fun c => decide (c.count = k)) with
    | some c => t.writeCompletion { c with status := stABORTED, detail := 0, outLen := 0, result := 0 }
    | none => t.writeCompletion ⟨r, k, stABORTED, 0, 0, 0, false, 0, 0, bitOf ((t.peekSlot r k).getD 0 0) 17, none⟩) s2
  (s3.put (rgEN r) 0).putInflight r

/-- RING_ABORT: a write of JR_ABORT with GO by the owner's hand, or of EN = 0 with work outstanding (R339). -/
def execRingAbort (r : Nat) (s : State) : Out :=
  if r < 1032 ∧ s.on (rgEN r) = true then .next (s.ringAbort r) else .next s

/-- The checks of EN from 0 to 1 (R330, R331, R332): base aligned and, with the ring's whole extent and the data
window, where the owner's may lie. -/
def State.ringPlaced (s : State) (r : Nat) : Bool :=
  let o := s.ringOwner r
  let a := s.ringAddr r
  let n := bufSpan a 64 * s.ringSize r
  let lo := s.winLo r
  let hi := s.winHi r
  decide (a % (if wordMem a then 128 else 64) = 0) && s.ownerMem o a n && decide (lo ≤ hi) &&
    s.ownerMem o lo (hi + 1 - lo)

/-- The configuration fault source of a ring. -/
def ringCfgSource (r : Nat) : Nat := if r < 1024 then SRC_SOUND_CFG else SRC_DIG_CFG

/-- Whether an offset of the register set is one of those R340 guards. -/
def ringGuarded (off : Nat) : Bool :=
  decide (off < 0x10) || inRange off 0x14 0x20 || decide (off = 0x34)

/-- A write of JR_VEC or VE_VEC: MSIEN only with owner 0x80, VEC below the vectors of function 0 (Tables 9-17, 10-12). -/
def State.vecStore (s : State) (off : Nat) (v : Word32) (host : Bool) : State :=
  s.storeBut off v [(⟨off, 31, 31⟩, decide (wordField v 31 31 = 1) && !host),
    (⟨off, 10, 0⟩, decide (s.get (FN_VEC_VEC_COUNT 0) ≤ wordField v 10 0))]

/-- A write of JR_BASE, JR_CFG, JR_OWNER, JR_DWIN or JR_VEC (R330, R339, R340, R341). -/
def State.ringCfgWrite (s : State) (mid r off : Nat) (v : Word32) : State :=
  let b := ringBase r
  if s.on (rgEN r) then
    if off = 0x08 ∧ wordField v 31 31 = 0 then
      if (s.outstanding r).isEmpty then s.put (rgEN r) 0 else s.ringAbort r
    else s.put (rgCFGREJ r) 1
  else if off = 0x0C then
    let k := s.get (rgIRQLINE r)
    let s1 := s.storeBut (b + off) v [(rgMID r, !(ownerOk (wordField v 7 0)))]
    if r < 1024 then (s1.jobLine k).ringLine r else s1
  else if off = 0x34 then s.vecStore (b + off) v (decide (s.ringOwner r = 0x80))
  else if off = 0x08 then
    let v1 := if mid = 0x40 then v else wordSet v 29 29 (s.get (rgSECOUT r))
    let en := wordField v 31 31
    let s1 := s.regStore (b + off) (wordSet v1 31 31 0)
    if en = 0 then s1.ringLine r
    else if s1.ringPlaced r then
      ((((((s1.setRing r ⟨0, [], [], s1.clock⟩).put (rgPROD r) 0).put (rgCONS r) 0).put (rgSTOPPED r) 0).put (rgERR r) 0).put
        (rgIRQPEND r) 0 |>.ringLine r).put (rgEN r) 1
    else (s1.put (rgCFGREJ r) 1).raise (ringCfgSource r) 0
  else s.regStore (b + off) v

/-- JR_CFG_WRITE: a write of a configuration register of a ring at its offset in the set. -/
def execJrCfgWrite (mid r off : Nat) (v : Word32) (s : State) : Out :=
  if r < 1032 ∧ ringGuarded off then .next (s.ringCfgWrite mid r off v) else .next s

end Sys2Proof.Machine
end

