-- ==== Sys2Proof/Machine/Sound.lean ====
section
/-! DEFINITION. The Soundboard's cells: dispatch and its checks, the operations of Table 9-6, entropy of the cells,
clearing, known-answer tests, time limits (R324 to R329, R343 to R368). -/

namespace Sys2Proof.Machine

/-! ## The operations (Tables 9-6 to 9-8) -/

/-- What Table 9-6 and R355 say of an operation: its scheme; whether it takes no key, a key slot or a slot to fill;
which buffers and whether a secret output it has; whether it runs masked. -/
structure OpSpec where
  scheme : Nat
  key : Nat
  inA : Bool
  inB : Bool
  out : Bool
  secret : Bool
  masked : Bool
  deriving DecidableEq, Repr

/-- Key kinds of `OpSpec.key`. -/
abbrev kkNone : Nat := 0
abbrev kkUse : Nat := 1
abbrev kkFill : Nat := 2

/-- A key generation of a scheme. -/
def specKeygen (scheme : Nat) : OpSpec := ⟨scheme, kkFill, false, false, true, false, true⟩

/-- Table 9-6. -/
def opSpec (op : Nat) : Option OpSpec :=
  match op with
  | 0x01 => some (specKeygen scMLKEM)
  | 0x02 => some ⟨scMLKEM, kkNone, true, false, true, true, true⟩
  | 0x03 => some ⟨scMLKEM, kkUse, true, false, false, true, true⟩
  | 0x08 => some (specKeygen scMLDSA)
  | 0x09 => some ⟨scMLDSA, kkUse, true, true, true, false, true⟩
  | 0x0A => some ⟨scMLDSA, kkNone, true, true, false, false, false⟩
  | 0x10 => some (specKeygen scSLHDSA)
  | 0x11 => some ⟨scSLHDSA, kkUse, true, true, true, false, true⟩
  | 0x12 => some ⟨scSLHDSA, kkNone, true, true, false, false, false⟩
  | 0x18 => some (specKeygen scLMS)
  | 0x19 => some ⟨scLMS, kkUse, true, false, true, false, true⟩
  | 0x1A => some ⟨scLMS, kkNone, true, true, false, false, false⟩
  | 0x1B => some ⟨scLMS, kkUse, false, false, true, false, false⟩
  | 0x21 => some ⟨scMCE, kkNone, true, false, true, true, true⟩
  | 0x22 => some ⟨scMCE, kkUse, true, false, false, true, true⟩
  | 0x28 => some (specKeygen scHQC)
  | 0x29 => some ⟨scHQC, kkNone, true, false, true, true, true⟩
  | 0x2A => some ⟨scHQC, kkUse, true, false, false, true, true⟩
  | 0x30 => some (specKeygen scEC)
  | 0x31 => some ⟨scEC, kkUse, true, false, true, false, true⟩
  | 0x32 => some ⟨scEC, kkUse, true, false, false, true, true⟩
  | 0x34 => some (specKeygen scX25519)
  | 0x35 => some ⟨scX25519, kkUse, true, false, false, true, true⟩
  | 0x36 => some (specKeygen scED25519)
  | 0x37 => some ⟨scED25519, kkUse, true, false, true, false, true⟩
  | 0x38 => some ⟨scED25519, kkNone, true, true, false, false, false⟩
  | 0x3C => some ⟨16, kkUse, false, false, true, false, false⟩
  | 0x3D => some ⟨16, kkNone, false, false, true, false, false⟩
  | _ => none

/-- Whether a parameter set is assigned for an operation (Table 9-7). -/
def psetOk (op pset : Nat) : Bool :=
  if op = 0x19 ∨ op = 0x1A ∨ op = 0x1B ∨ op = 0x3C ∨ op = 0x3D then decide (pset = 0)
  else (opSpec op).elim false (fun o => (pubLen o.scheme pset).isSome)

/-- Ciphertext or signature bytes (Table 9-8). -/
def ctLen (scheme pset : Nat) : Nat :=
  if scheme = scMLKEM then [768, 1088, 1568].getD pset 0
  else if scheme = scMLDSA then [2420, 3309, 4627].getD pset 0
  else if scheme = scSLHDSA then [7856, 17088, 16224, 35664, 29792, 49856].getD (pset % 6) 0
  else if scheme = scMCE then 194
  else if scheme = scHQC then [4433, 8978, 14421].getD pset 0
  else if scheme = scEC then [64, 96].getD pset 0
  else 64

/-- Shared secret bytes (Table 9-8). -/
def secretLen (scheme pset : Nat) : Nat :=
  if scheme = scHQC then 64 else if scheme = scEC then [32, 48].getD pset 0 else 32

/-- The chains p of a Winternitz choice (Table 9-8). -/
def lmsChains (ots : Nat) : Nat := [265, 133, 67, 34].getD ots 0
/-- LMS signature bytes of a key's type. -/
def lmsSigLen (pset : Nat) : Nat := 44 + 32 * (lmsChains (pset / 16) + lmsHeight pset)

/-! ## The descriptor (Table 9-3) -/

def jw (w : List Nat) (i : Nat) : Nat := w.getD i 0
def jOp (w : List Nat) : Nat := jw w 0 / 2 ^ 24
def jPset (w : List Nat) : Nat := jw w 0 / 2 ^ 20 % 16
def jMask (w : List Nat) : Nat := jw w 0 / 2 ^ 18 % 4
def jIrq (w : List Nat) : Bool := bitOf (jw w 0) 17
def jShuf (w : List Nat) : Bool := bitOf (jw w 0) 16
def jKind (w : List Nat) : Nat := jw w 1 / 2 ^ 30
def jSlot (w : List Nat) : Nat := jw w 1 % 4096
def jDest (w : List Nat) : Bool := bitOf (jw w 11) 31
def jPeg (w : List Nat) : Nat := jw w 11 % 2 ^ 18
def jPrehashed (w : List Nat) : Bool := bitOf (jw w 12) 2
def jOts (w : List Nat) : Nat := jw w 12 % 4
/-- Buffers: word 2 IN_A, 5 IN_B, 8 OUT. -/
def jAddr (w : List Nat) (k : Nat) : Nat := jw w k + 2 ^ 32 * (jw w (k + 1) % 256)
def jLen (w : List Nat) (k : Nat) : Nat := jw w (k + 2) % 2 ^ 24

/-- Bytes a job writes to OUT; for RANDOM its capacity (R348, R349). `keyPset` is the set of the key it names. -/
def outNeed (op pset keyScheme keyPset : Nat) (dest : Bool) (cap : Nat) : Nat :=
  match opSpec op with
  | none => 0
  | some o =>
    let sec := if o.secret && !dest then secretLen o.scheme pset else 0
    if op = 0x3D then cap
    else if op = 0x1B then 16
    else if op = 0x19 then lmsSigLen keyPset
    else if op = 0x3C then (pubLen keyScheme (if keyScheme = scLMS then keyPset % 16 else keyPset)).getD 0
    else if o.key = kkFill then (pubLen o.scheme pset).getD 0
    else (if o.out then ctLen o.scheme pset else 0) + sec

/-- A field that must be zero is not, or KIND is refused (R343, R349, R352): a buffer the operation does not use has
length 0, and its address is ignored (R344). -/
def badField (w : List Nat) (o : OpSpec) : Bool :=
  decide (jKind w ≠ (if o.key = kkNone then 0 else 1)) || decide (jw w 1 / 2 ^ 12 % 2 ^ 18 ≠ 0) ||
    (decide (o.key = kkNone) && decide (jSlot w ≠ 0)) ||
    decide (256 ≤ jw w 3) || decide (256 ≤ jw w 6) || decide (256 ≤ jw w 9) ||
    (!o.inA && decide (jLen w 2 ≠ 0)) || (!o.inB && decide (jLen w 5 ≠ 0)) ||
    (!o.out && (!o.secret || jDest w) && decide (jLen w 8 ≠ 0)) ||
    decide (jw w 11 / 2 ^ 18 % 2 ^ 13 ≠ 0) || (!(o.secret && jDest w) && decide (jw w 11 ≠ 0)) ||
    decide (8 ≤ jw w 12) || (decide (jOp w ≠ 0x31) && jPrehashed w) || (decide (jOp w ≠ 0x18) && decide (jOts w ≠ 0)) ||
    (!o.masked && decide (jMask w ≠ 0))

/-- IN_A against R344 and R348. -/
def badLenA (w : List Nat) (o : OpSpec) : Bool :=
  let op := jOp w
  let n := jLen w 2
  let pk := (pubLen o.scheme (jPset w)).getD 0
  decide (2 ^ 24 ≤ jw w 4) ||
    (if op = 0x02 ∨ op = 0x21 ∨ op = 0x29 then decide (n ≠ pk)
    else if op = 0x03 ∨ op = 0x22 ∨ op = 0x2A then decide (n ≠ ctLen o.scheme (jPset w))
    else if op = 0x31 then jPrehashed w && decide (n ≠ secretLen scEC (jPset w))
    else if op = 0x32 ∨ op = 0x35 then decide (n ≠ pk)
    else false)

/-- The signature length that the types in an LMS public key give (log entry 20): LMS types 5 to 9, one-time types 1 to
4, big-endian. -/
def lmsTypesLen (b : Bytes) : Option Nat :=
  let t := bytesToNat ((b.take 4).reverse)
  let o := bytesToNat (((b.drop 4).take 4).reverse)
  if 5 ≤ t ∧ t ≤ 9 ∧ 1 ≤ o ∧ o ≤ 4 then some (lmsSigLen (16 * (o - 1) + (t - 5))) else none

/-- Whether a buffer lies where the ring allows (R332, Table 9-2). -/
def State.inWindow (s : State) (r a n : Nat) : Bool :=
  decide (n = 0) || (decide (s.winLo r ≤ a) && decide (a + bufSpan a n ≤ s.winHi r + 1) &&
    s.ownerMem (s.ringOwner r) a (bufSpan a n) && (!(wordMem a) || decide (a % 8 = 0)))

/-- IN_B against R344 and R348. -/
def State.badLenB (s : State) (r : Nat) (w : List Nat) (o : OpSpec) : Bool :=
  let op := jOp w
  let n := jLen w 5
  let fix := (pubLen o.scheme (jPset w)).getD 0 + ctLen o.scheme (jPset w)
  decide (2 ^ 24 ≤ jw w 7) ||
    (if op = 0x09 ∨ op = 0x11 then decide (255 < n)
    else if op = 0x0A ∨ op = 0x12 then decide (n < fix ∨ fix + 255 < n)
    else if op = 0x38 then decide (n ≠ 96)
    else if op = 0x1A then
      decide (n < 56) || (s.inWindow r (jAddr w 5) n &&
        decide (some n ≠ (lmsTypesLen (s.bufPeek (jAddr w 5) 8)).map (fun k => 56 + k)))
    else false)

/-- The masking order of a job (R355). -/
def State.jobOrder (s : State) (w : List Nat) (o : OpSpec) : Nat :=
  if !o.masked then 0
  else if o.key = kkUse then max (s.priv (jSlot w)).order (jMask w)
  else if jMask w = 0 then s.get SOUND_CTL_DEFORDER else jMask w

/-- Whether the key store accepts a secret for a Peg slot from a ring's owner (Table 12-1). -/
def State.pegAccepts (s : State) (i owner : Nat) : Bool :=
  let p := s.peg i
  decide (p.st = .reserved) && bitOf p.users (userBit owner) &&
    decide (p.kalg = kaSECRET ∨ p.kalg = kaAES256 ∨ p.kalg = kaHMAC32 ∨ p.kalg = kaKMAC)

/-- The private-key use an operation needs (Table 12-1); none for those that read only the public part or counts. -/
def keyUseBit (op : Nat) : Option Nat :=
  if op = 0x09 ∨ op = 0x11 ∨ op = 0x19 ∨ op = 0x31 ∨ op = 0x37 then some puSIGN
  else if op = 0x1B ∨ op = 0x3C then none
  else some puAGREE

/-- Step 6 of R352. -/
def State.keyCheck (s : State) (owner : Nat) (w : List Nat) (o : OpSpec) : Option Nat :=
  let slot := jSlot w
  let p := s.priv slot
  let st := s.privSt slot
  if o.key = kkNone then none
  else if o.key = kkFill then
    if st ≠ .reserved then some stSTATE_INVALID
    else if slot = 4090 ∧ (o.scheme ≠ scEC ∨ jPset w ≠ 0) then some stKEY_TYPE
    else if !(bitOf p.users (userBit owner)) then some stNOT_PERMITTED
    else none
  else if st ≠ .active then some stKEY_ABSENT
  else if jOp w = 0x3C then
    if p.scheme = scMCE then some stKEY_TYPE
    else if !(bitOf p.users (userBit owner)) then some stNOT_PERMITTED else none
  else if p.scheme ≠ o.scheme ∨ (o.scheme ≠ scLMS ∧ p.pset ≠ jPset w) then some stKEY_TYPE
  else if !(bitOf p.users (userBit owner)) || (keyUseBit (jOp w)).any (fun b => !(bitOf p.use b)) then
    some stNOT_PERMITTED
  else none

/-- The checks of R352 but the last: status, detail, OUTLEN of the first that fails. -/
def State.jobCheck (s : State) (r : Nat) (w : List Nat) : Option (Nat × Nat × Nat) :=
  match opSpec (jOp w) with
  | none => some (stBAD_OPCODE, 0, 0)
  | some o =>
    let p := s.priv (jSlot w)
    let owner := s.ringOwner r
    let need := outNeed (jOp w) (jPset w) p.scheme p.pset (jDest w) (jLen w 8)
    let keyed := decide (jOp w = 0x19 ∨ jOp w = 0x3C)
    let outBad := decide (2 ^ 24 ≤ jw w 10) ||
      (if jOp w = 0x3D then decide (jLen w 8 < 1 ∨ 65536 < jLen w 8)
      else decide (jLen w 8 < need) && !(keyed && decide (s.privSt (jSlot w) ≠ .active)))
    if badField w o then some (stBAD_PARAM, dtFIELD, 0)
    else if !(psetOk (jOp w) (jPset w)) then some (stBAD_PARAM, dtPSET, 0)
    else if jMask w = 3 then some (stBAD_PARAM, dtMASK, 0)
    else if badLenA w o then some (stBAD_LENGTH, dtIN_A, 0)
    else if s.badLenB r w o then some (stBAD_LENGTH, dtIN_B, 0)
    else if outBad then some (stBAD_LENGTH, dtOUT, if jOp w = 0x3D then max 1 (min 65536 (jLen w 8)) else need)
    else if !(s.inWindow r (jAddr w 2) (jLen w 2)) || !(s.inWindow r (jAddr w 5) (jLen w 5)) ||
        !(s.inWindow r (jAddr w 8) (jLen w 8)) then some (stBAD_PARAM, dtWINDOW, 0)
    else if o.secret && !(jDest w) && !(s.on (rgSECOUT r)) then some (stNOT_PERMITTED, dtSECOUT, 0)
    else if o.secret && jDest w && decide (secretLen o.scheme (jPset w) ≠ 32) then some (stBAD_PARAM, dtDEST, 0)
    else
      match s.keyCheck owner w o with
      | some st => some (st, dtKEY, 0)
      | none =>
        if o.secret && jDest w && !(s.pegAccepts (jPeg w) owner) then some (stNOT_PERMITTED, dtDEST, 0)
        else none

/-! ## Entropy of a job (Table 9-10) -/

/-- Bytes of algorithmic randomness, of shuffles and of masking at d = 1; an operation that is not listed takes the
row of the largest set listed for it (R361). ML-DSA signing, which repeats, has no bound: its row is a mean. -/
def entropyRow (op pset : Nat) : Option (Nat × Nat × Nat) :=
  match op with
  | 0x01 => some (if pset = 1 then (64, 256, 1536) else (64, 320, 2048))
  | 0x02 => some (if pset = 1 then (32, 256, 1024) else (32, 320, 1344))
  | 0x03 => some (if pset = 1 then (0, 384, 2560) else (0, 512, 3328))
  | 0x08 => some (if pset = 1 then (32, 512, 6144) else (32, 640, 8192))
  | 0x09 => none
  | 0x10 => some (96, 8192, 131072)
  | 0x11 => some (if pset % 6 = 0 then (16, 65536, 2097152) else if pset % 6 = 1 then (16, 4096, 98304)
      else if pset % 2 = 0 then (32, 131072, 4194304) else (32, 8192, 196608))
  | 0x18 => some (48, 0, 256 * 2 ^ lmsHeight pset)
  | 0x19 => some (0, 0, 4096)
  | 0x21 => some (32, 256, 512)
  | 0x22 => some (0, 2048, 16384)
  | 0x28 => some (64, 768, 6144)
  | 0x29 => some (if pset = 1 then (40, 512, 4096) else (48, 768, 6144))
  | 0x2A => some (if pset = 1 then (0, 512, 4096) else (0, 768, 6144))
  | 0x30 => some (64, 0, 384)
  | 0x31 => some (if pset = 0 then (48, 0, 256) else (64, 0, 384))
  | 0x32 => some (0, 0, 384)
  | 0x34 => some (32, 0, 128)
  | 0x35 => some (0, 0, 128)
  | 0x36 => some (32, 0, 192)
  | 0x37 => some (0, 0, 192)
  | _ => some (0, 0, 0)

/-- Whether a job may have drawn a number of bytes when it ends (R356, R361). -/
def entropyOk (w : List Nat) (order n : Nat) (done : Bool) : Bool :=
  if jOp w = 0x3D then if done then decide (n = jLen w 8) else decide (n ≤ jLen w 8)
  else
    match entropyRow (jOp w) (jPset w) with
    | none => true
    | some (a, sh, m) => decide (n ≤ a + (if jShuf w then 2 else 1) * sh + (if order = 2 then 3 else 1) * m)

/-- Whether a job needs entropy (R355, R363). -/
def needsEntropy (w : List Nat) : Bool :=
  decide (jOp w = 0x3D) || (opSpec (jOp w)).any (fun o => o.masked)

/-- The next index, taken in one action; none while a reservation has to complete. -/
def State.lmsTake (s : State) (slot : Nat) : Option Nat × State :=
  let p := s.priv slot
  if p.qn < p.rh then (some p.qn, ((s.setPriv slot { p with qn := p.qn + 1 }).lmsWarn slot).lmsLow slot)
  else (none, s.lmsLow slot)

/-! ## Dispatch (R351, R363) -/

/-- Whether a job has to wait in its ring: for entropy, unless it would end at once, or for the private-key slots. -/
def State.jobWaits (s : State) (w : List Nat) : Bool :=
  (needsEntropy w && decide (s.get SOUND_ENTSTATE_STATE ≠ 0) && !(s.entropyGone)) ||
    ((opSpec (jOp w)).any (fun o => decide (o.key ≠ kkNone)) && decide (s.get KEY_STATE_VAULT_READY = 0))

/-- Whether cell `n` considers a ring. -/
def State.ringOffers (s : State) (n r : Nat) : Bool :=
  s.on (rgEN r) && !(s.on (rgSTOPPED r)) && bitOf (s.get (rgCELLS r)) n &&
    !(s.on (rgSERIAL r) && decide (s.get (rgINFLIGHT r) ≠ 0)) &&
    (s.ringHead r).any (fun c => !(s.jobWaits (s.peekSlot r c)))

/-- Distance of a ring after the one last dispatched at its priority, in ascending order and wrapping around. -/
def State.ringDist (s : State) (r : Nat) : Nat :=
  (r + 1024 - (tgetD s.jobs.lastRing (s.get (rgPRIO r)) 1023 + 1) % 1024) % 1024

/-- The ring a cell takes: the highest priority, then the next in turn. -/
def State.ringChoice (s : State) (n : Nat) : Option Nat :=
  (List.range 1024).foldl (fun best r =>
    if s.ringOffers n r then
      match best with
      | none => some r
      | some b =>
        if s.get (rgPRIO b) < s.get (rgPRIO r) ∨
            (s.get (rgPRIO b) = s.get (rgPRIO r) ∧ s.ringDist r < s.ringDist b) then some r else some b
    else best) none

/-- A job as dispatched, before it has loaded anything. -/
def jobOf (r count : Nat) (w : List Nat) (at_ : Nat) : Job := ⟨r, count, w, at_, 0, [], 0, none, false, false, 0⟩

/-- A job on its cell (R351, R355): what it loads, its index, the slot it fills. -/
def State.jobStart (s : State) (n r count : Nat) (w : List Nat) (o : OpSpec) : State :=
  let slot := jSlot w
  let p := s.priv slot
  let order := s.jobOrder w o
  let put (t : State) (index : Option Nat) (waits : Bool) : State :=
    let j : Job := { jobOf r count w t.clock with
      order := order, key := if jOp w = 0x3C then p.pub else p.key, keyPset := p.pset, index := index, waitsIndex := waits
      entropy := needsEntropy w }
    let t1 : State := { t with jobs := { t.jobs with jobs := tset t.jobs.jobs n j } }
    ((((t1.put (CELL_STATUS_STATE n) 1).put (CELL_STATUS_RING n) r).put (CELL_STATUS_SLOT n) (count % t.ringSize r)).put
      SOUND_STATUS_BUSY (t1.get SOUND_STATUS_BUSY ||| 2 ^ n)).putInflight r
  if o.key = kkFill then
    put (s.setPriv slot { p with
      st := .generating, scheme := o.scheme, pset := if o.scheme = scLMS then 16 * jOts w + jPset w else jPset w
      order := order }) none false
  else if jOp w = 0x19 then
    if p.qn = 2 ^ lmsHeight p.pset then
      s.jobEnding ⟨r, count, stINDEX_EXHAUSTED, dtINDEX, 0, n, true, 0, 0, jIrq w, some (jobOf r count w s.clock)⟩
    else
      let t := s.lmsTake slot
      put t.2 t.1 t.1.isNone
  else put s none false

/-- CELL_DISPATCH: an IDLE cell takes a job (R351), its checks run (R352). A slot that cannot be read stops the ring
(R338). -/
def execCellDispatch (n : Nat) (err : Bool) (s : State) : Out :=
  if n < 16 ∧ s.get (CELL_STATUS_STATE n) = 0 ∧ s.jobs.katDue.contains n = false ∧ s.noDispatch = false then
    match s.ringChoice n with
    | none => .next s
    | some r =>
      match s.ringHead r with
      | none => .next s
      | some count =>
        let s1 : State := { s with jobs := { s.jobs with lastRing := tset s.jobs.lastRing (s.get (rgPRIO r)) r } }
        match s1.fetchSlot (0x50 + n) r count with
        | (none, s2) => .next (s2.ringStop r 3)
        | (some w, s2) =>
          if err then .next (s2.ringStop r 3)
          else
            let s3 := s2.ringPop r
            match s3.jobCheck r w with
            | some (st, det, len) => 
              .next (s3.jobEnding ⟨r, count, st, det, 0, n, true, len, 0, jIrq w, some (jobOf r count w s.clock)⟩)
            | none =>
              if needsEntropy w && s3.entropyGone then
                .next ((s3.inc (ROSIN_UNAVAIL_COUNT 3)).jobEnding
                  ⟨r, count, stENTROPY_UNAVAILABLE, dtENTROPY, 0, 0, false, 0, 0, jIrq w, none⟩)
              else
                match opSpec (jOp w) with
                | none => .next s3
                | some o => .next (s3.jobStart n r count w o)
  else .next s

/-! ## Running jobs (R347 to R353) -/

/-- Bytes drawn by a job from its cell's buffer (R362). -/
def State.cellDraw (s : State) (n used : Nat) : State :=
  { s.inc64 SOUND_ENT_LO SOUND_ENT_HI used with
    jobs := { s.jobs with fill := tset s.jobs.fill n (tgetD s.jobs.fill n 0 - used) } }

/-- A job's own end on its cell: the cell clears, the completion waits to be written. -/
def State.jobDone (s : State) (n : Nat) (j : Job) (st det outLen result : Nat) : State :=
  let s1 := if st = stOK then s else s.burn j
  let s2 := (s1.cellDrop n j.ring).inc64 (CELL_JOBS_LO n) (CELL_JOBS_HI n) 1
  s2.jobEnding ⟨j.ring, j.count, st, det, j.order, n, true, outLen, result, jIrq j.words, some j⟩

/-- A job ends on a data error (R329). -/
def State.jobMemFail (s : State) (n : Nat) : JobErr → State
  | .cell a => (s.sramUe 5 (0x7000000 + 0x40000 * n + a % 0x40000)).cellEnd n stABORTED dtMEMORY
  | _ => s.cellEnd n stABORTED dtMEMORY

/-- OUT written and the job ended. -/
def State.jobOut (s : State) (n : Nat) (j : Job) (bs : Bytes) (result : Nat) : State :=
  match s.bufWrite (jobMid j.ring n) (jAddr j.words 8) bs with
  | (true, s1) => s1.jobDone n j stOK 0 bs.length result
  | (false, s1) => s1.cellEnd n stABORTED dtMEMORY

/-- A job's secret goes where J11.DEST sends it (R349): `head` is what the operation writes to OUT before it. -/
def State.jobSecret (s : State) (n : Nat) (j : Job) (head secret : Bytes) : State :=
  if jDest j.words then
    let peg := jPeg j.words
    if s.pegAccepts peg (s.ringOwner j.ring) then
      if head.isEmpty then (s.pegInstall peg secret).jobDone n j stOK 0 0 0
      else (s.pegInstall peg secret).jobOut n j head 0
    else s.jobDone n j stNOT_PERMITTED dtDEST 0 0
  else s.jobOut n j (head ++ secret) 0

/-- Key generation's end (R350, R365, R433): the record is in the vault and the slot ACTIVE. -/
def State.jobKeygen (s : State) (n : Nat) (j : Job) : State :=
  let slot := jSlot j.words
  let p := s.priv slot
  if p.st ≠ .generating then s.jobDone n j stSTATE_INVALID dtKEY 0 0
  else
    let set := if p.scheme = scLMS then p.pset % 16 else p.pset
    let key := s.freeB (Config.privLen p.scheme set)
    let pub := Config.crypto cyJobPub [natToBytes 2 p.scheme, natToBytes 2 p.pset, key.1] ((pubLen p.scheme set).getD 0)
    let p' : Priv := { p with
      st := .active, pub := pub, key := key.1, stored := decide (slot ≠ 4090), root := key.2.key.rootKey.getD 0
      qn := 0, rh := if p.scheme = scLMS then min (s.get SOUND_LMS_RES_BLOCK) (2 ^ lmsHeight p.pset) else 0
      burnt := 0, reserving := false, warned := false }
    let t := key.2.setPriv slot p'
    (if p.scheme = scLMS then (t.lmsWarn slot).lmsLow slot else t).jobOut n j pub slot

/-- Inputs that name what an operation computes: operation, set, options, key, index, IN_A, IN_B. -/
def jobInputs (j : Job) (a b : Bytes) : List Bytes :=
  [natToBytes 2 (jOp j.words), natToBytes 2 (jPset j.words), natToBytes 4 (jw j.words 12), natToBytes 2 j.keyPset, j.key,
    natToBytes 4 (j.index.getD 0), a, b]

/-- The end of a job with its inputs read. A signature takes fresh randomness but for LMS and Ed25519, which take none
(R347, Table 9-10). -/
def State.jobResult (s : State) (n : Nat) (j : Job) (o : OpSpec) (a b : Bytes) : State :=
  let w := j.words
  let op := jOp w
  let ins := jobInputs j a b
  let slot := jSlot w
  if o.key = kkFill then s.jobKeygen n j
  else if op = 0x0A ∨ op = 0x12 ∨ op = 0x1A ∨ op = 0x38 then
    if Config.cryptoOk cyJobOk ins then s.jobDone n j stOK 0 0 0 else s.jobDone n j stVERIFY_FAIL 0 0 0
  else if (op = 0x02 ∧ mlkemKeyOk (jPset w) a = false) ∨ (op = 0x32 ∧ pointOk (builtIn (jPset w)) a = false) ∨
      (op = 0x35 ∧ (Config.crypto cyJobSecret ins 32).all (fun b => decide (b = 0)) = true) then
    s.jobDone n j stBAD_PARAM dtPUBKEY 0 0
  else if op = 0x3D then
    let r := s.freeB (jLen w 8)
    r.2.jobOut n j r.1 0
  else if op = 0x1B then
    let p := s.priv slot
    s.jobOut n j (natToBytes 4 p.qn ++ natToBytes 4 p.rh ++ natToBytes 4 (2 ^ lmsHeight p.pset) ++ natToBytes 4 p.burnt) 0
  else if op = 0x3C then s.jobOut n j j.key 0
  else if o.secret then
    if o.key = kkNone then
      let r := s.freeB 64
      let head := Config.crypto cyJob (r.1 :: ins) (ctLen o.scheme (jPset w))
      r.2.jobSecret n j head (Config.crypto cyJobSecret (r.1 :: ins) (secretLen o.scheme (jPset w)))
    else s.jobSecret n j [] (Config.crypto cyJobSecret ins (secretLen o.scheme (jPset w)))
  else if op = 0x19 then s.jobOut n j (Config.crypto cyJob ins (lmsSigLen j.keyPset)) (j.index.getD 0)
  else if op = 0x37 then s.jobOut n j (Config.crypto cyJob ins 64) 0
  else
    let r := s.freeB 64
    r.2.jobOut n j (Config.crypto cyJob (r.1 :: ins) (ctLen o.scheme (jPset w))) 0

/-- Whether a job's end waits: key generation while vault writes wait (R433, R452), a secret for a Peg slot while the
eviction it needs is held (R82, R429). -/
def State.endWaits (s : State) (w : List Nat) (o : OpSpec) : Bool :=
  (decide (o.key = kkFill) && decide (jSlot w ≠ 4090) && s.vaultHeld) || (o.secret && jDest w && !s.pegRoom)

/-- The job of operation `op` on cell `n` comes to its end, having drawn `used` bytes since the last refill; a data
error ends it with ABORTED (R329). -/
def State.jobRun (s : State) (op n used : Nat) (err : JobErr) : State :=
  match tget s.jobs.jobs n, opSpec op with
  | some j, some o =>
    let w := j.words
    if jOp w ≠ op ∨ s.get (CELL_STATUS_STATE n) ≠ 1 ∨ j.waitsIndex = true ∨ tgetD s.jobs.fill n 0 < used ∨ s.endWaits w o = true then s
    else if err ≠ .none then
      if entropyOk w j.order (j.drew + used) false then (s.cellDraw n used).jobMemFail n err else s
    else if !(entropyOk w j.order (j.drew + used) true) then s
    else
      let s1 := s.cellDraw n used
      match s1.bufRead (jobMid j.ring n) (jAddr w 2) (jLen w 2) with
      | (none, s2) => s2.jobMemFail n .buffer
      | (some a, s2) =>
        match s2.bufRead (jobMid j.ring n) (jAddr w 5) (jLen w 5) with
        | (none, s3) => s3.jobMemFail n .buffer
        | (some b, s3) => s3.jobResult n j o a b
  | _, _ => s

/-- MLKEM_KEYGEN. -/
def execMlkemKeygen (n used : Nat) (err : JobErr) (s : State) : Out := .next (s.jobRun 0x01 n used err)
/-- MLKEM_ENCAPS. -/
def execMlkemEncaps (n used : Nat) (err : JobErr) (s : State) : Out := .next (s.jobRun 0x02 n used err)
/-- MLKEM_DECAPS. -/
def execMlkemDecaps (n used : Nat) (err : JobErr) (s : State) : Out := .next (s.jobRun 0x03 n used err)
/-- MLDSA_KEYGEN. -/
def execMldsaKeygen (n used : Nat) (err : JobErr) (s : State) : Out := .next (s.jobRun 0x08 n used err)
/-- MLDSA_SIGN. -/
def execMldsaSign (n used : Nat) (err : JobErr) (s : State) : Out := .next (s.jobRun 0x09 n used err)
/-- MLDSA_VERIFY. -/
def execMldsaVerify (n used : Nat) (err : JobErr) (s : State) : Out := .next (s.jobRun 0x0A n used err)
/-- SLHDSA_KEYGEN. -/
def execSlhdsaKeygen (n used : Nat) (err : JobErr) (s : State) : Out := .next (s.jobRun 0x10 n used err)
/-- SLHDSA_SIGN. -/
def execSlhdsaSign (n used : Nat) (err : JobErr) (s : State) : Out := .next (s.jobRun 0x11 n used err)
/-- SLHDSA_VERIFY. -/
def execSlhdsaVerify (n used : Nat) (err : JobErr) (s : State) : Out := .next (s.jobRun 0x12 n used err)
/-- LMS_KEYGEN. -/
def execLmsKeygen (n used : Nat) (err : JobErr) (s : State) : Out := .next (s.jobRun 0x18 n used err)
/-- LMS_SIGN. -/
def execLmsSign (n used : Nat) (err : JobErr) (s : State) : Out := .next (s.jobRun 0x19 n used err)
/-- LMS_VERIFY. -/
def execLmsVerify (n used : Nat) (err : JobErr) (s : State) : Out := .next (s.jobRun 0x1A n used err)
/-- LMS_INFO. -/
def execLmsInfo (n used : Nat) (err : JobErr) (s : State) : Out := .next (s.jobRun 0x1B n used err)
/-- MCE_ENCAPS. -/
def execMceEncaps (n used : Nat) (err : JobErr) (s : State) : Out := .next (s.jobRun 0x21 n used err)
/-- MCE_DECAPS. -/
def execMceDecaps (n used : Nat) (err : JobErr) (s : State) : Out := .next (s.jobRun 0x22 n used err)
/-- HQC_KEYGEN. -/
def execHqcKeygen (n used : Nat) (err : JobErr) (s : State) : Out := .next (s.jobRun 0x28 n used err)
/-- HQC_ENCAPS. -/
def execHqcEncaps (n used : Nat) (err : JobErr) (s : State) : Out := .next (s.jobRun 0x29 n used err)
/-- HQC_DECAPS. -/
def execHqcDecaps (n used : Nat) (err : JobErr) (s : State) : Out := .next (s.jobRun 0x2A n used err)
/-- EC_KEYGEN. -/
def execEcKeygen (n used : Nat) (err : JobErr) (s : State) : Out := .next (s.jobRun 0x30 n used err)
/-- ECDSA_SIGN. -/
def execEcdsaSign (n used : Nat) (err : JobErr) (s : State) : Out := .next (s.jobRun 0x31 n used err)
/-- ECDH. -/
def execEcdh (n used : Nat) (err : JobErr) (s : State) : Out := .next (s.jobRun 0x32 n used err)
/-- X25519_KEYGEN. -/
def execX25519Keygen (n used : Nat) (err : JobErr) (s : State) : Out := .next (s.jobRun 0x34 n used err)
/-- X25519. -/
def execX25519 (n used : Nat) (err : JobErr) (s : State) : Out := .next (s.jobRun 0x35 n used err)
/-- ED25519_KEYGEN. -/
def execEd25519Keygen (n used : Nat) (err : JobErr) (s : State) : Out := .next (s.jobRun 0x36 n used err)
/-- ED25519_SIGN. -/
def execEd25519Sign (n used : Nat) (err : JobErr) (s : State) : Out := .next (s.jobRun 0x37 n used err)
/-- ED25519_VERIFY. -/
def execEd25519Verify (n used : Nat) (err : JobErr) (s : State) : Out := .next (s.jobRun 0x38 n used err)
/-- PUBEXPORT. -/
def execPubexport (n used : Nat) (err : JobErr) (s : State) : Out := .next (s.jobRun 0x3C n used err)
/-- RANDOM. -/
def execRandom (n used : Nat) (err : JobErr) (s : State) : Out := .next (s.jobRun 0x3D n used err)

/-! ## Entropy buffers, time limits -/

/-- Whether a cell's entropy buffer takes a refill (R362). -/
def State.cellTakes (s : State) (n : Nat) : Bool :=
  decide (tgetD s.jobs.fill n 0 + 64 ≤ 8192)

/-- The cell whose turn it is: the next one after the last refilled whose buffer is not full. -/
def State.cellTurn (s : State) : Option Nat :=
  ((List.range 16).map (fun i => (s.jobs.turn + 1 + i) % 16)).find? (fun n => s.cellTakes n)

/-- ENTROPY_REFILL: 64 bytes go to the cell whose turn it is. Its job has drawn `used` bytes before, and has stalled
for `stalled` cycles, which it can only with an empty buffer. -/
def execEntropyRefill (n used stalled : Nat) (s : State) : Out :=
  if s.jobs.grants = 0 then .next s
  else
    let fill := tgetD s.jobs.fill n 0
    let job := tget s.jobs.jobs n
    if job.any (fun j => j.entropy && entropyOk j.words j.order (j.drew + used) false) = false ∧ (used ≠ 0 ∨ stalled ≠ 0)
    then .next s
    else if fill < used ∨ (stalled ≠ 0 ∧ used < fill) then .next s
    else
      let s1 := s.cellDraw n used
      if s1.cellTurn ≠ some n then .next s
      else
        let s2 : State := { s1 with jobs := { s1.jobs with
          fill := tset s1.jobs.fill n (fill - used + 64), grants := s1.jobs.grants - 1, turn := n
          jobs := match job with
            | some j => tset s1.jobs.jobs n { j with drew := j.drew + used }
            | none => s1.jobs.jobs } }
        .next (s2.inc64 (CELL_STALL_LO n) (CELL_STALL_HI n) stalled)

/-- The cycle at which the wait timeout of a stop expires (R412). -/
def State.waitEnds (s : State) : Nat := s.rosin.stopAt + cyclesPerMs * s.get ROSIN_TIMEOUT_MS

/-- Whether delivery is stopped, and the wait timeout has a moment to run from. -/
def State.delivStopped (s : State) : Bool :=
  decide (s.get ROSIN_STATE_STATE = roStopped ∨ s.get ROSIN_STATE_STATE = roFailed)

/-- The cycle at which JR_TIMEOUT ends the wait of a ring's next job; none where it sets no limit (R354, R363). -/
def State.headDue (s : State) (r : Nat) : Option Nat :=
  let ms := s.get (rgTIMEOUT r)
  if ms = 0 then none else some ((s.ring r).headAt + cyclesPerMs * ms)

/-- The ring's next jobs that need entropy end with ENTROPY_UNAVAILABLE, in slot order; one whose JR_TIMEOUT has expired
before the wait timeout ends with TIMEOUT (R364). In a stopped ring only jobs that were returned to it. -/
def State.endStarved (s : State) (r : Nat) : Nat → State
  | 0 => s
  | k + 1 =>
    match s.ringHead r with
    | none => s
    | some c =>
      let w := s.peekSlot r c
      if needsEntropy w && (!(s.on (rgSTOPPED r)) || !((s.ring r).back.isEmpty)) then
        match (s.headDue r).filter (fun d => decide (d < s.waitEnds)) with
        | some d =>
          let s1 := (s.ringPop r).jobEnding ⟨r, c, stTIMEOUT, 0, 0, 0, false, 0, 0, jIrq w, none⟩
          (s1.setRing r { s1.ring r with headAt := d }).endStarved r k
        | none =>
          (((s.ringPop r).inc (ROSIN_UNAVAIL_COUNT 3)).jobEnding
            ⟨r, c, stENTROPY_UNAVAILABLE, dtENTROPY, 0, 0, false, 0, 0, jIrq w, none⟩).endStarved r k
      else s

/-- The wait timeout expires for the Soundboard: every job stopped or waiting for entropy ends, in ring and slot order
(R364). -/
def State.soundWaitEnd (s : State) : State :=
  let s1 := s.passTo s.waitEnds
  let s2 : State := { s1 with rosin := { s1.rosin with timedOut := true } }
  (List.range 1024).foldl (fun t r => if t.on (rgEN r) then t.endStarved r 4097 else t) s2

/-- ENTROPY_WAIT_TIMEOUT. -/
def execEntropyWaitTimeout (s : State) : Out := .next (if s.delivStopped then s.soundWaitEnd else s)

/-- Whether the head of a ring waits for something other than a free cell: entropy, the private-key slots, or a cell
of its mask that is not ISOLATED or OFFLINE (R363, R369, R436); on a digest ring an isolated core (R395). -/
def State.headStuck (s : State) (r c : Nat) : Bool :=
  if 1024 ≤ r then decide (s.get (CORE_STATUS_STATE (r - 1024)) = 5)
  else s.jobWaits (s.peekSlot r c) || (List.range 16).all (fun n =>
    !(bitOf (s.get (rgCELLS r)) n) || decide (4 ≤ s.get (CELL_STATUS_STATE n)))

/-- Whether the wait timeout of a stop ends a ring's next job no later than its JR_TIMEOUT at `due` (R364). -/
def State.waitFirst (s : State) (r c due : Nat) : Bool :=
  decide (r < 1024) && s.delivStopped && !s.rosin.timedOut && needsEntropy (s.peekSlot r c) && decide (s.waitEnds ≤ due)

/-- JOB_TIMEOUT: a job still running JR_TIMEOUT milliseconds after its dispatch (R354), or finished and without its
completion (Tables 9-11, 10-8); a job that waits as its ring's next under R363, R369 or R436 ends in the same way. -/
def execJobTimeout (r count : Nat) (s : State) : Out :=
  let ms := s.get (rgTIMEOUT r)
  let fin (c : Compl) : Bool := decide (c.ring = r ∧ c.count = count)
  if 1032 ≤ r ∨ ms = 0 then .next s
  else
    match (s.ringJobs r).find? (fun e => decide (e.2.count = count)) with
    | some (n, j) => .next ((s.passTo (j.at_ + cyclesPerMs * ms)).cellEnd n stTIMEOUT 0)
    | none =>
      match (s.jobs.ending.find? fin).bind (fun c => c.own) with
      | some j => .next ((s.passTo (j.at_ + cyclesPerMs * ms)).endOver stTIMEOUT fin)
      | none =>
        let due := (s.ring r).headAt + cyclesPerMs * ms
        if s.on (rgEN r) = true ∧ s.on (rgSTOPPED r) = false ∧ s.ringHead r = some count ∧ s.headStuck r count = true then
          if s.waitFirst r count due then .next s.soundWaitEnd
          else
            .next (((s.passTo due).ringPop r).jobEnding
              ⟨r, count, stTIMEOUT, 0, 0, 0, false, 0, 0, jIrq (s.peekSlot r count), none⟩)
        else .next s

/-! ## Clearing, tests, software's cell control -/

/-- CELL_CLEAR_DONE: the cell's memory is zero (R326); it is IDLE, or OFFLINE where software asked for it. An ISOLATED
cell stays so. -/
def execCellClearDone (n : Nat) (s : State) : Out :=
  let st := s.get (CELL_STATUS_STATE n)
  if n < 16 ∧ (st = 2 ∨ st = 5) then
    let s1 := s.sramClear (0x7000000 + 0x40000 * n) 0x40000
    if st = 5 then .next s1
    else .next (s1.put (CELL_STATUS_STATE n) (if s1.on (CELL_CTL_OFFLINE n) then 4 else 0)).keyRetry
  else .next s

/-- CELL_KAT_RUN: a cell's known-answer test, at module reset, on its way out of OFFLINE and every KATPERIOD seconds (R327,
R505, Table 9-1). On a BUSY cell the test falls due and waits; a cell that fails is ISOLATED. -/
def execCellKatRun (n : Nat) (pass : Bool) (s : State) : Out :=
  let st := s.get (CELL_STATUS_STATE n)
  let src := SRC_SOUND_KAT n
  let due := if st = 3 ∨ s.jobs.katDue.contains n then s.clock else s.katDueAt src (s.get SOUND_CTL_KATPERIOD)
  if 16 ≤ n then .next s
  else if st = 1 ∨ st = 2 then
    let s1 := s.passTo due
    .next { s1 with jobs := { s1.jobs with katDue := n :: s1.jobs.katDue.filter (· ≠ n) } }
  else if st = 0 ∨ st = 3 then
    let s0 := (s.passTo due).katRun src
    let s1 : State := { s0 with jobs := { s0.jobs with katDue := s0.jobs.katDue.filter (· ≠ n) } }
    let s2 := (s1.put (CELL_KAT_RUNS n) (s1.get (CELL_KAT_RUNS n) + 1)).putB (CELL_KAT_FAIL n) (!pass)
    if pass then .next (s2.put (CELL_STATUS_STATE n) 2)
    else
      .next ((((s2.put (CELL_STATUS_STATE n) 5).put SOUND_STATUS_ISOLATED
        (s2.get SOUND_STATUS_ISOLATED ||| 2 ^ n)).setIrq (128 + n)).raise src n |>.evUnitFree (128 + n)).settle
  else .next s

/-- A write of CELL_CTL (Table 9-1): an idle cell goes OFFLINE; a cell OFFLINE returns through KAT. -/
def State.cellCtlWrite (s : State) (n : Nat) (v : Word32) : State :=
  let s1 := s.regStore (CELL_CTL n) v
  let st := s1.get (CELL_STATUS_STATE n)
  if s1.on (CELL_CTL_OFFLINE n) then (if st = 0 then s1.put (CELL_STATUS_STATE n) 4 else s1)
  else if st = 4 then s1.put (CELL_STATUS_STATE n) 3 else s1

/-- CELL_OFFLINE_WRITE: a write of CELL_CTL. -/
def execCellOfflineWrite (n : Nat) (v : Word32) (s : State) : Out :=
  if n < 16 then .next (s.cellCtlWrite n v) else .next s

/-- CELL_STATUS_READ. -/
def execCellStatusRead (n : Nat) (s : State) : Out := if n < 16 then .next (s.clrIrq (128 + n)) else .next s
/-- SOUND_ERR_READ. -/
def execSoundErrRead (s : State) : Out := .next (s.clrIrq 144)
/-- SOUND_LMSWARN_SLOT_READ. -/
def execSoundLmswarnSlotRead (s : State) : Out := .next (s.clrIrq 145)

end Sys2Proof.Machine
end

