-- ==== Sys2Proof/Machine/Digest.lean ====
section
/-! DEFINITION. The digest engine: the jobs of its eight rings, wrapped states, keyed jobs, compares, the cores' tests
(R384 to R395). -/

namespace Sys2Proof.Machine

/-- Operations of Table 10-4. -/
abbrev doDIGEST : Nat := 0x01
abbrev doHMAC : Nat := 0x02
abbrev doKMAC : Nat := 0x03
abbrev doMEMCMP : Nat := 0x10

/-- Segments. -/
abbrev sgONE : Nat := 0
abbrev sgFIRST : Nat := 1
abbrev sgMIDDLE : Nat := 2
abbrev sgLAST : Nat := 3

def dAlg (w : List Nat) : Nat := jw w 0 / 2 ^ 20 % 16
def dSeg (w : List Nat) : Nat := jw w 0 / 2 ^ 18 % 4
def dCmp (w : List Nat) : Bool := bitOf (jw w 0) 16
def dPeg (w : List Nat) : Nat := jw w 1 % 2 ^ 18
def dTotal (w : List Nat) : Nat := 2 ^ 32 * (jw w 11 / 2 ^ 24) + jw w 12
def dOutreq (w : List Nat) : Nat := jw w 11 % 2 ^ 17

/-- Block bytes and output bytes of Table 10-5; none where the output is OUTREQ. -/
def algBlock (a : Nat) : Nat := [64, 128, 128, 136, 72, 168, 136, 168, 136].getD a 1
def algOut (a : Nat) : Option Nat := if a < 5 then [32, 48, 64, 32, 64][a]? else none

/-- Whether an operation takes an algorithm (Table 10-5). -/
def algOk (op a : Nat) : Bool :=
  if op = doDIGEST then decide (a ≤ 6) else if op = doHMAC then decide (a ≤ 2)
  else if op = doKMAC then decide (a = 7 ∨ a = 8) else decide (a = 0)

def dKeyed (w : List Nat) : Bool := decide (jOp w = doHMAC ∨ jOp w = doKMAC)
/-- Whether a job gives its result, and whether it exports a state. -/
def dFinal (w : List Nat) : Bool := decide (dSeg w = sgONE ∨ dSeg w = sgLAST)
/-- Output bytes of a job's result. -/
def dOut (w : List Nat) : Nat := (algOut (dAlg w)).getD (dOutreq w)

/-- Step 2 of R394. -/
def dBadField (w : List Nat) : Bool :=
  decide (2 ^ 18 ≤ jw w 1) || (!(dKeyed w) && decide (dPeg w ≠ 0)) ||
    decide (256 ≤ jw w 3) || decide (256 ≤ jw w 6) || decide (256 ≤ jw w 9) ||
    decide (jw w 11 / 2 ^ 17 % 2 ^ 7 ≠ 0) || !(algOk (jOp w) (dAlg w)) ||
    (decide (jOp w = doMEMCMP) && (dCmp w || decide (dSeg w ≠ sgONE)))

/-- The lengths that do not depend on an imported state (Table 10-6): the detail of the first buffer that breaks them,
and for OUT the bytes needed. -/
def dBadLen (w : List Nat) : Option (Nat × Nat) :=
  let op := jOp w
  let seg := dSeg w
  let a := jLen w 2
  let b := jLen w 5
  let out := jLen w 8
  let t := dTotal w
  let req := dOutreq w
  let xof := decide (5 ≤ dAlg w)
  let blk := algBlock (dAlg w)
  let aBad := decide (2 ^ 24 ≤ jw w 4) ||
    (if op = doMEMCMP then decide (a < 1 ∨ 4096 < a ∨ t ≠ 0)
    else if seg = sgONE then decide (t ≠ a)
    else if seg = sgFIRST then decide (a % blk ≠ 0 ∨ t < a)
    else if seg = sgMIDDLE then decide (t ≠ 0 ∨ a % blk ≠ 0)
    else decide (t ≠ 0))
  let bBad := decide (2 ^ 24 ≤ jw w 7) ||
    (if op = doMEMCMP then decide (b ≠ a)
    else if seg = sgMIDDLE ∨ seg = sgLAST then decide (b ≠ 312)
    else if op = doKMAC then decide (255 < b) else decide (b ≠ 0))
  let need := if op = doMEMCMP then 0 else if dFinal w then dOut w else 312
  let oBad := decide (2 ^ 24 ≤ jw w 10) ||
    (if op = doMEMCMP then decide (out ≠ 0 ∨ req ≠ 0)
    else if dFinal w then
      (if xof then decide (req < 1 ∨ 65536 < req) else decide (req ≠ 0)) ||
        (if dCmp w then
          decide (out < (if dKeyed w then 8 else 4) ∨ dOut w < out) || (xof && !(dKeyed w) && decide (req ≠ out))
        else decide (out < need))
    else dCmp w || decide (req ≠ 0) || decide (out < need))
  if aBad then some (dtIN_A, 0) else if bBad then some (dtIN_B, 0) else if oBad then some (dtOUT, need) else none

/-! ## Wrapped states (R389, R390) -/

/-- The authenticated header of a wrapped state (Table 10-7). -/
def stateHeader (op alg owner peg nonce total consumed : Nat) : Bytes :=
  natToBytes 2 1 ++ natToBytes 1 op ++ natToBytes 1 alg ++ natToBytes 1 owner ++ [0, 0, 0] ++ natToBytes 4 peg ++
    natToBytes 12 nonce ++ natToBytes 5 total ++ [0, 0, 0] ++ natToBytes 5 consumed ++ [0, 0, 0]

/-- T and C of a wrapped state. -/
def stateTotal (b : Bytes) : Nat := bytesToNat ((b.drop 24).take 5)
def stateConsumed (b : Bytes) : Nat := bytesToNat ((b.drop 32).take 5)

/-- The wrap key as an input of the seal. -/
def State.wrapIn (s : State) : Bytes := natToBytes 8 s.jobs.wrapKey

/-- Whether an import fails (R390). -/
def State.importBad (s : State) (r : Nat) (w : List Nat) (b : Bytes) : Bool :=
  !(Config.cryptoOk cyStateOk [s.wrapIn, b]) || decide (bytesToNat (b.take 2) ≠ 1) ||
    decide (bytesToNat ((b.drop 2).take 1) ≠ jOp w) || decide (bytesToNat ((b.drop 3).take 1) ≠ dAlg w) ||
    decide (bytesToNat ((b.drop 4).take 1) ≠ s.ringOwner r)

/-! ## The job -/

/-- What a digest job comes to before it computes: a status with detail and OUTLEN, or it goes on; or it waits for its
key slot's blob. -/
inductive DigGo where
  | stop (st det need : Nat)
  | go
  | wait
  deriving DecidableEq, Repr

/-- The key of a job (R390, R392, Table 12-1), and the use counted. -/
def State.dKey (s : State) (r : Nat) (w : List Nat) (state : Bytes) : DigGo × State :=
  if !(dKeyed w) then (.go, s)
  else
    let i := dPeg w
    let p := s.peg i
    let kalgOk := if jOp w = doHMAC then decide (p.kalg = kaHMAC16 ∨ p.kalg = kaHMAC32) else decide (p.kalg = kaKMAC)
    if p.st = .free ∨ p.st = .faulted then (.stop stKEY_ABSENT dtKEY 0, s)
    else if (p.st = .active ∨ p.st = .spent) ∧ !(s.pegHere i) then (.wait, s)
    else if (dSeg w = sgMIDDLE ∨ dSeg w = sgLAST) ∧ Config.cryptoOk cyStateKey [s.wrapIn, state, p.key] = false then
      (.stop stSTATE_INVALID dtKEY 0, s)
    else if (p.st ≠ .active ∧ p.st ≠ .spent) ∨ !kalgOk ∨ !(bitOf p.use useDIGEST) ∨
        !(bitOf p.users (userBit (s.ringOwner r))) then (.stop stNOT_PERMITTED dtKEY 0, s)
    else if dFinal w then
      match s.pegUse i with
      | (true, s1) => (.go, s1)
      | (false, s1) => (.stop stKEY_SPENT dtKEY 0, s1)
    else if p.limit ≤ p.count then (.stop stKEY_SPENT dtKEY 0, s.spentReport i)
    else (.go, s)

/-- A job of core `k` comes to its end; the core is BUSY with it until its completion is written (R385; log
entry 128). -/
def State.digDone (s : State) (k count : Nat) (w : List Nat) (st det outLen : Nat) : State :=
  let s1 := (s.inc64 (CORE_JOBS_LO k) (CORE_JOBS_HI k) 1).put (CORE_STATUS_SLOT k) (count % s.ringSize (1024 + k))
  ((s1.put (CORE_STATUS_STATE k) 1).jobEnding
    ⟨1024 + k, count, st, det, 0, k, true, outLen, 0, jIrq w, some (jobOf (1024 + k) count w s.clock)⟩).putInflight (1024 + k)

/-- Bytes written to OUT by core `k` and the job ended. -/
def State.digOut (s : State) (k count : Nat) (w : List Nat) (bs : Bytes) : State :=
  match s.bufWrite (0x60 + k) (jAddr w 8) bs with
  | (true, s1) => s1.digDone k count w stOK 0 bs.length
  | (false, s1) => s1.digDone k count w stABORTED dtMEMORY 0

/-- What a job computes (R387, R393): its result written, exported or compared. -/
def State.digResult (s : State) (k count : Nat) (w : List Nat) (a b : Bytes) : State :=
  let r := 1024 + k
  let key := if dKeyed w then (s.peg (dPeg w)).key else []
  let ins := [natToBytes 1 (jOp w), natToBytes 1 (dAlg w), natToBytes 4 (dOutreq w), key, b, a]
  if jOp w = doMEMCMP then
    s.digDone k count w (if a = b then stOK else stVERIFY_FAIL) 0 0
  else if !(dFinal w) then
    let n := s.get64 DIG_EXPORT_LO DIG_EXPORT_HI
    let total := if dSeg w = sgFIRST then dTotal w else stateTotal b
    let done := (if dSeg w = sgFIRST then 0 else stateConsumed b) + jLen w 2
    let hd := stateHeader (jOp w) (dAlg w) (s.ringOwner r) (if dKeyed w then dPeg w else 0) n total done
    let bs := hd ++ Config.crypto cyState (s.wrapIn :: hd :: ins) 272
    (s.inc64 DIG_EXPORT_LO DIG_EXPORT_HI 1).digOut k count w bs
  else
    let d := Config.crypto cyDigest ins (dOut w)
    if dCmp w then
      match s.bufRead (0x60 + k) (jAddr w 8) (jLen w 8) with
      | (none, s1) => s1.digDone k count w stABORTED dtMEMORY 0
      | (some e, s1) => s1.digDone k count w (if d.take (jLen w 8) = e then stOK else stVERIFY_FAIL) 0 0
    else s.digOut k count w d

/-- A job of core `k` runs from dispatch to end (R385, R394); none while it waits for its key slot's blob (R429). `err`: a
data error during it. -/
def State.digRun (s : State) (k count : Nat) (w : List Nat) (err : Bool) : Option State :=
  let r := 1024 + k
  let stop (t : State) (st det need : Nat) : Option State := some (t.digDone k count w st det need)
  if dBadField w then stop s stBAD_PARAM dtFIELD 0
  else
    match dBadLen w with
    | some (det, need) => stop s stBAD_LENGTH det need
    | none =>
      if !(s.inWindow r (jAddr w 2) (jLen w 2)) || !(s.inWindow r (jAddr w 5) (jLen w 5)) ||
          !(s.inWindow r (jAddr w 8) (jLen w 8)) then stop s stBAD_PARAM dtWINDOW 0
      else if dKeyed w && dFinal w && !(dCmp w) && !(s.on (rgSECOUT r)) then stop s stNOT_PERMITTED dtSECOUT 0
      else if err then stop s stABORTED dtMEMORY 0
      else
        match s.bufRead (0x60 + k) (jAddr w 5) (jLen w 5) with
        | (none, s1) => stop s1 stABORTED dtMEMORY 0
        | (some b, s1) =>
          let import_ := decide (dSeg w = sgMIDDLE ∨ dSeg w = sgLAST)
          let c := stateConsumed b + jLen w 2
          if import_ && s1.importBad r w b then stop s1 stSTATE_INVALID dtIN_B 0
          else if import_ && (if dSeg w = sgMIDDLE then decide (stateTotal b < c) else decide (c ≠ stateTotal b)) then
            stop s1 stBAD_LENGTH dtIN_A 0
          else
            match s1.dKey r w b with
            | (.stop st det need, s2) => stop s2 st det need
            | (.wait, _) => none
            | (.go, s2) =>
              match s2.bufRead (0x60 + k) (jAddr w 2) (jLen w 2) with
              | (none, s3) => stop s3 stABORTED dtMEMORY 0
              | (some a, s3) => some (s3.digResult k count w a b)

/-- Whether an OP of Table 10-4 is assigned. -/
def digOpAssigned (op : Nat) : Bool :=
  decide (op = doDIGEST ∨ op = doHMAC ∨ op = doKMAC ∨ op = doMEMCMP)

/-- Core `k`, IDLE, takes the earliest job of its ring when its OP is one of `ops` (R384): a slot that cannot be read
stops the ring. -/
def State.digTake (s : State) (k : Nat) (ops : Nat → Bool) (err : Bool) : State :=
  let r := 1024 + k
  if k < 8 ∧ s.get (CORE_STATUS_STATE k) = 0 ∧ s.on (rgEN r) = true ∧ s.on (rgSTOPPED r) = false ∧ s.noDispatch = false then
    match s.ringHead r with
    | none => s
    | some count =>
      if !(ops (jOp (s.peekSlot r count))) then s
      else
        match s.fetchSlot (0x60 + k) r count with
        | (none, s1) => s1.ringStop r 3
        | (some w, s1) =>
          let s2 := s1.ringPop r
          if digOpAssigned (jOp w) then ((s2.digRun k count w err).map State.settle).getD s
          else s2.digDone k count w stBAD_OPCODE 0 0
  else s

/-- DIGEST. -/
def execDigest (k : Nat) (err : Bool) (s : State) : Out := .next (s.digTake k (fun o => decide (o = doDIGEST)) err)
/-- HMAC. -/
def execHmac (k : Nat) (err : Bool) (s : State) : Out := .next (s.digTake k (fun o => decide (o = doHMAC)) err)
/-- KMAC. -/
def execKmac (k : Nat) (err : Bool) (s : State) : Out := .next (s.digTake k (fun o => decide (o = doKMAC)) err)
/-- MEMCMP. -/
def execMemcmp (k : Nat) (err : Bool) (s : State) : Out := .next (s.digTake k (fun o => decide (o = doMEMCMP)) err)
/-- DIGEST_OP_UNASSIGNED. -/
def execDigestOpUnassigned (k : Nat) (s : State) : Out := .next (s.digTake k (fun o => !(digOpAssigned o)) false)

/-- DIG_KAT_RUN: a core's known-answer test, at module reset and every 60 s while it is idle (R395, R505). -/
def execDigKatRun (k : Nat) (pass : Bool) (s : State) : Out :=
  let st := s.get (CORE_STATUS_STATE k)
  if k < 8 ∧ (st = 0 ∨ st = 3) then
    let src := SRC_DIG_KAT k
    let s1 := (if st = 3 then s else s.passTo (s.katDueAt src 60)).katRun src
    if pass then .next (s1.put (CORE_STATUS_STATE k) 0)
    else
      .next ((((s1.put (CORE_STATUS_STATE k) 5).put DIG_STATUS_ISOLATED (s1.get DIG_STATUS_ISOLATED ||| 2 ^ k)).setIrq
        (273 + k)).raise src k)
  else .next s

/-- DIG_ERR_READ. -/
def execDigErrRead (s : State) : Out := .next (s.clrIrq 272)

end Sys2Proof.Machine
end

