-- ==== Sys2Proof/Machine/Verify.lean ====
section
/-! DEFINITION. The verification engines: their commands and checks, curve slots, ends, ownership (R371 to R383). -/

namespace Sys2Proof.Machine

/-- Detail codes of R381. -/
abbrev dtRANGE : Nat := 0x10
abbrev dtSIGNATURE : Nat := 0x11
abbrev dtPADDING : Nat := 0x12
abbrev dtCURVE : Nat := 0x13

/-- Operations of Table 10-1. -/
def veAssigned (op : Nat) : Bool := decide (1 ≤ op ∧ op ≤ 5) || decide (op = 8 ∨ op = 9)

/-- Curve slot states. -/
abbrev cvEmpty : Nat := 0
abbrev cvLoading : Nat := 1
abbrev cvValid : Nat := 2
abbrev cvFailed : Nat := 3

/-- A result: status, detail, output. -/
abbrev VeRes := Nat × Nat × Bytes

/-- Fields of a written VE_CMD. -/
def vcOp (w : Word32) : Nat := wordField w 27 24
def vcPub (w : Word32) : Bool := decide (wordField w 30 30 = 1)
def vcCurve (w : Word32) : Nat := wordField w 22 20
def vcHash (w : Word32) : Nat := wordField w 17 16
def vcSlot (w : Word32) : Nat := wordField w 11 0
def vpSlen (p : Word32) : Nat := wordField p 25 19
def vpLen2 (p : Word32) : Nat := wordField p 18 10
def vpLen1 (p : Word32) : Nat := wordField p 9 0

/-- Step 2 of R381: a field of which Table 10-1 makes no use is not 0, or HASH is refused. -/
def veBadField (w p : Word32) : Bool :=
  let op := vcOp w
  let ec := decide (op = 1 ∨ op = 2)
  let rsa := decide (op = 3 ∨ op = 4)
  (!(ec || decide (op = 8 ∨ op = 9)) && decide (vcCurve w ≠ 0)) || (!rsa && decide (vcHash w ≠ 0)) ||
    (decide (op ≠ 4) && decide (vpSlen p ≠ 0)) || (!ec && vcPub w) || (!(ec && vcPub w) && decide (vcSlot w ≠ 0)) ||
    decide (vcHash w = 3)

/-- Step 3 of R381 (R378). -/
def State.veCurveBad (s : State) (e : Nat) (w : Word32) : Option (Nat × Nat) :=
  let op := vcOp w
  let st := s.get (VE_CURVE_STATE (vcCurve w))
  if op = 1 ∨ op = 2 then
    if st = cvLoading then some (stBUSY, 0)
    else if st = cvFailed then some (stCURVE_INVALID, dtCURVE)
    else if st = cvEmpty then some (stBAD_PARAM, dtCURVE)
    else none
  else if op = 8 ∨ op = 9 then
    let o := s.get (VE_OWNER_MID e)
    if (o ≠ 0x40 ∧ o ≠ 0x41) ∨ vcCurve w < 2 then some (stNOT_PERMITTED, 0)
    else if st = cvLoading then some (stBUSY, 0)
    else none
  else none

/-- Step 4 of R381: the detail of the buffer whose length breaks Table 10-1. -/
def State.veBadLen (s : State) (w p : Word32) (inLen outLen : Nat) : Option Nat :=
  let op := vcOp w
  let lp := ceilDiv (s.get (VE_CURVE_PBITS (vcCurve w))) 8
  let ln := ceilDiv (s.get (VE_CURVE_NBITS (vcCurve w))) 8
  let q := if vcPub w then 0 else 2 * lp
  let k := vpLen1 p
  let ex := vpLen2 p
  let rsa := decide (k < 128 ∨ 512 < k ∨ ex < 1 ∨ 32 < ex)
  let inBad :=
    if op = 1 then decide (inLen < q + 2 * ln + 1 ∨ q + 2 * ln + 64 < inLen)
    else if op = 2 then decide (inLen ≠ q)
    else if op = 3 ∨ op = 4 then
      rsa || decide (inLen ≠ 2 * k + ex + hashLen (vcHash w)) || (decide (op = 4) && decide (64 < vpSlen p))
    else if op = 5 then rsa || decide (inLen ≠ 2 * k + ex)
    else if op = 8 then decide (inLen ≠ 5 * k + ex + 1)
    else decide (inLen ≠ 0)
  let outBad := if op = 5 then decide (outLen < k) else decide (outLen ≠ 0)
  if inBad then some dtIN_A else if outBad then some dtOUT else none

/-- Whether a buffer of engine `e` lies where R373 allows. -/
def State.veInWindow (s : State) (e a n : Nat) : Bool :=
  let lo := s.addr40 (VE_DWIN_BASE_LO e) / 64 * 64
  let hi := s.addr40 (VE_DWIN_END_LO e) / 64 * 64 + 63
  let k := bufSpan a n
  decide (n = 0) || (decide (lo ≤ a) && decide (a + k ≤ hi + 1) &&
    (s.inGen a k || inCommon a k || inCapo a k || s.inHost a k) && (!(wordMem a) || decide (a % 8 = 0)))

/-- Step 6 of R381 (R377). -/
def State.veKeyBad (s : State) (w : Word32) : Option Nat :=
  if vcPub w then
    let p := s.priv (vcSlot w)
    if s.privSt (vcSlot w) ≠ .active then some stKEY_ABSENT
    else if p.scheme ≠ scEC ∨ p.pset ≠ vcCurve w ∨ 1 < vcCurve w then some stKEY_TYPE
    else none
  else none

/-- The checks of R381 for a command that reads `inLen` bytes at `inA` and writes to `outA`. -/
def State.veCheck (s : State) (e : Nat) (w p : Word32) (inA inLen outA outLen : Nat) : Option (Nat × Nat) :=
  if s.on (VE_STATUS_ISOLATED e) then some (stNOT_PERMITTED, 0)
  else if !(veAssigned (vcOp w)) then some (stBAD_OPCODE, 0)
  else if veBadField w p then some (stBAD_PARAM, dtFIELD)
  else
    match s.veCurveBad e w with
    | some r => some r
    | none =>
      match s.veBadLen w p inLen outLen with
      | some det => some (stBAD_LENGTH, det)
      | none =>
        if !(s.veInWindow e inA inLen) || !(s.veInWindow e outA outLen) then some (stBAD_PARAM, dtWINDOW)
        else (s.veKeyBad w).map (fun st => (st, dtKEY))

/-! ## Results (R375, R376, R378) -/

/-- An RSA operation on its input buffer (R375). -/
def rsaRun (w p : Word32) (b : Bytes) : VeRes :=
  let k := vpLen1 p
  let ex := vpLen2 p
  let n := beNat (b.take k)
  let e := beNat ((b.drop k).take ex)
  let x := beNat ((b.drop (k + ex)).take k)
  let m := modPow 256 x e n
  let digest := b.drop (2 * k + ex)
  if n % 2 = 0 ∨ bytesToNat (b.take 1) = 0 ∨ e % 2 = 0 ∨ e < 3 then (stBAD_PARAM, dtFIELD, [])
  else if vcOp w = 5 then if n ≤ x then (stBAD_PARAM, dtRANGE, []) else (stOK, 0, beBytes k m)
  else if n ≤ x then (stVERIFY_FAIL, dtRANGE, [])
  else if (if vcOp w = 3 then decide (beBytes k m = pkcs1 k (vcHash w) digest)
      else pssOk (vcHash w) (vpSlen p) (bitLen n) m digest) = true then (stOK, 0, [])
  else (stVERIFY_FAIL, dtPADDING, [])

/-- An operation on a curve (R376): `q` is the public point, `sig` r ‖ s ‖ digest. -/
def ecRun (w : Word32) (c : Curve) (q sig : Bytes) : VeRes :=
  if !(pointOk c q) then (stVERIFY_FAIL, dtPUBKEY, [])
  else if vcOp w = 2 then (stOK, 0, [])
  else if !(sigRange c sig) then (stVERIFY_FAIL, dtRANGE, [])
  else if ecdsaOk c q sig then (stOK, 0, [])
  else (stVERIFY_FAIL, dtSIGNATURE, [])

/-- The parameters of a curve in the layout of LOAD_CURVE's input buffer (Table 10-1). -/
def curveIn (lp ln : Nat) (b : Bytes) : Curve where
  p := beNat (b.take lp)
  a := beNat ((b.drop lp).take lp)
  b := beNat ((b.drop (2 * lp)).take lp)
  gx := beNat ((b.drop (3 * lp)).take lp)
  gy := beNat ((b.drop (4 * lp)).take lp)
  n := beNat ((b.drop (5 * lp)).take ln)
  h := beNat ((b.drop (5 * lp + ln)).take 1)

/-- The curve of a VALID slot. -/
def State.curve (s : State) (k : Nat) : Curve :=
  if k < 2 then builtIn k
  else curveIn (ceilDiv (s.get (VE_CURVE_PBITS k)) 8) (ceilDiv (s.get (VE_CURVE_NBITS k)) 8) (tgetD s.ve.curves k [])

/-- The first check of Table 10-2, which needs no bases. -/
def curvePForm (lp ln : Nat) (c : Curve) : Bool :=
  decide (c.p % 2 = 1) && decide (192 ≤ bitLen c.p ∧ bitLen c.p ≤ 521) && decide (lp = ceilDiv (bitLen c.p) 8) &&
    decide (20 ≤ ln ∧ ln ≤ 66)

/-- The checks of Table 10-2 in order: the code of the first that fails. `bases` are the bytes drawn for the prime
tests; that of n also wants its first byte non-zero. -/
def curveFails (lp ln : Nat) (c : Curve) (bases : Bytes) : Option Nat :=
  let t := if c.p + 1 ≤ c.h * c.n then c.h * c.n - (c.p + 1) else c.p + 1 - c.h * c.n
  if !(curvePForm lp ln c) then some 0x21
  else if !(Config.cryptoOk cyPrime [natToBytes lp c.p, bases]) then some 0x22
  else if c.p ≤ c.a ∨ c.p ≤ c.b then some 0x23
  else if (4 * c.a ^ 3 + 27 * c.b ^ 2) % c.p = 0 then some 0x24
  else if c.p ≤ c.gx ∨ c.p ≤ c.gy then some 0x25
  else if !(c.has c.gx c.gy) then some 0x26
  else if bitLen c.n < 160 ∨ c.n < 256 ^ (ln - 1) ∨ Config.cryptoOk cyPrime [natToBytes ln c.n, bases] = false then some 0x27
  else if c.h < 1 ∨ 4 < c.h ∨ 4 * c.p < t * t then some 0x28
  else if c.h * c.n = c.p then some 0x29
  else if (List.range 100).any (fun k => decide (modPow 8 (c.p % c.n) (k + 1) c.n = 1)) then some 0x2A
  else if (c.mul 528 c.n (some (c.gx, c.gy))).isSome then some 0x2B
  else none

/-! ## Commands -/

/-- A command's state. -/
def State.veCmd (s : State) (e : Nat) : Option VeCmd := tget s.ve.cmds e
def State.setVe (s : State) (e : Nat) (c : VeCmd) : State := { s with ve := { s.ve with cmds := tset s.ve.cmds e c } }

/-- A curve slot emptied. -/
def State.curveClear (s : State) (k : Nat) : State :=
  let s1 := (((s.put (VE_CURVE_STATE k) cvEmpty).put (VE_CURVE_DETAIL k) 0).put (VE_CURVE_NBITS k) 0).put
    (VE_CURVE_PBITS k) 0
  { s1 with ve := { s1.ve with curves := terase s1.ve.curves k } }

/-- A command begins (R374, R380, R381): the checks, the input's fetch, and the result the engine comes to. A failed check,
a data error and CLEAR_CURVE are decided at once; a LOAD_CURVE waits for its bases. -/
def State.veStart (s : State) (e : Nat) (v : Word32) : State :=
  let p := s.rd (VE_PARAM e)
  let inA := s.addr40 (VE_IN_LO e)
  let inLen := s.get (VE_IN_LEN_LEN e)
  let outA := s.addr40 (VE_OUT_LO e)
  let op := vcOp v
  let c : VeCmd := ⟨v, p, inA, inLen, outA, s.clock, [], none, false⟩
  let s1 := s.put (VE_STATUS_BUSY e) 1
  match s.veCheck e v p inA inLen outA (s.get (VE_OUT_LEN_LEN e)) with
  | some (st, det) => s1.setVe e { c with result := some (st, det, []), decided := true }
  | none =>
    match s1.bufRead (0x68 + e) inA inLen with
    | (none, s2) => s2.setVe e { c with result := some (stABORTED, dtMEMORY, []), decided := true }
    | (some b, s2) =>
      if op = 8 then
        let lp := vpLen1 p
        let s3 := (s2.put (VE_CURVE_STATE (vcCurve v)) cvLoading).put (VE_CURVE_DETAIL (vcCurve v)) 0
        let s4 := (s3.put (VE_CURVE_NBITS (vcCurve v)) 0).put (VE_CURVE_PBITS (vcCurve v)) 0
        if !(curvePForm lp (vpLen2 p) (curveIn lp (vpLen2 p) b)) then
          s4.setVe e { c with input := b, result := some (stCURVE_INVALID, 0x21, []) }
        else if s4.entropyGone then
          (s4.inc (ROSIN_UNAVAIL_COUNT 4)).setVe e { c with
            input := b, result := some (stENTROPY_UNAVAILABLE, dtENTROPY, []), decided := true }
        else s4.setVe e { c with input := b }
      else if op = 9 then
        (s2.curveClear (vcCurve v)).setVe e { c with result := some (stOK, 0, []), decided := true }
      else if op = 3 ∨ op = 4 ∨ op = 5 then s2.setVe e { c with result := some (rsaRun v p b) }
      else
        let cv := s2.curve (vcCurve v)
        let q := if vcPub v then (s2.priv (vcSlot v)).pub else b.take (2 * cv.lp)
        let sig := if vcPub v then b else b.drop (2 * cv.lp)
        s2.setVe e { c with result := some (ecRun v cv q sig) }

/-- A write of VE_CMD (R372, R374, R380). HASH = 3 is a refused value (Table 10-12): VE_CFG is raised, and the command ends
by step 2 of R381. -/
def State.veWrite (s : State) (e mid : Nat) (v : Word32) : State :=
  if mid ≠ s.get (VE_OWNER_MID e) then s.inc VE_IGN_COUNT
  else
    let go := decide (wordField v 31 31 = 1)
    if go && s.on (VE_STATUS_BUSY e) then s.put (VE_STATUS_REJ e) 1
    else
      let s1 := if vcHash v = 3 then s.raise SRC_VE_CFG 0 else s
      if go then s1.veStart e v else s1

/-- A command row: VE_CMD of engine `e` written by a master with an operation code. -/
def State.veRow (s : State) (e mid : Nat) (v : Word32) (ok : Bool) : Out :=
  if e < 4 ∧ wordField v 31 31 = 1 ∧ ok = true then .next (s.veWrite e mid v) else .next s

/-- ECDSA_VERIFY. -/
def execEcdsaVerify (e mid : Nat) (v : Word32) (s : State) : Out := s.veRow e mid v (decide (vcOp v = 1))
/-- POINT_VALIDATE. -/
def execPointValidate (e mid : Nat) (v : Word32) (s : State) : Out := s.veRow e mid v (decide (vcOp v = 2))
/-- RSA_PKCS1. -/
def execRsaPkcs1 (e mid : Nat) (v : Word32) (s : State) : Out := s.veRow e mid v (decide (vcOp v = 3))
/-- RSA_PSS. -/
def execRsaPss (e mid : Nat) (v : Word32) (s : State) : Out := s.veRow e mid v (decide (vcOp v = 4))
/-- RSA_PUBLIC. -/
def execRsaPublic (e mid : Nat) (v : Word32) (s : State) : Out := s.veRow e mid v (decide (vcOp v = 5))
/-- LOAD_CURVE. -/
def execLoadCurve (e mid : Nat) (v : Word32) (s : State) : Out := s.veRow e mid v (decide (vcOp v = 8))
/-- CLEAR_CURVE. -/
def execClearCurve (e mid : Nat) (v : Word32) (s : State) : Out := s.veRow e mid v (decide (vcOp v = 9))
/-- VE_OP_UNASSIGNED. -/
def execVeOpUnassigned (e mid : Nat) (v : Word32) (s : State) : Out := s.veRow e mid v (!(veAssigned (vcOp v)))

/-- The bases of a LOAD_CURVE have been drawn: its checks run (R378). -/
def State.veBases (s : State) (e : Nat) (bases : Bytes) : State :=
  match s.veCmd e with
  | none => s
  | some c =>
    let lp := vpLen1 c.param
    let ln := vpLen2 c.param
    let r : VeRes :=
      match curveFails lp ln (curveIn lp ln c.input) bases with
      | some d => (stCURVE_INVALID, d, [])
      | none => (stOK, 0, [])
    s.setVe e { c with result := some r }

/-- The engines whose LOAD_CURVE waits for bases, lowest first. -/
def State.veWaiting (s : State) : Option Nat :=
  (List.range 4).find? (fun e => (s.veCmd e).any (fun c => c.result.isNone && s.on (VE_STATUS_BUSY e)))

/-- What a command's end does to its curve slot (R378). A slot whose load was cut short is EMPTY or FAILED: the spec
does not say which (log entry 21). -/
def State.veCurveEnd (s : State) (c : VeCmd) (st det : Nat) : State :=
  let k := vcCurve c.word
  if vcOp c.word = 8 ∧ 2 ≤ k ∧ s.get (VE_CURVE_STATE k) = cvLoading ∧ c.input.isEmpty = false then
    if st = stOK then
      let ci := curveIn (vpLen1 c.param) (vpLen2 c.param) c.input
      let s1 := ((s.put (VE_CURVE_STATE k) cvValid).put (VE_CURVE_PBITS k) (bitLen ci.p)).put (VE_CURVE_NBITS k)
        (bitLen ci.n)
      { s1 with ve := { s1.ve with curves := tset s1.ve.curves k c.input } }
    else if st = stCURVE_INVALID then (s.put (VE_CURVE_STATE k) cvFailed).put (VE_CURVE_DETAIL k) det
    else
      let r := s.free
      r.2.put (VE_CURVE_STATE k) (if r.1 % 2 = 0 then cvEmpty else cvFailed)
  else s

/-- Whether a command given while nothing is dispatched waits (R526, R533). -/
def State.veHeld (s : State) (c : VeCmd) : Bool :=
  let since (d : Option Nat) : Bool := d.any (fun t => decide (t < c.at_))
  s.noDispatch && (since s.pwr.draining || since s.pwr.dipAt)

/-- VE_COMMAND_END: the operand memory is zero; output, STATUS and DETAIL are written, DONE is set (R380, R382). -/
def execVeCommandEnd (e : Nat) (s : State) : Out :=
  match s.veCmd e with
  | none => .next s
  | some c =>
    match c.result with
    | none => .next s
    | some (st, det, out) =>
      if s.veHeld c && decide (st ≠ stABORTED) then .next s else
      let s0 : State := { s with ve := { s.ve with cmds := terase s.ve.cmds e } }
      let w := s0.bufWrite (0x68 + e) c.outAddr out
      let st' := if w.1 then st else stABORTED
      let det' := if w.1 then det else dtMEMORY
      let s1 := (w.2.veCurveEnd c st' det').put (VE_STATUS_STATUS e) st'
      let s2 := ((s1.put (VE_STATUS_DETAIL e) det').put (VE_STATUS_BUSY e) 0).put (VE_STATUS_DONE e) 1
      let s3 := (s2.inc64 (VE_OPS_LO e) (VE_OPS_HI e) 1).setIrq (256 + e)
      if s3.get (VE_OWNER_MID e) = 0x80 ∧ s3.on (VE_VEC_MSIEN e) = true then
        .next (s3.msiSend (s3.get (FN_VEC_VEC_BASE 0) + s3.get (VE_VEC_VEC e)))
      else .next s3

/-- A running command stopped with a status; a result that is decided stands (R380). -/
def State.veStop (s : State) (e st : Nat) : State :=
  match s.veCmd e with
  | none => s
  | some c => if c.decided then s else s.setVe e { c with result := some (st, 0, []), decided := true }

/-- VE_TIMEOUT (R380). -/
def execVeTimeout (e : Nat) (s : State) : Out :=
  match s.veCmd e with
  | none => .next s
  | some c =>
    if s.get (VE_TIMEOUT_MS e) = 0 ∨ c.decided = true then .next s
    else .next ((s.passTo (c.at_ + cyclesPerMs * s.get (VE_TIMEOUT_MS e))).veStop e stTIMEOUT)

/-- A write of VE_ABORT (R372, R380). -/
def State.veAbortWrite (s : State) (e mid : Nat) (v : Word32) : State :=
  if mid ≠ s.get (VE_OWNER_MID e) then s.inc VE_IGN_COUNT
  else if wordField v 31 31 = 1 then s.veStop e stABORTED else s

/-- VE_ABORT: a write of VE_ABORT with GO = 1. -/
def execVeAbort (e mid : Nat) (s : State) : Out :=
  if e < 4 then .next (s.veAbortWrite e mid 0x80000000) else .next s

/-- A write of VE_OWNER or of a data window register (R372), at its offset in the engine's set. -/
def State.veOwnerWrite (s : State) (mid e off : Nat) (v : Word32) : State :=
  if mid ≠ 0x40 ∨ s.on (VE_STATUS_BUSY e) then s.put (VE_STATUS_REJ e) 1
  else if off = 0 ∧ !(decide (0x40 ≤ wordField v 7 0 ∧ wordField v 7 0 ≤ 0x43) || decide (wordField v 7 0 = 0x80)) then
    s.raise SRC_VE_CFG 0
  else s.regStore (VE_OWNER e + off) v

/-- VE_OWNER_WRITE. -/
def execVeOwnerWrite (mid e off : Nat) (v : Word32) (s : State) : Out :=
  if e < 4 ∧ (off = 0 ∨ off = 0x28 ∨ off = 0x2C ∨ off = 0x30 ∨ off = 0x34) then .next (s.veOwnerWrite mid e off v)
  else .next s

/-- A write of VE_PARAM, a buffer register or VE_VEC (R372, Table 10-12). -/
def State.veRegWrite (s : State) (mid e off : Nat) (v : Word32) : State :=
  if mid ≠ s.get (VE_OWNER_MID e) then s.inc VE_IGN_COUNT
  else if off = 0x40 then s.vecStore (VE_OWNER e + off) v (decide (s.get (VE_OWNER_MID e) = 0x80))
  else s.regStore (VE_OWNER e + off) v

/-- VE_KAT_RUN: an engine's known-answer test, at module reset and every 60 s while it is idle (R383, R505). -/
def execVeKatRun (e : Nat) (pass : Bool) (s : State) : Out :=
  if e < 4 ∧ s.on (VE_STATUS_BUSY e) = false then
    let src := SRC_VE_KAT e
    let s1 := (s.passTo (s.katDueAt src 60)).katRun src
    if pass then .next s1
    else .next (((s1.put (VE_STATUS_ISOLATED e) 1).setIrq (260 + e)).raise src e)
  else .next s

end Sys2Proof.Machine
end

