-- ==== Sys2Proof/Machine/Rosin.lean ====
section
/-! DEFINITION. The Rosin array: windows and their tests, conditioners, start-up, failures, grants to the ports, the pull
port (R397 to R417). -/

namespace Sys2Proof.Machine

/-! ## Tests of a window (R401, R403, R407) -/

/-- Bits packed eight to a byte in arrival order. -/
def packBits : Nat → List Bool → Bytes
  | 0, _ => []
  | n + 1, bs =>
    BitVec.ofNat 8 ((bs.take 8).foldr (fun b acc => 2 * acc + (if b then 1 else 0)) 0) :: packBits n (bs.drop 8)

/-- The repetition count test: whether a run reaches the cutoff, and the run at the end. -/
def rctRun (cut : Nat) : List Bool → (Bool × Nat) → Bool → Bool × (Bool × Nat)
  | [], r, f => (f, r)
  | b :: bs, (last, n), f =>
    let n' := if b = last then n + 1 else 1
    rctRun cut bs (b, n') (f || decide (cut ≤ n'))

/-- The adaptive proportion test of a window: its first bit's value occurs CUTOFF times or more. -/
def aptFails (cut : Nat) (bs : List Bool) : Bool :=
  match bs with
  | [] => false
  | b :: _ => decide (cut ≤ (bs.filter (fun c => decide (c = b))).length)

/-- Adaptive proportion tests over consecutive windows of 1,024 bits. -/
def aptAll (cut : Nat) : Nat → List Bool → Bool
  | 0, _ => false
  | n + 1, bs => aptFails cut (bs.take 1024) || aptAll cut n (bs.drop 1024)

/-- BIAS of a window. -/
def biasOf (bs : List Bool) : Int := 2 * ((bs.filter (fun b => b)).length : Int) - bs.length

/-- CORR(k) of a window whose stream carries 64 bits a sample period in cell order. -/
def corrOf (k : Nat) (bs : List Bool) : Int :=
  let later := bs.drop (64 * k)
  2 * (((bs.zip later).filter (fun p => decide (p.1 = p.2))).length : Int) - later.length

/-- A signed number as a register word. -/
def signed32 (i : Int) : Word32 := BitVec.ofInt 32 i

/-! ## READY and failures -/

/-- STATE becomes READY when the three conditions of R408 hold together. -/
def State.rosinReady (s : State) : State :=
  let st := s.get ROSIN_STATE_STATE
  if (st = roStartup ∨ st = roStopped) ∧ s.healthy.all (fun b => s.rosin.passed.contains b) = true then
    if s.healthy.length < s.get ROSIN_CTL_MINBANKS then s.rosinStop rcMinbanks 0 true
    else if 65536 ≤ s.rosin.reserve.length then
      { s with rosin := { s.rosin with timedOut := false } }.rosinPut roReady
    else s
  else s

/-- Failure reasons of BANKHEALTH[b].STATUS.LASTFAIL. -/
abbrev bfRct : Nat := 1
abbrev bfApt : Nat := 2
abbrev bfBias : Nat := 3
abbrev bfCorr : Nat := 4
abbrev bfTrim : Nat := 5
abbrev bfStartup : Nat := 6
abbrev bfSelftest : Nat := 7

/-- Banks that have failed in the interval of R409 that ends now. -/
def State.burstBanks (s : State) : List Nat :=
  banks.filter (fun b => (tgetD s.rosin.fails b []).any (fun c => decide (s.clock ≤ c + 1500 * s.get ROSIN_BURST_US)))

/-- The bank of the interval that failed first. -/
def State.burstFirst (s : State) : Nat :=
  (s.burstBanks.foldl (fun best b =>
    let c := ((tgetD s.rosin.fails b []).filter (fun c => decide (s.clock ≤ c + 1500 * s.get ROSIN_BURST_US))).foldl min s.clock
    if c < best.2 then (b, c) else best) (s.burstBanks.headD 0, s.clock)).1

/-- A burst stop (R409, R411): the RESTARTS-th within 10 s enters FAILED. -/
def State.burstStop (s : State) : State :=
  let recent := s.clock :: s.rosin.bursts.filter (fun c => decide (s.clock ≤ c + 10 * cyclesPerSec))
  let s1 : State := { s with rosin := { s.rosin with bursts := recent } }
  s1.rosinStop rcBurst s1.burstFirst (decide (s.get ROSIN_BURST_RESTARTS ≤ recent.length))

/-- A failure of a bank (R398, R402, R404): counted; the bank is retired at N within SEC seconds (R405); a burst
stops delivery (R409). -/
def State.bankFail (s : State) (b why : Nat) : State :=
  let keep := (tgetD s.rosin.fails b []).filter (fun c => decide (s.clock ≤ c + cyclesPerSec * s.get ROSIN_RETIRE_SEC))
  let fs := s.clock :: keep
  let s1 : State := { s with rosin := { s.rosin with fails := tset s.rosin.fails b fs } }
  let s2 := (s1.inc (BANK_FAILS_COUNT b)).put (BANK_STATUS_LASTFAIL b) why
  let s3 := if s2.get ROSIN_RETIRE_N ≤ fs.length then (s2.bankRetire b).minBanks rcMinbanks else s2
  if s3.get ROSIN_BURST_COUNT ≤ s3.burstBanks.length then s3.burstStop else s3

/-- A window's raw bytes to the bank's conditioner. -/
def State.condFeed (s : State) (b : Nat) (ws : List Bytes) : State :=
  { s with rosin := { s.rosin with cond := tset s.rosin.cond (b / 16) (tgetD s.rosin.cond (b / 16) [] ++ ws) } }

/-- Whether the array is powered and has not failed. -/
def State.rosinRuns (s : State) : Bool :=
  decide (s.get ROSIN_STATE_STATE ≠ roOff) && decide (s.get ROSIN_STATE_STATE ≠ roFailed)

/-- Windows of 1,024 bits as 128 bytes each. -/
def windowsOf : Nat → List Bool → List Bytes
  | 0, _ => []
  | n + 1, bs => packBits 128 (bs.take 1024) :: windowsOf n (bs.drop 1024)

/-! ## Thresholds of the window in progress (Table 11-3) -/

/-- Kinds of window: adaptive proportion with the run of R401, health, start-up. -/
abbrev wkApt : Nat := 0
abbrev wkHealth : Nat := 1
abbrev wkStart : Nat := 2

/-- The thresholds and cutoffs in the registers that a kind of window is judged by. -/
def State.limitsNow (s : State) (kind : Nat) : List Nat :=
  if kind = wkApt then [s.get ROSIN_RCT_CUTOFF, s.get ROSIN_APT_CUTOFF]
  else if kind = wkHealth then [s.get ROSIN_BIASMAX_MAX, s.get ROSIN_CORRMAX_MAX]
  else [s.get ROSIN_STARTMAX_MAX, s.get ROSIN_RCT_CUTOFF, s.get ROSIN_APT_CUTOFF]

/-- Those of a bank's window in progress. -/
def State.limits (s : State) (kind b : Nat) : List Nat := (tget s.rosin.limits (64 * kind + b)).getD (s.limitsNow kind)

/-- A write of a threshold or cutoff register leaves the windows in progress theirs. -/
def State.limitsHold (s : State) : State :=
  (List.range 192).foldl (fun t k =>
    { t with rosin := { t.rosin with limits := tset t.rosin.limits k (t.limits (k / 64) (k % 64)) } }) s

/-- A window has ended: the next one takes what the registers hold. -/
def State.limitsNext (s : State) (kind b : Nat) : State :=
  { s with rosin := { s.rosin with limits := terase s.rosin.limits (64 * kind + b) } }

/-- The repetition count test over a bank's stream goes on with these bits: whether a run reaches the cutoff. -/
def State.runOn (s : State) (b cut : Nat) (bits : List Bool) : Bool × State :=
  let r := rctRun cut bits (tgetD s.rosin.run b (false, 0)) false
  (r.1, { s with rosin := { s.rosin with run := tset s.rosin.run b r.2 } })

/-- Whether a start-up window passes but for the repetition count test (R407); `lim` are the limits of its kind. -/
def startupOk (lim : List Nat) (bits : List Bool) : Bool :=
  let m : Int := lim.getD 0 0
  !(aptAll (lim.getD 2 0) 8 bits) && decide (((biasOf bits).natAbs : Int) ≤ m) &&
    (List.range 8).all (fun k => decide (((corrOf (k + 1) bits).natAbs : Int) ≤ m))

/-- STARTUP_WINDOW_END: a bank's start-up window of 8,192 bits completes (R407). -/
def execStartupWindowEnd (b : Nat) (bits : List Bool) (s : State) : Out :=
  if b < 64 ∧ s.rosinRuns = true ∧ s.get (BANK_STATUS_STATE b) = 1 ∧ bits.length = 8192 then
    let lim := s.limits wkStart b
    let r := (s.limitsNext wkStart b).runOn b (lim.getD 1 0) bits
    if !r.1 && startupOk lim bits then
      let s1 : State := { r.2 with rosin := { r.2.rosin with passed := b :: r.2.rosin.passed.filter (· ≠ b) } }
      .next (((s1.condFeed b (windowsOf 8 bits)).put (BANK_STATUS_STATE b) 0).rosinReady).settle
    else
      let s1 := r.2.put (BANK_STATUS_LASTFAIL b) bfStartup
      if s1.rosin.failedOnce.contains b then .next (((s1.bankRetire b).minBanks rcMinbanks).rosinReady).settle
      else .next { s1 with rosin := { s1.rosin with failedOnce := b :: s1.rosin.failedOnce } }
  else .next s

/-- APT_WINDOW_END: a window of 1,024 bits completes; it passes into the conditioner, or is discarded and counts a
failure (R401, R402). -/
def execAptWindowEnd (b : Nat) (bits : List Bool) (s : State) : Out :=
  if b < 64 ∧ s.rosinRuns = true ∧ s.get (BANK_STATUS_STATE b) = 0 ∧ bits.length = 1024 then
    let lim := s.limits wkApt b
    let r := (s.limitsNext wkApt b).runOn b (lim.getD 0 0) bits
    if r.1 then .next (r.2.bankFail b bfRct).settle
    else if aptFails (lim.getD 1 0) bits then .next (r.2.bankFail b bfApt).settle
    else .next (r.2.condFeed b [packBits 128 bits])
  else .next s

/-- CORR of a window put into BANKHEALTH. -/
def State.putCorr (s : State) (b : Nat) (bits : List Bool) : State :=
  (List.range 8).foldl (fun t k => t.wr (BANK_CORR b k) (signed32 (corrOf (k + 1) bits))) s

/-- HEALTH_WINDOW_END: a health window of 65,536 bits completes (R403, R404). -/
def execHealthWindowEnd (b : Nat) (bits : List Bool) (s : State) : Out :=
  if b < 64 ∧ s.rosinRuns = true ∧ s.get (BANK_STATUS_STATE b) = 0 ∧ bits.length = 65536 then
    let lim := s.limits wkHealth b
    let s1 := (((s.limitsNext wkHealth b).wr (BANK_BIAS b) (signed32 (biasOf bits))).putCorr b bits).incWrap
      (BANK_WINDOWS_COUNT b)
    let trim := s1.on (BANK_STATUS_TRIMLIM b)
    let s2 := s1.put (BANK_STATUS_TRIMLIM b) 0
    if trim then .next s2
    else if lim.getD 0 0 < (biasOf bits).natAbs then .next (s2.bankFail b bfBias).settle
    else if (List.range 8).any (fun k => decide (lim.getD 1 0 < (corrOf (k + 1) bits).natAbs)) then
      .next (s2.bankFail b bfCorr).settle
    else .next s2
  else .next s

/-- TRIM_LIMIT: a cell's trim has stayed at an end of its range for more than 1 ms: its bank's current health window
fails, once (R398). -/
def execTrimLimit (b : Nat) (s : State) : Out :=
  if b < 64 ∧ s.rosinRuns = true ∧ s.get (BANK_STATUS_STATE b) = 0 ∧ s.on (BANK_STATUS_TRIMLIM b) = false then
    .next ((s.put (BANK_STATUS_TRIMLIM b) 1).bankFail b bfTrim).settle
  else .next s

/-- CONDITIONER_BLOCK: conditioner `c` turns 128 bytes of raw bits into 64 of the reserve (R399, R408). -/
def execConditionerBlock (c : Nat) (s : State) : Out :=
  if c < 4 ∧ s.rosinRuns = true ∧ s.on (ROSIN_COND_ISOLATED c) = false ∧ s.rosin.reserve.length < 65536 then
    match tgetD s.rosin.cond c [] with
    | [] => .next s
    | w :: ws =>
      let s1 : State := { s with rosin := { s.rosin with cond := tset s.rosin.cond c ws } }
      .next ((s1.putReserve (s1.rosin.reserve ++ Config.crypto cySha3_512 [w] 64)).rosinReady).settle
  else .next s

/-! ## Ports (R412 to R415) -/

/-- ROSIN_PULL with VALID (Table 11-4). -/
def State.pullValid (s : State) (v : Bool) : State := (s.putB ROSIN_PULL_CTL_VALID v).irq 450 v

/-- A pull that ends under R412. -/
def State.pullEnd (s : State) : State :=
  ((s.put ROSIN_PULL_CTL_PENDING 0).put ROSIN_PULL_CTL_STATUS stENTROPY_UNAVAILABLE).inc (ROSIN_UNAVAIL_COUNT 5)

/-- Whether the key store's command waits for entropy; whether a share-out ceremony does. -/
def State.keyDraws (s : State) : Bool := s.key.waiting.any (fun c => decide (c.op = 15))
def State.cerDraws (s : State) : Bool := s.key.cer.any (fun c => decide (c.kind = ckOut) && c.secret.isEmpty)

/-- A lifecycle command ends: BUSY 0, its status, source LIFE_DONE. -/
def State.lifeEnd (s : State) (st : Nat) : State :=
  let s1 : State := { s with lcs := { s.lcs with waiting := none } }
  ((s1.put LIFE_CMD_RESULT_BUSY 0).put LIFE_CMD_RESULT_STATUS st).setIrq 84

/-- Whether a DEBUG_CHALLENGE waits for entropy; its 32 bytes drawn on the KEY port (R548). -/
def State.lifeDraws (s : State) : Bool := s.lcs.waiting.any (fun c => decide (c.op = 4))
def State.lifeDraw (s : State) : State :=
  let r := s.rosinTake 2 64
  let s1 := r.2.putWords (LIFE_CHAL 0) 8 (r.1.take 32)
  ({ s1 with lcs := { s1.lcs with chalAt := some s1.clock } }).lifeEnd stOK

/-- ROSIN_WAIT_TIMEOUT: the wait timeout of a stop expires; every request waiting on ports 2, 4 and 5 ends (R412). -/
def execRosinWaitTimeout (s : State) : Out :=
  if s.delivStopped then
    let s1 := s.passTo s.waitEnds
    let s2 : State := { s1 with rosin := { s1.rosin with timedOut := true } }
    let s3 := if s2.keyDraws then (s2.inc (ROSIN_UNAVAIL_COUNT 2)).keyEnd stENTROPY_UNAVAILABLE dtENTROPY else s2
    let s4 := if s3.cerDraws then (s3.inc (ROSIN_UNAVAIL_COUNT 2)).cerFail stENTROPY_UNAVAILABLE else s3
    let s5 := (List.range 4).foldl (fun t e =>
      match t.veCmd e with
      | some c =>
        if c.result.isNone then (t.inc (ROSIN_UNAVAIL_COUNT 4)).setVe e { c with
          result := some (stENTROPY_UNAVAILABLE, dtENTROPY, []), decided := true } else t
      | none => t) s4
    let s6 := if s5.lifeDraws then (s5.inc (ROSIN_UNAVAIL_COUNT 2)).lifeEnd stENTROPY_UNAVAILABLE else s5
    .next (if s6.on ROSIN_PULL_CTL_PENDING then s6.pullEnd else s6)
  else .next s

/-- Whether a port of the weighted round has a request waiting. -/
def State.portWaits (s : State) (p : Nat) : Bool :=
  if p = 2 then s.keyDraws || s.cerDraws || s.lifeDraws
  else if p = 3 then (List.range 16).any (fun n => s.cellTakes n) && decide (s.jobs.grants < 16)
  else if p = 4 then s.veWaiting.isSome
  else s.on ROSIN_PULL_CTL_PENDING

/-- The port the weighted round serves next and the grants it may still have after this one (R413). -/
def State.portTurn (s : State) : Option (Nat × Nat) :=
  let ok (p : Nat) : Bool := s.portWaits p && s.canDraw p
  if ok s.rosin.port && decide (0 < s.rosin.left) then some (s.rosin.port, s.rosin.left - 1)
  else
    (((List.range 4).map (fun i => (s.rosin.port - 2 + 1 + i) % 4 + 2)).find? ok).map
      (fun p => (p, s.get (ROSIN_WEIGHT_WEIGHT p) - 1))

/-- A share-out ceremony that waits draws its secret (R446). -/
def State.cerDraw (s : State) : State :=
  match s.key.cer with
  | some c =>
    if s.cerDraws && s.canDraw 2 then
      let r := s.rosinTake 2 64
      let c' := { c with secret := r.1.take c.seclen }
      ({ r.2 with key := { r.2.key with cer := some c' } }).putWords (CER_CHECK 0) 4
        ((Config.crypto cySha3_256 [c'.id ++ c'.secret] 32).take 16)
    else s
  | none => s

/-- A grant to a port of the weighted rounds. -/
def State.portGrant (s : State) (p : Nat) : State :=
  match s.portTurn with
  | none => s
  | some (q, left) =>
    if p ≠ q then s
    else
      let s1 : State := { s with rosin := { s.rosin with port := q, left := left } }
      if q = 2 then if s1.keyDraws then s1.keyRetry else if s1.cerDraws then s1.cerDraw else s1.lifeDraw
      else if q = 3 then
        let r := s1.rosinTake 3 64
        { r.2 with jobs := { r.2.jobs with grants := r.2.jobs.grants + 1 } }
      else if q = 4 then
        match s1.veWaiting with
        | none => s
        | some e => let r := s1.rosinTake 4 64; r.2.veBases e r.1
      else
        let r := s1.rosinTake 5 64
        let s2 := r.2.putWords (ROSIN_PULL 0) 16 r.1
        let s3 : State := { s2 with rosin := { s2.rosin with pullRead := [] } }
        (s3.put ROSIN_PULL_CTL_PENDING 0).pullValid true

/-- 64 bytes to a port that waits: KEYLOAD first, the others in weighted rounds (R413, R414). -/
def State.entropyGrant (s : State) (p : Nat) : State :=
  if s.get ROSIN_STATE_STATE ≠ roReady then s
  else if s.rosin.keyload ≠ [] then if p = 0 then s.keyloadDraw else s
  else s.portGrant p

/-- A write of ROSIN_PULL_CTL with GO = 1 (R415). -/
def State.pullGo (s : State) (mid : Nat) : State :=
  if (mid ≠ 0x40 ∧ mid ≠ 0x41) ∨ s.on ROSIN_PULL_CTL_PENDING = true then s
  else
    let s1 := ((s.pullValid false).put ROSIN_PULL_CTL_STATUS stOK).put ROSIN_PULL_CTL_PENDING 1
    if s1.entropyGone then s1.pullEnd else s1

/-- ROSIN_PULL_GO: a write of ROSIN_PULL_CTL with GO = 1. -/
def execRosinPullGo (mid : Nat) (s : State) : Out := .next (s.pullGo mid)

/-- A read of ROSIN_PULL[k] (R415): its word for Capo rings 0 and 1, which then reads zero. -/
def State.pullRead (s : State) (mid k : Nat) : Word32 × State :=
  if mid ≠ 0x40 ∧ mid ≠ 0x41 then (0, s)
  else
    let s1 := s.wr (ROSIN_PULL k) 0
    let seen := k :: s1.rosin.pullRead.filter (· ≠ k)
    let s2 : State := { s1 with rosin := { s1.rosin with pullRead := seen } }
    (s.rd (ROSIN_PULL k), if s2.on ROSIN_PULL_CTL_VALID && decide (16 ≤ seen.length) then s2.pullValid false else s2)

/-- ROSIN_PULL_READ. -/
def execRosinPullRead (mid k : Nat) (s : State) : Out := if k < 16 then .next (s.pullRead mid k).2 else .next s

/-- ROSIN_STATE_READ. -/
def execRosinStateRead (s : State) : Out :=
  .next (({ s with rosin := { s.rosin with lastRead := s.get ROSIN_STATE_STATE } }).clrIrq 448)

/-- ROSIN_RETIRED_LO_READ. -/
def execRosinRetiredLoRead (s : State) : Out := .next (s.clrIrq 449)

end Sys2Proof.Machine
end

