-- ==== Sys2Proof/Machine/DieBase.lean ====
section
/-! DEFINITION. The Case die: regions and blocks, bytes of pages, spares, flags, the read cache window (R454 to R459,
R462, R466, R471), and the bytes of event records (R477). -/

namespace Sys2Proof.Machine

/-! ## Event records as bytes (Table 13-8) -/

/-- The 64 bytes of an event record. -/
def EvRec.bytes (r : EvRec) : Bytes :=
  let head := natToBytes 6 r.stamp.opTime ++ natToBytes 3 r.stamp.pwrCyc ++
    natToBytes 1 ((if r.stamp.taiValid then 1 else 0) + (if r.lostBefore then 2 else 0) + (if r.pad then 4 else 0)) ++
    natToBytes 2 (if r.pad then 0xFFFF else r.source) ++ natToBytes 2 r.code ++ natToBytes 1 r.status ++
    natToBytes 1 r.origin ++ natToBytes 6 r.stamp.taiSec ++ natToBytes 4 r.stamp.taiNs ++ natToBytes 4 r.seq
  head ++ natToBytes 2 (crc16 (head ++ payload32 r.payload)) ++ payload32 r.payload

/-- Records in a block of EVRING, and in all of it (R454, R481). -/
abbrev ringBlockRecs : Nat := 8192
abbrev ringRecs : Nat := 278528

/-! ## Regions (Tables 13-1, 13-14) -/

/-- What holds for a block: its region (0 to 8), its mode, its shield, its unit in bytes, the rings that may read and
write it. -/
structure CaseZone where
  region : Nat
  slc : Bool
  shield : Bool
  unit_ : Nat
  readRings : Nat
  writeRings : Nat
  deriving DecidableEq, Repr

/-- The zone of a logical block; none for SPARE and for blocks of GENERAL that lie in no enabled subregion. -/
def State.caseZone (s : State) (b : Nat) : Option CaseZone :=
  if b < 192 then
    ((List.range 7).find? (fun r => decide (s.get (CASE_REGION_RANGE_FIRST r) ≤ b) &&
      decide (b < s.get (CASE_REGION_RANGE_FIRST r) + s.get (CASE_REGION_RANGE_COUNT r)))).map (fun r =>
        ⟨r, s.on (CASE_REGION_MODE_SLC r), s.on (CASE_REGION_MODE_SHIELD r), 2 ^ s.get (CASE_REGION_MODE_UNIT r),
          s.get (CASE_REGION_RINGS_READ r), s.get (CASE_REGION_RINGS_WRITE r)⟩)
  else if b < 208 then none
  else
    ((List.range 8).find? (fun k => s.on (CASE_GEN_RANGE_EN k) && decide (s.get (CASE_GEN_RANGE_FIRST k) ≤ b) &&
      decide (b < s.get (CASE_GEN_RANGE_FIRST k) + s.get (CASE_GEN_RANGE_COUNT k)))).map (fun k =>
        ⟨8, s.on (CASE_GEN_MODE_SLC k), s.on (CASE_GEN_MODE_SHIELD k), 2 ^ s.get (CASE_GEN_MODE_UNIT k),
          s.get (CASE_GEN_RINGS_READ k), s.get (CASE_GEN_RINGS_WRITE k)⟩)

/-- Units of a page. -/
def CaseZone.perPage (z : CaseZone) : Nat := 4096 / z.unit_

/-! ## Blocks -/

/-- An erased block. -/
def CaseBlk.empty : CaseBlk := ⟨0, 0, 0, false, false, 0⟩

def State.blk (s : State) (b : Nat) : CaseBlk := tgetD s.die.blocks b CaseBlk.empty
def State.setBlk (s : State) (b : Nat) (x : CaseBlk) : State :=
  { s with die := { s.die with blocks := tsetD CaseBlk.empty s.die.blocks b x } }

/-- The place of a byte of a block among the cells of the die. -/
def dieAddr (b off : Nat) : Nat := b * 2 ^ 20 + off

/-- The bytes of a place of EVRING: erased where nothing is written. -/
def State.ringBytes (s : State) (p : Nat) : Bytes :=
  match tget s.ev.ring p with
  | some r => r.bytes
  | none => List.replicate 64 0xFF

/-- Bytes of a page from its start; an erased byte reads 0xFF. The pages of EVRING hold the event records. -/
def State.pageRead (s : State) (b page n : Nat) : Bytes :=
  if 14 ≤ b ∧ b < 48 then
    ((List.range 64).flatMap (fun i => s.ringBytes ((b - 14) * ringBlockRecs + page * 64 + i))).take n
  else (List.range n).map (fun i => tgetD s.die.cells (dieAddr b (4096 * page + i)) 0xFF)

/-- Bytes put into the cells of the die at consecutive places. -/
def dieCells (m : List Host.Cell) (a : Nat) : Bytes → List Host.Cell
  | [] => m
  | x :: xs => dieCells (tsetD 0xFF m a x) (a + 1) xs

/-- Bytes programmed at an offset of a block, which stands at `next` units afterwards; the operating time of the oldest
page is kept. -/
def State.blkProgram (s : State) (b off next : Nat) (bs : Bytes) : State :=
  let x := s.blk b
  ({ s with die := { s.die with cells := dieCells s.die.cells (dieAddr b off) bs } }).setBlk b
    { x with next := next, since := if x.next = 0 then s.time.opTime else x.since }

/-- A block erased: its cells, its retry start, its flag; the erase is counted. -/
def State.blkErase (s : State) (b : Nat) : State :=
  let x := s.blk b
  let s1 : State := { s with
    die := { s.die with cells := s.die.cells.filter (fun c => decide (c.1 < dieAddr b 0 ∨ dieAddr (b + 1) 0 ≤ c.1)) }
    ev := { s.ev with ring := if 14 ≤ b ∧ b < 48 then s.ev.ring.filter (fun e =>
      decide (e.1 < (b - 14) * ringBlockRecs ∨ (b - 13) * ringBlockRecs ≤ e.1)) else s.ev.ring } }
  s1.setBlk b { CaseBlk.empty with erases := x.erases + 1 }

/-- The first logical block of an image slot (Table 13-1). -/
def slotBlock (slot : Nat) : Nat := if slot = 0 then 176 else 184

/-- The pages of a block in the window of the running slot leave the read cache. -/
def State.cacheDrop (s : State) (b : Nat) : State :=
  let f := slotBlock (s.get CASE_XIP_SLOT)
  if f ≤ b ∧ b < f + 8 then
    { s with die := { s.die with
      cache := s.die.cache.filter (fun p => decide (p / 256 ≠ b - f))
      badPages := s.die.badPages.filter (fun p => decide (p / 256 ≠ b - f)) } }
  else s

/-! ## Spares, retired blocks (R462) -/

/-- Spares left, as the registers show them. -/
def State.putSpares (s : State) (l : List (Nat × Nat)) : State :=
  (({ s with die := { s.die with spares := l } }).put CASE_STATUS_SPARES l.length).irq 322 (decide (l.length ≤ 4))

/-- The spare that a plane takes next. -/
def State.planeSpare (s : State) (plane : Nat) : Option (Nat × Nat) :=
  s.die.spares.find? (fun p => decide (p.1 % 4 = plane))

/-- The physical block of a logical one (R455). -/
def State.physOf (s : State) (b : Nat) : Nat := tgetD s.die.map b b

/-- The list without its first entry that equals one. -/
def dropFirst (p : Nat × Nat) : List (Nat × Nat) → List (Nat × Nat)
  | [] => []
  | q :: qs => if q = p then qs else q :: dropFirst p qs

/-- A spare of the block's plane takes its place in the block map with the block's programmed pages; the old physical
block becomes a spare or is retired as bad (R455, R458, R460, R462). With no spare left the block waits and CASE_SPARE_EMPTY is raised. -/
def State.blkSwap (s : State) (b : Nat) (retire : Bool) : State :=
  match s.planeSpare (b % 4) with
  | none =>
    if s.die.noSpare.contains b then s
    else ({ s with die := { s.die with noSpare := s.die.noSpare ++ [b] } }).raiseBase SRC_CASE_SPARE_EMPTY 0 false
  | some sp =>
    let x := s.blk b
    let rest := dropFirst sp s.die.spares
    let s1 := s.setBlk b { x with
      erases := sp.2, retry := 0, flagged := false, intent := false, since := if x.next = 0 then 0 else s.time.opTime }
    let s2 : State := { s1 with die := { s1.die with
      noSpare := s1.die.noSpare.filter (· ≠ b), map := tset s1.die.map b sp.1 } }
    if retire then (s2.putSpares rest).inc CASE_BAD_COUNT else s2.putSpares (rest ++ [(s.physOf b, x.erases + 1)])

/-- A block is flagged for refresh, and a CASE_REFRESH request is made for it (R466). -/
def State.blkFlag (s : State) (b : Nat) : State :=
  (s.setBlk b { s.blk b with flagged := true }).ledRequest laREFRESH b

/-- The highest step of the ladder that a read used which began at a block's retry start and ended at a step: it runs
upward through step 6, then from 0 up (R465). -/
def ladderTop (start step : Nat) : Nat := if start ≤ step then step else max start 6

/-- What a read reports is recorded: the retry start, and the flag (R465, R466). -/
def State.readOk (s : State) (b step corr : Nat) : State :=
  let s1 := s.setBlk b { s.blk b with retry := step }
  if s.get CASE_REFRESH_CFG_STEPMIN ≤ step ∨ s.get CASE_REFRESH_CFG_CORRMAX < corr then s1.blkFlag b else s1

/-- An uncorrectable read (R467). -/
def State.readBad (s : State) (b page : Nat) : State :=
  let s1 := ((s.put CASE_FAIL_ADDR_PAGE (b * 256 + page)).inc CASE_UE_COUNT).setIrq 321
  (s1.raiseBase SRC_CASE_UE 0 false).blkFlag b

/-- Re-sends on the link (R464): false where the fourth transfer failed too. -/
def State.dieLink (s : State) (resends : Nat) : Bool × State :=
  let s1 := s.incBy CASE_RESEND_COUNT (min resends 3)
  if 4 ≤ resends then (false, s1.raiseBase SRC_CASE_LINK 0 false) else (true, s1)

/-! ## The pair shield (R468) -/

/-- The lower page of pair `j` copied into SHIELD, whose two blocks are used in turn: when one is full the other is erased
before its first copy. -/
def State.shieldCopy (s : State) (b j : Nat) : State :=
  let n := s.die.shieldSeq
  let blk := 8 + n / 128 % 2
  let s1 := if n % 128 = 0 ∧ 0 < (s.blk blk).next then s.blkErase blk else s
  let s2 := s1.setBlk blk { s1.blk blk with next := n % 128 + 1 }
  { s2 with die := { s2.die with shield := some (b, j, s.pageRead b j 4096), shieldSeq := n + 1 } }

/-! ## Running in place (R471, R473) -/

/-- The block that holds the Capo's PC while it executes from the window. -/
def State.xipBlock (s : State) : Option Nat :=
  let pc := (s.proc 32).pc.toNat
  if 0x200000 ≤ pc ∧ pc < 0x300000 then some (slotBlock (s.get CASE_XIP_SLOT) + (pc - 0x200000) / 131072) else none

/-- A page of the running slot is in the read cache and used last; the least recently used of 64 leaves. -/
def State.cacheTouch (s : State) (p : Nat) : State :=
  let l := s.die.cache.filter (· ≠ p)
  { s with die := { s.die with cache := (if 64 ≤ l.length then l.drop 1 else l) ++ [p] } }

/-- Bytes of the window as it delivers them: bits 63:36 of each 8-byte image are zero (Table 2-4). -/
def xipImage (off : Nat) : Bytes → Bytes
  | [] => []
  | b :: bs => (if off % 8 = 4 then b &&& 0x0F else if 5 ≤ off % 8 then 0 else b) :: xipImage (off + 1) bs

/-- Bytes of one page of the window; none where its last fill failed, which this access consumes (R467, R471). -/
def State.xipPage (s : State) (off n : Nat) : Option Bytes × State :=
  let p := off / 4096
  if s.die.badPages.contains p then
    (none, { s with die := { s.die with badPages := s.die.badPages.filter (· ≠ p) } })
  else
    (some (xipImage off
      (((s.pageRead (slotBlock (s.get CASE_XIP_SLOT) + p / 256) (p % 256) 4096).drop (off % 4096)).take n)),
      s.cacheTouch p)

/-- Bytes of the window, which an access of at most 4 KiB takes from two pages at most. -/
def State.xipRead (s : State) (off n : Nat) : Option Bytes × State :=
  let k := min n (4096 - off % 4096)
  let r := s.xipPage off k
  if k = n then r
  else
    match r.1 with
    | none => r
    | some b =>
      let q := r.2.xipPage (off + k) (n - k)
      (q.1.map (fun c => b ++ c), q.2)

/-! ## The event ring (R481) -/

/-- A PAD record (Table 13-8). -/
def EvRec.padding : EvRec := ⟨⟨0, 0, false, 0, 0⟩, false, true, 0xFFFF, 0, 0, 0, 0, []⟩

/-- Records put at the write point, one after the other; when it enters block k the oldest block, k + 1, is erased
(R481). -/
def State.ringWrite (s : State) : List EvRec → State
  | [] => s
  | r :: rs =>
    let p := s.ev.wp
    let k := p / ringBlockRecs
    let s1 := if p % ringBlockRecs = 0 ∧ 0 < (s.blk (14 + (k + 1) % 34)).next then s.blkErase (14 + (k + 1) % 34) else s
    let x := s1.blk (14 + k)
    let s2 : State := { s1 with ev := { s1.ev with ring := tset s1.ev.ring p r, wp := (p + 1) % ringRecs } }
    (s2.setBlk (14 + k) { x with
      next := p % ringBlockRecs / 16 + 1, since := if x.next = 0 then s.time.opTime else x.since }).ringWrite rs

/-- Records in whole units of 16, the last one completed with PAD records. -/
def padUnits (rs : List EvRec) : List EvRec := rs ++ List.replicate (ceilDiv rs.length 16 * 16 - rs.length) EvRec.padding

/-! ## Commit records (R541, Table 15-6) -/

/-- The first 508 bytes of a commit record, and the whole unit with its mark. -/
def Commit.body (c : Commit) : Bytes :=
  natToBytes 4 0x4D433834 ++ natToBytes 1 c.kind ++ natToBytes 1 c.slot ++ natToBytes 2 0 ++ natToBytes 4 c.seq ++
    natToBytes 4 c.version ++ natToBytes 4 c.minver ++ natToBytes 4 c.length ++ c.digest.take 48 ++
    List.replicate (484 - min 48 c.digest.length) 0
def Commit.bytes (c : Commit) : Bytes := c.body ++ natToBytes 4 (crc32 c.body)

/-- The record that a unit of META holds, where it is a valid one. -/
def commitOf (b : Bytes) : Option Commit :=
  let f (lo n : Nat) : Nat := bytesToNat ((b.drop lo).take n)
  let c : Commit := ⟨f 4 1, f 5 1, f 8 4, f 12 4, f 16 4, f 20 4, (b.drop 24).take 48⟩
  if decide (1 ≤ c.kind) && decide (c.kind ≤ 3) && decide (c.slot ≤ 1) && decide (b = c.bytes) then some c else none

/-- The records of the units that a program of META writes. -/
def commitsOf : Nat → Bytes → List Commit
  | 0, _ => []
  | n + 1, b => (commitOf (b.take 512)).toList ++ commitsOf n (b.drop 512)

/-- A unit programmed at the first free place of META (Table 13-1). -/
def State.metaProgram (s : State) (bs : Bytes) : State :=
  match (List.range 8).find? (fun b => decide ((s.blk b).next < 1024)) with
  | some b => s.blkProgram b (512 * (s.blk b).next) ((s.blk b).next + 1) bs
  | none => s

/-- Whether META holds a record. -/
def State.metaHolds (s : State) (c : Commit) : Bool :=
  (List.range 8).any (fun b => (List.range (s.blk b).next).any (fun u =>
    decide ((List.range 512).map (fun i => tgetD s.die.cells (dieAddr b (512 * u + i)) 0xFF) = c.bytes)))

/-! ## The tuning row (R470) -/

/-- The bytes of the tuning row (Table 13-6): those the factory writes are the implementation's. -/
def tuningBody : Bytes :=
  (List.range 20).map (fun i => Config.tuningByte i) ++ natToBytes 2 3000 ++ natToBytes 2 30000 ++
    (List.range 224).map (fun i => Config.tuningByte (24 + i)) ++ List.replicate 3844 0
def tuningRow : Bytes := tuningBody ++ natToBytes 4 (crc32 tuningBody)

end Sys2Proof.Machine
end

