-- ==== Sys2Proof/Machine/Tamper.lean ====
section
/-! DEFINITION. The tamper monitors: detection, confirmation, disagreement, detector tests, alarms, the tamper log, the
sticky flags, watch cycles (R489 to R503, R512). -/

namespace Sys2Proof.Machine

/-- The pair window of a quantity in µs (Table 14-1). -/
def pairWindow (q : Nat) : Nat :=
  if q < 8 then 64 else if q < 10 then 1000 else if q < 12 then 64 else if q = 12 then 10 else if q < 18 then 2
  else if q = 18 then 20 else if q = 19 then 2 else if q = 20 then 20 else 1000

/-- Cycles in a microsecond. -/
abbrev cyclesPerUs : Nat := 1500

/-- A quantity without events. -/
def TQty.none : TQty := ⟨[], [], 0, 0⟩
def State.qty (s : State) (q : Nat) : TQty := tgetD s.tamp.qty q TQty.none
def State.setQty (s : State) (q : Nat) (x : TQty) : State :=
  { s with tamp := { s.tamp with qty := tsetD TQty.none s.tamp.qty q x } }

/-- Whether a quantity is a physical one (R489). -/
def physical (q : Nat) : Bool := decide (q < 14)

/-- Whether the logic domains are powered, with the Case controller and the event recorder. -/
def State.logicOn (s : State) : Bool := decide (s.pstate = .p0 ∨ s.pstate = .p1) && s.resetPend.isNone

/-! ## Loops (R490) -/

/-- The next state of the sequence x^15 + x^14 + 1; the bit driven is its highest. -/
def prbsNext (x : Nat) : Nat := (2 * x + (x / 2 ^ 14 + x / 2 ^ 13) % 2) % 2 ^ 15

/-- The state after a number of bits. -/
def prbsAfter (x : Nat) : Nat → Nat
  | 0 => x
  | n + 1 => prbsAfter (prbsNext x) n

/-- A number of bits of the sequence from a state on. -/
def prbsBits (x : Nat) : Nat → List Bool
  | 0 => []
  | n + 1 => decide (x / 2 ^ 14 % 2 = 1) :: prbsBits (prbsNext x) n

/-- What loop `q` drives in the frame that the present cycle lies in: LEVEL, or the bits of the sequence that began with
SEED, at 1 MHz; its period is 32,767 bits. -/
def State.loopDriven (s : State) (q : Nat) : List Bool :=
  if s.on (TSRC_CFG_MODE q) then
    let n := 64 * ((s.clock - tgetD s.tamp.loopAt q 0) / (64 * cyclesPerUs))
    prbsBits (prbsAfter (s.get (TSRC_SEED_SEED q)) (n % 32767)) 64
  else List.replicate 64 (s.on (TSRC_CFG_LEVEL q))

/-- The places of a frame at which the return differs from what was driven. -/
def mismatches (driven ret : List Bool) : List Nat :=
  (List.range 64).filter (fun i => decide (i < ret.length) && decide (driven.getD i false ≠ ret.getD i false))

/-! ## Sticky flags (R502, R503) -/

/-- The 48 flags. -/
def State.sticky (s : State) : Nat := s.get TAMPER_STICKY_LO_FLAGS + 2 ^ 32 * s.get TAMPER_STICKY_HI_FLAGS

/-- The flags put, and mirrored while the Case die can be written. -/
def State.putSticky (s : State) (v : Nat) : State :=
  let s1 := (s.put TAMPER_STICKY_LO_FLAGS v).put TAMPER_STICKY_HI_FLAGS (v / 2 ^ 32)
  if s1.logicOn then { s1 with tamp := { s1.tamp with mirror := v % 2 ^ 48 } } else s1

/-- A flag set: source TAMPER_STICKY. -/
def State.stickySet (s : State) (i : Nat) : State := (s.putSticky (s.sticky ||| 2 ^ i)).setIrq 67

/-! ## The tamper log (R499 to R501) -/

/-- The code of a power state. -/
def PState.code : PState → Nat
  | .p0 => 0
  | .p1 => 1
  | .p2 => 2
  | .p3 => 3

/-- Bytes 0 to 27 of an entry (Table 14-3). -/
def State.logEntry (s : State) (q kind det nev extra : Nat) (alarm held : Bool) : Bytes :=
  let st := s.stamp
  natToBytes 1 q ++ natToBytes 1 kind ++ natToBytes 1 det ++ natToBytes 1 s.pstate.code ++ natToBytes 2 nev ++
    natToBytes 2 (s.get (TSRC_READING_VALUE q)) ++ natToBytes 6 st.opTime ++ natToBytes 3 st.pwrCyc ++
    natToBytes 1 ((if st.taiValid then 1 else 0) + (if held then 2 else 0) + (if alarm then 4 else 0)) ++
    natToBytes 4 st.taiSec ++ natToBytes 4 st.taiNs ++ natToBytes 2 extra

/-- An entry waits to be programmed, or in the evidence buffer where the die cannot be written (R500). -/
def State.logPut (s : State) (q kind det nev extra : Nat) (alarm : Bool) : State :=
  if s.logicOn then
    { s with tamp := { s.tamp with log := s.tamp.log ++ [s.logEntry q kind det nev extra alarm false] } }
  else if s.tamp.evid.length < 16 then
    ({ s with tamp := { s.tamp with evid := s.tamp.evid ++ [s.logEntry q kind det nev extra alarm true] } }).put
      TAMPER_EVIDBUF_FILL (s.tamp.evid.length + 1)
  else s.inc TAMPER_EVIDBUF_OVERFLOW

/-- An entry programmed into the next unit of TLOG, or counted as lost (R499, R501). -/
def State.logProgram (s : State) (e : Bytes) : State :=
  let n := s.get TAMPER_LOGCOUNT_COUNT
  if n < 65536 then
    let b := 10 + n / 16384
    let s1 := (s.blkProgram b (n % 16384 * 32) (n % 16384 + 1) (e ++ natToBytes 4 (crc32 e))).put TAMPER_LOGCOUNT_COUNT
      (n + 1)
    let s2 := if n + 1 = 58983 then s1.setIrq 68 else s1
    if n + 1 = 65536 then (s2.put TAMPER_STATUS_LOGFULL 1).raiseBase SRC_TAMPER_LOGFULL 0 false else s2
  else
    let s1 := s.inc TAMPER_LOGLOST_COUNT
    { s1 with tamp := { s1.tamp with lostMirror := s1.get TAMPER_LOGLOST_COUNT } }

/-- TAMPER_LOG_APPEND: the oldest entry that waits is programmed, those of the evidence buffer first. -/
def execTamperLogAppend (s : State) : Out :=
  if s.logicOn then
    match s.tamp.evid with
    | e :: es =>
      let s1 : State := { s with tamp := { s.tamp with evid := es } }
      .next ((s1.put TAMPER_EVIDBUF_FILL es.length).logProgram e).settle
    | [] =>
      match s.tamp.log with
      | [] => .next s
      | e :: es =>
        let s1 : State := { s with tamp := { s.tamp with log := es } }
        .next (s1.logProgram e).settle
  else .next s

/-! ## Confirmation (R491 to R493, R496, R497, R512) -/

/-- The root key is erased from the always-on domain (R420, R497). -/
def State.rootErase (s : State) : State :=
  let s1 : State := { s with key := { s.key with
    rootKey := none, privs := s.key.privs.map (fun e => (e.1, { e.2 with st := .lost, key := [] })) } }
  (s1.put KEY_STATE_ROOT 0).privCount

/-- The per-boot keys of R69 are erased. -/
def State.bootKeysErase (s : State) : State := { s with mem := { s.mem with bootKeys := 0, guardKey := 0 } }

/-- A confirmed alarm: counted; with the logic powered the zeroize and its source; in P2 Retain the always-on part, and
the next wake is a module reset; in P3 Watch the root key. -/
def State.alarm (s : State) : State :=
  let s1 := (s.put TAMPER_STATUS_ALARMED 1).inc TAMPER_ALARMS_COUNT
  match s.pstate with
  | .p2 => let s2 := s1.rootErase.bootKeysErase; { s2 with pwr := { s2.pwr with alarmReset := true } }
  | .p3 => s1.rootErase
  | _ =>
    let s2 := s1.raiseBase SRC_TAMPER_ALARM 0 false
    { s2 with flt := { s2.flt with zeroizeDue := true } }

/-- The event record of a quantity; one of an injected confirmation carries CODE bit 15 (R512). -/
def State.tamperRecord (s : State) (soft : Bool) : State :=
  if s.logicOn then
    let c := s.free
    let st := c.2.free
    let p := st.2.freeB 32
    p.2.evPut (srcHw 66) (c.1 % 32768 + (if soft then 32768 else 0)) (anyStatus st.1) 0xFF p.1 false false
  else s

/-- A quantity is confirmed with `nev` events; `inj` tells whether one of them was injected. -/
def State.confirm (s : State) (q nev det extra : Nat) (inj : Bool) : State :=
  let soft := inj && !(s.on FAULT_CTL_FORCEFULL)
  let action := if soft then 0 else s.get (TSRC_CFG_ACTION q)
  let s1 := ((s.put (TSRC_STATUS_LATCHED q) 1).inc (TSRC_EVENTS_COUNT q)).put TAMPER_STATUS_LAST q
  let s2 := if soft then s1 else s1.stickySet (2 * q)
  let s3 := if !soft && (physical q || decide (action = 2)) then s2.logPut q 0 det nev extra (decide (action = 2)) else s2
  let s4 := s3.tamperRecord soft
  if action = 1 then (if s4.logicOn then s4.raiseBase SRC_TAMPER_FAULT 0 false else s4)
  else if action = 2 then s4.alarm
  else s4

/-- The detectors of a list of events. -/
def eventDets (ev : List (Nat × Nat × Bool)) : Nat := ev.foldl (fun m e => m ||| e.2.1) 0

/-- A detection event of detector A or B of a quantity (R491, R493). One that meets an event of the other detector within
the pair window is the same event; while the quantity is latched an event is counted and no more. -/
def State.tamperEvent (s : State) (q : Nat) (detB : Bool) (reading extra : Nat) (inj : Bool) : State :=
  if 24 ≤ q ∨ s.on (TSRC_CFG_EN q) = false ∨ s.pstate = .p3 then s
  else
    let x := s.qty q
    let s1 := ((s.put TAMPER_STATUS_EVENT 1).setIrq 66).put (TSRC_READING_VALUE q) reading
    let s2 := s1.put (if detB then TSRC_STATUS_B q else TSRC_STATUS_A q) 1
    let bit := if detB then 2 else 1
    let pw := cyclesPerUs * pairWindow q
    let mate := x.lone.find? (fun l => decide (l.1 ≠ detB) && decide (s.clock ≤ l.2.1 + pw))
    let lone := match mate with
      | some l => x.lone.filter (fun m => decide (m ≠ l))
      | none => x.lone
    if s2.on (TSRC_STATUS_LATCHED q) then
      (s2.inc (TSRC_EVENTS_COUNT q)).setQty q { x with lone := lone, lastEv := s.clock }
    else
      match mate with
      | some l =>
        s2.setQty q { x with
          lone := lone, lastEv := s.clock
          events := x.events.map (fun e => if e.1 = l.2.1 then (e.1, e.2.1 ||| bit, e.2.2 || inj) else e) }
      | none =>
        let win := cyclesPerUs * s.get (TSRC_WINDOW_US q)
        let ev := (x.events.filter (fun e => decide (s.clock ≤ e.1 + win))) ++ [(s.clock, bit, inj)]
        let need := if 8 ≤ q ∧ q ≤ 10 then 1 else s.get (TSRC_CFG_COUNT q)
        let y : TQty := { x with events := ev, lone := lone ++ [(detB, s.clock, inj)], lastEv := s.clock }
        let s3 := (s2.setQty q y).put (TSRC_STATUS_INWIN q) (min 255 ev.length)
        if need ≤ ev.length then
          (s3.setQty q { y with events := [] }).confirm q ev.length (eventDets ev) extra (ev.any (fun e => e.2.2))
        else s3

/-- A frame of a loop's return: 4 or more wrong samples or bits are an event of detector A (R490). -/
def State.loopFrame (s : State) (q reading : Nat) (frame : List Bool) : State :=
  let wrong := mismatches (s.loopDriven q) frame
  if 4 ≤ wrong.length then s.tamperEvent q false reading (wrong.headD 0) false
  else if s.on (TSRC_CFG_EN q) && decide (s.pstate ≠ .p3) then
    (s.put (TSRC_READING_VALUE q) reading).put (TSRC_STATUS_A q) 0
  else s

/-- TAMPER_DETECTION: a detector reports an event, with the reading of the quantity; detector A of a loop by a frame. -/
def execTamperDetection (q : Nat) (detB : Bool) (reading : Nat) (frame : List Bool) (s : State) : Out :=
  if q < 8 ∧ detB = false then .next (s.loopFrame q (reading % 65536) frame).settle
  else .next (s.tamperEvent q detB (reading % 65536) 0 false).settle

/-- TAMPER_REARM: a latched quantity has seen no event for a full WINDOW (R493). -/
def execTamperRearm (q : Nat) (s : State) : Out :=
  if q < 24 ∧ s.on (TSRC_STATUS_LATCHED q) = true then
    let s1 := s.passTo ((s.qty q).lastEv + cyclesPerUs * s.get (TSRC_WINDOW_US q))
    .next ((((s1.setQty q { s1.qty q with events := [] }).put (TSRC_STATUS_LATCHED q) 0).put
      (TSRC_STATUS_INWIN q) 0).put (TSRC_STATUS_A q) 0 |>.put (TSRC_STATUS_B q) 0)
  else .next s

/-- A disagreement of the detectors of a quantity (R494): its flag, its count, the log entry of a physical quantity, the
source and the record where the logic is powered. -/
def State.disagree (s : State) (q : Nat) (detB : Bool) : State :=
  let s1 := (s.stickySet (2 * q + 1)).inc (TSRC_DISAGREES_COUNT q)
  let s2 := if physical q then s1.logPut q 1 (if detB then 2 else 1) (s1.get (TSRC_STATUS_INWIN q)) 0 false else s1
  if s2.logicOn then ((s2.raiseBase SRC_TAMPER_PAIR 0 false).tamperRecord false).settle else s2

/-- PAIR_DISAGREEMENT: an event has met none of the other detector within the pair window (R494). -/
def execPairDisagreement (q : Nat) (detB : Bool) (s : State) : Out :=
  let x := s.qty q
  match x.lone.find? (fun l => decide (l.1 = detB)) with
  | none => .next s
  | some l =>
    let s1 := s.passTo (l.2.1 + cyclesPerUs * pairWindow q)
    .next ((s1.setQty q { x with lone := x.lone.filter (fun m => decide (m ≠ l)) }).disagree q detB)

/-- A detector that did not respond to its test (R495). -/
def State.detFail (s : State) (q det : Nat) : State :=
  let s1 := s.stickySet (2 * q + 1)
  (if physical q then s1.logPut q 2 det 0 0 false else s1).raiseBase SRC_TAMPER_DETFAIL 0 false

/-- What the built-in test of a quantity's detectors, one after the other, finds: bit 0 A, bit 1 B did not respond. -/
def State.bistQty (s : State) (q det : Nat) : State :=
  if s.on (TSRC_CFG_EN q) then
    let s1 := s.putB (TSRC_STATUS_DETFAIL q) (decide (det % 4 ≠ 0))
    let s2 := if bitOf det 0 then s1.detFail q 1 else s1
    if bitOf det 1 then s2.detFail q 2 else s2
  else s

/-- An event of the one detector of a quantity while the other is under test: it counts, and no disagreement is checked
(R495). -/
def State.bistHit (s : State) (q : Nat) (detB : Bool) : State :=
  let s1 := s.tamperEvent q detB (s.get (TSRC_READING_VALUE q)) 0 false
  s1.setQty q { s1.qty q with lone := (s1.qty q).lone.filter (fun l => decide (l.2.1 ≠ s.clock)) }

/-- DETECTOR_BIST: every BIST seconds the detectors are stimulated; `bad` gives for quantities the detectors that do not
respond, `hits` the events of detectors that are not under test. -/
def execDetectorBist (run : BistRun) (s : State) : Out :=
  if s.logicOn then
    let s1 := s.passTo (s.tamp.bistAt + cyclesPerSec * s.get TAMPER_CTL_BIST)
    let s2 : State := { s1 with tamp := { s1.tamp with bistAt := s1.clock } }
    let s3 := run.hits.foldl (fun t h => if h.1 < 24 then t.bistHit h.1 h.2 else t) s2
    .next ((List.range 24).foldl (fun t q => t.bistQty q (tgetD run.bad q 0)) s3).settle
  else .next s

/-- A write of TAMPER_SRC[q].FORCE (R512). -/
def State.forceWrite (s : State) (q : Nat) (v : Word32) : State :=
  let r := s.get (TSRC_READING_VALUE q)
  let s1 := if wordField v 0 0 = 1 then s.tamperEvent q false r 0 true else s
  (if wordField v 1 1 = 1 then s1.tamperEvent q true r 0 true else s1).settle

/-- TAMPER_FORCE: a write of TAMPER_SRC[q].FORCE. -/
def execTamperForce (q : Nat) (v : Word32) (s : State) : Out := if q < 24 then .next (s.forceWrite q v) else .next s

/-! ## Clearing the flags (R503) -/

/-- A write of TAMPER_STICKY_CLR. -/
def State.stickyClr (s : State) (mid : Nat) (v : Word32) : State :=
  if wordField v 31 31 = 0 then s
  else
    let c := s.free
    if mid = 0x40 ∧ s.on CER_AUTHWIN_AUTH = true then
      let old := s.sticky
      let s1 := ((c.2.put CER_AUTHWIN_AUTH 0).putSticky 0).put TAMPER_STICKY_CLR_CLRSTATUS stOK
      s1.evEnter (srcHw 67) (c.1 % 65536) stOK mid (natToBytes 6 old)
    else
      (c.2.put TAMPER_STICKY_CLR_CLRSTATUS stNOT_PERMITTED).evEnter (srcHw 67) (c.1 % 65536) stNOT_PERMITTED mid []

/-- TAMPER_STICKY_CLR: a write of TAMPER_STICKY_CLR with GO = 1. -/
def execTamperStickyClr (mid : Nat) (s : State) : Out := .next (s.stickyClr mid 0x80000000)

/-- TAMPER_STICKY_LO_READ. -/
def execTamperStickyLoRead (s : State) : Out := .next (s.clrIrq 67)
/-- TAMPER_LOGCOUNT_READ. -/
def execTamperLogcountRead (s : State) : Out := .next (s.clrIrq 68)

/-! ## P3 Watch (R498) -/

/-- A quantity in a watch cycle: confirmed after P3COUNT consecutive cycles with an event; an event of one detector alone
is a disagreement (R494). -/
def State.watchQty (s : State) (q det : Nat) : State :=
  let x := s.qty q
  if det % 4 = 0 then (s.setQty q { x with watch := 0 }).put (TSRC_STATUS_LATCHED q) 0
  else
    let n := x.watch + 1
    let s0 := (s.setQty q { x with watch := n }).put TAMPER_STATUS_EVENT 1
    let s1 := if det % 4 = 3 then s0 else s0.disagree q (decide (det % 4 = 2))
    if s1.on (TSRC_STATUS_LATCHED q) then s1.inc (TSRC_EVENTS_COUNT q)
    else if s.get (TSRC_CFG_P3COUNT q) ≤ n then s1.confirm q n (det % 4) 0 false
    else s1

/-- WATCH_CYCLE: in P3 Watch the watched quantities are sampled; `events` gives for quantities the detectors that report
an event (bit 0 A, bit 1 B). -/
def execWatchCycle (events : List (Nat × Nat)) (s : State) : Out :=
  if s.pstate = .p3 then
    .next ((List.range 24).foldl (fun t q =>
      if t.on (TSRC_CFG_EN q) && t.on (TSRC_CFG_P3 q) then t.watchQty q (tgetD events q 0) else t)
      (s.pass (cyclesPerMs * s.get PWR_WATCH_PERIOD)))
  else .next s

end Sys2Proof.Machine
end

