-- ==== Sys2Proof/Machine/Life.lean ====
section
/-! DEFINITION. Lifecycle commands, commit records, the preset image's form, debug authorisation (R541 to R549). -/

namespace Sys2Proof.Machine

/-! ## Images and commit records (R540 to R543) -/

/-- Kinds of commit records (Table 15-6). -/
abbrev ckCOMMIT : Nat := 1
abbrev ckCONFIRM : Nat := 2
abbrev ckREVOKE : Nat := 3

/-- What an image slot holds: the bytes programmed in its eight blocks with their places. -/
def State.slotImage (s : State) (slot : Nat) : Bytes :=
  let lo := 2 ^ 20 * slotBlock slot
  (s.die.cells.filter (fun c => decide (lo ≤ c.1) && decide (c.1 < lo + 8 * 2 ^ 20))).flatMap
    (fun c => natToBytes 4 (c.1 - lo) ++ [c.2])

/-- Version, MINVER, length of a slot's image; SHA-384 of its contents up to the length; whether both signatures of every
component verify. -/
def State.imageOf (s : State) (slot : Nat) : Nat × Nat × Nat := Config.imageHead (s.slotImage slot)
def State.imageDigest (s : State) (slot : Nat) : Bytes :=
  Config.crypto cyImage [s.slotImage slot, natToBytes 4 (s.imageOf slot).2.2] 48
def State.imageSigned (s : State) (slot : Nat) : Bool := Config.cryptoOk cyImage [s.slotImage slot]

/-- The newest sequence number of a commit record. -/
def State.commitSeq (s : State) : Nat := s.lcs.commits.foldl (fun m c => max m c.seq) 0

/-- A commit record written to META. -/
def State.commitPut (s : State) (c : Commit) : State :=
  let t := s.metaProgram c.bytes
  { t with lcs := { t.lcs with commits := t.lcs.commits ++ [c] } }

/-- Whether a COMMIT has a record of a kind for its sequence number. -/
def State.commitHas (s : State) (kind seq : Nat) : Bool := s.lcs.commits.any (fun c => decide (c.kind = kind ∧ c.seq = seq))

/-! ## The preset image (R545, R546, Table 15-8) -/

/-- Entries of a preset image. -/
def presetCount (b : Bytes) : Nat := bytesToNat ((b.drop 4).take 4)

/-- Whether a preset image is valid: its magic, its number of entries and its CRC. -/
def presetOk (b : Bytes) : Bool :=
  let e := presetCount b
  decide (bytesToNat (b.take 4) = 0x50533834) && decide (e ≤ 8190) && decide (b.length = 20 + 8 * e) &&
    decide (bytesToNat (b.drop (16 + 8 * e)) = crc32 (b.take (16 + 8 * e)))

/-! ## Transitions (R547) -/

/-- A transition: its state unit in META and the AON copy, its event record, LIFE_TRANSITION. -/
def State.lifeTo (s : State) (st : Nat) : State :=
  ((s.put LIFE_STATE_STATE st).evUnit 84 stOK).raise SRC_LIFE_TRANSITION 0

/-- Processors held by a debug port run on; a watchdog that was paused counts on. -/
def State.debugRelease (s : State) : State :=
  let s1 := s.procs.foldl (fun t e => if e.2.halted then t.setProc e.1 { t.proc e.1 with halted := false } else t) s
  let w := s1.wdog
  let go (at_ : Nat) (p : Option Nat) : Nat := match p with
    | some c => at_ + (s1.clock - c)
    | none => at_
  let s2 : State := { s1 with
    lcs := { s1.lcs with haltReq := [], halters := [], stepReq := [], breaks := [] }
    wdog := { w with capoAt := go w.capoAt w.capoPaused, capoPaused := none, modAt := go w.modAt w.modPaused, modPaused := none } }
  (s2.put DEBUG_FEHALT_MASK 0).put DEBUG_STATUS_CAPOHALT 0

/-- Debug-opened ends: Sealed again. -/
def State.debugClose (s : State) : State :=
  (((s.lifeTo lcSealed).put LIFE_STATE_SCOPE 0).put FAULT_CTL_FORCEFULL 0).debugRelease

/-- Whether every module key that PROVISION requires is ACTIVE. -/
def State.moduleKeys (s : State) : Bool := [4090, 4091, 4093, 4094, 4095].all (fun i => decide (s.privSt i = .active))

/-- PROVISION: META holds a certificate chain and one to four debug authority keys. -/
def State.lifeProvision (s : State) (p : ProvData) : State :=
  if s.life = lcBlank ∧ s.get KEY_STATE_ROOT = 1 ∧ s.moduleKeys = true ∧ p.chain ≠ [] ∧ 1 ≤ p.keys.length ∧
      p.keys.length ≤ 4 then
    (({ s with lcs := { s.lcs with prov := p } }).lifeTo lcProvisioned).lifeEnd stOK
  else s.lifeEnd stNOT_PERMITTED

/-- SEAL. -/
def State.lifeSeal (s : State) : State :=
  if s.life = lcProvisioned ∧ s.on CER_AUTHWIN_AUTH = true ∧ presetOk s.lcs.preset = true ∧ s.lcs.running.isSome = true ∧
      s.on LIFE_BOOT_TRIAL = false then
    (((s.put CER_AUTHWIN_AUTH 0).lifeTo lcSealed).put FAULT_CTL_FORCEFULL 0).lifeEnd stOK
  else s.lifeEnd stNOT_PERMITTED

/-- RETIRE: the root key erased, every private-key slot destroyed. -/
def State.lifeRetire (s : State) : State :=
  if s.life ≠ lcRetired ∧ (s.life = lcBlank ∨ s.on CER_AUTHWIN_AUTH = true) then
    let s1 := (if s.life = lcBlank then s else s.put CER_AUTHWIN_AUTH 0).rootErase
    let s2 := ({ s1 with key := { s1.key with privs := [] } }).privCount
    let s3 := ((s2.lifeTo lcRetired).put LIFE_STATE_SCOPE 0).put FAULT_CTL_FORCEFULL 0
    (if s.life = lcDebug then s3.debugRelease else s3).lifeEnd stOK
  else s.lifeEnd stNOT_PERMITTED

/-! ## Debug authorisation (R548) -/

/-- DEBUG_CHALLENGE: 32 bytes drawn on the KEY port, or a wait for them. -/
def State.lifeChallenge (s : State) : State :=
  if s.entropyGone then (s.inc (ROSIN_UNAVAIL_COUNT 2)).lifeEnd stENTROPY_UNAVAILABLE
  else if s.canDraw 2 then s.lifeDraw
  else { s with lcs := { s.lcs with waiting := some ⟨4, default⟩ } }

/-- The command buffer of LIFE_BUF: Capo word memory or general-use DRAM. -/
def State.lifeBuf (s : State) : Option Bytes × State :=
  let a := s.addr40 LIFE_BUF_LO
  let n := s.get LIFE_BUF_LEN_LEN
  if s.inGen a n || inCapo a (bufSpan a n) then s.keyRead a n else (none, s)

/-- "OT48 debug". -/
def debugText : Bytes := [0x4F, 0x54, 0x34, 0x38, 0x20, 0x64, 0x65, 0x62, 0x75, 0x67].map (BitVec.ofNat 8)

/-- The status of a debug authorisation (R548): an ML-DSA-87 public key has 2,592 bytes. -/
def State.debugAuth (s : State) (b : Bytes) : Nat :=
  let secs := bytesToNat ((b.drop 2).take 4)
  let pk := (b.drop 6).take 2592
  let msg := debugText ++ tuningRow.take 16 ++ s.regBytes (LIFE_CHAL 0) 8 ++ b.take 6
  match s.lcs.prov.keys[bytesToNat (b.take 1)]? with
  | none => stNOT_PERMITTED
  | some k =>
    if Config.crypto cySha3_256 [pk] 32 ≠ k.1 then stVERIFY_FAIL
    else if k.2 < bytesToNat ((b.drop 1).take 1) ∨ 1 < bytesToNat ((b.drop 1).take 1) then stNOT_PERMITTED
    else if secs < 60 ∨ 86400 < secs then stNOT_PERMITTED
    else if !(Config.cryptoOk cyDebug [pk, msg, b.drop 2598]) then stVERIFY_FAIL
    else stOK

/-- DEBUG_OPEN: the challenge is consumed whatever the outcome. -/
def State.lifeDebugOpen (s : State) : State :=
  let deny (t : State) (st : Nat) : State :=
    (({ t with lcs := { t.lcs with chalAt := none } }).raise SRC_DEBUG_DENY 0).lifeEnd st
  if s.life ≠ lcSealed ∨ s.lcs.chalAt.all (fun c => decide (c + 60 * cyclesPerSec < s.clock)) = true then
    deny s stNOT_PERMITTED
  else
    match s.lifeBuf with
    | (none, s) => deny s stNOT_PERMITTED
    | (some b, s) =>
      let st := s.debugAuth b
      if st ≠ stOK then deny s st
      else
        let s1 : State := { s with lcs := { s.lcs with chalAt := none } }
        let s2 := (s1.inc LIFE_DBGOPENS_COUNT).lifeTo lcDebug
        let s3 := (s2.put LIFE_STATE_SCOPE (bytesToNat ((b.drop 1).take 1))).raise SRC_DEBUG_OPEN 0
        ({ s3 with lcs := { s3.lcs with
          dbgUntil := s3.clock + cyclesPerSec * bytesToNat ((b.drop 2).take 4) } }).lifeEnd stOK

/-- DEBUG_CLOSE. -/
def State.lifeDebugClose (s : State) : State :=
  if s.life = lcDebug then s.debugClose.lifeEnd stOK else s.lifeEnd stNOT_PERMITTED

/-! ## COMMIT_IMAGE, CONFIRM_IMAGE, WRITE_PRESET -/

/-- COMMIT_IMAGE: the slot that is not running verified and its COMMIT written, under the grant IMAGE_COMMIT (R543). -/
def State.lifeCommit (s : State) : State :=
  let slot := s.get LIFE_CMD_ARG_SLOT
  let h := s.imageOf slot
  if slot = s.get LIFE_BOOT_SLOT ∨ s.ledHolds laCOMMIT = 0 then s.lifeEnd stNOT_PERMITTED
  else if !(s.imageSigned slot) || decide (h.1 < s.get LIFE_MINVER_VER) then s.lifeEnd stVERIFY_FAIL
  else
    (s.commitPut ⟨ckCOMMIT, slot, (s.commitSeq + 1) % 2 ^ 32, h.1, h.2.1, h.2.2, s.imageDigest slot⟩).lifeEnd stOK

/-- CONFIRM_IMAGE: a CONFIRM for the running trial; LIFE_MINVER rises to the image's MINVER (R542). -/
def State.lifeConfirm (s : State) : State :=
  match s.lcs.running with
  | none => s.lifeEnd stNOT_PERMITTED
  | some q =>
    match s.lcs.commits.find? (fun c => decide (c.kind = ckCOMMIT ∧ c.seq = q)) with
    | none => s.lifeEnd stNOT_PERMITTED
    | some c =>
      if s.on LIFE_BOOT_TRIAL then
        let s1 := s.commitPut { c with kind := ckCONFIRM }
        let s2 := s1.put LIFE_MINVER_VER (max (s1.get LIFE_MINVER_VER) c.minver)
        (((s2.put LIFE_BOOT_TRIAL 0).put LIFE_BOOT_TRIES 0).clrIrq 85).lifeEnd stOK
      else s.lifeEnd stNOT_PERMITTED

/-- WRITE_PRESET: in Blank and Provisioned (R546). -/
def State.lifePreset (s : State) : State :=
  if lcProvisioned < s.life then s.lifeEnd stNOT_PERMITTED
  else if 20 + 8 * 8190 < s.get LIFE_BUF_LEN_LEN then s.lifeEnd stBAD_LENGTH
  else
    match s.lifeBuf with
    | (none, s) => s.lifeEnd stBAD_PARAM
    | (some b, s) => ({ s with lcs := { s.lcs with preset := b } }).lifeEnd stOK

/-! ## LIFE_CMD -/

/-- A command runs. -/
def State.lifeRun (s : State) (r : LifeReq) : State :=
  match r.op with
  | 1 => s.lifeProvision r.prov
  | 2 => s.lifeSeal
  | 3 => s.lifeRetire
  | 4 => s.lifeChallenge
  | 5 => s.lifeDebugOpen
  | 6 => s.lifeDebugClose
  | 7 => s.lifeCommit
  | 8 => s.lifeConfirm
  | 9 => s.lifePreset
  | _ => s.lifeEnd stBAD_OPCODE

/-- Whether a command writes META: it waits while the Case operations are suspended (R475). -/
def lifeWrites (op : Nat) : Bool := decide (1 ≤ op ∧ op ≤ 9) && decide (op ≠ 4)

/-- A write of LIFE_CMD with GO = 1 by Capo ring 0; while a command runs it is ignored. -/
def State.lifeGo (s : State) (mid : Nat) (r : LifeReq) : State :=
  if mid ≠ 0x40 ∨ s.on LIFE_CMD_RESULT_BUSY = true then s
  else
    let s1 := (s.put LIFE_CMD_RESULT_BUSY 1).clrIrq 84
    if s1.on CASE_STATUS_SUSPENDED && lifeWrites r.op then { s1 with lcs := { s1.lcs with waiting := some r } }
    else s1.lifeRun r

/-- A command that waited for the end of the suspension runs. -/
def State.lifeRetry (s : State) : State :=
  match s.lcs.waiting with
  | none => s
  | some r => if r.op = 4 then s else s.lifeRun r

/-- PROVISION. -/
def execProvision (mid : Nat) (chain : Bytes) (keys : ProvKeys) (s : State) : Out :=
  .next (s.lifeGo mid ⟨1, ⟨chain, keys.keys, keys.cas, keys.cred⟩⟩)
/-- SEAL. -/
def execSeal (mid : Nat) (s : State) : Out := .next (s.lifeGo mid ⟨2, default⟩)
/-- RETIRE. -/
def execRetire (mid : Nat) (s : State) : Out := .next (s.lifeGo mid ⟨3, default⟩)
/-- DEBUG_CHALLENGE. -/
def execDebugChallenge (mid : Nat) (s : State) : Out := .next (s.lifeGo mid ⟨4, default⟩)
/-- DEBUG_OPEN. -/
def execDebugOpen (mid : Nat) (s : State) : Out := .next (s.lifeGo mid ⟨5, default⟩)
/-- DEBUG_CLOSE. -/
def execDebugClose (mid : Nat) (s : State) : Out := .next (s.lifeGo mid ⟨6, default⟩)
/-- COMMIT_IMAGE. -/
def execCommitImage (mid : Nat) (s : State) : Out := .next (s.lifeGo mid ⟨7, default⟩)
/-- CONFIRM_IMAGE. -/
def execConfirmImage (mid : Nat) (s : State) : Out := .next (s.lifeGo mid ⟨8, default⟩)
/-- WRITE_PRESET. -/
def execWritePreset (mid : Nat) (s : State) : Out := .next (s.lifeGo mid ⟨9, default⟩)
/-- LIFE_CMD_UNASSIGNED: an OP that names no command. -/
def execLifeCmdUnassigned (mid op : Nat) (s : State) : Out :=
  if 1 ≤ op % 16 ∧ op % 16 ≤ 9 then .next s else .next (s.lifeGo mid ⟨op % 16, default⟩)

/-- DEBUG_EXPIRY: the duration of Debug-opened ends. -/
def execDebugExpiry (s : State) : Out :=
  if s.life = lcDebug then .next (s.passTo s.lcs.dbgUntil).debugClose else .next s

/-- DEBUG_CHALLENGE_EXPIRY: 60 s after the challenge. -/
def execDebugChallengeExpiry (s : State) : Out :=
  match s.lcs.chalAt with
  | none => .next s
  | some c =>
    let s1 := s.passTo (c + 60 * cyclesPerSec)
    .next { s1 with lcs := { s1.lcs with chalAt := none } }

end Sys2Proof.Machine
end

