-- ==== Sys2Proof/Machine/QueueBase.lean ====
section
/-! DEFINITION. Queues as state: who owns a group, items that wait for delivery, completions, the arbiters (R267, R273,
R278 to R281, R288, R290, R294). -/

namespace Sys2Proof.Machine

/-! ## Functions and groups (R267, Table 7-15) -/

/-- First group and number of groups of a function. -/
def State.fnGroups (s : State) (f : Nat) : Nat × Nat :=
  (s.get (FN_QG_QG_BASE f), s.get (FN_QG_QG_COUNT f) + 1024 * s.get (FN_QG_COUNTHI f))

/-- The function that owns a group. -/
def State.groupOwner (s : State) (g : Nat) : Option Nat :=
  (List.range 64).find? (fun f => decide ((s.fnGroups f).1 ≤ g) && decide (g < (s.fnGroups f).1 + (s.fnGroups f).2))

/-- The function that owns a queue. -/
def State.queueOwner (s : State) (q : Nat) : Option Nat := s.groupOwner (q / 64)

/-- The host address of the slot of a count (R271, R273). -/
def State.queueSlot (s : State) (q count : Nat) : Nat :=
  4096 * s.get (QUEUE_BASE_LO_ADDR q) + 2 ^ 32 * s.get (QUEUE_BASE_HI_ADDR q) + count % s.get (QUEUE_CFG_SIZE q) * 32

/-! ## Time fields -/

/-- Bits 31:0 of TICK_COUNT. -/
def State.tick32 (s : State) : Nat := s.get TICK_COUNT_LO_COUNT
/-- Bits 35:0 of TICK_COUNT. -/
def State.tick36 (s : State) : Nat := (s.get TICK_COUNT_LO_COUNT + 2 ^ 32 * s.get TICK_COUNT_HI_COUNT) % 2 ^ 36
/-- Module time as the TS fields hold it, valid or not (R281). -/
def State.tsSec (s : State) : Nat := s.taiSec % 2 ^ 32
def State.tsNs (s : State) : Nat := s.taiNs

/-! ## The frame buffer (R212) -/

/-- Octets of the frame buffer in use. -/
def State.bufUsed (s : State) : Nat :=
  let sum (l : List Nat) : Nat := l.foldl (· + ·) 0
  sum (s.data.frames.map (fun f => f.octets.length)) + sum (s.data.held.map (fun e => e.2.octets.length)) +
    sum (s.data.rel.map (fun e => e.2.octets.length)) +
    sum (s.data.queues.map (fun e => sum (e.2.items.map (fun i => (i.octets.getD []).length))))

/-- Whether the frame buffer has room for a frame. -/
def State.bufRoom (s : State) (n : Nat) : Bool := decide (s.bufUsed + n ≤ 2097152)

/-! ## Items (R278, R280, R288) -/

/-- An item for a queue: it waits for its turn, or is discarded and counted. -/
def State.enqueue (s : State) (q : Nat) (i : Item) : State :=
  if !(s.on (QUEUE_CFG_EN q)) || (s.queueOwner q).isNone || s.on (QUEUE_STATUS_STOPPED q) || s.on (QUEUE_CFG_DIR q) then
    s.inc (QUEUE_DROP_COUNT q)
  else
    let x := s.queue q
    if s.get (QUEUE_PROD_COUNT q) = s.get (QUEUE_CONS_COUNT q) then s.inc (QUEUE_NOBUF_COUNT q)
    else s.setQueue q { x with items := x.items ++ [i] }

/-- A status-only item about an entry (R231, R310). -/
def State.statusItem (s : State) (q status assoc epoch : Nat) : State :=
  s.enqueue q ⟨none, status, some assoc, 5, epoch, s.tsSec, s.tsNs, s.tick32⟩

/-! ## Completions (Table 7-5) -/

/-- The 32 bytes of a completion. -/
def completionBytes (word0 tsSec tsNs tick : Nat) (assoc : Option Nat) (src status : Nat) (phase : Bool)
    (epoch len : Nat) : Bytes :=
  natToBytes 8 word0 ++ natToBytes 8 (2 ^ 32 * (tsSec % 2 ^ 32) + tsNs) ++
    natToBytes 8 (2 ^ 32 * (tick % 2 ^ 32) + assoc.getD 0 * 2 ^ 11 + src * 2 ^ 8 + status) ++
    natToBytes 8 ((if phase then 2 ^ 63 else 0) + (if assoc.isSome then 2 ^ 62 else 0) + 2 ^ 48 * epoch + len)

/-- Cycles of a time in ns. -/
def nsCycles (n : Nat) : Nat := ceilDiv (3 * n) 2

/-- A pending completion makes its vector due: the first one of a group sets the deadline from the group's hold-off
(R290). -/
def State.vectorDue (s : State) (q : Nat) : State :=
  if s.on (QUEUE_CFG_INTEN q) then
    match s.queueOwner q with
    | none => s
    | some f =>
      let v := s.get (FN_VEC_VEC_BASE f) + s.get (QUEUE_CFG_VEC q)
      let l := tgetD s.data.due v []
      let at_ := match l.find? (fun e => decide (e.1 = q / 64)) with
        | some e => e.2
        | none => s.clock + nsCycles (s.get (QG_HOLDOFF_NS (q / 64)))
      { s with data := { s.data with due := tset s.data.due v (l ++ [(q / 64, at_)]) } }
  else s

/-- A completion written into the slot of CONS (R273). -/
def State.complete (s : State) (q word0 tsSec tsNs tick : Nat) (assoc : Option Nat) (src status epoch len : Nat) :
    State :=
  let c := s.get (QUEUE_CONS_COUNT q)
  let phase := decide (c / s.get (QUEUE_CFG_SIZE q) % 2 = 0)
  let s1 := s.hostWrite (s.queueSlot q c) (completionBytes word0 tsSec tsNs tick assoc src status phase epoch len)
  let s2 := (s1.put (QUEUE_CONS_COUNT q) (cmod (c + 1))).vectorDue q
  s2.putUnread q (tgetD s2.data.unread q 0 + 1)

/-- A queue stops (R287). -/
def State.queueStop (s : State) (q err : Nat) : State := (s.queueStopBase q err).settle

/-! ## Arbiters (R294) -/

/-- Whether a queue is backlogged: an item and a held slot, or a posted slot not yet fetched. -/
def State.backlogged (s : State) (submit : Bool) (q : Nat) : Bool :=
  let x := s.queue q
  s.on (QUEUE_CFG_EN q) && !(s.on (QUEUE_STATUS_STOPPED q)) && (s.queueOwner q).isSome &&
    (s.on (QUEUE_CFG_DIR q) == submit) &&
    (if submit then decide (x.nextFetch ≠ s.get (QUEUE_PROD_COUNT q)) else !(x.items.isEmpty) && x.slot.isSome)

/-- The queues of a group that are backlogged in either direction: QG_ACTIVE.COUNT. -/
def State.activeOf (s : State) (g : Nat) : Nat :=
  ((List.range 64).filter (fun j => s.backlogged false (64 * g + j) || s.backlogged true (64 * g + j))).length

/-- The next of a list of numbers after one, ascending and wrapping around. -/
def nextAfter (l : List Nat) (n : Nat) : Option Nat :=
  let up := l.filter (fun m => decide (n < m))
  let pick (k : List Nat) : Option Nat :=
    k.foldl (fun b m => match b with | none => some m | some x => if m < x then some m else some x) none
  match pick up with
  | some m => some m
  | none => pick l

/-- The backlogged queues of a direction. -/
def State.backlog (s : State) (submit : Bool) : List Nat :=
  s.enabledQueues.filter (fun q => s.backlogged submit q)

/-- EQUAL and WEIGHT of every function, where not at reset. -/
def State.fnModes (s : State) : List (Nat × (Bool × Nat)) :=
  (List.range 64).filterMap (fun f =>
    let m := (s.on (FN_CTL_EQUAL f), s.get (FN_CTL_WEIGHT f))
    if m = (false, 0) then none else some (f, m))

/-- The function an arbiter serves next with its turns left, and the modes in force: a round begins where the functions
wrap around, and takes EQUAL and WEIGHT as they stand then (R268). -/
def State.arbFn (s : State) (a : Arb) (bl : List Nat) : Option (Nat × Nat × List (Nat × (Bool × Nat))) :=
  let fnOf (q : Nat) : Nat := (s.queueOwner q).getD 0
  let act (g : Nat) : Nat := (bl.filter (fun q => decide (q / 64 = g))).length
  if 0 < a.fnLeft ∧ bl.any (fun q => decide (fnOf q = a.fn)) = true then some (a.fn, a.fnLeft - 1, a.modes)
  else
    (nextAfter (bl.map fnOf) a.fn).map (fun f =>
      let modes := if f ≤ a.fn then s.fnModes else a.modes
      let m := tgetD modes f (false, 0)
      let gs := ((bl.filter (fun q => decide (fnOf q = f))).map (fun q => q / 64)).eraseDups
      let w := if m.2 ≠ 0 then m.2 else (gs.map (fun g => if m.1 then 1 else act g)).foldl (· + ·) 0
      (f, w - 1, modes))

/-- The queue an arbiter serves next, and the arbiter after the grant. -/
def State.arbPick (s : State) (a : Arb) (bl : List Nat) : Option (Nat × Arb) :=
  let fnOf (q : Nat) : Nat := (s.queueOwner q).getD 0
  let act (g : Nat) : Nat := (bl.filter (fun q => decide (q / 64 = g))).length
  match s.arbFn a bl with
  | none => none
  | some (f, fl, modes) =>
    let gw (g : Nat) : Nat := if (tgetD modes f (false, 0)).1 then 1 else act g
    let mine := bl.filter (fun q => decide (fnOf q = f))
    let cur := tgetD a.grp f (1024, 0)
    let g? : Option (Nat × Nat) :=
      if 0 < cur.2 ∧ mine.any (fun q => decide (q / 64 = cur.1)) = true then some (cur.1, cur.2 - 1)
      else (nextAfter (mine.map (fun q => q / 64)) cur.1).map (fun g => (g, gw g - 1))
    match g? with
    | none => none
    | some (g, gl) =>
      (nextAfter (mine.filter (fun q => decide (q / 64 = g))) (tgetD a.last g queueCount)).map (fun q =>
        (q, ⟨f, fl, modes, tset a.grp f (g, gl), tset a.last g q⟩))

/-- Turns counted (R297). -/
def State.turnCount (s : State) (q : Nat) : State :=
  let wrap (t : State) (lo hi : Nat) : State := t.put64 lo hi ((t.get64 lo hi + 1) % 2 ^ 64)
  let s1 := wrap (wrap s (QUEUE_SVC_LO q) (QUEUE_SVC_HI q)) (QG_SVC_LO (q / 64)) (QG_SVC_HI (q / 64))
  match s1.queueOwner q with
  | none => s1
  | some f => wrap s1 (FN_SVC_LO f) (FN_SVC_HI f)

/-- Whether a direction has a turn to take: submission has none while the frame buffer has no room (R286). -/
def State.hasTurn (s : State) (submit : Bool) : Bool :=
  !((s.backlog submit).isEmpty) && (!submit || s.bufRoom 1532)

/-- The turn of a direction: the queue that has it, with the state after the grant. At the link delivery and submission
turns alternate, each taking the other's when it has none; without a link over which memory requests pass there is none
(R300). -/
def State.takeTurn (s : State) (submit : Bool) : Option (Nat × State) :=
  if (s.data.lastSubmit = submit ∧ s.hasTurn (!submit) = true) ∨ s.hasTurn submit = false ∨ s.hostLink = false then none
  else
    match s.arbPick (if submit then s.data.arbS else s.data.arbD) (s.backlog submit) with
    | none => none
    | some (q, a) =>
      let d := if submit then { s.data with arbS := a, lastSubmit := true }
        else { s.data with arbD := a, lastSubmit := false }
      some (q, ({ s with data := d }).turnCount q)

end Sys2Proof.Machine
end

