-- ==== Sys2Proof/Machine/Assoc.lean ====
section
/-! DEFINITION. The association table: entries and their fields, lookup, the hot cache, supervision, the commands of
ASSOC_CMD (R225 to R235). -/

namespace Sys2Proof.Machine

/-! ## Entries (Table 6-2) -/

/-- A field of a 64-bit word. -/
def bits (w hi lo : Nat) : Nat := w / 2 ^ lo % 2 ^ (hi + 1 - lo)
/-- A 64-bit word with a field replaced. -/
def bitsSet (w hi lo v : Nat) : Nat :=
  2 ^ (hi + 1) * (w / 2 ^ (hi + 1)) + 2 ^ lo * (v % 2 ^ (hi + 1 - lo)) + w % 2 ^ lo

/-- An entry: its sixteen words. -/
abbrev TableEntry := List Nat

/-- A field of an entry, by word and bits; an entry with it replaced. -/
structure EFld where
  word : Nat
  hi : Nat
  lo : Nat
  deriving DecidableEq, Repr

def eget (e : TableEntry) (f : EFld) : Nat := bits (e.getD f.word 0) f.hi f.lo
def eput (e : TableEntry) (f : EFld) (v : Nat) : TableEntry := e.set f.word (bitsSet (e.getD f.word 0) f.hi f.lo v)
def eon (e : TableEntry) (f : EFld) : Bool := decide (eget e f = 1)
/-- A saturating count in a field. -/
def ecount (e : TableEntry) (f : EFld) (n : Nat) : TableEntry := eput e f (satAt (2 ^ (f.hi + 1 - f.lo) - 1) (eget e f + n))

def eV : EFld := ⟨3, 63, 63⟩
def eTYPE : EFld := ⟨3, 62, 60⟩
def eROLE : EFld := ⟨3, 59, 58⟩
def eHOLD : EFld := ⟨3, 57, 57⟩
def eSECREQ : EFld := ⟨3, 56, 56⟩
def ePIN : EFld := ⟨3, 55, 55⟩
def eRESTARTALLOW : EFld := ⟨3, 54, 54⟩
def eSQBASE : EFld := ⟨3, 53, 53⟩
def eCOPY : EFld := ⟨3, 52, 52⟩
def eEGRESS : EFld := ⟨3, 51, 48⟩
def eALG : EFld := ⟨3, 47, 45⟩
def eTAGLEN : EFld := ⟨3, 44, 39⟩
def ePGROUP : EFld := ⟨3, 38, 26⟩
def ePGEN : EFld := ⟨3, 25, 25⟩
def ePOLICY : EFld := ⟨3, 24, 13⟩
def eSLOTA : EFld := ⟨4, 63, 46⟩
def eEPOCHA : EFld := ⟨4, 45, 32⟩
def eSLOTB : EFld := ⟨4, 31, 14⟩
def eEPOCHB : EFld := ⟨4, 13, 0⟩
def eAV : EFld := ⟨5, 63, 63⟩
def eBV : EFld := ⟨5, 62, 62⟩
def eCUR : EFld := ⟨5, 61, 61⟩
def eCHCOUNT : EFld := ⟨5, 54, 48⟩
def eSMPMAX : EFld := ⟨5, 47, 32⟩
def eQUEUE : EFld := ⟨5, 31, 16⟩
def eSUPTO : EFld := ⟨5, 15, 0⟩
def eHI1 : EFld := ⟨6, 63, 32⟩
def eHI2 : EFld := ⟨6, 31, 0⟩
def eWIN : EFld := ⟨7, 63, 0⟩
def eLASTTICK : EFld := ⟨8, 63, 32⟩
def eLASTTAL : EFld := ⟨8, 31, 16⟩
def eSTARTED : EFld := ⟨8, 15, 15⟩
def eLOST : EFld := ⟨8, 14, 14⟩
def eLASTEPOCH : EFld := ⟨8, 13, 0⟩
def eACCEPT : EFld := ⟨9, 63, 0⟩
def eAUTHFAIL : EFld := ⟨10, 63, 32⟩
def eREPLAY : EFld := ⟨10, 31, 0⟩
def eMALFORMED : EFld := ⟨11, 63, 32⟩
def ePLAUSFAIL : EFld := ⟨11, 31, 0⟩
def eKEYFAIL : EFld := ⟨12, 63, 32⟩
def eDROPPED : EFld := ⟨12, 31, 0⟩
def eRESTARTS : EFld := ⟨13, 63, 48⟩
def eSUPLOST : EFld := ⟨13, 47, 32⟩
def eLASTSTATUS : EFld := ⟨13, 31, 24⟩
def eLASTSRC : EFld := ⟨13, 23, 21⟩
def eOCTETS : EFld := ⟨14, 63, 0⟩

/-- Types and roles (Table 6-3). -/
abbrev tyGOOSE : Nat := 0
abbrev tySV : Nat := 1
abbrev tyRGOOSE : Nat := 2
abbrev tyRSV : Nat := 3
abbrev rlSUBSCRIBE : Nat := 0
abbrev rlPUBLISH : Nat := 1
abbrev rlFORWARD : Nat := 2
abbrev rlDROP : Nat := 3

/-- Number of entries, and of ways and sets of the hot cache. -/
abbrev entryCount : Nat := 2097152
abbrev hotSets : Nat := 16384
abbrev hotWays : Nat := 12

/-- Addresses of an entry in DRAM and of a way of the hot cache (Tables 2-4, 2-8). -/
def entryAddr (i : Nat) : Nat := dramBase + 128 * i
def wayAddr (w : Nat) : Nat := 0x4000000 + 128 * w

/-- The way that holds an entry. -/
def State.hotWay (s : State) (i : Nat) : Option (Nat × HotWay) := s.data.hot.find? (fun e => decide (e.2.entry = i))

/-- 64-bit words of an image, and the image of words. -/
def words64 : Nat → Bytes → List Nat
  | 0, _ => []
  | n + 1, bs => bytesToNat (bs.take 8) :: words64 n (bs.drop 8)
def bytes64 : List Nat → Bytes
  | [] => []
  | w :: ws => natToBytes 8 w ++ bytes64 ws

/-- An entry, read in its hot-cache copy where it has one (R229). -/
def State.entry (s : State) (i : Nat) : TableEntry :=
  words64 16 (s.peek (match s.hotWay i with | some (w, _) => wayAddr w | none => entryAddr i) 128)

/-- An entry written: in its hot-cache copy, which becomes dirty, or in DRAM through the version guard. -/
def State.setEntry (s : State) (i : Nat) (e : TableEntry) : State :=
  match s.hotWay i with
  | some (w, h) =>
    let s1 := (s.poke (wayAddr w) (bytes64 e)).sramStored (wayAddr w) 128
    { s1 with data := { s1.data with hot := tset s1.data.hot w { h with dirty := true } } }
  | none => s.memStore (entryAddr i) (bytes64 e)

/-- Whether an entry number names a valid entry. -/
def State.entryValid (s : State) (i : Nat) : Bool := decide (i < entryCount) && eon (s.entry i) eV

/-! ## Lookup (R225, R226) -/

/-- A match key: words 0 to 2 and the type. -/
structure MatchKey where
  w0 : Nat
  w1 : Nat
  w2 : Nat
  type : Nat
  deriving DecidableEq, Repr

/-- The match key of an entry. -/
def entryKey (e : TableEntry) : MatchKey := ⟨e.getD 0 0, e.getD 1 0, e.getD 2 0, eget e eTYPE⟩

/-- The hash of an identifier, of a destination address with port, of a source address. -/
def State.idHash (s : State) (id : Bytes) : Nat := Config.assocHash s.data.idKey 0 id % 2 ^ 64
def State.dstHash (s : State) (ip : Bytes) (port : Nat) : Nat :=
  Config.assocHash s.data.idKey 1 (ip ++ natToBytes 2 port) % 2 ^ 48
def State.srcHash (s : State) (ip : Bytes) : Nat := Config.assocHash s.data.idKey 2 ip % 2 ^ 48

/-- The two candidate buckets and the hot-cache set of a match key. -/
def State.mix (s : State) (k : MatchKey) : Nat × Nat × Nat :=
  let m := Config.assocMix s.data.mixKey k.w0 k.w1 k.w2 k.type
  (m.1 % 524288, m.2.1 % 524288, m.2.2 % hotSets)

/-- The four entries of a bucket. -/
def bucketEntries (b : Nat) : List Nat := [4 * b, 4 * b + 1, 4 * b + 2, 4 * b + 3]

/-- The entry of the table that matches a key. -/
def State.findEntry (s : State) (k : MatchKey) : Option Nat :=
  let m := s.mix k
  (bucketEntries m.1 ++ bucketEntries m.2.1).find? (fun i => eon (s.entry i) eV && decide (entryKey (s.entry i) = k))

/-! ## The hot cache (R227, R228) -/

/-- Entries that a frame in flight refers to. -/
def FrameStage.entry? : FrameStage → Option Nat
  | .received => none
  | .fill i => some i
  | .matched i => some i
  | .verified i _ _ => some i

/-- A frame whose entry is deleted refers to no entry from then on: its replay step ends NO_ASSOC (R235). -/
def FrameStage.orphan (st : FrameStage) (i : Nat) : FrameStage :=
  let rn (n : Nat) : Nat := if n = i then 2097152 else n
  match st with
  | .received => .received
  | .fill n => .fill (rn n)
  | .matched n => .matched (rn n)
  | .verified n ep b => .verified (rn n) ep b

/-- Whether a frame in flight, or one held for its verdict, refers to an entry. -/
def State.inFlight (s : State) (i : Nat) : Bool :=
  s.data.frames.any (fun f => decide (f.stage.entry? = some i)) || s.data.held.any (fun e => decide (e.2.entry = i))

/-- Whether a way may be evicted. -/
def State.evictable (s : State) (h : HotWay) : Bool :=
  let e := s.entry h.entry
  !(eon e eV && eon e ePIN) && !(s.inFlight h.entry)

/-- The ways of a set. -/
def setWays (k : Nat) : List Nat := (List.range hotWays).map (fun j => hotWays * k + j)

/-- The least recently used way of a set that may be evicted. -/
def State.victim (s : State) (k : Nat) : Option (Nat × HotWay) :=
  (setWays k).foldl (fun best w =>
    match tget s.data.hot w with
    | none => best
    | some h =>
      if s.evictable h then
        match best with
        | none => some (w, h)
        | some b => if h.used < b.2.used then some (w, h) else some b
      else best) none

/-- A way emptied: a dirty entry is written back through the version guard; none while the guard's queue is full
(R82). -/
def State.evictWay (s : State) (w : Nat) (h : HotWay) : Option State :=
  if h.dirty then
    match guardPage (entryAddr h.entry) with
    | some p =>
      if s.guardTakes p then
        let img := s.peek (wayAddr w) 128
        let s1 : State := { s with data := { s.data with hot := terase s.data.hot w } }
        some (s1.memStore (entryAddr h.entry) img)
      else none
    | none => none
  else some { s with data := { s.data with hot := terase s.data.hot w } }

/-- An entry brought into a way. -/
def State.fillWay (s : State) (w i : Nat) (img : Bytes) : State :=
  let s1 := (s.poke (wayAddr w) img).sramStored (wayAddr w) 128
  { s1 with data := { s1.data with
    hot := tset s1.data.hot w ⟨i, false, s1.data.hotClock + 1⟩, hotClock := s1.data.hotClock + 1 } }

/-- A way for an entry: a free one of its set, or the victim's after its eviction; none while no way qualifies. -/
def State.wayFor (s : State) (i : Nat) : Option (Nat × State) :=
  let k := (s.mix (entryKey (s.entry i))).2.2
  match (setWays k).find? (fun w => (tget s.data.hot w).isNone) with
  | some w => some (w, s)
  | none =>
    match s.victim k with
    | none => none
    | some (w, h) => (s.evictWay w h).map (fun t => (w, t))

/-- The hot-cache copy of an entry read with its ECC (R70, R71): false where it delivers a data error. -/
def State.entryRead (s : State) (i : Nat) : Bool × State :=
  match s.hotWay i with
  | none => (true, s)
  | some (w, _) =>
    let r := s.sramRead (wayAddr w) 128
    (r.1.isSome, r.2)

/-- A way's entry used last. -/
def State.hotUse (s : State) (i : Nat) : State :=
  match s.hotWay i with
  | none => s
  | some (w, h) =>
    { s with data := { s.data with
      hot := tset s.data.hot w { h with used := s.data.hotClock + 1 }, hotClock := s.data.hotClock + 1 } }

/-! ## Supervision (R230, R231) -/

/-- The supervision time of an entry in ticks; none where it is not supervised. -/
def State.supTime (s : State) (e : TableEntry) : Option Nat :=
  if eget e eSUPTO ≠ 0 then some (eget e eSUPTO)
  else if eget e eTYPE = tyGOOSE ∨ eget e eTYPE = tyRGOOSE then
    if eget e eLASTTAL = 0 then none else some (ceilDiv (2 * eget e eLASTTAL * s.get TICK_RATE_RATE) 1000)
  else none

/-- Whether an entry has expired. -/
def State.expired (s : State) (e : TableEntry) : Bool :=
  match s.supTime e with
  | none => false
  | some t => eon e eSTARTED && decide (t < cdiff s.tick32 (eget e eLASTTICK))

/-- An entry that can be read checked: a loss is marked, counted, queued and reported. -/
def State.supCheck (u : State) (i : Nat) : State :=
  let r := u.entryRead i
  let s := r.2
  let e := s.entry i
  if r.1 && eon e eV && decide (eget e eROLE = rlSUBSCRIBE ∨ eget e eROLE = rlFORWARD) && eon e eSTARTED &&
      !(eon e eLOST) && s.expired e then
    let s1 := s.setEntry i (ecount (eput e eLOST 1) eSUPLOST 1)
    ((s1.statusItem (eget e eQUEUE) stSUPERVISION_LOST i (eget e eLASTEPOCH)).put ASSOC_SUPLOST_IDX_INDEX i).setIrq 110
  else s

/-- SUPERVISION_SWEEP: SUPSWEEP ms after the last one, every entry of the hot cache is checked. -/
def execSupervisionSweep (s : State) : Out :=
  let s1 := s.passTo (s.data.supAt + s.get ASSOC_CTL_SUPSWEEP * cyclesPerMs)
  let s2 : State := { s1 with data := { s1.data with supAt := s1.clock } }
  .next (s2.data.hot.foldl (fun t e => t.supCheck e.2.entry) s2)

/-- An entry brought into the hot cache for a command that reads or writes its replay state or counters (R229): false
where its line or its copy delivers a data error. While no way of its set qualifies, the command acts on the entry in
DRAM (log entry 122). -/
def State.bring (s : State) (i : Nat) : Bool × State :=
  if (s.hotWay i).isSome then s.entryRead i
  else
    match s.wayFor i with
    | none => (true, s)
    | some (w, s1) =>
      match s1.dramRead (entryAddr i) 128 with
      | (none, s2) => (false, s2)
      | (some img, s2) => (true, (s2.fillWay w i img).supCheck i)

/-- ASSOC_SUPLOST_IDX_READ. -/
def execAssocSuplostIdxRead (s : State) : Out := .next (s.clrIrq 110)

/-! ## The staged image (R232, R233) -/

/-- The entry image in ASSOC_STAGE. -/
def State.stageImage (s : State) : TableEntry :=
  (List.range 16).map (fun j => (s.rd (ASSOC_STAGE (2 * j))).toNat + 2 ^ 32 * (s.rd (ASSOC_STAGE (2 * j + 1))).toNat)

/-- The staged identifier. -/
def State.stageId (s : State) : Bytes := (s.regBytes (ASSOC_STAGE_ID 0) 33).take (s.get ASSOC_STAGE_IDLEN_LEN)

/-- A staged address as its octets in the order sent: sixteen, or the last four for IPv4. -/
def State.stageIp (s : State) (k : Nat) : Bytes :=
  let b := (List.range 4).flatMap (fun j => (natToBytes 4 (s.rd (ASSOC_STAGE_ADDR (k + j))).toNat).reverse)
  if s.on ASSOC_STAGE_ADDR8_IPV6 then b else b.drop 12

/-- The match key that the staged values give. -/
def State.stageKey (s : State) (img : TableEntry) : MatchKey :=
  let ty := eget img eTYPE
  let dst := if 2 ≤ ty then s.dstHash (s.stageIp 4) (s.get ASSOC_STAGE_ADDR8_PORT) else bits (img.getD 0 0) 63 16
  let src := if 2 ≤ ty then s.srcHash (s.stageIp 0) else bits (img.getD 1 0) 63 16
  ⟨2 ^ 16 * dst + bits (img.getD 0 0) 15 0,
    2 ^ 16 * src + 2 ^ 15 * bits (img.getD 1 0) 15 15 + bits (img.getD 1 0) 11 0, s.idHash s.stageId, ty⟩

/-- Tag lengths of an algorithm (Table 6-4). -/
def tagLenOk (alg n : Nat) : Bool :=
  if alg = 2 then decide (n = 10 ∨ n = 16 ∨ n = 32) else decide (n = 8 ∨ n = 12 ∨ n = 16)

/-- The staging index of the first field R233 refuses in an image. -/
def State.imageBad (s : State) (img : TableEntry) (pinBroken : Bool) : Option Nat :=
  let ty := eget img eTYPE
  let role := eget img eROLE
  let sv := decide (ty = tySV ∨ ty = tyRSV)
  if 4 ≤ ty ∨ (role ≠ rlDROP ∧ 3 ≤ eget img eALG) then some 7
  else if role ≠ rlDROP ∧ tagLenOk (eget img eALG) (eget img eTAGLEN) = false then some 7
  else if sv && decide (eget img eSMPMAX = 0 ∨ eget img eCHCOUNT < 1 ∨ 64 < eget img eCHCOUNT) then some 11
  else if sv && decide (eget img eSUPTO = 0 ∨ s.get TICK_RATE_RATE ≤ 2 * eget img eSUPTO) then some 10
  else if !sv && decide (eget img eSMPMAX ≠ 0 ∨ eget img eCHCOUNT ≠ 0) then some 11
  else if (role = rlSUBSCRIBE ∨ role = rlDROP) ∧ eget img eEGRESS ≠ 0 then some 7
  else if pinBroken then some 7
  else none

/-- Whether one more pinned entry would break a limit of R228. -/
def State.pinFull (s : State) (k : Nat) : Bool :=
  decide (131072 ≤ s.data.pins.length) || decide (8 ≤ (s.data.pins.filter (fun e => decide (e.2 = k))).length)

/-- The pinned entries with their count. -/
def State.putPins (s : State) (l : List (Nat × Nat)) : State :=
  ({ s with data := { s.data with pins := l } }).put ASSOC_PINNED_COUNT l.length

/-- The unused bits of words 3 and 5 cleared. -/
def cleanWord3 (w : Nat) : Nat := 2 ^ 13 * (w / 2 ^ 13)
def cleanWord5 (w : Nat) : Nat := bitsSet w 60 55 0

/-! ## Placement and relocation (R234) -/

/-- The free way of a bucket. -/
def State.freeIn (s : State) (b : Nat) : Option Nat := (bucketEntries b).find? (fun i => !(eon (s.entry i) eV))

/-- The other candidate bucket of an entry. -/
def State.otherBucket (s : State) (i : Nat) : Nat :=
  let m := s.mix (entryKey (s.entry i))
  if m.1 = i / 4 then m.2.1 else m.1

/-- An entry's place changes: frames, holds, requests, samples and the cache that name it follow. -/
def State.renameEntry (s : State) (i j : Nat) : State :=
  let rn (n : Nat) : Nat := if n = i then j else n
  let st (f : FrameStage) : FrameStage :=
    match f with
    | .received => .received
    | .fill n => .fill (rn n)
    | .matched n => .matched (rn n)
    | .verified n ep b => .verified (rn n) ep b
  let samples := match tget s.data.samples i with
    | some x => tset (terase s.data.samples i) j x
    | none => s.data.samples
  { s with data := { s.data with
    frames := s.data.frames.map (fun f => { f with stage := st f.stage })
    hot := s.data.hot.map (fun e => (e.1, { e.2 with entry := rn e.2.entry, dirty := e.2.dirty || decide (e.2.entry = i) }))
    pins := s.data.pins.map (fun e => (rn e.1, e.2))
    held := s.data.held.map (fun e => (e.1, { e.2 with entry := rn e.2.entry }))
    rel := s.data.rel.map (fun e => (e.1, { e.2 with assoc := rn e.2.assoc }))
    samples := samples } }

/-- An entry relocated: written at its new place, then cleared at the old one. -/
def State.relocate (s : State) (i j : Nat) : State :=
  let img := s.peek (entryAddr i) 128
  let s1 := (s.memStore (entryAddr j) (match s.hotWay i with | some (w, _) => s.peek (wayAddr w) 128 | none => img))
  (s1.renameEntry i j).memStore (entryAddr i) (List.replicate 128 0)

/-- The walk from a full bucket: a way is taken whose other bucket has not been visited (which one is free, log entry
22), until a bucket with a free way is met; the ways taken, last first, and that free place. -/
def State.kickWalk (s : State) : Nat → Nat → List Nat → List Nat → Option (List Nat × Nat) × State
  | 0, _, _, _ => (none, s)
  | n + 1, b, seen, path =>
    let r := s.free
    let ways := (bucketEntries b).filter (fun i => !(seen.contains (r.2.otherBucket i)))
    match ways[r.1 % (max 1 ways.length)]? with
    | none => (none, r.2)
    | some i =>
      let o := r.2.otherBucket i
      match r.2.freeIn o with
      | some j => (some (i :: path, j), r.2)
      | none => r.2.kickWalk n o (o :: seen) (i :: path)

/-- Relocations, at most `n`: the entry whose other bucket has the free place is chosen and carried out, which frees its
own place for the next; the place freed for the new entry at the end, none where the relocations run out before: those
made stay (R234). -/
def State.relocateAll (s : State) : Nat → List Nat → Nat → Option Nat × State
  | _, [], j => (some j, s)
  | 0, _ :: _, _ => (none, s)
  | n + 1, i :: path, j => (s.relocate i j).relocateAll n path i

/-- A place for a new entry; none where the walk ends without one. -/
def State.placeEntry (s : State) (k : MatchKey) : Option Nat × State :=
  let m := s.mix k
  match s.freeIn m.1 with
  | some i => (some i, s)
  | none =>
    match s.freeIn m.2.1 with
    | some i => (some i, s)
    | none =>
      match s.kickWalk 524288 m.1 [m.1, m.2.1] [] with
      | (some (path, j), s1) => s1.relocateAll (s.get ASSOC_CTL_KICKMAX) path j
      | (none, s1) => (none, s1)

/-! ## Commands (R232 to R235, Table 6-14) -/

/-- A command ends: BUSY clears, its result stands, source ASSOC_CMD_DONE. -/
def State.assocEnd (s : State) (st word : Nat) : State :=
  ((s.put ASSOC_CMD_RESULT_BUSY 0).put ASSOC_CMD_RESULT_WORD word).put ASSOC_CMD_RESULT_STATUS st |>.setIrq 109

/-- ASSOC_INSERT. -/
def State.assocInsert (s : State) : State :=
  let img := s.stageImage
  let k := s.stageKey img
  let set := (s.mix k).2.2
  match s.imageBad img (eon img ePIN && s.pinFull set) with
  | some w => s.assocEnd stBAD_PARAM w
  | none =>
    match s.findEntry k with
    | some i => (s.put ASSOC_CMD_INDEX_INDEX i).assocEnd stDUPLICATE 0
    | none =>
      match s.placeEntry k with
      | (none, s1) => s1.assocEnd stTABLE_FULL 0
      | (some i, s1) =>
        let e : TableEntry := [k.w0, k.w1, k.w2, bitsSet (cleanWord3 (img.getD 3 0)) 63 63 1, img.getD 4 0,
          cleanWord5 (img.getD 5 0), 0, 0, 0, 0, 0, 0, 0, 0, 0, img.getD 15 0]
        let s2 := (s1.setEntry i e).inc ASSOC_COUNT_COUNT
        let s3 : State := { s2 with data := { s2.data with samples := terase s2.data.samples i } }
        let s4 := if eon img ePIN then s3.putPins ((i, set) :: s3.data.pins) else s3
        (s4.put ASSOC_CMD_INDEX_INDEX i).assocEnd stOK 0

/-- ASSOC_FIND. -/
def State.assocFind (s : State) : State :=
  match s.findEntry (s.stageKey s.stageImage) with
  | some i => (s.put ASSOC_CMD_INDEX_INDEX i).assocEnd stOK 0
  | none => s.assocEnd stNO_ASSOC 0

/-- An entry's words copied to ASSOC_STAGE. -/
def State.stagePut (s : State) (j : Nat) : List Nat → State
  | [] => s
  | w :: ws => (s.put64 (ASSOC_STAGE (2 * j)) (ASSOC_STAGE (2 * j + 1)) w).stagePut (j + 1) ws

/-- An UPDATE put in its entry, or refused with the word that stops it (R238); `set` is the entry's set. -/
def State.updateTo (s : State) (i set : Nat) (e e' : TableEntry) (bad : Option Nat) : State :=
  match bad with
  | some w => s.assocEnd stBAD_PARAM w
  | none =>
    let s1 := s.setEntry i e'
    let s2 :=
      if eon e' ePIN && !(eon e ePIN) then s1.putPins ((i, set) :: s1.data.pins)
      else if eon e ePIN && !(eon e' ePIN) then s1.putPins (s1.data.pins.filter (fun p => decide (p.1 ≠ i)))
      else s1
    s2.assocEnd stOK 0

/-- ASSOC_UPDATE of a valid entry. -/
def State.assocUpdate (s : State) (i : Nat) : State :=
  let e := s.entry i
  let img := s.stageImage
  let w3 := bitsSet (bitsSet (cleanWord3 (img.getD 3 0)) 63 63 1) 62 60 (eget e eTYPE)
  let e' := (((e.set 3 w3).set 4 (img.getD 4 0)).set 5 (cleanWord5 (img.getD 5 0))).set 15 (img.getD 15 0)
  let set := (s.mix (entryKey e)).2.2
  let newPin := eon e' ePIN && !(eon e ePIN)
  s.updateTo i set e e' (s.imageBad e' (newPin && s.pinFull set))

/-- An entry leaves the hot cache. -/
def State.dropWay (s : State) (i : Nat) : State :=
  match s.hotWay i with
  | none => s
  | some (w, _) => { s with data := { s.data with hot := terase s.data.hot w } }

/-- ASSOC_DELETE of a valid entry: its place in DRAM is written, and it leaves the hot cache. -/
def State.assocDelete (s : State) (i : Nat) : State :=
  let e := eput (s.entry i) eV 0
  let s1 := ((s.dropWay i).setEntry i e).put ASSOC_COUNT_COUNT (s.get ASSOC_COUNT_COUNT - 1)
  let s2 : State := { s1 with data := { s1.data with
    samples := terase s1.data.samples i
    frames := s1.data.frames.map (fun f => { f with stage := f.stage.orphan i }) } }
  (s2.putPins (s2.data.pins.filter (fun p => decide (p.1 ≠ i)))).assocEnd stOK 0

/-- A write of ASSOC_CMD with GO = 1 and an operation code (Table 6-14). -/
def State.assocGo (s : State) (op : Nat) : State :=
  if s.on ASSOC_CMD_RESULT_BUSY then s
  else
    let i := s.get ASSOC_CMD_INDEX_INDEX
    let onEntry (f : State → State) : State :=
      if s.entryValid i then
        let r := s.bring i
        if r.1 then f r.2 else r.2.assocEnd stNO_ASSOC 0
      else s.assocEnd stNO_ASSOC 0
    match op with
    | 1 => s.assocInsert
    | 2 => s.assocFind
    | 3 => onEntry (fun t => (t.stagePut 0 (t.entry i)).assocEnd stOK 0)
    | 4 => onEntry (fun t => t.assocUpdate i)
    | 5 => if s.entryValid i then s.assocDelete i else s.assocEnd stNO_ASSOC 0
    | 6 => onEntry (fun t => (t.setEntry i ((((t.entry i).set 6 0).set 7 0).set 8 0)).assocEnd stOK 0)
    | 7 => onEntry (fun t =>
        (t.setEntry i ((t.entry i).take 9 ++ [0, 0, 0, 0, 0, 0] ++ (t.entry i).drop 15)).assocEnd stOK 0)
    | _ => s.assocEnd stBAD_OPCODE 0

/-- ASSOC_INSERT. -/
def execAssocInsert (s : State) : Out := .next (s.assocGo 1)
/-- ASSOC_FIND. -/
def execAssocFind (s : State) : Out := .next (s.assocGo 2)
/-- ASSOC_READ. -/
def execAssocRead (s : State) : Out := .next (s.assocGo 3)
/-- ASSOC_UPDATE. -/
def execAssocUpdate (s : State) : Out := .next (s.assocGo 4)
/-- ASSOC_DELETE. -/
def execAssocDelete (s : State) : Out := .next (s.assocGo 5)
/-- ASSOC_RESETSEQ. -/
def execAssocResetseq (s : State) : Out := .next (s.assocGo 6)
/-- ASSOC_CLRCNT. -/
def execAssocClrcnt (s : State) : Out := .next (s.assocGo 7)
/-- ASSOC_CMD_UNASSIGNED: an OP of 0 or from 8 to 15. -/
def execAssocCmdUnassigned (op : Nat) (s : State) : Out :=
  if 1 ≤ op % 16 ∧ op % 16 ≤ 7 then .next s else .next (s.assocGo (op % 16))
/-- ASSOC_CMD_RESULT_READ. -/
def execAssocCmdResultRead (s : State) : Out :=
  if s.on ASSOC_CMD_RESULT_BUSY then .next s else .next (s.clrIrq 109)

end Sys2Proof.Machine
end

