-- ==== Sys2Proof/Machine/Ports.lean ====
section
/-! DEFINITION. Ports and pairs: link, reception, the duplicate-discard tables, supervision frames, sending (R210 to
R216, R257 to R259). -/

namespace Sys2Proof.Machine

/-! ## The link of a port -/

/-- A port's link goes up or down (R259): PORT_LINK is requested while the state differs from the last one read; the
loss of the link of an enabled port raises its source. -/
def State.setLink (s : State) (n : Nat) (up : Bool) : State :=
  if s.on (PORT_STATUS_LINK n) == up then s
  else
    let s1 := (s.putB (PORT_STATUS_LINK n) up).irq (104 + n) (!(s.on (INTC_SRC_LEVEL (104 + n))))
    if !up && s1.on (PORT_CTL_EN n) then s1.raise (SRC_PORT_LINK n) n else s1

/-- A write of PORT_CTL (R210, Table 6-11): it writes MODE and FEC and so takes the link down, which retrains in the new
mode; RS-FEC is refused outside 25GBASE-R, the FEC in force staying (R14). -/
def State.portCtlWrite (s : State) (n : Nat) (v : Word32) : State :=
  let m := s.accepted (PORT_CTL_MODE n) v
  let f := s.accepted (PORT_CTL_FEC n) v
  let bad := decide (f = 2 ∧ m ≠ 0)
  let w := if bad then wordSet v 7 6 (s.get (PORT_CTL_FEC n)) else v
  let s1 := s.regStore (PORT_CTL n) w
  let s2 := if bad then s1.raise (cfgSource (PORT_CTL n)) 0 else s1
  let s3 := s2.setLink n false
  s3.put (PORT_STATUS_MODE n) (s3.get (PORT_CTL_MODE n))

/-- PORT_CTL_WRITE. -/
def execPortCtlWrite (n : Nat) (v : Word32) (s : State) : Out := .next (if n < 4 then s.portCtlWrite n v else s)

/-- Whether a port's sideband inputs let its link be up (R588): LOS and TXFLT hold it down, MODABS holds the port
disabled. -/
def sfpClear (p : SfpPins) : Bool := !p.los && !p.txflt && !p.modabs

/-- PORT_LINK_CHANGE: a link comes up only on an enabled port whose sideband inputs allow it. -/
def execPortLinkChange (n : Nat) (link : LinkSense) (s : State) : Out :=
  if n < 4 then
    let s1 : State := { s with data := { s.data with sfp := tset s.data.sfp n link.pins } }
    .next (s1.setLink n (link.up && s1.on (PORT_CTL_EN n) && sfpClear link.pins))
  else .next s

/-- PORT_STATUS_READ. -/
def execPortStatusRead (n : Nat) (s : State) : Out := .next (if n < 4 then s.clrIrq (104 + n) else s)

/-- The values of PAIR_CTL.MODE. -/
abbrev pmNONE : Nat := 0
abbrev pmPRP : Nat := 1
abbrev pmHSR : Nat := 2

/-- The pairs whose partner stopped, with source PAIR_SUPV. -/
def State.putSupvLost (s : State) (l : List Nat) : State :=
  ({ s with data := { s.data with supvLost := l } }).irq 115 (!(l.isEmpty))

/-- A write of PAIR_CTL (R213): both ports of the pair go down; supervision starts anew. -/
def State.pairCtlWrite (s : State) (k : Nat) (v : Word32) : State :=
  let s1 := s.regStore (PAIR_CTL k) v
  if s.accepted (PAIR_CTL_MODE k) v = wordField v 1 0 then
    let s2 := (s1.setLink (2 * k) false).setLink (2 * k + 1) false
    let s3 : State := { s2 with data := { s2.data with
      pairTx := tset s2.data.pairTx k s2.clock, pairRx := terase s2.data.pairRx k } }
    s3.putSupvLost (s3.data.supvLost.filter (· ≠ k))
  else s1

/-- PAIR_CTL_WRITE. -/
def execPairCtlWrite (k : Nat) (v : Word32) (s : State) : Out := .next (if k < 2 then s.pairCtlWrite k v else s)

/-- PAIR_SUPV_TIMEOUT: a partner whose supervision frames have been heard stops sending them. -/
def execPairSupvTimeout (k : Nat) (s : State) : Out :=
  if k < 2 ∧ s.get (PAIR_CTL_MODE k) ≠ pmNONE ∧ (tget s.data.pairRx k).isSome = true then
    .next (s.putSupvLost (k :: s.data.supvLost.filter (· ≠ k)))
  else .next s

/-- A supervision frame of a partner is heard. -/
def State.supvHeard (s : State) (k : Nat) : State :=
  ({ s with data := { s.data with pairRx := tset s.data.pairRx k s.clock } }).putSupvLost
    (s.data.supvLost.filter (· ≠ k))

/-! ## Sending (R216, R249) -/

/-- A frame sent on one port: only an enabled port with its link up sends. -/
def State.sendPort (s : State) (n : Nat) (octets : Bytes) (seq : Option Nat) : State :=
  if s.on (PORT_CTL_EN n) && s.on (PORT_STATUS_LINK n) then
    ({ s with data := { s.data with sent := tset s.data.sent n (octets, seq) } }).inc (PORT_TX_FRAMES_COUNT n)
  else s

/-- A frame sent on a pair: on both ports with the pair's next sequence number where it is a PRP or HSR pair, otherwise
on the ports asked for. -/
def State.sendPair (s : State) (k : Nat) (lo hi : Bool) (octets : Bytes) : State :=
  if !lo && !hi then s
  else if s.get (PAIR_CTL_MODE k) = pmNONE then
    let s1 := if lo then s.sendPort (2 * k) octets none else s
    if hi then s1.sendPort (2 * k + 1) octets none else s1
  else
    let n := (tgetD s.data.pairSeq k 0)
    let s1 : State := { s with data := { s.data with pairSeq := tset s.data.pairSeq k ((n + 1) % 65536) } }
    (s1.sendPort (2 * k) octets (some n)).sendPort (2 * k + 1) octets (some n)

/-- A frame sent on the ports of a mask. -/
def State.sendMask (s : State) (mask : Nat) (octets : Bytes) : State :=
  (s.sendPair 0 (bitOf mask 0) (bitOf mask 1) octets).sendPair 1 (bitOf mask 2) (bitOf mask 3) octets

/-- PRP_SUPERVISION_TX: every 2,000 ms on a PRP or HSR pair; the frame's content is IEC 62439-3's. -/
def execPrpSupervisionTx (k : Nat) (s : State) : Out :=
  if k < 2 ∧ s.get (PAIR_CTL_MODE k) ≠ pmNONE then
    let s1 := s.passTo (tgetD s.data.pairTx k 0 + 2000 * cyclesPerMs)
    let b := s1.freeB 60
    .next ({ b.2 with data := { b.2.data with pairTx := tset b.2.data.pairTx k b.2.clock } }.sendPair k true true b.1)
  else .next s

/-! ## Classes (R221 to R224) -/

/-- The classes of Table 6-1; fragments are discarded by rules 5 to 7. -/
inductive FrameClass where
  | ptp | supervision | goose | sv | kdc | rgoose | rsv | other | frag
  deriving DecidableEq, Repr

/-- The EtherType after at most one IEEE 802.1Q tag, and the tag's VLAN identifier. -/
def etherType (f : Bytes) : Nat × Option Nat :=
  if beNat ((f.drop 12).take 2) = 0x8100 then (beNat ((f.drop 16).take 2), some (beNat ((f.drop 14).take 2) % 4096))
  else (beNat ((f.drop 12).take 2), none)

/-- The class of a frame. -/
def State.classOf (s : State) (f : Bytes) (v : MsgView) : FrameClass :=
  let et := (etherType f).1
  if et = 0x88F7 then .ptp
  else if et = 0x88FB then .supervision
  else if et = 0x88B8 then .goose
  else if et = 0x88BA then .sv
  else if et = 0x0800 ∨ et = 0x86DD then
    match v.ip with
    | none => .other
    | some ip =>
      if et = 0x0800 ∧ ip.fragment = true then .frag
      else if (et = 0x86DD ∧ ip.extHeader = true) ∨ ip.udp = false then .other
      else if s.get CLASS_CTL_KDC_PORT ≠ 0 ∧ ip.dport = s.get CLASS_CTL_KDC_PORT then .kdc
      else if ip.dport = s.get CLASS_CTL_ROUTE_PORT then
        if ip.session = 1 then .rgoose else if ip.session = 2 then .rsv else .other
      else .other
  else .other

/-- The TYPE of a class that is looked up. -/
def FrameClass.type? : FrameClass → Option Nat
  | .goose => some tyGOOSE
  | .sv => some tySV
  | .rgoose => some tyRGOOSE
  | .rsv => some tyRSV
  | .ptp => none
  | .supervision => none
  | .kdc => none
  | .other => none
  | .frag => none

/-- The identifier of a frame: goID, or the svID of the first ASDU (R223). -/
def viewName (v : MsgView) (ty : Nat) : Bytes :=
  if ty = tySV ∨ ty = tyRSV then (v.asdus.head?.map (fun a => a.svId)).getD [] else v.ident

/-- Whether a frame can be parsed far enough to form its match key: an SV frame needs a first ASDU (R223, R224). -/
def viewKeyed (v : MsgView) (ty : Nat) : Bool :=
  v.parsable && !((decide (ty = tySV ∨ ty = tyRSV)) && v.asdus.isEmpty)

/-- The match key of a frame (R223). -/
def State.frameKey (s : State) (ty : Nat) (f : Bytes) (v : MsgView) : MatchKey :=
  let ip := v.ip.getD default
  let dst := if 2 ≤ ty then s.dstHash ip.dstIp ip.dport else beNat (f.take 6)
  let src := if 2 ≤ ty then s.srcHash ip.srcIp else beNat ((f.drop 6).take 6)
  let vl := (etherType f).2
  ⟨2 ^ 16 * dst + v.appid % 2 ^ 16, 2 ^ 16 * src + (if vl.isSome then 2 ^ 15 else 0) + vl.getD 0, s.idHash (viewName v ty), ty⟩

/-- The entry that a frame's match key finds, where the frame is of a class that is looked up. -/
def State.frameEntry (s : State) (f : Bytes) (v : MsgView) : Option Nat :=
  match (s.classOf f v).type? with
  | none => none
  | some ty => if viewKeyed v ty then s.findEntry (s.frameKey ty f v) else none

/-! ## Frames in the buffer -/

/-- A frame taken into the frame buffer: source 0 to 3 a port, 4 the Bridge. -/
def State.frameTake (s : State) (src : Nat) (octets : Bytes) (v : MsgView) : State :=
  let f : Frame := ⟨s.data.nextFrame, src, octets, v, s.tsSec, s.tsNs, .received⟩
  { s with data := { s.data with frames := s.data.frames ++ [f], nextFrame := s.data.nextFrame + 1 } }

/-- A frame leaves the path. -/
def State.frameDrop (s : State) (id : Nat) : State :=
  { s with data := { s.data with frames := s.data.frames.filter (fun f => decide (f.id ≠ id)) } }

/-- A frame at its next stage. -/
def State.frameStage (s : State) (id : Nat) (st : FrameStage) : State :=
  { s with data := { s.data with
    frames := s.data.frames.map (fun f => if f.id = id then { f with stage := st } else f) } }

/-! ## Duplicates (R213, R214) -/

/-- What the duplicate-discard table knows a frame by: its pair, source address and sequence number; none for a frame
that carries neither a PRP trailer nor an HSR tag or whose port belongs to no such pair. -/
def State.dupKey (s : State) (src : Nat) (octets : Bytes) (v : MsgView) : Option (Nat × Nat × Nat) :=
  if 4 ≤ src ∨ s.get (PAIR_CTL_MODE (src / 2)) = pmNONE then none
  else v.red.map (fun t => (src / 2, beNat ((octets.drop 6).take 6), t.seq))

/-- Whether the table holds a key. -/
def State.dupHas (s : State) (k : Option (Nat × Nat × Nat)) : Bool :=
  match k with
  | none => false
  | some (p, m, q) => s.data.dups.any (fun d => decide (d.pair = p ∧ d.mac = m ∧ d.seq = q))

/-- A key enters the table of its pair; a full table of 4,096 loses its oldest entry. -/
def State.dupAdd (s : State) (k : Option (Nat × Nat × Nat)) : State :=
  match k with
  | none => s
  | some (p, m, q) =>
    let mine := s.data.dups.filter (fun d => decide (d.pair = p))
    let rest := s.data.dups.filter (fun d => decide (d.pair ≠ p))
    let kept := if 4096 ≤ mine.length then mine.drop 1 else mine
    { s with data := { s.data with dups := rest ++ kept ++ [⟨p, m, q, s.clock⟩] } }

/-- DUP_ENTRY_FORGET: the oldest entry of pair `k` is forgotten 400 ms after it was made. -/
def execDupEntryForget (k : Nat) (s : State) : Out :=
  match s.data.dups.find? (fun d => decide (d.pair = k)) with
  | none => .next s
  | some d =>
    let s1 := s.passTo (d.at_ + 400 * cyclesPerMs)
    .next { s1 with data := { s1.data with dups := s1.data.dups.erase d } }

/-! ## Reception (R211, R212, R215) -/

/-- A frame without its PRP trailer or HSR tag, each of 6 octets, which the module strips in PRP and HSR mode (R213; log
entry 119). -/
def strip (m : Nat) (t : Option RedTag) (f : Bytes) : Bytes :=
  match t with
  | none => f
  | some t =>
    if m = pmHSR ∧ t.hsr = true then f.take 12 ++ f.drop 18
    else if m = pmPRP ∧ t.hsr = false then f.take (f.length - 6)
    else f

/-- A frame whose size and FCS are right, on a port whose pair is in mode `m`: the LAN or tag is checked, a frame of the
module itself removed, one not for the module alone passed on, a duplicate discarded, the rest taken. -/
def State.portTake (s : State) (n : Nat) (f : WireFrame) : State :=
  let k := n / 2
  let m := s.get (PAIR_CTL_MODE k)
  let tagged := match f.view.red with | some t => t.hsr | none => false
  if m = pmHSR && !tagged then s.inc (PAIR_NOTAG_COUNT k)
  else if m = pmHSR && f.view.own then s
  else
    let s1 :=
      match f.view.red with
      | some t => if m = pmPRP ∧ t.hsr = false ∧ t.lan ≠ n % 2 then s.inc (PAIR_LANERR_COUNT k) else s
      | none => s
    let s2 :=
      if m = pmHSR && !f.view.toModule then s1.sendPort (2 * k + (1 - n % 2)) f.octets none else s1
    let o := strip m f.view.red f.octets
    let key := s2.dupKey n o f.view
    let path := decide (s2.classOf o f.view = FrameClass.ptp) || (s2.frameEntry o f.view).isSome
    if path then s2.frameTake n o f.view
    else if s2.dupHas key then s2.inc (PORT_RX_DUP_COUNT n)
    else (s2.dupAdd key).frameTake n o f.view

/-- PORT_FRAME_RX. -/
def execPortFrameRx (n : Nat) (f : WireFrame) (s : State) : Out :=
  if 4 ≤ n ∨ s.on (PORT_CTL_EN n) = false ∨ s.on (PORT_STATUS_LINK n) = false then .next s
  else if s.bufRoom f.octets.length = false then .next (s.inc (PORT_RX_NOBUF_COUNT n))
  else if f.wireLen < 64 ∨ 1536 < f.wireLen then .next (s.inc (PORT_RX_SIZE_COUNT n))
  else if f.fcsOk = false then .next (s.inc (PORT_RX_FCSERR_COUNT n))
  else .next ((s.inc64 (PORT_RX_FRAMES_LO n) (PORT_RX_FRAMES_HI n) 1).portTake n f)

end Sys2Proof.Machine
end

