-- ==== Sys2Proof/Machine/Ptp.lean ====
section
/-! DEFINITION. The PTP unit (R217 to R219). -/

namespace Sys2Proof.Machine

/-- Clock types of PTP_CTL.TYPE. -/
abbrev ptOC : Nat := 0
abbrev ptBC : Nat := 1
abbrev ptTC : Nat := 2

/-- The ports on which the module runs PTP (R217). -/
def State.ptpPorts (s : State) : List Nat :=
  if s.get PTP_CTL_TYPE = ptOC then [s.get TIME_CTL_PTP_PORT]
  else (List.range 4).filter (fun n => bitOf (s.get PTP_CTL_PORTEN) n)

/-- The selected master: the partner of the best rank heard, the first of equals. -/
def bestMaster (l : List (Partner × Nat)) : Option Partner :=
  (l.foldl (fun b e =>
    match b with
    | none => some e
    | some x => if e.2 < x.2 then some e else b) (none : Option (Partner × Nat))).map (fun e => e.1)

/-- The best-master algorithm run over the ranks heard. -/
def State.runBmca (s : State) : State := { s with data := { s.data with master := bestMaster s.data.ranks } }

/-- A partner is demoted (R218, R219): counted, recorded, its messages unused for PTP_DEMOTE_S seconds, the
best-master algorithm run without it. -/
def State.ptpDemote (s : State) (q : Partner) : State :=
  let until_ := s.clock + cyclesPerSec * s.get PTP_DEMOTE_S_S
  let s1 : State := { s with data := { s.data with
    demoted := s.data.demoted ++ [(q, until_)], ranks := s.data.ranks.filter (fun e => decide (e.1 ≠ q)) } }
  let s2 := ((s1.inc PTP_DEMOTED_COUNT).setIrq 108).evUnitFree 108
  let s3 := if s2.data.master = some q then s2.runBmca else s2
  s3.raise SRC_PTP_DEMOTE 0

/-- An offset measured from the selected master on the port of the servo (PTP_PORT, Table 1-6) steers module time where PTP
is the selected source (R19, R21); its seconds count is then known (R20). -/
def State.ptpOffset (s : State) (q : Partner) (ns : Int) : State :=
  if s.get TIME_CTL_SRC = srcPtp ∧ s.data.master = some q ∧ q.port = s.get TIME_CTL_PTP_PORT then
    ({ s with time := { s.time with ptpSec := true } }).servo (thirdsPerNs * ns)
  else s

/-- A Sync of the selected master, whose offset follows in its Follow_Up, shows that the source is there (R21). -/
def State.ptpHeard (s : State) (q : Partner) : State :=
  if s.get TIME_CTL_SRC = srcPtp ∧ s.data.master = some q ∧ q.port = s.get TIME_CTL_PTP_PORT then
    { s with time := { s.time with lastSrc := s.clock } }
  else s

/-- A PTP message of `len` octets sent on a port; its octets are the profile's. -/
def State.ptpSend (s : State) (len port : Nat) : State :=
  let f := s.freeB len
  f.2.sendPort port f.1 none

/-- `k` messages passed on by a transparent clock on its other PTP ports: it sends a two-step Sync, with its Follow_Up,
for a one-step Sync too (R217). -/
def State.ptpForward (s : State) (q : Partner) (k : Nat) : State :=
  if s.get PTP_CTL_TYPE = ptTC then
    (s.ptpPorts.filter (fun n => decide (n ≠ q.port))).foldl (fun t n =>
      (List.range k).foldl (fun u _ => u.ptpSend 58 n) t) s
  else s

/-- Whether a correctionField is out of range (R218). -/
def State.badCorrection (s : State) (c : Int) : Bool :=
  decide (c < 0) || decide ((s.get PTP_CORRMAX_NS : Int) < c)

/-- A message of a partner that is not demoted; a peer-delay request is answered by a response and its follow-up (log
entry 118). -/
def State.ptpUse (s : State) (q : Partner) : PtpMsg → State
  | .malformed => s.inc PTP_MALFORMED_COUNT
  | .sync two c o =>
    if s.badCorrection c then s.ptpDemote q
    else ((if two then s.ptpHeard q else s.ptpOffset q o)).ptpForward q (if two then 1 else 2)
  | .followUp c o => if s.badCorrection c then s.ptpDemote q else (s.ptpOffset q o).ptpForward q 1
  | .pdelayReq => (s.ptpSend 68 q.port).ptpSend 68 q.port
  | .pdelay m => if m < 0 ∨ (s.get PTP_PDELAYMAX_NS : Int) < m then s.ptpDemote q else s
  | .announce d r =>
    if d ≠ s.get PTP_CTL_DOMAIN then s.ptpDemote q
    else
      (({ s with data := { s.data with
        ranks := s.data.ranks.filter (fun (e : Partner × Nat) => decide (e.1 ≠ q)) ++ [(q, r)] } }).runBmca).ptpForward q 1

/-- A message of the partner with a source port identity, heard on a port. -/
def State.ptpRx (s : State) (ident port : Nat) (m : PtpMsg) : State :=
  let q : Partner := ⟨ident, port⟩
  if s.ptpPorts.contains port && s.on (PORT_CTL_EN port) && s.on (PORT_STATUS_LINK port) then
    if m = .malformed then s.inc PTP_MALFORMED_COUNT
    else if s.data.demoted.any (fun e => decide (e.1 = q)) then s
    else s.ptpUse q m
  else s

/-- PTP_MESSAGE_RX: a message as the PTP unit takes it. -/
def execPtpMessageRx (ident port : Nat) (m : PtpMsg) (s : State) : Out := .next (s.ptpRx ident port m)

/-- PTP_DEMOTE_EXPIRY (R219): the demotion of the partner demoted first ends. -/
def execPtpDemoteExpiry (s : State) : Out :=
  match s.data.demoted with
  | [] => .next s
  | e :: rest =>
    let s1 := s.passTo e.2
    .next { s1 with data := { s1.data with demoted := rest } }

/-- The PTP ports in master role: those of an ordinary or boundary clock but the one the selected master is heard on. -/
def State.masterPorts (s : State) : List Nat :=
  if s.get PTP_CTL_TYPE = ptTC then []
  else s.ptpPorts.filter (fun n => decide ((s.data.master.map (fun q => q.port)) ≠ some n))

/-- PTP_SYNC_TX: a two-step Sync and its Follow_Up on a port in master role; their octets are the profile's. -/
def execPtpSyncTx (port : Nat) (s : State) : Out :=
  if s.masterPorts.contains port then
    .next ((s.ptpSend 58 port).ptpSend 58 port)
  else .next s

/-- PDELAY_REQ_TX: a peer-delay request on a PTP port; its octets are the profile's. -/
def execPdelayReqTx (port : Nat) (s : State) : Out :=
  if s.ptpPorts.contains port then
    .next (s.ptpSend 68 port)
  else .next s

end Sys2Proof.Machine
end

