-- ==== Sys2Proof/Machine/Path.lean ====
section
/-! DEFINITION. The path of a frame from its classification to its delivery: lookup, hot-cache fill, the Bow lanes, the
replay step, roles and holding (R220 to R251). -/

namespace Sys2Proof.Machine

/-! ## Delivery (R249 to R251) -/

/-- An entry's LAST_STATUS and LAST_SRC. -/
def State.lastStatus (s : State) (i src st : Nat) : State :=
  s.setEntry i (eput (eput (s.entry i) eLASTSTATUS st) eLASTSRC src)

/-- One of an entry's counters. -/
def State.entryCount (s : State) (i : Nat) (f : EFld) (n : Nat) : State := s.setEntry i (ecount (s.entry i) f n)

/-- What of a frame its delivery needs. -/
structure Deliv where
  entry : Nat
  src : Nat
  octets : Bytes
  epoch : Nat
  tsSec : Nat
  tsNs : Nat
  deriving DecidableEq, Repr

/-- A frame delivered by its entry's role with a status (R249): an accepted frame of a forward entry is sent on EGRESS
and queued with COPY; every other frame of a subscribe or forward entry is queued. -/
def State.deliver (s : State) (d : Deliv) (status : Nat) (accepted : Bool) : State :=
  let s1 := s.lastStatus d.entry d.src status
  let e := s1.entry d.entry
  let item : Item := ⟨some d.octets, status, some d.entry, d.src, d.epoch, d.tsSec, d.tsNs, s1.tick32⟩
  if accepted && decide (eget e eROLE = rlFORWARD) then
    let s2 := s1.sendMask (eget e eEGRESS) d.octets
    if eon e eCOPY then s2.enqueue (eget e eQUEUE) item else s2
  else if eget e eROLE = rlSUBSCRIBE ∨ eget e eROLE = rlFORWARD then s1.enqueue (eget e eQUEUE) item
  else s1

/-- HOLD_DEFAULT carried out for a frame (R251). -/
def State.holdDefault (s : State) (d : Deliv) : State :=
  if s.get ASSOC_CTL_HOLD_DEFAULT = 0 then s.deliver d stHOLD_EXPIRED true else s.entryCount d.entry eDROPPED 1

/-- The number of held frames in ASSOC_HELD. -/
def State.heldCount (s : State) : State := s.put ASSOC_HELD_COUNT s.data.held.length

/-- An accepted frame is held for a verdict in the lowest free slot (R250, R306, R307); a list of the
current tick that showed the slot's earlier frame does not show it. -/
def State.holdFrame (s : State) (d : Deliv) (status : Nat) : State :=
  match (List.range 1024).find? (fun k => (tget s.data.held k).isNone) with
  | none => (s.inc REL_HOLDFULL_COUNT).holdDefault d
  | some k =>
    let fe := s.get (REL_POLICY_FE (eget (s.entry d.entry) ePOLICY))
    let h : Held := ⟨d.entry, fe, s.tick36, 0, s.data.heldOrder, d.src, d.octets, d.epoch, status, d.tsSec, d.tsNs⟩
    ({ s with data := { s.data with
      held := tset s.data.held k h
      heldOrder := s.data.heldOrder + 1
      heldList := s.data.heldList.map (fun (e : Nat × List Nat) => (e.1, e.2.map (fun j => if j = k then 1024 else j))) } }).heldCount

/-! ## Classification and lookup (R221 to R229) -/

/-- A frame that matched no entry (R224). -/
def State.noMatch (s : State) (f : Frame) : State :=
  let s1 := (s.frameDrop f.id).inc CLASS_NOMATCH_COUNT
  if s1.get CLASS_ACT_NOMATCH = 1 then
    s1.enqueue (s1.get CLASS_OTHERQ_QUEUE) ⟨some f.octets, stNO_ASSOC, none, f.src, 0, f.tsSec, f.tsNs, s1.tick32⟩
  else s1

/-- A frame whose entry is in the hot cache (R214, R249): drop and publish entries discard it, a copy of an accepted
frame is discarded, the rest goes to a lane. An entry that cannot be read (R71) answers as no match (log entry 123). -/
def State.frameMatched (s : State) (f : Frame) (i : Nat) : State :=
  let r := (s.hotUse i).entryRead i
  let s1 := r.2
  let role := eget (s1.entry i) eROLE
  if r.1 = false then s1.noMatch f
  else if role = rlDROP ∨ role = rlPUBLISH then
    ((s1.entryCount i eDROPPED 1).lastStatus i f.src stROLE_DROP).frameDrop f.id
  else if s1.dupHas (s1.dupKey f.src f.octets f.view) then (s1.inc (PORT_RX_DUP_COUNT f.src)).frameDrop f.id
  else s1.frameStage f.id (.matched i)

/-- A frame of class KDC or OTHER queued. -/
def State.classQueue (s : State) (f : Frame) (q : Nat) : State :=
  s.enqueue q ⟨some f.octets, stOK, none, f.src, 0, f.tsSec, f.tsNs, s.tick32⟩

/-- A frame classified (Table 6-1). -/
def State.classify (s : State) (f : Frame) : State :=
  let c := s.classOf f.octets f.view
  match c with
  | .ptp =>
    let s1 := s.frameDrop f.id
    if 4 ≤ f.src then s1
    else
      match f.view.ptp with
      | some (ident, m) => s1.ptpRx ident f.src m
      | none => s1.ptpRx 0 f.src .malformed
  | .supervision => if f.src < 4 then (s.frameDrop f.id).supvHeard (f.src / 2) else s.frameDrop f.id
  | .kdc => (s.frameDrop f.id).classQueue f (s.get CLASS_KDCQ_QUEUE)
  | .frag => (s.frameDrop f.id).inc CLASS_FRAG_COUNT
  | .other =>
    if s.get CLASS_ACT_OTHER = 1 then (s.frameDrop f.id).classQueue f (s.get CLASS_OTHERQ_QUEUE) else s.frameDrop f.id
  | .goose | .sv | .rgoose | .rsv =>
    if viewKeyed f.view (c.type?.getD 0) = false then
      let s1 := s.frameDrop f.id
      if f.src < 4 then s1.inc (PORT_RX_MALFORMED_COUNT f.src) else s1
    else
      match s.findEntry (s.frameKey (c.type?.getD 0) f.octets f.view) with
      | none => (s.inc64 ASSOC_MISS_LO ASSOC_MISS_HI 1).noMatch f
      | some i =>
        if (s.hotWay i).isSome then (s.inc64 ASSOC_HIT_LO ASSOC_HIT_HI 1).frameMatched f i
        else (s.inc64 ASSOC_MISS_LO ASSOC_MISS_HI 1).frameStage f.id (.fill i)

/-- FRAME_CLASSIFY: the earliest frame that waits for a classifier. -/
def execFrameClassify (s : State) : Out :=
  match s.data.frames.find? (fun f => decide (f.stage = .received)) with
  | none => .next s
  | some f => .next (s.classify f)

/-- The fill of an entry for a frame: none where its line delivers a data error. -/
def State.fillFor (s : State) (f : Frame) (i : Nat) : State :=
  if (s.hotWay i).isSome then s.frameMatched f i
  else
    match s.wayFor i with
    | none => s
    | some (w, s1) =>
      match s1.dramRead (entryAddr i) 128 with
      | (none, s2) => s2.noMatch f
      | (some img, s2) => ((s2.fillWay w i img).supCheck i).frameMatched f i

/-- HOT_CACHE_FILL: the entry of a frame that missed is brought into the cache (R227). -/
def execHotCacheFill (id : Nat) (env : FabEnv) (u : State) : Out :=
  let s := u.disturb env
  match s.data.frames.find? (fun f => decide (f.id = id)) with
  | none => .next s
  | some f =>
    match f.stage with
    | .fill i => .next (if s.entryValid i then s.fillFor f i else s.frameDrop id)
    | .received => .next s
    | .matched _ => .next s
    | .verified _ _ _ => .next s

/-! ## The Bow lanes (R236 to R241) -/

/-- A frame as its delivery needs it. -/
def Frame.deliv (f : Frame) (i epoch : Nat) : Deliv := ⟨i, f.src, f.octets, epoch, f.tsSec, f.tsNs⟩

/-- The counter of a failed frame's status (Table 6-2). -/
def failCounter (st : Nat) : EFld :=
  if st = stREPLAY then eREPLAY
  else if st = stMALFORMED ∨ st = stBAD_LENGTH then eMALFORMED
  else if st = stKEY_SPENT ∨ st = stKEY_ABSENT then eKEYFAIL
  else eAUTHFAIL

/-- A frame of a subscribe or forward entry fails: counted, and queued with its status, but one without the extension
under SECREQ (R237, R249). -/
def State.frameFail (s : State) (f : Frame) (i st epoch : Nat) : State :=
  let s1 := (s.entryCount i (failCounter st) 1).frameDrop f.id
  if st = stNO_TAG ∧ eon (s1.entry i) eSECREQ = true then s1.lastStatus i f.src st
  else s1.deliver (f.deliv i epoch) st false

/-- Whether a frame's structure is invalid for its entry (R223, R246): for SV and R-SV also its ASDUs. -/
def frameMalformed (e : TableEntry) (v : MsgView) : Bool :=
  let m := eget e eSMPMAX + 1
  let sv := decide (eget e eTYPE = tySV ∨ eget e eTYPE = tyRSV)
  let runs : List Asdu → Bool := fun l =>
    (l.zip (l.drop 1)).all (fun p => decide (p.2.smpCnt = (p.1.smpCnt + 1) % m))
  !v.wellFormed ||
    (sv && (decide (v.asdus.length = 0 ∨ 16 < v.asdus.length) ||
      v.asdus.any (fun a => decide (a.svId ≠ viewName v (eget e eTYPE))) ||
      v.asdus.any (fun a => decide (a.chans.length ≠ eget e eCHCOUNT ∨ eget e eSMPMAX < a.smpCnt)) ||
      !(runs v.asdus)))

/-- The key that a key identifier selects (R238): slot, epoch, whether it is key B. -/
def selectKey (e : TableEntry) (id : Nat) : Option (Nat × Nat × Bool) :=
  if eon e eAV && decide (id = eget e eEPOCHA) then some (eget e eSLOTA, eget e eEPOCHA, false)
  else if eon e eBV && decide (id = eget e eEPOCHB) then some (eget e eSLOTB, eget e eEPOCHB, true)
  else none

/-- Whether a KALG fits an entry's ALG (Table 12-1). -/
def kalgFits (alg kalg : Nat) : Bool :=
  if alg = 0 then decide (kalg = kaAES128)
  else if alg = 1 then decide (kalg = kaAES256)
  else decide (kalg = kaHMAC16 ∨ kalg = kaHMAC32)

/-- Whether the key bus gives a slot's key to a lane (Table 12-1). -/
def State.laneKey (s : State) (slot epoch alg use : Nat) : Bool :=
  let p := s.peg slot
  decide (p.st = .active ∨ p.st = .spent) && bitOf p.use use && kalgFits alg p.kalg && decide (p.epoch = epoch)

/-- Whether a lane is in service. -/
def State.laneUp (s : State) (l : Nat) : Bool :=
  decide (l < 8) && !(bitOf (s.get BOW_LANE_STATUS_ISOLATED) l) && !(s.flt.inReset.contains (SRC_BOW_KAT l))

/-- A frame with its extension on a lane. -/
def State.laneCheck (s : State) (f : Frame) (i lane : Nat) (x : ExtView) : State :=
  let e := s.entry i
  let alg := eget e eALG
  if x.tag.length ≠ eget e eTAGLEN then s.frameFail f i stTAG_LENGTH 0
  else
    match selectKey e x.keyId with
    | none => s.frameFail f i stKEY_ABSENT 0
    | some (slot, epoch, b) =>
      if s.laneKey slot epoch alg useVERIFY = false then s.frameFail f i stKEY_ABSENT 0
      else if s.pegHere slot = false then s
      else
        let key := (s.peg slot).key
        match s.pegUse slot with
        | (false, s1) => s1.frameFail f i stKEY_SPENT 0
        | (true, s1) =>
          let s2 := s1.inc64 (BOW_LANE_FRAMES_LO lane) (BOW_LANE_FRAMES_HI lane) 1
          if Config.cryptoOk cyFrameTag [natToBytes 1 alg, key, x.body, x.tag] then
            s2.frameStage f.id (.verified i epoch b)
          else s2.frameFail f i stAUTH_FAIL 0

/-- BOW_VERIFY: a matched frame is taken by a lane; one whose key is not resident waits for PEG_BLOB_LOAD. -/
def execBowVerify (id lane : Nat) (s : State) : Out :=
  match s.data.frames.find? (fun f => decide (f.id = id)) with
  | none => .next s
  | some f =>
    match f.stage with
    | .matched i =>
      if s.laneUp lane = false then .next s
      else if s.entryValid i = false then .next (s.frameDrop id)
      else
        let r := s.entryRead i
        if r.1 = false then .next (r.2.noMatch f)
        else if frameMalformed (r.2.entry i) f.view then .next (r.2.frameFail f i stMALFORMED 0)
        else
          match f.view.ext with
          | none => .next (r.2.frameFail f i stNO_TAG 0)
          | some x => .next (r.2.laneCheck f i lane x).settle
    | .received => .next s
    | .fill _ => .next s
    | .verified _ _ _ => .next s

/-! ## The replay step (R242 to R248) -/

/-- Forward distance from `b` to `a` modulo `m`. -/
def fwd (m a b : Nat) : Nat := (a % m + m - b % m) % m

/-- The window function of R243: the new highest value and window, or none for REPLAY. -/
def window (hi win x m : Nat) : Option (Nat × Nat) :=
  let d := fwd m x hi
  if d = 0 then none
  else if d < ceilDiv m 2 then some (x, if 64 ≤ d then 1 else (win * 2 ^ d + 1) % 2 ^ 64)
  else
    let b := m - d
    if 63 < b then none else if bitOf win b then none else some (hi, win + 2 ^ b)

/-- Whether an entry's sequence follows stNum and sqNum. -/
def gooseType (e : TableEntry) : Bool := decide (eget e eTYPE = tyGOOSE ∨ eget e eTYPE = tyRGOOSE)

/-- The sequence value of an SV or R-SV frame (R246). -/
def svValue (e : TableEntry) (v : MsgView) : Nat :=
  if eget e eTYPE = tyRSV then v.seqNo else (v.asdus.getLast?.getD default).smpCnt

/-- The replay state of a first frame: fresh(f) of R244. -/
def freshEntry (e : TableEntry) (v : MsgView) : TableEntry :=
  if gooseType e then eput (eput (eput (eput e eHI1 v.stNum) eHI2 v.sqNum) eWIN 1) eSTARTED 1
  else eput (eput (eput e eHI1 (svValue e v)) eWIN 1) eSTARTED 1

/-- The sequence rules without restart: the entry with its replay state, or none for REPLAY. -/
def sequenceStep (e : TableEntry) (v : MsgView) : Option TableEntry :=
  if eon e eSTARTED = false then some (freshEntry e v)
  else if gooseType e then
    let ds := fwd (2 ^ 32) v.stNum (eget e eHI1)
    if ds = 0 then (window (eget e eHI2) (eget e eWIN) v.sqNum (2 ^ 32)).map (fun r => eput (eput e eHI2 r.1) eWIN r.2)
    else if ds < 2 ^ 31 then some (eput (eput (eput e eHI1 v.stNum) eHI2 v.sqNum) eWIN 1)
    else none
  else
    let m := if eget e eTYPE = tyRSV then 2 ^ 32 else eget e eSMPMAX + 1
    (window (eget e eHI1) (eget e eWIN) (svValue e v) m).map (fun r => eput (eput e eHI1 r.1) eWIN r.2)

/-- restart_ok of R247. -/
def State.restartOk (s : State) (e : TableEntry) (v : MsgView) (epoch : Nat) : Bool :=
  let d := fwd 16384 epoch (eget e eLASTEPOCH)
  eon e eRESTARTALLOW && (s.expired e || decide (1 ≤ d ∧ d ≤ 8191)) &&
    (!(gooseType e) || (decide (v.stNum = 1) && decide (v.sqNum = eget e eSQBASE)))

/-- The replay step's answer: a status, and the entry with its replay state where the frame is accepted. -/
def State.replayStep (s : State) (e : TableEntry) (v : MsgView) (epoch : Nat) : Nat × TableEntry :=
  match sequenceStep e v with
  | some e1 => (stOK, e1)
  | none => if s.restartOk e v epoch then (stRESTART, freshEntry e v) else (stREPLAY, e)

/-- What acceptance writes beside the replay state (R242, R248). -/
def State.acceptEntry (s : State) (e : TableEntry) (f : Frame) (status epoch : Nat) (b : Bool) : TableEntry :=
  let e1 := eput (eput (eput e eLASTTICK s.tick32) eLASTEPOCH epoch) eLOST 0
  let e2 := if gooseType e then eput e1 eLASTTAL (satAt 65535 f.view.tal) else e1
  let e3 := eput e2 eCUR (if b then 1 else 0)
  let e4 := ecount (ecount e3 eACCEPT 1) eOCTETS f.octets.length
  if status = stRESTART then ecount e4 eRESTARTS 1 else e4

/-- An accepted frame's last ASDU becomes the latest sample set (R44, R246). -/
def State.sampleIn (s : State) (i : Nat) (v : MsgView) : State :=
  match v.asdus.getLast? with
  | none => s
  | some a =>
    let x : SampleSet := ⟨a.smpCnt, a.chans, s.tick36, s.clock⟩
    let o := tgetD s.data.samples i ⟨none, none, none⟩
    let inWork := s.time.inTick && decide (s.clock < s.time.edge + tickW s.time.rate)
    let o' : Samples := if inWork then { o with live := some x } else { o with guard := some x }
    { s with data := { s.data with samples := tset s.data.samples i o' } }

/-- A verified frame's replay step and what follows it. -/
def State.replayFrame (s : State) (f : Frame) (i epoch : Nat) (b : Bool) : State :=
  let dk := s.dupKey f.src f.octets f.view
  if s.dupHas dk then (s.inc (PORT_RX_DUP_COUNT f.src)).frameDrop f.id
  else
    let e := s.entry i
    match s.replayStep e f.view epoch with
    | (st, e1) =>
      if st = stREPLAY then s.frameFail f i stREPLAY epoch
      else
        let s1 := (s.setEntry i (s.acceptEntry e1 f st epoch b)).lastStatus i f.src st
        let s2 := if gooseType e then s1 else s1.sampleIn i f.view
        let s3 := (s2.dupAdd dk).frameDrop f.id
        if eon e eHOLD then s3.holdFrame (f.deliv i epoch) st else s3.deliver (f.deliv i epoch) st true

/-- REPLAY_STEP: it runs for the earliest frame in flight of its entry; after a DELETE the frame is discarded (R235,
R242). -/
def execReplayStep (id : Nat) (s : State) : Out :=
  match s.data.frames.find? (fun f => decide (f.id = id)) with
  | none => .next s
  | some f =>
    match f.stage with
    | .verified i epoch b =>
      if (s.data.frames.find? (fun g => decide (g.stage.entry? = some i))).map (fun g => g.id) ≠ some id then .next s
      else if s.entryValid i = false then .next (s.frameDrop id)
      else
        let r := s.entryRead i
        .next (if r.1 then r.2.replayFrame f i epoch b else r.2.noMatch f)
    | .received => .next s
    | .fill _ => .next s
    | .matched _ => .next s

/-! ## Reads and tests -/

/-- BOW_SPENT_SLOT_READ. -/
def execBowSpentSlotRead (s : State) : Out := .next (s.clrIrq 111)
/-- BOW_WARN_SLOT_READ. -/
def execBowWarnSlotRead (s : State) : Out := .next (s.clrIrq 112)
/-- PTP_DEMOTED_READ. -/
def execPtpDemotedRead (s : State) : Out := .next (s.clrIrq 108)

/-- BOW_KAT_RUN: a lane's known-answer test (Table 6-9); a failing lane is isolated until module reset. -/
def execBowKatRun (lane : Nat) (pass : Bool) (s : State) : Out :=
  if lane < 8 ∧ bitOf (s.get BOW_LANE_STATUS_ISOLATED) lane = false then
    let src := SRC_BOW_KAT lane
    let s1 : State := { s with flt := { s.flt with inReset := s.flt.inReset.filter (· ≠ src) } }
    if pass then .next s1
    else
      .next (((s1.put BOW_LANE_STATUS_ISOLATED (s1.get BOW_LANE_STATUS_ISOLATED ||| 2 ^ lane)).setIrq 114).raise src lane)
  else .next s

end Sys2Proof.Machine
end

