-- ==== Sys2Proof/Machine/Release.lean ====
section
/-! DEFINITION. Release requests and the Tremolo check, verdicts on held frames, requests and associations, plausibility
(R303, R306 to R323). -/

namespace Sys2Proof.Machine

/-! ## Submissions that have ended (R284) -/

/-- A submission's work is finished: its completion waits for its turn. LEN holds the length refused; where the slot's
frame was not refused for its length the spec gives it no value (log entry 3). -/
def State.subDone (s : State) (q count status : Nat) (assoc : Option Nat) (epoch len : Nat) : State :=
  let c := s.free
  let s1 := if status = stBAD_LENGTH then s else c.2
  let l := if status = stBAD_LENGTH then len else c.1 % 65536
  let x := s1.queue q
  s1.setQueue q { x with subs := x.subs.map (fun b =>
    if b.count = count then { b with stage := .done status assoc epoch l s1.tsSec s1.tsNs s1.tick32 } else b) }

/-! ## Codewords (R321) -/

abbrev cwFREE : Nat := 0x00FF
abbrev cwPENDING : Nat := 0x0F0F
abbrev cwRELEASING : Nat := 0x3333
abbrev cwNONE : Nat := 0x5555
abbrev cwRELEASE : Nat := 0x6996
abbrev cwDENY : Nat := 0x9669

def stateWord (w : Nat) : Bool := decide (w = cwFREE ∨ w = cwPENDING ∨ w = cwRELEASING)
def verdictWord (w : Nat) : Bool := decide (w = cwNONE ∨ w = cwRELEASE ∨ w = cwDENY)

/-- Which word of a slot matches no codeword of its kind (REL_ALARM.WHICH). -/
def RelReq.badWord (r : RelReq) : Option Nat :=
  if stateWord r.stateW = false then some 0
  else if verdictWord r.va = false then some 1
  else if verdictWord r.vb = false then some 2
  else none

/-! ## Ends of a request (R315) -/

/-- The request slots with REL_STATUS.PENDING. -/
def State.putRel (s : State) (l : List (Nat × RelReq)) : State :=
  ({ s with data := { s.data with rel := l } }).put REL_STATUS_PENDING l.length

/-- A record of the release path (R315): its payload starts with the association in 4 bytes and the engine in one, 0xFF
where a host submission made the request; its source and code are the spec's own free points (log entry 18). -/
def State.relRecord (s : State) (r : RelReq) (st : Nat) : State :=
  let c := s.free
  c.2.evUnitNaming (c.1 % 512) st (natToBytes 4 r.assoc ++ natToBytes 1 (if r.host.isSome then 0xFF else r.engine))

/-- What an outcome counts in its publish entry. -/
def State.publishCount (s : State) (i octets st : Nat) : State :=
  if s.entryValid i && decide (eget (s.entry i) eROLE = rlPUBLISH) then
    let e := eput (s.entry i) eLASTSTATUS st
    let e1 :=
      if st = stOK then ecount (ecount e eACCEPT 1) eOCTETS octets
      else if st = stKEY_SPENT ∨ st = stKEY_ABSENT then ecount e eKEYFAIL 1
      else if st = stMALFORMED then ecount e eMALFORMED 1
      else e
    s.setEntry i e1
  else s

/-- What a request's end counts, completes and records. -/
def State.relFinish (s : State) (r : RelReq) (st epoch : Nat) : State :=
  let s1 :=
    if st = stOK then s.inc REL_RELEASED_COUNT
    else if st = stINTERLOCK_DENY then s.inc REL_DENIED_COUNT
    else if st = stTREMOLO_MISMATCH then s.inc REL_MISMATCH_COUNT
    else if st = stTIMEOUT then s.inc REL_TIMEOUT_COUNT
    else if st = stBUSY then s.inc REL_FULL_COUNT
    else s
  let s2 := s1.publishCount r.assoc r.octets.length st
  let s3 :=
    match r.host with
    | some (q, n) => s2.subDone q n st (some r.assoc) epoch r.octets.length
    | none => s2
  if st = stOK then s3 else s3.relRecord r st

/-- The request of a slot ends; the slot is FREE again. -/
def State.relEnd (s : State) (k st epoch : Nat) : State :=
  match tget s.data.rel k with
  | none => s
  | some r => (s.putRel (terase s.data.rel k)).relFinish r st epoch

/-- A word that matches no codeword (R322): the request ends STATE_INVALID, the alarm is recorded, REL_STATE raised,
release locked, and every other request ends NOT_PERMITTED. -/
def State.relAlarm (s : State) (k which : Nat) : State :=
  let s1 := s.relEnd k stSTATE_INVALID 0
  let s2 := (((s1.put REL_ALARM_VALID 1).put REL_ALARM_WHICH which).put REL_ALARM_SLOT k).put REL_STATUS_LOCKED 1
  let s3 := s2.data.rel.foldl (fun t e => t.relEnd e.1 stNOT_PERMITTED 0) s2
  s3.raise SRC_REL_STATE 0

/-! ## Entering (R313, R314) -/

/-- Whether a request ends before it enters a slot: its status; L is its frame's length. -/
def State.relRefused (s : State) (i l : Nat) : Option Nat :=
  let e := s.entry i
  if s.on REL_STATUS_LOCKED || (eon e eHOLD && !(s.on REL_CTL_EN)) then some stNOT_PERMITTED
  else if 1522 < l + Config.extLen (eget e eTYPE) (eget e eALG) (eget e eTAGLEN) + 4 then some stBAD_LENGTH
  else if 256 ≤ s.data.rel.length then some stBUSY
  else none

/-- Whether a GOOSE or SV header is complete up to its Reserved 2 field, and its Length equals the octets from the APPID
on (R314): APPID, Length, Reserved 1 and Reserved 2, two octets each, follow the EtherType (log entry 124). -/
def headerOk (f : Bytes) : Bool × Bool :=
  let b := if (etherType f).2.isSome then 18 else 14
  (decide (b + 8 ≤ f.length), decide (beNat ((f.drop (b + 2)).take 2) = f.length - b))

/-- The same for the IP and UDP headers of a routable frame: total length of IPv4 or payload length of IPv6, and the
UDP length (log entry 124). -/
def ipHeaderOk (f : Bytes) : Bool × Bool :=
  let b := if (etherType f).2.isSome then 18 else 14
  let v6 := decide ((etherType f).1 = 0x86DD)
  let h := if v6 then 40 else (f.getD b 0).toNat % 16 * 4
  let total := if v6 then 40 + beNat ((f.drop (b + 4)).take 2) else beNat ((f.drop (b + 2)).take 2)
  (decide (b + h + 8 ≤ f.length),
    decide (total = f.length - b) && decide (beNat ((f.drop (b + h + 4)).take 2) = f.length - b - h))

/-- Whether a frame cannot carry the security extension of its entry's TYPE. -/
def cannotSign (ty : Nat) (f : Bytes) (v : MsgView) : Bool :=
  let hdr := if ty = tyGOOSE ∨ ty = tySV then headerOk f else ipHeaderOk f
  let et := (etherType f).1
  let session := match v.ip with | some ip => ip.session | none => 0
  let typeOk :=
    if ty = tyGOOSE then decide (et = 0x88B8)
    else if ty = tySV then decide (et = 0x88BA)
    else if ty = tyRGOOSE then decide (session = 1)
    else decide (session = 2)
  !hdr.1 || !v.header || !typeOk || !hdr.2

/-- A request whose frame has been read enters the lowest free slot as PENDING, or ends; a list of the current tick that
showed the slot's earlier request does not show it (R314). -/
def State.relEnter (s : State) (i : Nat) (octets : Bytes) (v : MsgView) (host : Option (Nat × Nat)) (engine : Nat) :
    State :=
  let e := s.entry i
  let r : RelReq := ⟨cwPENDING, cwNONE, cwNONE, i, octets, v, host, engine, eon e eHOLD, 0, s.data.relOrder⟩
  if s.entryValid i = false ∨ eget e eROLE ≠ rlPUBLISH then s.relFinish r stNO_ASSOC 0
  else
    match s.relRefused i octets.length with
    | some st => s.relFinish r st 0
    | none =>
      if cannotSign (eget e eTYPE) octets v then s.relFinish r stMALFORMED 0
      else
        match (List.range 256).find? (fun k => (tget s.data.rel k).isNone) with
        | none => s.relFinish r stBUSY 0
        | some k =>
          ({ s with data := { s.data with
            relOrder := s.data.relOrder + 1
            relList := s.data.relList.map (fun j => if j = k then 256 else j) } }).putRel (tset s.data.rel k r)

/-! ## The Tremolo outcome (R317, Table 8-5) -/

/-- A request's words replaced. -/
def State.relWords (s : State) (k st va vb : Nat) : State :=
  match tget s.data.rel k with
  | none => s
  | some r => s.putRel (tset s.data.rel k { r with stateW := st, va := va, vb := vb })

/-- A mismatch: withheld, counted, source TREMOLO. -/
def State.relMismatch (s : State) (k : Nat) : State := (s.relEnd k stTREMOLO_MISMATCH 0).raise SRC_TREMOLO 0

/-- The outcome where both verdict words are set. -/
def State.relDecide (s : State) (k : Nat) (r : RelReq) : State :=
  if r.va = cwRELEASE ∧ r.vb = cwRELEASE then s.relWords k cwRELEASING r.va r.vb
  else if r.va = cwDENY ∧ r.vb = cwDENY then s.relEnd k stINTERLOCK_DENY 0
  else s.relMismatch k

/-! ## Verdicts (R303, R308 to R310) -/

/-- Whether an engine reaches an association from a world. -/
def State.reaches (s : State) (n : Nat) (trust : Bool) (i : Nat) : Bool :=
  trust || (List.range 8).any (fun j =>
    s.on (FE_ARANGE_FIRST_EN n j) && decide (s.get (FE_ARANGE_FIRST_INDEX n j) ≤ i) &&
      decide (i ≤ s.get (FE_ARANGE_LAST_INDEX n j)))

/-- A held frame leaves its slot. -/
def State.heldFree (s : State) (k : Nat) : State :=
  ({ s with data := { s.data with held := terase s.data.held k } }).heldCount

/-- A held frame as its delivery needs it. -/
def Held.deliv (h : Held) : Deliv := ⟨h.entry, h.src, h.octets, h.epoch, h.tsSec, h.tsNs⟩

/-- A verdict decides a held frame (R250). -/
def State.heldDecide (s : State) (k : Nat) (h : Held) (code : Nat) : State :=
  let s1 := s.heldFree k
  if s1.entryValid h.entry = false then s1
  else if code = stOK then s1.deliver h.deliv h.status true
  else if code = stPOLICY_DROP then (s1.entryCount h.entry eDROPPED 1).lastStatus h.entry h.src stPOLICY_DROP
  else
    (if code = stPLAUS_FAIL then s1.entryCount h.entry ePLAUSFAIL 1 else s1).deliver h.deliv code false

/-- PLAUS_FAIL of an association (R310): a status-only item, PLAUSFAIL, the group once per tick. -/
def State.plausReport (s : State) (i : Nat) : State :=
  let e := s.entry i
  let s1 := (s.statusItem (eget e eQUEUE) stPLAUS_FAIL i (eget e eLASTEPOCH)).entryCount i ePLAUSFAIL 1
  let g := eget e ePGROUP
  if eon e ePGEN && !(s1.data.gfail.contains g) then
    { s1 with data := { s1.data with gfail := g :: s1.data.gfail } }.inc (PLAUS_GFAIL_COUNT g)
  else s1

/-- A verdict of an engine about a reference noted as committed in this tick. -/
def State.noteVerdict (s : State) (n ref : Nat) : State :=
  { s with data := { s.data with decided := (n, ref) :: s.data.decided } }

/-- Whether an engine has committed a verdict about a reference in this tick. -/
def State.verdictGiven (s : State) (n ref : Nat) : Bool := s.data.decided.contains (n, ref)

/-- A verdict on a request of the tick's list. -/
def State.relVerdict (s : State) (n k ref code : Nat) : State :=
  match tget s.data.rel k with
  | none => s.inc REL_VIGNORE_COUNT
  | some r =>
    match r.badWord with
    | some w => s.relAlarm k w
    | none =>
      if r.stateW ≠ cwPENDING then s.inc REL_VIGNORE_COUNT
      else
        let w := if code = stOK then cwRELEASE else cwDENY
        let r' : RelReq := if n = s.get REL_CTL_FE_A then { r with va := w } else { r with vb := w }
        let s1 := (s.noteVerdict n ref).putRel (tset s.data.rel k r')
        if r'.va ≠ cwNONE ∧ r'.vb ≠ cwNONE then s1.relDecide k r' else s1

/-- VERDICT_COMMIT: a committed verdict of engine `n` from a world (R309). -/
def State.verdictCommit (s : State) (n : Nat) (trust : Bool) (ref code : Nat) : State :=
  let kind := ref / 2 ^ 22 % 4
  let ignore := s.inc REL_VIGNORE_COUNT
  if kind = 0 then
    let k := ref % 1024
    match tget s.data.held k with
    | none => ignore
    | some h =>
      if ref / 1024 ≠ 0 ∨ !(verdictCodes.contains code) ∨ !((tgetD s.data.heldList n []).contains k) ∨
          s.verdictGiven n ref then ignore
      else (s.noteVerdict n ref).heldDecide k h code
  else if kind = 1 then
    let k := ref % 256
    if ref / 256 % 2 ^ 14 ≠ 0 ∨ (code ≠ stOK ∧ code ≠ stINTERLOCK_DENY) ∨ !(s.data.relList.contains k) ∨
        (n ≠ s.get REL_CTL_FE_A ∧ n ≠ s.get REL_CTL_FE_B) ∨ s.verdictGiven n ref then ignore
    else s.relVerdict n k ref code
  else if kind = 2 then
    let i := ref % 2 ^ 21
    if ref / 2 ^ 21 % 2 = 1 ∨ code ≠ stPLAUS_FAIL ∨ s.reaches n trust i = false ∨ s.entryValid i = false then ignore
    else s.plausReport i
  else ignore

/-! ## Edges (R251, R307, R312, R314, R317, R318) -/

/-- Whether an engine ran the tick that ends and retired TWAIT in it. -/
def State.retired (s : State) (n : Nat) : Bool := s.data.ran.contains n && (s.proc n).twaited

/-- A listed request at the end of its tick. -/
def State.relEdgeOne (s : State) (k : Nat) : State :=
  match tget s.data.rel k with
  | none => s
  | some r =>
    match r.badWord with
    | some w => s.relAlarm k w
    | none =>
      if r.stateW ≠ cwPENDING then s
      else
        let keep (t : State) : State :=
          t.putRel (tset t.data.rel k { r with va := cwNONE, vb := cwNONE, presented := r.presented + 1 })
        if s.retired (s.get REL_CTL_FE_A) = false ∨ s.retired (s.get REL_CTL_FE_B) = false then
          keep (s.inc REL_VOID_COUNT)
        else if r.va ≠ cwNONE ∧ r.vb ≠ cwNONE then s.relDecide k r
        else if r.va ≠ cwNONE ∨ r.vb ≠ cwNONE then s.relMismatch k
        else keep s

/-- The end of a tick for the requests it listed. -/
def State.relEdge (s : State) : State := s.data.relList.foldl (fun t k => t.relEdgeOne k) s

/-- The slots of a sparse table ordered by a number of their values. -/
def orderBy {α : Type} (f : α → Nat) (l : List (Nat × α)) : List Nat :=
  let ins (e : Nat × α) (acc : List (Nat × α)) : List (Nat × α) :=
    acc.takeWhile (fun x => decide (f x.2 < f e.2)) ++ e :: acc.dropWhile (fun x => decide (f x.2 < f e.2))
  (l.foldl (fun acc e => ins e acc) []).map (fun e => e.1)

/-- The request list of a tick: pending requests of HOLD = 1 entries whose time has not run out, in slot-entry order. -/
def State.relListed (s : State) : List Nat :=
  orderBy (fun r => r.order) (s.data.rel.filter (fun e =>
    decide (e.2.stateW = cwPENDING) && e.2.hold && decide (e.2.presented < s.get REL_CTL_MAXTICKS)))

/-- The state words read at an edge are checked, those of requests not listed before among them (R322). -/
def State.relScan (s : State) : State :=
  s.data.rel.foldl (fun t e =>
    match tget t.data.rel e.1 with
    | none => t
    | some r => match r.badWord with
      | some w => t.relAlarm e.1 w
      | none => t) s

/-- The held frames at an edge that starts a tick: the lists of the engines, those not expired, with the count of those
that found no room. -/
def State.heldForm (s : State) : State :=
  let l := s.data.held.map (fun e => (e.1, { e.2 with edges := e.2.edges + 1 }))
  let live := l.filter (fun e => decide (e.2.edges < s.get ASSOC_CTL_HOLD_TICKS))
  let mine (n : Nat) : List Nat := orderBy (fun h => h.order) (live.filter (fun e => decide (e.2.engine = n)))
  let ns := (live.map (fun e => e.2.engine)).eraseDups
  { s with data := { s.data with
    held := l
    heldList := ns.map (fun n => (n, (mine n).take 1024))
    heldOver := ns.map (fun n => (n, (mine n).length - 1024)) } }

/-- The object table at an edge (R312). -/
def State.objEdge (s : State) : State :=
  let cur := if s.retired (s.get REL_CTL_FE_A) then s.data.objShadow else s.data.objCur
  { s with data := { s.data with objCur := cur, objShadow := cur } }

/-- d of the tick (R316): keys that wait for KEYLOAD are drawn before it (R413). -/
def State.drawD (u : State) : State :=
  let s := if u.get ROSIN_STATE_STATE = roReady then u.rosin.keyload.foldl (fun t _ => t.keyloadDraw) u else u
  if s.get ROSIN_STATE_STATE = roReady ∧ s.rosin.reserve ≠ [] then
    match s.rosinTake 1 1 with
    | (b, s1) => s1.put REL_STATUS_D (bytesToNat b % 64)
  else (s.put REL_STATUS_D 63).inc REL_NORNG_COUNT

/-- HOLD_EXPIRY: the frame of a hold slot has seen HOLD_TICKS edges without a verdict (R251). -/
def execHoldExpiry (k : Nat) (s : State) : Out :=
  match tget s.data.held k with
  | none => .next s
  | some h =>
    if s.get ASSOC_CTL_HOLD_TICKS ≤ h.edges then
      let s1 := s.heldFree k
      .next (if s1.entryValid h.entry then s1.holdDefault h.deliv else s1)
    else .next s

/-- REQUEST_TIMEOUT: a request still PENDING at the end of its MAXTICKS-th presented tick (R318). -/
def execRequestTimeout (k : Nat) (s : State) : Out :=
  match tget s.data.rel k with
  | none => .next s
  | some r =>
    match r.badWord with
    | some w => .next (s.relAlarm k w)
    | none =>
      if r.stateW = cwPENDING ∧ r.hold = true ∧ s.get REL_CTL_MAXTICKS ≤ r.presented then
        .next (s.relEnd k stTIMEOUT 0)
      else .next s

/-- Every PENDING request ends with TIMEOUT where RUN is cleared (R318). -/
def State.relRunCleared (s : State) : State :=
  s.data.rel.foldl (fun t e =>
    match tget t.data.rel e.1 with
    | none => t
    | some r =>
      match r.badWord with
      | some w => t.relAlarm e.1 w
      | none => if r.stateW = cwPENDING then t.relEnd e.1 stTIMEOUT 0 else t) s

/-! ## Signing and sending (R319) -/

/-- The current key of an entry: slot and epoch. -/
def currentKey (e : TableEntry) : Option (Nat × Nat) :=
  if eon e eCUR then (if eon e eBV then some (eget e eSLOTB, eget e eEPOCHB) else none)
  else if eon e eAV then some (eget e eSLOTA, eget e eEPOCHA) else none

/-- The signed frame: its extension holds the epoch and the first TAGLEN octets of the check value. -/
def signedFrame (e : TableEntry) (key octets : Bytes) (epoch : Nat) : Bytes :=
  let alg := natToBytes 1 (eget e eALG)
  let tag := Config.crypto cyFrameTag [alg, key, natToBytes 2 epoch, octets] (eget e eTAGLEN)
  Config.crypto cyExtend [natToBytes 1 (eget e eTYPE), octets, natToBytes 2 epoch, tag]
    (octets.length + Config.extLen (eget e eTYPE) (eget e eALG) (eget e eTAGLEN))

/-- A request signed and sent. -/
def State.signSend (s : State) (k lane : Nat) (r : RelReq) : State :=
  let e := s.entry r.assoc
  if s.entryValid r.assoc = false ∨ eget e eROLE ≠ rlPUBLISH then s.relEnd k stNO_ASSOC 0
  else
    match currentKey e with
    | none => s.relEnd k stKEY_ABSENT 0
    | some (slot, epoch) =>
      if s.laneKey slot epoch (eget e eALG) useSIGN = false then s.relEnd k stKEY_ABSENT 0
      else if s.pegHere slot = false then s
      else
        let key := (s.peg slot).key
        match s.pegUse slot with
        | (false, s1) => s1.relEnd k stKEY_SPENT 0
        | (true, s1) =>
          let s2 := s1.inc64 (BOW_LANE_FRAMES_LO lane) (BOW_LANE_FRAMES_HI lane) 1
          if r.hold && !(decide (r.stateW = cwRELEASING ∧ r.va = cwRELEASE ∧ r.vb = cwRELEASE)) then
            s2.relEnd k stSTATE_INVALID 0
          else (s2.sendMask (eget e eEGRESS) (signedFrame e key r.octets epoch)).relEnd k stOK epoch

/-- RELEASE_SIGN_SEND: a RELEASING request, or one of a HOLD = 0 entry, on a lane. -/
def execReleaseSignSend (k lane : Nat) (s : State) : Out :=
  match tget s.data.rel k with
  | none => .next s
  | some r =>
    match r.badWord with
    | some w => .next (s.relAlarm k w)
    | none =>
      if s.laneUp lane && (decide (r.stateW = cwRELEASING) || (!r.hold && decide (r.stateW = cwPENDING))) then
        .next (s.signSend k lane r).settle
      else .next s

/-! ## REL_CTL (R323) -/

/-- A write of REL_CTL: while RUN = 1 only where every engine named before and after is held; FE_A equal to FE_B is
refused. -/
def State.relCtlWrite (s : State) (v : Word32) : State :=
  let a0 := s.get REL_CTL_FE_A
  let b0 := s.get REL_CTL_FE_B
  let a := wordField v 4 0
  let b := wordField v 12 8
  if s.on TIME_CTL_RUN && [a0, b0, a, b].any (fun n => !(s.on (FE_CTL_HELD n))) then s.put REL_STATUS_CFGREJ 1
  else if a = b then (s.regStore REL_CTL (wordSet (wordSet v 4 0 a0) 12 8 b0)).raise (cfgSource REL_CTL) 0
  else s.regStore REL_CTL v

/-- REL_CTL_WRITE. -/
def execRelCtlWrite (v : Word32) (s : State) : Out := .next (s.relCtlWrite v)

end Sys2Proof.Machine
end

