-- ==== Sys2Proof/Machine/Queues.lean ====
section
/-! DEFINITION. Queues, doorbells, delivery and submission, MSI-X, gating, functions, the link of the Bridge (R261 to
R302, R608). -/

namespace Sys2Proof.Machine

/-! ## Gating (R291, R293) -/

/-- Wake time of a gating level in ns (Table 7-9). -/
def wakeNs (l : Nat) : Nat := if l = 0 then 0 else if l = 1 then 40 else 2000

/-- Groups with an enabled queue. -/
def State.liveGroups (s : State) : List Nat := (s.enabledQueues.map (fun q => q / 64)).eraseDups

/-- The slack of a group. -/
def State.slack (s : State) (g : Nat) : Nat := s.get (QG_LATBUDGET_NS g) - 1100 - s.get BRIDGE_LINK_LINKADD

/-- smin of R291; none where no group has an enabled queue. -/
def State.smin (s : State) : Option Nat :=
  s.liveGroups.foldl (fun m g => match m with | none => some (s.slack g) | some x => some (min x (s.slack g))) none

/-- The gating level that R291 derives; POWER while the load is shed (R533). -/
def State.gateLevel (s : State) : Nat :=
  let ok (l : Nat) : Bool :=
    decide (l ≤ s.get BRIDGE_GATE_MAXLEVEL) &&
      (match s.smin with | none => true | some m => decide (wakeNs l ≤ m / 2))
  if ok 2 || s.pwr.shed then 2 else if ok 1 then 1 else 0

/-- The hold-off that R291 derives for a group, in ns. -/
def State.holdNs (s : State) (g : Nat) : Nat :=
  if s.liveGroups.contains g then (s.slack g - wakeNs s.gateLevel) / 64 * 64 else 0

/-- Groups whose hold-off may differ from its reset value. -/
def State.holdGroups (s : State) : List Nat :=
  (s.liveGroups ++ s.regs.filterMap (fun e =>
    if QG_HOLDOFF 0 ≤ e.1 ∧ e.1 < QG_HOLDOFF 1024 ∧ (e.1 - QG_HOLDOFF 0) % 64 = 0 then
      some ((e.1 - QG_HOLDOFF 0) / 64) else none)).eraseDups

/-- Level and hold-offs put, each the value that `f` makes of the old and the new one. -/
def State.gatePut (s : State) (f : Nat → Nat → Nat) : State :=
  let s1 := (s.put BRIDGE_GATE_SMIN (s.smin.getD 0xFFFFFF)).put BRIDGE_GATE_LEVEL (f (s.get BRIDGE_GATE_LEVEL) s.gateLevel)
  s.holdGroups.foldl (fun t g => t.put (QG_HOLDOFF_NS g) (f (s.get (QG_HOLDOFF_NS g)) (s.holdNs g))) s1

/-- After a change, until the new values take effect: the shallower level and the shorter hold-offs (R293). -/
def State.gateChange (s : State) : State :=
  let sm := s.get BRIDGE_GATE_SMIN
  (s.gatePut min).put BRIDGE_GATE_SMIN sm

/-- P0 Run or P1 Gated, with PWR_STATUS.STATE. -/
def State.putGated (s : State) (g : Bool) : State :=
  if s.pstate = .p0 ∨ s.pstate = .p1 then ({ s with pstate := if g then .p1 else .p0 }).putB PWR_STATUS_STATE g else s

/-- GATING_RECOMPUTE: the values of R291 take effect; at level POWER idle units are gated, P1 Gated (Table 15-1). -/
def execGatingRecompute (s : State) : Out :=
  let s1 := s.gatePut (fun _ new => new)
  .next (s1.putGated (decide (s1.get BRIDGE_GATE_LEVEL = 2)))

/-! ## QUEUE_CFG and the base (R271, R272, R289, R608) -/

/-- A queue's EN goes from 1 to 0 (R608): a submission whose frame has not entered the frame buffer is dropped and
counted. -/
def State.queueDisable (s : State) (q : Nat) : State :=
  ((s.put (QUEUE_CFG_EN q) 0).incBy (QUEUE_DROP_COUNT q)
    ((s.queue q).subs.filter (fun b => !b.entered)).length).queueClear q

/-- A refused QUEUE_CFG value: BRIDGE_ERR names the queue, BRIDGE_CFG is raised. -/
def State.queueRefused (s : State) (q : Nat) : State :=
  ((s.put BRIDGE_ERR_CODE 3).put BRIDGE_ERR_QUEUE q).raise SRC_BRIDGE_CFG 0

/-- The vectors of the function that owns a queue. -/
def State.vecCount (s : State) (q : Nat) : Nat :=
  match s.queueOwner q with
  | none => 0
  | some f => s.get (FN_VEC_VEC_COUNT f)

/-- A power of two from 16 to 65,536. -/
def sizeOk (n : Nat) : Bool := decide (16 ≤ n) && decide (n ≤ 65536) && decide (2 ^ n.log2 = n)

/-- A write of QUEUE_CFG. -/
def State.queueCfgWrite (s : State) (q : Nat) (v : Word32) : State :=
  let on := s.on (QUEUE_CFG_EN q)
  let size0 := s.get (QUEUE_CFG_SIZE q)
  let dir0 := s.get (QUEUE_CFG_DIR q)
  let vec0 := s.get (QUEUE_CFG_VEC q)
  let sizeBad := !(sizeOk (wordField v 16 0))
  let vecBad := decide (wordField v 29 29 = 1) && decide (s.vecCount q ≤ wordField v 27 17)
  let size := if sizeBad then size0 else wordField v 16 0
  let vec := if vecBad then vec0 else wordField v 27 17
  let inten := if vecBad then s.get (QUEUE_CFG_INTEN q) else wordField v 29 29
  let dir := wordField v 30 30
  let en := wordField v 31 31
  let changed := decide (size ≠ size0 ∨ dir ≠ dir0 ∨ vec ≠ vec0)
  let s1 := if sizeBad || vecBad then s.queueRefused q else s
  let s2 := s1.put (QUEUE_CFG_INTEN q) inten
  let s3 :=
    if on then (if changed then s2.put (QUEUE_STATUS_CFGREJ q) 1 else s2)
    else ((s2.put (QUEUE_CFG_SIZE q) size).put (QUEUE_CFG_DIR q) dir).put (QUEUE_CFG_VEC q) vec
  let s4 :=
    if on ∧ en = 0 then s3.queueDisable q
    else if on = false ∧ en = 1 then
      (((((s3.put (QUEUE_CFG_EN q) 1).put (QUEUE_PROD_COUNT q) 0).put (QUEUE_CONS_COUNT q) 0).put
        (QUEUE_STATUS_STOPPED q) 0).put (QUEUE_STATUS_ERR q) 0).setQueue q ⟨[], none, [], 0⟩
    else s3
  if s4.on (QUEUE_CFG_EN q) == on then s4 else s4.gateChange

/-- QUEUE_CFG_WRITE. -/
def execQueueCfgWrite (q : Nat) (v : Word32) (s : State) : Out :=
  .next (if q < queueCount then s.queueCfgWrite q v else s)

/-- A write of QUEUE_BASE_LO or QUEUE_BASE_HI (R272). -/
def State.queueBaseWrite (s : State) (q off : Nat) (v : Word32) : State :=
  if s.on (QUEUE_CFG_EN q) && decide ((s.regEffect off v).val ≠ s.rd off) then s.put (QUEUE_STATUS_CFGREJ q) 1
  else s.regStore off v

/-! ## Doorbells (R274, R275) -/

/-- A doorbell of 32 bits. -/
def State.doorbell (s : State) (q p : Nat) : State :=
  let p0 := s.get (QUEUE_PROD_COUNT q)
  if s.on (QUEUE_CFG_EN q) = false ∨ s.on (QUEUE_STATUS_STOPPED q) = true ∨ (s.queueOwner q).isNone = true then
    s.inc BRIDGE_DBIGN_COUNT
  else if 2 ^ 31 ≤ cdiff p p0 then s.queueStop q qeDbBack
  else if s.get (QUEUE_CFG_SIZE q) < cdiff p (s.get (QUEUE_CONS_COUNT q)) then s.queueStop q qeDbRange
  else
    (s.put (QUEUE_PROD_COUNT q) p).putUnread q (tgetD s.data.unread q 0 - cdiff p p0)

/-- A 32-bit write to the doorbell page of a queue: at offset 0 a doorbell, elsewhere ignored and counted. -/
def State.doorbellWord (s : State) (q off v : Nat) : State :=
  if off = 0 then s.doorbell q (v % 2 ^ 32) else s.inc BRIDGE_DBIGN_COUNT

/-- A write to the doorbell page of a queue; one of 64 bits is two of 32 bits in ascending order (log entry 117). -/
def State.doorbellPage (s : State) (q off : Nat) (w : Width) (v : Nat) : State :=
  match w with
  | .w8 => s.inc BRIDGE_DBIGN_COUNT
  | .w16 => s.inc BRIDGE_DBIGN_COUNT
  | .w32 => s.doorbellWord q off v
  | .w64 => (s.doorbellWord q off v).doorbellWord q (off + 4) (v / 2 ^ 32)

/-- DOORBELL_WRITE: the Bridge accepts it where memory requests pass (R300). -/
def execDoorbellWrite (q off : Nat) (w : Width) (v : Nat) (s : State) : Out :=
  .next (if q < queueCount ∧ s.hostLink = true then s.doorbellPage q off w v else s)

/-! ## Delivery (R277 to R280) -/

/-- DELIVERY_SLOT_FETCH: the next posted slot is read and held. -/
def execDeliverySlotFetch (q : Nat) (s : State) : Out :=
  let x := s.queue q
  if q < queueCount ∧ s.on (QUEUE_CFG_EN q) = true ∧ s.on (QUEUE_STATUS_STOPPED q) = false ∧
      s.on (QUEUE_CFG_DIR q) = false ∧ (s.queueOwner q).isSome = true ∧ x.slot = none ∧
      s.get (QUEUE_PROD_COUNT q) ≠ s.get (QUEUE_CONS_COUNT q) ∧ s.hostLink = true then
    let b := s.hostRead (s.queueSlot q (s.get (QUEUE_CONS_COUNT q))) 16
    .next (s.setQueue q { x with slot := some (bytesToNat (b.take 8), bytesToNat ((b.drop 8).take 2)) })
  else .next s

/-- The first item of a queue takes the held slot (R278). -/
def State.deliverItem (s : State) (q : Nat) (i : Item) (addr len : Nat) : State :=
  let x := s.queue q
  let used := s.setQueue q { x with slot := none, items := x.items.drop 1 }
  let done (t : State) (st l : Nat) : State := t.complete q addr i.tsSec i.tsNs i.tick i.assoc i.src st i.epoch l
  if addr % 64 ≠ 0 then done (s.setQueue q { x with slot := none }) stBAD_PARAM 0
  else
    match i.octets with
    | none => done used i.status 0
    | some o => if o.length ≤ len then done (used.hostWrite addr o) i.status o.length else done used stBAD_LENGTH o.length

/-- QUEUE_DELIVER: the delivery turn of the arbiters (R294). -/
def execQueueDeliver (s : State) : Out :=
  match s.takeTurn false with
  | none => .next s
  | some (q, s1) =>
    match (s1.queue q).items, (s1.queue q).slot with
    | i :: _, some (addr, len) => .next (s1.deliverItem q i addr len)
    | _, _ => .next s

/-! ## Submission (R282 to R286) -/

/-- The frame of a submission has entered the frame buffer (R608). -/
def State.subEntered (s : State) (q count : Nat) : State :=
  let x := s.queue q
  s.setQueue q { x with subs := x.subs.map (fun b => if b.count = count then { b with entered := true } else b) }

/-- A fetched submission: its checks, and what its kind does with its frame. A request that ends before it enters a slot
ends with its frame not fetched (R314). -/
def State.subRun (s : State) (q count : Nat) (w0 w1 : Nat) : State :=
  let kind := w1 / 2 ^ 12 % 16
  let l := w1 % 2 ^ 11
  let i := w1 / 2 ^ 32 % 2 ^ 21
  let mask := w1 / 2 ^ 16 % 16
  let stop (t : State) (st : Nat) : State := t.subDone q count st none 0 l
  if 3 ≤ kind then stop s stBAD_PARAM
  else if l < 60 ∨ 1532 < l then stop s stBAD_LENGTH
  else if kind = 1 then
    if s.entryValid i = false ∨ eget (s.entry i) eROLE ≠ rlPUBLISH then stop s stNO_ASSOC
    else
      let f := s.hostRead w0 l
      (if (s.relRefused i l).isSome then s else s.subEntered q count).relEnter i f (Config.frameView f)
        (some (q, count)) 0
  else if kind = 2 ∧ mask = 0 then stop s stBAD_PARAM
  else
    let f := s.hostRead w0 l
    let v := Config.frameView f
    let t := s.subEntered q count
    if kind = 0 then stop (t.frameTake 4 f v) stOK
    else
      match s.classOf f v with
      | .other => stop (t.sendMask mask f) stOK
      | .kdc => stop (t.sendMask mask f) stOK
      | .frag => stop (t.inc CLASS_FRAG_COUNT) stNOT_PERMITTED
      | .ptp | .supervision | .goose | .sv | .rgoose | .rsv => stop t stNOT_PERMITTED

/-- SUBMISSION_FETCH: the submission turn of the arbiters; there is none while the frame buffer has no room (R286). -/
def execSubmissionFetch (s : State) : Out :=
  match s.takeTurn true with
  | none => .next s
  | some (q, s1) =>
    let x := s1.queue q
    let n := x.nextFetch
    let b := s1.hostRead (s1.queueSlot q n) 32
    let word (k : Nat) : Nat := bytesToNat ((b.drop (8 * k)).take 8)
    let s2 := s1.setQueue q { x with
      nextFetch := cmod (n + 1), subs := x.subs ++ [⟨n, word 2, false, .working⟩] }
    .next (s2.subRun q n (word 0) (word 1)).settle

/-- SUBMISSION_COMPLETE: the earliest submission of a queue, when it is finished (R285). -/
def execSubmissionComplete (q : Nat) (s : State) : Out :=
  let x := s.queue q
  match x.subs with
  | [] => .next s
  | b :: rest =>
    match b.stage with
    | .working => .next s
    | .done st assoc epoch len sec ns tick =>
      if s.hostLink = false then .next s
      else .next ((s.setQueue q { x with subs := rest }).complete q b.cookie sec ns tick assoc 4 st epoch len)

/-- HOST_READ_ERROR: a read for a queue returned an error, or nothing in time (R287). -/
def execHostReadError (q : Nat) (timeout : Bool) (s : State) : Out :=
  if q < queueCount ∧ s.on (QUEUE_CFG_EN q) = true ∧ s.on (QUEUE_STATUS_STOPPED q) = false then
    .next (s.queueStop q (if timeout then qeHostTimeout else qeHostAbort))
  else .next s

/-- BRIDGE_ERR_READ. -/
def execBridgeErrRead (s : State) : Out := .next (s.clrIrq 385)

/-! ## MSI-X (R290) -/

/-- The cycle at which a vector fires: at once where a group has reached its count, else at its earliest deadline. -/
def State.fireAt (s : State) (l : List (Nat × Nat)) : Nat :=
  let full := l.any (fun e => decide (s.get (QG_MODCNT_COUNT e.1) ≠ 0) &&
    decide (s.get (QG_MODCNT_COUNT e.1) ≤ (l.filter (fun x => decide (x.1 = e.1))).length))
  if full then s.clock
  else l.foldl (fun m e => min m e.2) (match l with
    | [] => s.clock
    | e :: _ => e.2)

/-- MSIX_FIRE: a due vector fires. -/
def execMsixFire (v : Nat) (s : State) : Out :=
  match tget s.data.due v with
  | none => .next s
  | some l =>
    let s1 := s.passTo (s.fireAt l)
    .next ({ s1 with data := { s1.data with due := terase s1.data.due v } }.msiSend v)

/-- A vector unmasked: a held message is sent. -/
def State.unmask (s : State) (v : Nat) : State :=
  let s1 := s.put (MSIX_VCTL_MASK v) 0
  let p := MSIX_PBA_PEND (v / 32)
  if bitOf (s1.get p) (v % 32) then (s1.put p (s1.get p - 2 ^ (v % 32))).msiSend v else s1

/-- MSIX_UNMASK. -/
def execMsixUnmask (v : Nat) (s : State) : Out := .next (if v < 2048 then s.unmask v else s)

/-! ## Functions (R267 to R269) -/

/-- Whether two ranges of numbers share one. -/
def rangesMeet (a n b m : Nat) : Bool := decide (n ≠ 0) && decide (m ≠ 0) && decide (a < b + m) && decide (b < a + n)

/-- Whether a function has an enabled queue. -/
def State.fnBusy (s : State) (f : Nat) : Bool :=
  let g := s.fnGroups f
  s.enabledQueues.any (fun q => decide (g.1 ≤ q / 64) && decide (q / 64 < g.1 + g.2))

/-- A write of FN_QG, or of FN_VEC: ignored as a whole in the cases of R268; a VEC_COUNT of 0 for function 0 is refused
and keeps its value (R14). -/
def State.fnSplitWrite (s : State) (f : Nat) (vec : Bool) (v : Word32) : State :=
  let zero := vec && decide (f = 0 ∧ wordField v 27 16 = 0)
  let s1 := if zero then s.raise SRC_BRIDGE_CFG 0 else s
  let w := if zero then wordSet v 27 16 (s.get (FN_VEC_VEC_COUNT 0)) else v
  let base := if vec then wordField w 10 0 else wordField w 9 0
  let count := if vec then wordField w 27 16 else wordField w 25 16 + 1024 * wordField w 26 26
  let top := if vec then 2048 else 1024
  let of (k : Nat) : Nat × Nat := if vec then (s.get (FN_VEC_VEC_BASE k), s.get (FN_VEC_VEC_COUNT k)) else s.fnGroups k
  let clash := (List.range 64).any (fun k => decide (k ≠ f) && rangesMeet base count (of k).1 (of k).2)
  if clash || decide (top < base + count) || (decide (f ≠ 0) && s.data.vfEnable) || s.fnBusy f then
    (s1.put BRIDGE_ERR_CODE 2).raise SRC_BRIDGE_CFG 0
  else s1.regStore (if vec then FN_VEC f else FN_QG f) w

/-- FN_SPLIT_WRITE. -/
def execFnSplitWrite (f : Nat) (vec : Bool) (v : Word32) (s : State) : Out :=
  .next (if f < 64 then s.fnSplitWrite f vec v else s)

/-- VF_ENABLE_WRITE: the vector counts in force are captured (R268). -/
def execVfEnableWrite (on : Bool) (s : State) : Out :=
  let vecs := (List.range 63).map (fun k => (k + 1, s.get (FN_VEC_VEC_COUNT (k + 1))))
  .next { s with data := { s.data with
    vfEnable := on, vfVecs := if on && !s.data.vfEnable then vecs else s.data.vfVecs } }

/-- The registers of a range of offsets at their reset values. -/
def State.regsReset (s : State) (lo hi : Nat) : State :=
  { s with regs := s.regs.filter (fun e => decide (e.1 < lo) || decide (hi ≤ e.1))
           dual := s.dual.filter (fun e => decide (e.1 < lo) || decide (hi ≤ e.1)) }

/-- FUNCTION_LEVEL_RESET (R269, R608). The items discarded are counted after the registers are reset. -/
def execFunctionLevelReset (f : Nat) (s : State) : Out :=
  if f < 64 then
    let g := s.fnGroups f
    let qs := s.enabledQueues.filter (fun q => decide (g.1 ≤ q / 64) && decide (q / 64 < g.1 + g.2))
    let drops := qs.map (fun q =>
      (q, (s.queue q).items.length + ((s.queue q).subs.filter (fun b => !b.entered)).length))
    let s1 := qs.foldl (fun t q => t.queueDisable q) s
    let vb := s.get (FN_VEC_VEC_BASE f)
    let s2 := (List.range (s.get (FN_VEC_VEC_COUNT f))).foldl (fun t k => t.put (MSIX_VCTL_MASK (vb + k)) 1) s1
    let s3 := (s2.regsReset (QUEUE_BASE_LO (64 * g.1)) (QUEUE_BASE_LO (64 * (g.1 + g.2)))).regsReset
      (QG_LATBUDGET g.1) (QG_LATBUDGET (g.1 + g.2))
    let s4 := drops.foldl (fun t d => t.incBy (QUEUE_DROP_COUNT d.1) d.2) s3
    .next ((s4.put (FN_CTL_FLR f) 1).gateChange)
  else .next s

/-- FLR_COMPLETE. -/
def execFlrComplete (f : Nat) (s : State) : Out :=
  if f < 64 ∧ s.on (FN_CTL_FLR f) = true then
    let m := s.get BRIDGE_FLR_DONE_MASK
    .next (((s.put (FN_CTL_FLR f) 0).put BRIDGE_FLR_DONE_MASK (m ||| 2 ^ (f % 32))).setIrq 387)
  else .next s

/-! ## The link (R261, R265, R266) -/

/-- Effective rate per lane in MB/s (Table 7-1). -/
def laneRate (gen : Nat) : Nat := [0, 250, 500, 985, 1970, 3940, 7500].getD gen 0

/-- LINKADD of a trained link. -/
def linkAdd (gen width : Nat) : Nat := ceilDiv 1600000 (laneRate gen * width) - 27

/-- Source 384 follows whether BRIDGE_LINK differs from what was last read (Table 7-9b). -/
def State.linkLine (s : State) : State := s.irq 384 (decide (s.rd BRIDGE_LINK ≠ s.data.linkRead))

/-- BRIDGE_LINK_UP. -/
def execBridgeLinkUp (gen width : Nat) (s : State) : Out :=
  if s.pwr.perstLow = false ∧ 1 ≤ gen ∧ gen ≤ 6 ∧ (width = 1 ∨ width = 2 ∨ width = 4 ∨ width = 8) then
    let s1 := (((((s.put BRIDGE_LINK_UP 1).putB BRIDGE_LINK_FLIT (decide (gen = 6))).put BRIDGE_LINK_GEN gen).put
      BRIDGE_LINK_WIDTH width).put BRIDGE_LINK_LINKADD (linkAdd gen width))
    .next s1.linkLine.gateChange
  else .next s

/-- The link goes down (R266): every queue disabled, its waiting frames discarded, the sources raised, a record
written. -/
def State.linkDown (s : State) : State :=
  let s1 := s.enabledQueues.foldl (fun t q => t.queueDisable q) s
  let s2 := (((s1.put BRIDGE_LINK_UP 0).put BRIDGE_LINK_FLIT 0).put BRIDGE_LINK_GEN 0).put BRIDGE_LINK_WIDTH 0
  ((s2.linkLine.raise SRC_BRIDGE_LINK 0).evUnitFree 384).settle.gateChange

/-- BRIDGE_LINK_DOWN: the link goes down, or the host issues a hot reset. -/
def execBridgeLinkDown (s : State) : Out := .next (if s.on BRIDGE_LINK_UP then s.linkDown else s)

/-! ## Attestation and link protection (R298 to R300) -/

/-- Whether the key bus gives the Bridge a slot's key (Table 12-1). -/
def State.bridgeKey (s : State) (slot : Nat) : Bool :=
  let p := s.peg slot
  decide (262112 ≤ slot ∧ slot ≤ 262143) && decide (p.st = .active) && decide (p.kalg = kaBRIDGE)

/-- LIFE_BOOT.STAGE while running; the attestation window of R544 (Table 2-4). -/
abbrev stRUNNING : Nat := 3
def attestBase : Nat := 0x30800000

/-- SPDM requests that the responder supports, by RequestResponseCode: GET_VERSION 0x84, GET_CAPABILITIES 0xE1,
NEGOTIATE_ALGORITHMS 0xE3, GET_DIGESTS 0x81, GET_CERTIFICATE 0x82, CHALLENGE 0x83, GET_MEASUREMENTS 0xE0, KEY_EXCHANGE
0xE4, FINISH 0xE5, KEY_UPDATE 0xE9, HEARTBEAT 0xE8, END_SESSION 0xEC (PRESUMED, DSP0274). -/
def spdmCodes : List Nat := [0x84, 0xE1, 0xE3, 0x81, 0x82, 0x83, 0xE0, 0xE4, 0xE5, 0xE9, 0xE8, 0xEC]

/-- What a request in the clear makes of the responder: the negotiation goes version, capabilities, algorithms, starting
anew with GET_VERSION; the rest needs all three; KEY_EXCHANGE opens the session `id`. None for a request that is not
answered in this state (log entry 125). -/
def Spdm.clear (x : Spdm) (code id : Nat) : Option Spdm :=
  if code = 0x84 then some ⟨1, none⟩
  else if code = 0xE1 then (if x.conn = 1 then some { x with conn := 2 } else none)
  else if code = 0xE3 then (if x.conn = 2 then some { x with conn := 3 } else none)
  else if x.conn ≠ 3 then none
  else if code = 0x81 ∨ code = 0x82 ∨ code = 0x83 ∨ code = 0xE0 then some x
  else if code = 0xE4 then some { x with session := some (id, false, 0) }
  else none

/-- The same for a secured message: FINISH ends the handshake of the session, the rest needs it ended. -/
def Spdm.inSession (x : Spdm) (session code : Nat) : Option Spdm :=
  match x.session with
  | none => none
  | some (id, up, gen) =>
    if id ≠ session then none
    else if code = 0xE5 then (if up then none else some { x with session := some (id, true, gen) })
    else if up = false then none
    else if code = 0x81 ∨ code = 0x82 ∨ code = 0xE0 ∨ code = 0xE8 then some x
    else if code = 0xE9 then some { x with session := some (id, true, gen + 1) }
    else if code = 0xEC then some { x with session := none }
    else none

/-- An answer in the mailbox: an SPDM response under the module's identity key, or the error response that leaves the
responder as it was. -/
def State.spdmAnswer (s : State) (m : Bytes) (code : Nat) (x : Option Spdm) : State :=
  let p := s.priv 4095
  let key := if s.privSt 4095 = .active && bitOf p.use puSPDM then p.key else []
  let y := x.getD s.data.spdm
  let ok := natToBytes 1 (if x.isSome then code else 0)
  let gen := match y.session with | some (_, _, g) => natToBytes 4 g | none => []
  { s with data := { s.data with
    spdm := y, doe := Config.crypto cySpdm [m, ok, key, s.peek attestBase 512, gen] 0 } }

/-- Whether IDE_KM may be used in a session: its handshake has ended (R299). -/
def State.ideSession (s : State) (session stream : Nat) : Bool :=
  decide (stream < 5) && (match s.data.spdm.session with | some (id, up, _) => decide (id = session) && up | none => false)

/-- DOE_REQUEST: an SPDM request is answered under the module's identity key, in the clear or in a session (R298); IDE_KM
names the slot of a stream's key, and makes the stream Secure with it, or refreshes the key of one that is (R299, Table
12-1). Before STAGE is RUNNING only DOE discovery is answered (R539). -/
def execDoeRequest (r : DoeReq) (s : State) : Out :=
  match r with
  | .discovery m => .next { s with data := { s.data with doe := Config.crypto cySpdm [m] 0 } }
  | .spdm code m =>
    if s.get LIFE_BOOT_STAGE ≠ stRUNNING then .next s
    else
      let c := s.free
      .next (c.2.spdmAnswer m code (c.2.data.spdm.clear code (c.1 % 2 ^ 32)))
  | .secured session code m =>
    if s.get LIFE_BOOT_STAGE ≠ stRUNNING then .next s
    else .next (s.spdmAnswer m code (s.data.spdm.inSession session code))
  | .ideKey session stream slot =>
    if s.get LIFE_BOOT_STAGE = stRUNNING ∧ s.ideSession session stream = true then
      let used := match tget s.data.ide stream with | some (_, u) => u | none => none
      .next { s with data := { s.data with ide := tset s.data.ide stream (slot, used) } }
    else .next s
  | .ideGo session stream =>
    match tget s.data.ide stream with
    | none => .next s
    | some (slot, _) =>
      if s.get LIFE_BOOT_STAGE = stRUNNING ∧ s.ideSession session stream = true ∧ s.bridgeKey slot = true then
        .next ({ s with data := { s.data with ide := tset s.data.ide stream (slot, some slot) } }.put BRIDGE_IDE_SECURE
          (s.get BRIDGE_IDE_SECURE ||| 2 ^ stream))
      else .next s

/-- IDE_INSECURE: a stream leaves Secure; with REQUIRE = 1 every queue stops and BRIDGE_IDE is raised (R300). -/
def execIdeInsecure (stream : Nat) (s : State) : Out := .next (s.ideLeave stream).settle

end Sys2Proof.Machine
end

