-- ==== Sys2Proof/Machine/Evrec.lean ====
section
/-! DEFINITION. The event recorder: records of units and of the Capo, flushes into the event ring, the view of BAR4,
clearing (R478 to R484). -/

namespace Sys2Proof.Machine

/-! ## The ring -/

/-- The records of the ring, oldest first: those from the write point on come before those below it. -/
def State.ringOrder (s : State) : List (Nat × EvRec) :=
  s.ev.ring.filter (fun e => decide (s.ev.wp ≤ e.1)) ++ s.ev.ring.filter (fun e => decide (e.1 < s.ev.wp))

/-- The readable records, oldest first: ring, then buffer, from the record of the last clear on (R484). -/
def State.readable (s : State) : List EvRec :=
  let all := ((s.ringOrder.map Prod.snd).filter (fun r => !r.pad)) ++ s.ev.buf.map Prod.fst
  match s.ev.oldestFloor with
  | none => all
  | some q => if all.any (fun r => decide (r.seq = q)) then all.dropWhile (fun r => decide (r.seq ≠ q)) else all

/-- EVREC_OLDEST follows the readable records. -/
def State.putOldest (s : State) : State :=
  match s.readable.head? with
  | some r => s.put EVREC_OLDEST_SEQ r.seq
  | none => s

/-- A flush of the oldest `n` records of the buffer ends: they stand in the ring, the mirror is to be copied (R481,
R482). -/
def State.flushDone (s : State) (n : Nat) : State :=
  let s1 := s.ringWrite (padUnits ((s.ev.buf.take n).map Prod.fst))
  let s2 : State := { s1 with
    ev := { s1.ev with buf := s1.ev.buf.drop n, flushN := none }
    pick := { s1.pick with copyReq := true } }
  (((s2.put EVREC_STATUS_FILL s2.ev.buf.length).put EVREC_STATUS_FLUSHING 0).inc EVREC_FLUSHES_COUNT).putOldest

/-- A flush ends: after a supply warning operating time is mirrored with it (R51). -/
def State.flushEnd (s : State) (n : Nat) : State :=
  let s0 := s.flushDone n
  if s.time.mirrorDue || s.pwr.dipAt.isSome then s0.mirrorOpTime else s0

/-- EVREC_FLUSH: the running flush ends; a trigger that came during it starts another (R480, R481), which mirrors
operating time too where the trigger came after a supply warning. -/
def execEvrecFlush (s : State) : Out :=
  match s.ev.flushN with
  | none => .next s
  | some n =>
    let s1 := s.flushEnd n
    if s1.ev.again then
      let s2 := ({ s1 with ev := { s1.ev with again := false } }).flushStart
      .next { s2 with time := { s2.time with mirrorDue := s2.time.mirrorDue || s.time.mirrorDue } }
    else .next s1

/-- A write of EVREC_CTL (Table 13-15). -/
def State.evCtlWrite (s : State) (v : Word32) : State :=
  let s1 := s.regStore EVREC_CTL v
  if wordField v 31 31 = 1 then s1.flushStart else s1

/-- EVREC_FLUSH_WRITE: a write of EVREC_CTL with FLUSH = 1. -/
def execEvrecFlushWrite (v : Word32) (s : State) : Out :=
  if wordField v 31 31 = 1 then .next (s.evCtlWrite v) else .next s

/-- EVREC_MAXAGE_EXPIRY: a record has stayed in the buffer for MAXAGE seconds (R480). -/
def execEvrecMaxageExpiry (s : State) : Out :=
  match s.ev.buf with
  | [] => .next s
  | e :: _ => .next (s.passTo (e.2 + cyclesPerSec * s.get EVREC_CTL_MAXAGE)).flushStart

/-- EVENT_RECORD_ENTER: the record of a hardware unit, named by its interrupt source (R478, R479). -/
def execEventRecordEnter (source code status : Nat) (payload : Bytes) (s : State) : Out :=
  .next (s.evEnter (source % 512) (code % 65536) (status % 256) 0xFF payload)

/-- A write of EVREC_PUT_CTL (R478): with GO = 1 by a Capo ring, a record with the staged payload. -/
def State.evPutWrite (s : State) (mid : Nat) (v : Word32) : State :=
  if wordField v 31 31 = 1 ∧ 0x40 ≤ mid ∧ mid ≤ 0x43 then
    s.evEnter (srcCapo (mid - 0x40)) (wordField v 15 0) stOK mid (s.regBytes (EVREC_PUT 0) 8)
  else s

/-- EVREC_PUT. -/
def execEvrecPut (mid : Nat) (v : Word32) (s : State) : Out := .next (s.evPutWrite mid v)

/-! ## Clearing (R484) -/

/-- The blocks of the ring other than the one that holds a place are erased. -/
def State.eraseOthers (s : State) (p : Nat) : State :=
  (List.range 34).foldl (fun t k =>
    if k ≠ p / ringBlockRecs ∧ 0 < (t.blk (14 + k)).next then t.blkErase (14 + k) else t) s

/-- The authorised clear: the buffer flushed, the clear record, whose CODE is free, written and flushed, OLDEST moved to it, the other
blocks erased, EVREC_LOST cleared; the Pickguard mirror is to be copied anew. -/
def State.evClear (s : State) : State :=
  let s1 := (s.put CER_AUTHWIN_AUTH 0).flushEnd s.ev.buf.length
  let s2 : State := { s1 with ev := { s1.ev with again := false } }
  let r := s2.free
  let s3 := r.2.evPut (srcCapo 1) (r.1 % 65536) stOK 0x41 (s2.regBytes (CER_ID 0) 4) false false
  let seq := s3.get EVREC_NEWEST_SEQ
  let place := s3.ev.wp
  let s4 := s3.flushEnd s3.ev.buf.length
  let s5 := ({ s4 with ev := { s4.ev with oldestFloor := some seq } }).eraseOthers place
  (((s5.put EVREC_LOST_COUNT 0).put EVREC_STATUS_CLRSTATUS stOK).putOldest).setIrq 325

/-- A write of EVREC_CLEAR with GO = 1. -/
def State.evClearWrite (s : State) (mid : Nat) (v : Word32) : State :=
  if wordField v 31 31 = 0 then s
  else if mid = 0x41 ∧ s.on CER_AUTHWIN_AUTH = true then s.evClear
  else
    let r := s.free
    ((r.2.put EVREC_STATUS_CLRSTATUS stNOT_PERMITTED).setIrq 325).evEnter (srcHw 325) (r.1 % 65536) stNOT_PERMITTED
      mid []

/-- EVREC_CLEAR: a write of EVREC_CLEAR with GO = 1. -/
def execEvrecClear (mid : Nat) (s : State) : Out := .next (s.evClearWrite mid 0x80000000)

/-- EVREC_STATUS_READ. -/
def execEvrecStatusRead (s : State) : Out := .next (s.clrIrq 325)

/-! ## The view of BAR4 (R483, Table 13-9) -/

/-- Whose WINBASE a master uses: a function's own, the Capo's. -/
def evReader (mid : Nat) : Nat := if 0x80 ≤ mid ∧ mid < 0xC0 then mid - 0x80 else 64

def State.winBase (s : State) (reader : Nat) : Nat := tgetD s.ev.winBase reader 0

/-- The 64 bytes of window place `i`: the record with SEQ = WINBASE + i, zero where none is readable. -/
def State.windowRecord (s : State) (reader i : Nat) : Bytes :=
  match s.readable.find? (fun r => decide (r.seq = (s.winBase reader + i) % 2 ^ 32)) with
  | some r => r.bytes
  | none => List.replicate 64 0

/-- A byte of the view at an offset. -/
def State.evViewByte (s : State) (reader a : Nat) : Byte :=
  if a < 0x14 then
    let w := [s.get EVREC_NEWEST_SEQ, s.get EVREC_OLDEST_SEQ, s.get EVREC_STATUS_FILL, s.get EVREC_LOST_COUNT,
      s.winBase reader].getD (a / 4) 0
    BitVec.ofNat 8 (w / 2 ^ (8 * (a % 4)))
  else if 0x1000 ≤ a ∧ a < 0x5000 then
    match s.ev.buf[(a - 0x1000) / 64]? with
    | some e => e.1.bytes.getD (a % 64) 0
    | none => 0
  else if 0x400000 ≤ a ∧ a < 0x800000 then (s.windowRecord reader ((a - 0x400000) / 64)).getD (a % 64) 0
  else 0

/-- Bytes of the view read by a master; a read of EVREC_LOST there lowers its source. -/
def State.evViewRead (s : State) (mid a n : Nat) : Bytes × State :=
  ((List.range n).map (fun i => s.evViewByte (evReader mid) (a + i)), if a < 0x10 ∧ 0xC < a + n then s.clrIrq 324 else s)

/-- WINBASE written. -/
def State.winBaseWrite (s : State) (reader v : Nat) : State :=
  { s with ev := { s.ev with winBase := tsetD 0 s.ev.winBase reader (v % 2 ^ 32) } }

/-- EVREC_WINDOW_READ: a master reads place `i` of the window. -/
def execEvrecWindowRead (mid i : Nat) (s : State) : Out :=
  if i < 65536 then
    .next { s with mem := { s.mem with
      reply := [⟨0x30400000 + 64 * i, 64, true, false, s.windowRecord (evReader mid) i⟩] } }
  else .next s

end Sys2Proof.Machine
end

