-- ==== Sys2Proof/Machine/PickBase.lean ====
section
/-! DEFINITION. The Pickguard's word memory with its torn-safe writes, visit entries and mirror slots, and the keys and
record layer of sessions (R566 to R574). -/

namespace Sys2Proof.Machine

/-! ## Word memory (Table 16-7) -/

/-- A word of the Pickguard's memory. -/
def State.pickWord (s : State) (i : Nat) : Word32 := tgetD s.pick.words i 0

/-- Consecutive words. -/
def State.pickWords (s : State) (i : Nat) : Nat → List Word32
  | 0 => []
  | n + 1 => s.pickWord i :: s.pickWords (i + 1) n

/-- Words written from an address on. -/
def putPickWords (m : List (Nat × Word32)) (i : Nat) : List Word32 → List (Nat × Word32)
  | [] => m
  | w :: ws => putPickWords (tsetD 0 m i w) (i + 1) ws

/-- The bytes of words, byte 4k in bits 7:0 of word k. -/
def wordsBytes : List Word32 → Bytes
  | [] => []
  | w :: ws => natToBytes 4 w.toNat ++ wordsBytes ws

/-- Words of bytes. -/
def bytesWords : Nat → Bytes → List Word32
  | 0, _ => []
  | n + 1, bs => BitVec.ofNat 32 (bytesToNat (bs.take 4)) :: bytesWords n (bs.drop 4)

/-- MARK over covered words (R572). -/
def markOf (ws : List Word32) : Word32 :=
  let c := crc32 (wordsBytes ws)
  if c = 0 ∨ c = 0xFFFFFFFF then 1 else BitVec.ofNat 32 c

/-- A torn-safe write in its three steps, as far as the supply holds (R572, Table 16-8): the mark's place written 0, the
content's words each with its place, the mark. -/
def tornWrite (m : List (Nat × Word32)) (markAt : Nat) (content : List (Nat × Word32)) (mark : Word32) (t : Torn) :
    List (Nat × Word32) :=
  let put (m : List (Nat × Word32)) (l : List (Nat × Word32)) := l.foldl (fun m e => tsetD 0 m e.1 e.2) m
  let m1 := tsetD 0 m markAt 0
  match t with
  | .invalidate false => m
  | .invalidate true => m1
  | .body n => put m1 (content.take n)
  | .mark false => put m1 content
  | .mark true => tsetD 0 (put m1 content) markAt mark
  | .whole => tsetD 0 (put m1 content) markAt mark

/-- Words with their places. -/
def placed (i : Nat) : List Word32 → List (Nat × Word32)
  | [] => []
  | w :: ws => (i, w) :: placed (i + 1) ws

/-- Whether sequence number `a` is newer than `b`, counted forward modulo `m`. -/
def newer (m a b : Nat) : Bool := decide (a ≠ b) && decide ((a + m - b % m) % m < m / 2)

/-! ## Visit entries (R571) -/

/-- First word of a slot of a visit entry. -/
def visitAt (e slot : Nat) : Nat := 0x2100 + e * 32 + slot * 16

/-- Whether a visit slot holds a valid record. -/
def State.visitValid (s : State) (e slot : Nat) : Bool :=
  let m := s.pickWord (visitAt e slot + 15)
  decide (m ≠ 0) && decide (m = markOf (s.pickWords (visitAt e slot) 15))

/-- VSEQ of a slot. -/
def State.visitSeq (s : State) (e slot : Nat) : Nat := (s.pickWord (visitAt e slot)).toNat

/-- The slot of an entry with its newer valid record. -/
def State.visitSlot (s : State) (e : Nat) : Option Nat :=
  match s.visitValid e 0, s.visitValid e 1 with
  | true, true => some (if newer (2 ^ 32) (s.visitSeq e 0) (s.visitSeq e 1) then 0 else 1)
  | true, false => some 0
  | false, true => some 1
  | false, false => none

/-- The newest VSEQ of the log; none where it is empty. -/
def State.newestVisit (s : State) : Option Nat :=
  (List.range 64).foldl (fun best e =>
    match s.visitSlot e, best with
    | none, _ => best
    | some k, none => some (s.visitSeq e k)
    | some k, some b => if newer (2 ^ 32) (s.visitSeq e k) b then some (s.visitSeq e k) else some b) none

/-- Entries of kind UNVERIFIED. -/
def State.unverified (s : State) : Nat :=
  ((List.range 64).filter (fun e =>
    match s.visitSlot e with
    | some k => decide ((s.pickWord (visitAt e k + 1)).toNat / 2 ^ 24 = 3)
    | none => false)).length

/-- PICK_VSEQ, PICK_UNVERIFIED and source PICK_VISIT follow the visit log. -/
def State.visitsSeen (s : State) : State :=
  let n := s.unverified
  ((s.put PICK_VSEQ_SEQ (s.newestVisit.getD 0)).put PICK_UNVERIFIED_COUNT n).irq 483 (decide (0 < n))

/-- A visit entry written with the next VSEQ: its words 1 to 13 (R571, R572). -/
def State.visitWrite (s : State) (ws : List Word32) (t : Torn) : State :=
  let seq := match s.newestVisit with
    | some q => (q + 1) % 2 ^ 32
    | none => 1
  let e := seq % 64
  let k := match s.visitSlot e with
    | some k => 1 - k
    | none => 0
  let body := BitVec.ofNat 32 seq :: (ws.take 13 ++ List.replicate (13 - ws.length) 0) ++ [0]
  let m := tornWrite s.pick.words (visitAt e k + 15) (placed (visitAt e k) body) (markOf body) t
  ({ s with pick := { s.pick with words := m } }).visitsSeen

/-- Words 1 to 13 of a visit entry of the module (R571): kind, status, UID, credential ID, stamps. -/
def State.visitWords (s : State) (kind st : Nat) (uid ident : Bytes) : List Word32 :=
  let t := s.stamp
  BitVec.ofNat 32 (2 ^ 24 * kind + 2 ^ 16 * (st % 256) + uid.length % 16) ::
    bytesWords 3 (uid ++ List.replicate (12 - uid.length) 0) ++ bytesWords 4 (ident ++ List.replicate (16 - ident.length) 0) ++
    [BitVec.ofNat 32 t.opTime, BitVec.ofNat 32 (t.opTime / 2 ^ 32), BitVec.ofNat 32 t.pwrCyc,
      BitVec.ofNat 32 t.taiSec, if t.taiValid then 1 else 0]

/-! ## The mirror (R482, R573) -/

/-- First words of a mirror slot's header and body. -/
def mirrorHead (slot : Nat) : Nat := 0x10 + slot * 4
def mirrorBody (slot : Nat) : Nat := 0x100 + slot * 0x1000

/-- Whether a mirror slot is valid: its mark covers its 4,096 words, MSEQ and count. -/
def State.mirrorValid (s : State) (slot : Nat) : Bool :=
  let m := s.pickWord (mirrorHead slot + 2)
  decide (m ≠ 0) && decide (m = markOf (s.pickWords (mirrorBody slot) 4096 ++ s.pickWords (mirrorHead slot) 2))

def State.mirrorSeq (s : State) (slot : Nat) : Nat := (s.pickWord (mirrorHead slot)).toNat
def State.mirrorCount (s : State) (slot : Nat) : Nat := (s.pickWord (mirrorHead slot + 1)).toNat

/-- The newest valid mirror slot. -/
def State.mirrorSlot (s : State) : Option Nat :=
  match s.mirrorValid 0, s.mirrorValid 1 with
  | true, true => some (if newer (2 ^ 16) (s.mirrorSeq 0) (s.mirrorSeq 1) then 0 else 1)
  | true, false => some 0
  | false, true => some 1
  | false, false => none

/-- The slot a copy targets. -/
def State.mirrorTarget (s : State) : Nat :=
  match s.mirrorSlot with
  | some k => 1 - k
  | none => 0

/-- PICK_MIRROR.MSEQ follows the newest valid slot. -/
def State.mirrorSeen (s : State) : State :=
  s.put PICK_MIRROR_MSEQ (match s.mirrorSlot with
    | some k => s.mirrorSeq k
    | none => 0)

/-! ## Credentials and sessions (R566 to R569) -/

/-- The customisation strings of R568 and R580. -/
def custString (l : List Nat) : Bytes := [0x4F, 0x54, 0x34, 0x38, 0x20] ++ l.map (BitVec.ofNat 8)
/-- "OT48 badge", "OT48 confirm M", "OT48 confirm P", "OT48 rec", "OT48 card", "OT48 card confirm". -/
def custBadge : Bytes := custString [0x62, 0x61, 0x64, 0x67, 0x65]
def custConfirmM : Bytes := custString [0x63, 0x6F, 0x6E, 0x66, 0x69, 0x72, 0x6D, 0x20, 0x4D]
def custConfirmP : Bytes := custString [0x63, 0x6F, 0x6E, 0x66, 0x69, 0x72, 0x6D, 0x20, 0x50]
def custRec : Bytes := custString [0x72, 0x65, 0x63]
def custCard : Bytes := custString [0x63, 0x61, 0x72, 0x64]
def custCardConfirm : Bytes := custString [0x63, 0x61, 0x72, 0x64, 0x20, 0x63, 0x6F, 0x6E, 0x66, 0x69, 0x72, 0x6D]

/-- KMAC256 with a key, data, customisation and output bytes. -/
def kmac256 (key data cust : Bytes) (n : Nat) : Bytes := Config.crypto cyKmac256 [key, data, cust] n

/-- Offsets in a credential (R566): ID, ROLE, AUTH, encapsulation key, signature. -/
def credID (c : Bytes) : Bytes := c.take 16
def credROLE (c : Bytes) : Nat := bytesToNat ((c.drop 16).take 1)
def credAUTH (c : Bytes) : Nat := bytesToNat ((c.drop 17).take 1)
def credKey (c : Bytes) : Bytes := (c.drop 20).take 1184
abbrev credLen : Nat := 4513

/-- A session with keys KMP, KPM, KMAC split from 96 bytes (R568, R580). -/
def PickSess.keyed (x : PickSess) (keys t : Bytes) : PickSess :=
  { x with kmp := keys.take 32, kpm := (keys.drop 32).take 32, kmac := keys.drop 64, t := t, ctrOut := 0, ctrIn := 0 }

/-- Bytes XORed with the keystream of a direction and counter (R569). -/
def recXor (key : Bytes) (d c : Nat) (bs : Bytes) : Bytes :=
  List.zipWith (fun a b => a ^^^ b) bs (Config.crypto cyShake256 [key ++ natToBytes 1 d ++ natToBytes 4 c] bs.length)

/-- The tag of a DATA message (R569). -/
def recTag (x : PickSess) (d c : Nat) (ct : Bytes) : Bytes :=
  kmac256 x.kmac (natToBytes 1 d ++ natToBytes 4 c ++ ct) custRec 16

/-- A DATA message of the module with plaintext, and the session after it. -/
def PickSess.sealMsg (x : PickSess) (plain : Bytes) : Bytes × PickSess :=
  let c := x.ctrOut % 2 ^ 32
  let ct := recXor x.kmp 0 c plain
  ([5, 0, 0, 0] ++ natToBytes 4 c ++ ct ++ recTag x 0 c ct, { x with ctrOut := x.ctrOut + 1 })

/-- What a received DATA message comes to: its plaintext, a counter out of sequence, a tag that fails, or a form that
is no DATA message. -/
inductive RecIn where
  | plain (bs : Bytes)
  | sequence
  | tag
  | form
  deriving DecidableEq, Repr

/-- A DATA message from the peer checked and decrypted (R569). -/
def PickSess.openMsg (x : PickSess) (m : Bytes) : RecIn :=
  let n := m.length - 24
  let c := bytesToNat ((m.drop 4).take 4)
  let ct := (m.drop 8).take n
  if m.length < 25 ∨ 1024 < n ∨ m.take 2 ≠ [5, 1] then .form
  else if c ≠ x.ctrIn then .sequence
  else if m.drop (8 + n) ≠ recTag x 1 c ct then .tag
  else .plain (recXor x.kpm 1 c ct)

/-- Whether a Peg slot answers the Pickguard and card port on the key bus (Table 12-1). -/
def State.pickKeyOk (s : State) (i : Nat) : Bool :=
  let p := s.peg i
  decide (p.st = .active) && decide (p.kalg = kaSECRET) && bitOf p.use usePICK

/-- A session's state put: source PICK_SESSION on a change. -/
def State.pickState (s : State) (st : Nat) : State :=
  if s.get PICK_SESS_STATE = st then s else (s.put PICK_SESS_STATE st).setIrq 481

/-- The session held. -/
def State.setSess (s : State) (x : PickSess) : State := { s with pick := { s.pick with sess := some x } }

/-- A message carried over the antenna. -/
def State.pickMsg (s : State) (m : Bytes) : State := { s with pick := { s.pick with message := m } }

/-- The session ends with a status; an ABORT is the last message; a badge's failure waits for its refusal (R565). -/
def State.pickFail (s : State) (st : Nat) : State :=
  match s.pick.sess with
  | none => s
  | some x =>
    let s1 := (s.pickEnd st).pickMsg [6, BitVec.ofNat 8 st, 0, 0]
    if x.reader then { s1 with pick := { s1.pick with failed := some st } } else s1

end Sys2Proof.Machine
end

