-- ==== Sys2Proof/Machine/Card.lean ====
section
/-! DEFINITION. The card port: activation, the answer to reset, T=1 errors, transfers of the Vrelile application (R575 to
R583). -/

namespace Sys2Proof.Machine

/-- States of CARD_STATUS.STATE. -/
abbrev cdOFF : Nat := 0
abbrev cdACTIVATING : Nat := 1
abbrev cdIDLE : Nat := 2
abbrev cdBUSY : Nat := 3

/-- Errors of CARD_STATUS.ERR. -/
abbrev ceNO_ATR : Nat := 1
abbrev ceBAD_ATR : Nat := 2
abbrev cePPS : Nat := 3
abbrev cePROTOCOL : Nat := 4
abbrev ceREMOVED : Nat := 5
abbrev ceOVERCURRENT : Nat := 6

/-- Card states of R576. -/
abbrev csPERSONALISED : Nat := 1
abbrev csLOCKED : Nat := 2
abbrev csERASED : Nat := 3
abbrev csSLEEPING : Nat := 4

/-- Whether the port has its clock: P0 Run and P1 Gated. -/
def State.cardOn (s : State) : Bool := decide (s.pstate = .p0 ∨ s.pstate = .p1)

/-- Activation in a class (CLASSUSED 0 A, 1 B). -/
def State.cardStart (s : State) (cls : Nat) (second : Bool) : State :=
  let s1 : State := { s with card := { s.card with
    triedB := second, t1errs := 0, clockStop := false, stopped := false, lastAt := s.clock } }
  (((s1.put CARD_STATUS_STATE cdACTIVATING).put CARD_STATUS_CLASSUSED cls).put CARD_PPS_FI 372).put CARD_PPS_DI 1

/-- Activation of the card present (R575): class B first with AUTO. -/
def State.cardActivate (s : State) : State :=
  (s.put CARD_STATUS_ERR 0).cardStart (if s.get CARD_CTL_CLASS = 1 then 0 else 1) false

/-- CARD_INSERT: after 10 ms the card is PRESENT; an enabled port activates it. -/
def execCardInsert (s : State) : Out :=
  if s.cardOn = true ∧ s.on CARD_STATUS_PRESENT = false then
    let s1 := ((s.pass (10 * cyclesPerMs)).put CARD_STATUS_PRESENT 1).setIrq 484
    .next (if s1.on CARD_CTL_EN then s1.cardActivate else s1)
  else .next s

/-- Deactivation with an error. -/
def State.cardFail (s : State) (e : Nat) : State := (s.cardOff).cardErr e

/-! ## The answer to reset (R576, R577) -/

/-- Interface bytes of one level: TA, TB, TC, TD where present. -/
structure AtrLevel where
  ta : Option Nat
  tb : Option Nat
  tc : Option Nat
  td : Option Nat
  deriving DecidableEq, Repr

/-- The next byte where a bit of an indicator is set. -/
def atrTake (y i : Nat) (bs : List Nat) : Option Nat × List Nat :=
  if y / 2 ^ i % 2 = 1 then (bs.head?, bs.drop 1) else (none, bs)

/-- The levels of interface bytes from an indicator on, and the bytes after them. -/
def atrLevels : Nat → Nat → List Nat → List AtrLevel × List Nat
  | 0, _, bs => ([], bs)
  | n + 1, y, bs =>
    let a := atrTake y 0 bs
    let b := atrTake y 1 a.2
    let c := atrTake y 2 b.2
    let d := atrTake y 3 c.2
    let l : AtrLevel := ⟨a.1, b.1, c.1, d.1⟩
    match d.1 with
    | none => ([l], d.2)
    | some t =>
      let r := atrLevels n (t / 16) d.2
      (l :: r.1, r.2)

/-- An answer to reset taken apart: levels, historical bytes, what stands after them. -/
structure Atr where
  levels : List AtrLevel
  hist : List Nat
  rest : List Nat
  deriving DecidableEq, Repr

def atrParse (bs : List Nat) : Atr :=
  let t0 := bs.getD 1 0
  let r := atrLevels 8 (t0 / 16) (bs.drop 2)
  ⟨r.1, r.2.take (t0 % 16), r.2.drop (t0 % 16)⟩

/-- Protocols offered: those of the TD bytes. -/
def Atr.protocols (a : Atr) : List Nat := a.levels.filterMap (fun l => l.td.map (· % 16))

/-- Interface bytes after T = 15: the level after the TD byte that names it. -/
def Atr.after15 (a : Atr) : Option AtrLevel :=
  ((a.levels.zip (a.levels.drop 1)).find? (fun p => decide (p.1.td.map (· % 16) = some 15))).map Prod.snd

/-- Whether an answer to reset is accepted (R576). -/
def atrOk (bs : List Nat) : Bool :=
  let a := atrParse bs
  decide (bs.head? = some 0x3B) && a.protocols.contains 1 && decide (a.rest.length = 1) &&
    decide ((bs.drop 1).foldl (fun x y => x ^^^ y) 0 = 0) && decide (a.hist.take 3 = [0x80, 0xE5, 1])

/-- Fi and Di of TA1 (ISO/IEC 7816-3), where the port uses them (R577); the defaults otherwise. -/
def ppsFiDi (ta1 : Nat) : Nat × Nat :=
  let fi := if ta1 / 16 ≤ 1 then 372 else if ta1 / 16 = 9 then 512 else 0
  let di := ([0, 1, 2, 4, 8, 16] : List Nat).getD (ta1 % 16) 0
  if fi = 0 ∨ di = 0 then (372, 1) else (fi, di)

/-- Where the card's clock may be stopped: an indicator after T = 15 (R579). -/
def Atr.stops (a : Atr) : Bool :=
  match a.after15 with
  | some l => decide (l.ta.getD 0 / 64 ≠ 0)
  | none => false

/-- TA2, which fixes the card's parameters: the port then sends no PPS (R577). -/
def Atr.ta2 (a : Atr) : Option Nat := (a.levels.drop 1).head?.bind AtrLevel.ta

/-- An accepted answer: its fields, Fi and Di in use, the port IDLE. With TA2 present they are those of TA1 where its bit 5
is 0 (ISO/IEC 7816-3, log entry 132). -/
def State.atrAccept (s : State) (a : Atr) (pps : PpsEnd) : State :=
  let ta1 := (a.levels.head?.bind AtrLevel.ta).getD 0x11
  let f := match a.ta2 with
    | some t => if t / 32 % 2 = 0 then ppsFiDi ta1 else (372, 1)
    | none => if pps = PpsEnd.once then (372, 1) else ppsFiDi ta1
  let s1 : State := { s with card := { s.card with clockStop := a.stops, lastAt := s.clock } }
  ((((s1.put CARD_PPS_FI f.1).put CARD_PPS_DI f.2).put CARD_STATUS_CARDSTATE (a.hist.getD 6 0)).put CARD_STATUS_TRIES
    (a.hist.getD 5 0)).put CARD_STATUS_STATE cdIDLE

/-- ATR_RECEIVED: an answer to reset and how its PPS ends. -/
def execAtrReceived (atr : Bytes) (pps : PpsEnd) (s : State) : Out :=
  if s.get CARD_STATUS_STATE = cdACTIVATING ∧ s.cardOn = true then
    let bs := atr.map BitVec.toNat
    let s1 := (s.putWords (CARD_ATR 0) 8 (atr.take 32 ++ List.replicate (32 - atr.length) 0)).put CARD_ATRLEN_LEN
      (min atr.length 32)
    if atrOk bs && decide (atr.length ≤ 32) then
      let a := atrParse bs
      .next (if a.ta2.isNone && decide (pps = PpsEnd.twice) then s1.cardFail cePPS else s1.atrAccept a pps)
    else .next (s1.cardFail ceBAD_ATR)
  else .next s

/-- ATR_TIMEOUT: no answer within 40,000 clock cycles: after class B with AUTO a second try in class A, otherwise NO_ATR. -/
def execAtrTimeout (s : State) : Out :=
  if s.get CARD_STATUS_STATE = cdACTIVATING ∧ s.cardOn = true then
    let s1 := s.passTo (s.card.lastAt + ceilDiv (40000 * cyclesPerMs) (s.get CARD_CTL_CLKKHZ))
    .next (if s1.get CARD_CTL_CLASS = 0 ∧ s1.card.triedB = false then s1.cardStart 0 true else s1.cardFail ceNO_ATR)
  else .next s

/-! ## Removal, overcurrent, errors (R575, R578, R579, R583) -/

/-- CARD_REMOVAL: the card-detect contact opens, during the write of share `i` or not. -/
def execCardRemoval (share : Option Nat) (s : State) : Out :=
  if s.on CARD_STATUS_PRESENT then
    let active := decide (s.get CARD_STATUS_STATE ≠ cdOFF)
    let s1 := (s.put CARD_STATUS_PRESENT 0).setIrq 484
    match share, s.key.cer with
    | some i, some c =>
      .next (if active && decide (c.kind = ckOut) && decide (1 ≤ i ∧ i ≤ c.n) then s1.cerRemoved i
        else if active then s1.cardFail ceREMOVED else s1)
    | _, _ => .next (if active then s1.cardFail ceREMOVED else s1)
  else .next s

/-- CARD_OVERCURRENT. -/
def execCardOvercurrent (s : State) : Out :=
  if s.get CARD_STATUS_STATE = cdOFF then .next s
  else .next ((s.cardFail ceOVERCURRENT).raise SRC_CARD_POWER 0)

/-- T1_BLOCK_ERROR: a block in error; from the third in a row on the port asks for resynchronisation, which the card
grants or not. -/
def execT1BlockError (resync : Bool) (s : State) : Out :=
  if s.get CARD_STATUS_STATE = cdIDLE ∨ s.get CARD_STATUS_STATE = cdBUSY then
    let n := s.card.t1errs + 1
    if n < 3 then .next { s with card := { s.card with t1errs := n } }
    else if resync then .next { s with card := { s.card with t1errs := 0 } }
    else .next (((s.cardFail cePROTOCOL).inc CARD_T1ERR_COUNT).raise SRC_CARD_PROTOCOL 0)
  else .next s

/-- CARD_MAXWAIT_EXPIRY: the APDU has taken MAXWAIT ms. -/
def execCardMaxwaitExpiry (s : State) : Out :=
  match s.card.xfer with
  | none => .next s
  | some x =>
    .next (((s.passTo (x.2.2 + cyclesPerMs * s.get CARD_TIME_MAXWAIT)).cardDone stABORTED 0).put CARD_STATUS_STATE cdIDLE)

/-- CARD_CLOCK_STOP: IDLESTOP ms without traffic, where the card allows it. -/
def execCardClockStop (s : State) : Out :=
  if s.get CARD_STATUS_STATE = cdIDLE ∧ s.card.clockStop = true ∧ s.get CARD_TIME_IDLESTOP ≠ 0 ∧ s.card.stopped = false then
    let s1 := s.passTo (s.card.lastAt + cyclesPerMs * s.get CARD_TIME_IDLESTOP)
    .next { s1 with card := { s1.card with stopped := true } }
  else .next s

/-! ## Transfers (R580 to R582) -/

/-- Data of an APDU: after Lc in its short or extended form (ISO/IEC 7816-4). -/
def apduData (a : Bytes) : Bytes := if a.length ≤ 5 then [] else if a.getD 4 0 = 0 then a.drop 7 else a.drop 5

/-- CLA and INS of an APDU. -/
def apduOp (a : Bytes) : Nat := (a.getD 0 0).toNat * 256 + (a.getD 1 0).toNat

/-- Buffers of the card port lie where R585 says. -/
def State.cardBufOk (s : State) (a n : Nat) : Bool := s.inGen a n || inCapo a (bufSpan a n)

/-- The reading of a status word (Table 16-10); another word's is a free value. -/
def State.swStatus (s : State) (sw : Nat) : Nat × State :=
  if sw = 0x9000 then (stOK, s)
  else if sw / 16 = 0x63C ∨ sw = 0x6983 ∨ sw = 0x6982 ∨ sw = 0x6985 then (stNOT_PERMITTED, s)
  else if sw = 0x6988 then (stVERIFY_FAIL, s)
  else if sw = 0x6A82 then (stKEY_ABSENT, s)
  else if sw = 0x6A86 then (stBAD_PARAM, s)
  else if sw = 0x6700 then (stBAD_LENGTH, s)
  else if sw = 0x6581 then (stABORTED, s)
  else
    let r := s.free
    (anyStatus r.1, r.2)

/-- The session of the card opened with the secret in CARD_SESS.SLOT (R580): false where TAG_C does not match. -/
def State.cardOpen (s : State) (ct data : Bytes) : Bool × State :=
  let slot := s.get CARD_SESS_SLOT
  let ss := (s.peg slot).key
  let s1 := (s.pegUse slot).2
  let t := Config.crypto cySha3_256 [s.card.cred ++ ct] 32
  let x := (⟨true, s.clock, s.clock, [], [], [], [], [], 0, 0⟩ : PickSess).keyed (kmac256 ss t custCard 96) t
  if data = kmac256 x.kmac t custCardConfirm 32 then
    (true, ({ s1 with card := { s1.card with sess := some x } }).put CARD_STATUS_SESSION 1)
  else (false, s1)

/-- The session and the PIN verification end. -/
def State.cardSessEnd (s : State) : State :=
  (({ s with card := { s.card with sess := none } }).put CARD_STATUS_SESSION 0).put CARD_STATUS_PINOK 0

/-- What an answer of the card does to CARD_STATUS (Tables 16-9 and 16-10): the state after WAKE is a free one of the
states the card can have slept in. -/
def State.cardEffect (s : State) (apdu : Bytes) (sw : Nat) (data : Bytes) : State :=
  let op := apduOp apdu
  let pin := decide (apdu.getD 3 0 = 0x81)
  if sw = 0x9000 then
    if op = 0x8010 then { s with card := { s.card with cred := data.take credLen } }
    else if op = 0x0020 then (if pin then s.put CARD_STATUS_PINOK 1 else s)
    else if op = 0x0024 ∧ pin = true then
      if s.get CARD_STATUS_CARDSTATE = csERASED then s.put CARD_STATUS_CARDSTATE csPERSONALISED else s
    else if op = 0x801A then s.cardSessEnd.put CARD_STATUS_CARDSTATE csSLEEPING
    else if op = 0x801C then
      if s.get CARD_STATUS_CARDSTATE = csSLEEPING then
        let r := s.free
        r.2.put CARD_STATUS_CARDSTATE (([0, 1, 3] : List Nat).getD (r.1 % 3) 1)
      else s
    else if op = 0x801E then (s.put CARD_STATUS_CARDSTATE csERASED).put CARD_STATUS_PINOK 0
    else s
  else if sw / 16 = 0x63C then
    let s1 := s.put CARD_STATUS_TRIES (sw % 16)
    if sw % 16 = 0 then (s1.put CARD_STATUS_CARDSTATE csLOCKED).put CARD_STATUS_PINOK 0 else s1
  else if sw = 0x6983 then s.put CARD_STATUS_CARDSTATE csLOCKED
  else if sw = 0x6988 then s.cardSessEnd
  else s

/-- A response written to the buffer: false where it is longer than RSPMAX or the buffer does not lie where it may. -/
def State.cardRespond (s : State) (data : Bytes) : Bool × State :=
  let a := s.addr40 CARD_BUF_LO
  if s.get CARD_RSPMAX_LEN < data.length then (false, s)
  else if data = [] then (true, s)
  else if !(s.cardBufOk a data.length) then (false, s)
  else (true, s.bufStore a data)

/-- The transfer ends with the card's answer. -/
def State.cardAnswer (s : State) (sealed : Bool) (apdu : Bytes) (sw : Nat) (data : Bytes) : State :=
  let op := apduOp apdu
  let s0 := (s.put CARD_STATUS_STATE cdIDLE)
  let fin (t : State) (st : Nat) : State := ({ t with card := { t.card with lastAt := t.clock } }).cardDone st sw
  if op = 0x8012 ∧ sw = 0x9000 then
    let r := s0.cardOpen ((apduData apdu).take 1088) data
    fin r.2 (if r.1 then stOK else stVERIFY_FAIL)
  else
    let st := s0.swStatus sw
    match s.card.sess with
    | some x =>
      if sealed && !data.isEmpty then
        match x.openMsg data with
        | .plain bs =>
          let s1 : State := { st.2 with card := { st.2.card with sess := some { x with ctrIn := x.ctrIn + 1 } } }
          let w := (s1.cardEffect apdu sw bs).cardRespond bs
          fin w.2 (if w.1 then st.1 else stABORTED)
        | _ => fin st.2.cardSessEnd stVERIFY_FAIL
      else
        let w := (st.2.cardEffect apdu sw data).cardRespond data
        fin w.2 (if w.1 then st.1 else stABORTED)
    | none =>
      let w := (st.2.cardEffect apdu sw data).cardRespond data
      fin w.2 (if w.1 then st.1 else stABORTED)

/-- A write of CARD_XFER with GO = 1 by Capo ring 0, with the card's answer; without one the transfer runs on until an
event ends it. -/
def State.cardXfer (s : State) (mid : Nat) (sealed : Bool) (ans : Option (Nat × Bytes)) : State :=
  if mid ≠ 0x40 ∨ s.on CARD_RESULT_BUSY = true then s
  else
    let a := s.addr40 CARD_BUF_LO
    let n := s.get CARD_CMDLEN_LEN
    if s.get CARD_STATUS_STATE ≠ cdIDLE then s.cardDone stNOT_PERMITTED 0
    else if !(s.cardBufOk a n) then s.cardDone stBAD_PARAM 0
    else
      match s.keyRead a n with
      | (none, s) => s.cardDone stABORTED 0
      | (some apdu, s) =>
        let op := apduOp apdu
        if op = 0x8014 ∨ op = 0x8016 then s.cardDone stNOT_PERMITTED 0
        else if sealed && s.card.sess.isNone then s.cardDone stNOT_PERMITTED 0
        else if op = 0x8012 ∧ s.pickKeyOk (s.get CARD_SESS_SLOT) = false then s.cardDone stNOT_PERMITTED 0
        else
          let sess := if sealed then s.card.sess.map (fun x => { x with ctrOut := x.ctrOut + 1 }) else s.card.sess
          let s1 : State := { s with card := { s.card with
            xfer := some (sealed, apdu, s.clock), stopped := false, t1errs := 0, lastAt := s.clock, sess := sess } }
          let s2 := ((s1.put CARD_STATUS_STATE cdBUSY).put CARD_RESULT_BUSY 1).clrIrq 485
          match ans with
          | none => s2
          | some r => s2.cardAnswer sealed apdu (r.1 % 65536) r.2

/-- CARD_XFER. -/
def execCardXfer (mid : Nat) (sealed : Bool) (ans : Option (Nat × Bytes)) (s : State) : Out :=
  .next (s.cardXfer mid sealed ans)

/-- CARD_RESULT_READ. -/
def execCardResultRead (s : State) : Out := .next (s.clrIrq 485)
/-- CARD_STATUS_READ. -/
def execCardStatusRead (s : State) : Out := .next ((s.clrIrq 484).clrIrq 486)

end Sys2Proof.Machine
end

