-- ==== Sys2Proof/Machine/FaultRows.lean ====
section
/-! DEFINITION. The fault collector's commands, FAULT_N, the Capo and module watchdogs (R507 to R521). -/

namespace Sys2Proof.Machine

/-! ## Records and forces -/

/-- FAULT_RECORD_CLOSE: the actions are complete and the self-test has its result (R507, R510). -/
def execFaultRecordClose (t : SelfTest) (s : State) : Out :=
  .next (s.faultClose (match t with | .pass => 1 | .fail => 2 | .incomplete => 3)).settle

/-- A write of FAULT_FORCE[k] (R511): the sources of its bits are raised once, the lowest-numbered first. -/
def State.faultForce (s : State) (k : Nat) (v : Word32) : State :=
  (List.range 32).foldl (fun t j => if bitOf v.toNat j then t.raiseForced (32 * k + j) else t) s

/-- FAULT_FORCE. -/
def execFaultForce (k : Nat) (v : Word32) (s : State) : Out := if k < 10 then .next (s.faultForce k v) else .next s

/-! ## FAULT_N (R514, R515) -/

/-- FAULT_N released. -/
def State.faultRelease (s : State) : State :=
  { s.put FAULT_NCTL_ASSERTED 0 with flt := { s.flt with relHeld := false, bootHold := false } }

/-- FAULTN_PULSE_END: the pulse ends; HOLD, or a reset by the collector or the module watchdog, keeps FAULT_N low until
RELEASE. -/
def execFaultnPulseEnd (s : State) : Out :=
  match s.flt.pulseEnd with
  | none => .next s
  | some c =>
    let s1 := s.passTo c
    let s2 : State := { s1 with flt := { s1.flt with pulseEnd := none } }
    .next (if s2.flt.relHeld || (!(s2.on FAULT_CTL_HOLD) && !s2.flt.bootHold) then s2.faultRelease else s2)

/-- A write of FAULT_NCTL: RELEASE from Capo ring 0. -/
def State.nctlWrite (s : State) (mid : Nat) (v : Word32) : State :=
  if wordField v 31 31 = 1 ∧ mid = 0x40 ∧ s.on FAULT_NCTL_ASSERTED = true then
    if s.flt.pulseEnd.isSome then { s with flt := { s.flt with relHeld := true } } else s.faultRelease
  else s

/-- FAULT_NCTL_RELEASE: a write of FAULT_NCTL with RELEASE = 1. -/
def execFaultNctlRelease (mid : Nat) (s : State) : Out := .next (s.nctlWrite mid 0x80000000)

/-! ## Kicks (R518) -/

/-- A write of WDOG_CAPO_KICK. -/
def State.capoKick (s : State) (mid key : Nat) : State :=
  let set (t : State) (armed : Bool) : State := { t with wdog := { t.wdog with capoKey := armed } }
  if mid = 0x40 ∧ key = 0xA5A5 ∧ s.wdog.capoKey = true then
    let s1 : State := { s with wdog := { s.wdog with capoAt := s.clock, capoKey := false } }
    s1.clrIrq 64
  else if mid = 0x40 ∧ key = 0x5A5A then
    set (if s.wdog.capoKey then s.inc WDOG_CAPO_STATUS_BADKICK else s) true
  else set (s.inc WDOG_CAPO_STATUS_BADKICK) false

/-- A write of WDOG_MOD_KICK: the reload takes the TIMEOUT written since (Table 14-15). -/
def State.modKick (s : State) (mid key : Nat) : State :=
  let set (t : State) (armed : Bool) : State := { t with wdog := { t.wdog with modKey := armed } }
  if mid = 0x40 ∧ key = 0xA5A5 ∧ s.wdog.modKey = true then
    let s1 : State := { s with wdog := { s.wdog with
      modAt := s.clock, modKey := false, modTimeout := s.get WDOG_MOD_CTL_TIMEOUT } }
    s1.clrIrq 65
  else if mid = 0x40 ∧ key = 0x5A5A then
    set (if s.wdog.modKey then s.inc WDOG_MOD_STATUS_BADKICK else s) true
  else set (s.inc WDOG_MOD_STATUS_BADKICK) false

/-- WDOG_CAPO_KICK: a write of WDOG_CAPO_KICK. -/
def execWdogCapoKick (mid : Nat) (v : Word32) (s : State) : Out := .next (s.capoKick mid (wordField v 15 0))
/-- WDOG_MOD_KICK: a write of WDOG_MOD_KICK. -/
def execWdogModKick (mid : Nat) (v : Word32) (s : State) : Out := .next (s.modKick mid (wordField v 15 0))

/-! ## Warnings and expiries (R517, R519, R520) -/

/-- Whether the Capo watchdog counts. -/
def State.capoCounts (s : State) : Bool :=
  s.on WDOG_CAPO_CTL_EN && s.wdog.capoPaused.isNone && s.logicUp

/-- Whether the module watchdog counts. -/
def State.modCounts (s : State) : Bool := s.wdog.modPaused.isNone && s.logicUp

/-- WDOG_CAPO_WARN: half of TIMEOUT has passed without a kick. -/
def execWdogCapoWarn (s : State) : Out :=
  if s.capoCounts then
    .next ((s.passTo (s.wdog.capoAt + cyclesPerMs * s.get WDOG_CAPO_CTL_TIMEOUT / 2)).setIrq 64)
  else .next s

/-- WDOG_CAPO_EXPIRY: TIMEOUT has passed; the source carries the Capo's PC. -/
def execWdogCapoExpiry (s : State) : Out :=
  if s.capoCounts && s.resetPend.isNone then
    .next ((s.passTo (s.wdog.capoAt + cyclesPerMs * s.get WDOG_CAPO_CTL_TIMEOUT)).raise SRC_WDOG_CAPO
      (s.proc 32).pc.toNat)
  else .next s

/-- WDOG_MODULE_WARN: half of the module TIMEOUT has passed without a kick. -/
def execWdogModuleWarn (s : State) : Out :=
  if s.modCounts then .next ((s.passTo (s.wdog.modAt + cyclesPerMs * s.wdog.modTimeout / 2)).setIrq 65) else .next s

/-- Every running erase is suspended and stays so (R475, R520). -/
def State.erasesSuspend (s : State) : State :=
  s.die.running.foldl (fun t e =>
    if e.2.work = .erase then
      ({ t with die := { t.die with running := terase t.die.running e.1, asleep := tset t.die.asleep e.1 e.2 } }).inc
        CASE_ERASE_SUSP_COUNT
    else t) s

/-- WDOG_MODULE_EXPIRY: at TIMEOUT of the RC oscillator, at most 10 % later, how much is free (R519): latched, FAULT_N driven, a zeroize completed, erases suspended, the module reset requested. -/
def execWdogModuleExpiry (s : State) : Out :=
  if s.modCounts then
    let r := s.free
    let t := cyclesPerMs * s.wdog.modTimeout
    let s1 := r.2.passTo (s.wdog.modAt + t + r.1 % (t / 10 + 1))
    let s2 := ((s1.put WDOG_MOD_STATUS_LASTEXP 1).inc WDOG_MOD_STATUS_EXPIRIES).faultN
    .next { s2.settle.erasesSuspend with resetPend := some .wdog }
  else .next s

end Sys2Proof.Machine
end

