-- ==== Sys2Proof/Machine/Pick.lean ====
section
/-! DEFINITION. The Pickguard: mirror copies, the tag role, the reader role and sessions over the antenna (R555 to R574,
R584). -/

namespace Sys2Proof.Machine

/-- Whether the SoC side of the Pickguard runs: P0 Run and P1 Gated. -/
def State.pickOn (s : State) : Bool := decide (s.pstate = .p0 ∨ s.pstate = .p1)

/-! ## Mirror copies (R482, R556, R573) -/

/-- Whether an open READ_MIRROR reads from the slot a copy would target. -/
def State.mirrorHeld (s : State) : Bool := s.pick.isoDep && decide (s.pick.reading = some s.mirrorTarget)

/-- A copy of the newest 256 records into the target slot; a word may read back wrong (PICK_MEM) and hold any value. -/
def State.mirrorRun (s : State) (t : Torn) (bad : Option Nat) : State :=
  let all := s.readable
  let recs := all.drop (all.length - 256)
  let k := s.mirrorTarget
  let seq := match s.mirrorSlot with
    | some j => (s.mirrorSeq j + 1) % 2 ^ 16
    | none => 1
  let body := bytesWords 4096 (recs.flatMap EvRec.bytes)
  let head := [BitVec.ofNat 32 seq, BitVec.ofNat 32 recs.length]
  let m := tornWrite s.pick.words (mirrorHead k + 2) (placed (mirrorBody k) body ++ placed (mirrorHead k) head)
    (markOf (body ++ head)) t
  let s1 : State := { s with pick := { s.pick with words := m, copyReq := false } }
  let s2 := match bad with
    | none => s1
    | some i =>
      let r := s1.free
      { r.2 with pick := { r.2.pick with
        words := tsetD 0 r.2.pick.words (mirrorBody k + i % 4096) (BitVec.ofNat 32 r.1) } }
  let s3 := (((s2.put PICK_MIRROR_BUSY 0).put PICK_MIRROR_DEFERRED 0).mirrorSeen).setIrq 482
  if bad.isSome then s3.raise SRC_PICK_MEM 0 else s3

/-- A copy over the link with a number of frames re-sent; at a fourth failure of a frame it ends without a write, its
LASTSTATUS ABORTED, and PICK_LINK is raised. -/
def State.mirrorCopy (s : State) (resends : Nat) (t : Torn) (bad : Option Nat) : State :=
  let s1 := s.incBy PICK_LINKERR_COUNT (min resends 3)
  if 4 ≤ resends then
    let s2 : State := { s1 with pick := { s1.pick with copyReq := false } }
    ((((s2.put PICK_MIRROR_DEFERRED 0).put PICK_STATUS_LASTSTATUS stABORTED).setIrq 482).raise SRC_PICK_LINK 0)
  else s1.mirrorRun t bad

/-- MIRROR_COPY: a requested copy runs, or waits for an open READ_MIRROR on its target slot. -/
def execMirrorCopy (resends : Nat) (torn : Torn) (bad : Option Nat) (s : State) : Out :=
  if s.pick.copyReq = true ∧ s.pstate ≠ .p3 ∧ s.on PICK_MIRROR_DEFERRED = false then
    if s.mirrorHeld then .next (({ s with pick := { s.pick with deferAt := s.clock } }).put PICK_MIRROR_DEFERRED 1)
    else .next (s.mirrorCopy resends torn bad)
  else .next s

/-- MIRROR_DEFER_END: the deferred copy starts when the exchange has ended, or after 5 s. -/
def execMirrorDeferEnd (s : State) : Out :=
  if s.on PICK_MIRROR_DEFERRED then
    let s1 := if s.mirrorHeld then s.passTo (s.pick.deferAt + 5 * cyclesPerSec) else s
    .next (s1.mirrorCopy 0 .whole none)
  else .next s

/-! ## The field and the tag states (R557 to R560, Table 16-3) -/

/-- Tag states of PICK_STATUS.TAGSTATE. -/
abbrev tgIDLE : Nat := 0
abbrev tgREADY : Nat := 1
abbrev tgACTIVE : Nat := 2
abbrev tgHALTED : Nat := 3

/-- Whether the tag role runs (R559). -/
def State.tagRuns (s : State) : Bool := s.pick.fdet && s.on PICK_CTL_TAG_EN && !s.pick.rdrField

/-- Whether the tag accepts a frame: it runs and 2 ms have passed since the field was detected (R560). -/
def State.tagHears (s : State) : Bool := s.tagRuns && decide (s.pick.fieldAt + 2 * cyclesPerMs ≤ s.clock)

/-- The ISO-DEP exchange ends. -/
def State.isoEnd (s : State) : State :=
  { s with pick := { s.pick with isoDep := false, app := false, reading := none } }

/-- A tag state entered with an answer. -/
def State.tagGo (s : State) (st : Nat) (ans : Bytes) : State :=
  let s1 := if st = tgACTIVE then s else s.isoEnd
  ({ s1 with pick := { s1.pick with answer := ans } }).put PICK_STATUS_TAGSTATE st

/-- Any other frame or an error, by the tag's state (Table 16-3). -/
def State.tagOther (s : State) : State :=
  let st := s.get PICK_STATUS_TAGSTATE
  s.tagGo (if st = tgHALTED then tgHALTED else tgIDLE) []

/-- BCC of four UID bytes. -/
def uidBcc (u : Bytes) : Byte := u.foldl (fun a b => a ^^^ b) 0

/-- EXTERNAL_FIELD_ON: the external field is detected, FDET_N is driven low; the tag has a fresh UID (Table 16-2). The
module's own field never does this. -/
def execExternalFieldOn (s : State) : Out :=
  if s.pick.fdet = true ∨ s.pick.rdrField = true then .next s
  else
    let r := s.freeB 3
    let s1 : State := { r.2 with pick := { r.2.pick with
      fdet := true, fieldAt := r.2.clock, lossAt := none, uid := 0x08 :: r.1, visitUsed := false, answer := []
      isoDep := false, app := false, reading := none } }
    if s1.pstate = .p3 then .next s1
    else
      let s2 := ((s1.put PICK_STATUS_FIELD 1).put PICK_STATUS_TAGSTATE tgIDLE).setIrq 480
      .next (if s2.on PICK_CTL_TAG_EN then s2.put PICK_STATUS_MODE 4 else s2)

/-- FIELD_LOSS: the field is gone; 1 ms later FDET_N is released. The tag's session ends and its keys are discarded. -/
def execFieldLoss (s : State) : Out :=
  if s.pick.fdet then
    let s0 := s.pass cyclesPerMs
    let s1 := match s0.pick.sess with
      | some x => if x.reader then s0 else s0.pickEnd stABORTED
      | none => s0
    let s2 : State := { s1 with pick := { s1.pick with fdet := false, lossAt := some s.clock, uid := [], visitUsed := false } }
    let s3 := ((s2.tagGo tgIDLE []).put PICK_STATUS_FIELD 0)
    .next (if s3.get PICK_STATUS_MODE = 4 then
        s3.put PICK_STATUS_MODE (if s3.pickOn && s3.on PICK_CTL_RDR_EN then 1 else 0)
      else s3)
  else .next s

/-- The answer to a request, ATQA: a single-size UID with bit-frame anticollision. -/
def atqa : Bytes := [0x04, 0x00]
/-- The answer to SELECT, SAK: complete, ISO/IEC 14443-4. -/
def sak : Bytes := [0x20]
/-- The answer to RATS, ATS (Table 16-2): FSCI 8, the rates up to MAXRATE, FWI 8 with SFGI 0, CID and no NAD. -/
def State.ats (s : State) : Bytes :=
  let r := s.get PICK_CTL_MAXRATE
  [0x05, 0x78, BitVec.ofNat 8 ((2 ^ r - 1) * 17), 0x80, 0x02]

/-- REQA. -/
def execReqa (s : State) : Out :=
  if s.tagHears then
    .next (if s.get PICK_STATUS_TAGSTATE = tgIDLE then s.tagGo tgREADY atqa else s.tagOther)
  else .next s

/-- WUPA. -/
def execWupa (s : State) : Out :=
  if s.tagHears then
    let st := s.get PICK_STATUS_TAGSTATE
    .next (if st = tgIDLE ∨ st = tgHALTED then s.tagGo tgREADY atqa else s.tagOther)
  else .next s

/-- ANTICOLLISION with a number of UID bits known and their values, least significant bit first: answered in READY when
they are the tag's own. -/
def execAnticollision (known value : Nat) (s : State) : Out :=
  if s.tagHears then
    let own := s.pick.uid ++ [uidBcc s.pick.uid]
    .next (if s.get PICK_STATUS_TAGSTATE = tgREADY ∧ known ≤ 32 ∧ value % 2 ^ known = bytesToNat own % 2 ^ known then
        s.tagGo tgREADY (own.drop (known / 8))
      else s.tagOther)
  else .next s

/-- SELECT with a UID. -/
def execSelect (uid : Bytes) (s : State) : Out :=
  if s.tagHears then
    .next (if s.get PICK_STATUS_TAGSTATE = tgREADY ∧ uid = s.pick.uid then s.tagGo tgACTIVE sak else s.tagOther)
  else .next s

/-- HLTA. -/
def execHlta (s : State) : Out :=
  if s.tagHears then
    .next (if s.get PICK_STATUS_TAGSTATE = tgACTIVE then s.tagGo tgHALTED [] else s.tagOther)
  else .next s

/-- RATS: ISO-DEP opens in ACTIVE. -/
def execRats (s : State) : Out :=
  if s.tagHears then
    .next (if s.get PICK_STATUS_TAGSTATE = tgACTIVE ∧ s.pick.isoDep = false then
        ({ s with pick := { s.pick with isoDep := true } }).tagGo tgACTIVE s.ats
      else s.tagOther)
  else .next s

/-! ## The tag application (R561, Tables 16-4 and 16-5) -/

/-- A response: data and status word. -/
def State.respond (s : State) (data : Bytes) (sw : Nat) : State :=
  { s with pick := { s.pick with answer := data ++ [BitVec.ofNat 8 (sw / 256), BitVec.ofNat 8 sw] } }

/-- A command of the application: outside ISO-DEP it is another frame; without the application selected its class is
not supported. -/
def State.tagApp (s : State) (f : State → State) : State :=
  if !s.tagHears then s
  else if !s.pick.isoDep then s.tagOther
  else if !s.pick.app then s.respond [] 0x6E00
  else f s

/-- The application's AID. -/
def tagAid : Bytes := [0xF0, 0x4B, 0x4C, 0x54, 0x34, 0x38, 0x01]

/-- TAG_SELECT_AID: the status word for another AID is a free value (log entry 3). -/
def execTagSelectAid (p1 : Nat) (aid : Bytes) (s : State) : Out :=
  if s.tagHears then
    if s.pick.isoDep then
      if p1 ≠ 4 then .next (s.respond [] 0x6A86)
      else if aid = tagAid then .next (({ s with pick := { s.pick with app := true } }).respond [] 0x9000)
      else
        let r := s.free
        .next (r.2.respond [] (r.1 % 65536))
    else .next s.tagOther
  else .next s

/-- READ_MIRROR: up to four records from the newest valid slot. -/
def execReadMirror (first : Nat) (s : State) : Out :=
  .next (s.tagApp fun t =>
    if 256 ≤ first then t.respond [] 0x6A86
    else
      match t.mirrorSlot with
      | none => t.respond [] 0x6A83
      | some k =>
        let n := t.mirrorCount k
        if n ≤ first then t.respond [] 0x6A83
        else
          ({ t with pick := { t.pick with reading := some k } }).respond
            (wordsBytes (t.pickWords (mirrorBody k + first * 16) (min 4 (n - first) * 16))) 0x9000)

/-- READ_HEADER: MSEQ, record count and newest VSEQ, four bytes each. -/
def execReadHeader (s : State) : Out :=
  .next (s.tagApp fun t =>
    let h := match t.mirrorSlot with
      | some k => (t.mirrorSeq k, t.mirrorCount k)
      | none => (0, 0)
    t.respond (natToBytes 4 h.1 ++ natToBytes 4 h.2 ++ natToBytes 4 (t.newestVisit.getD 0)) 0x9000)

/-! ## Sessions (R566 to R570) -/

/-- The handshake buffer's address (R585). -/
def State.pickBuf (s : State) : Nat := s.addr40 PICK_BUF_LO

/-- Whether a HELLO at an address lies in Capo word memory or general-use DRAM (R585). -/
def State.helloBufOk (s : State) (a : Nat) : Bool := s.inGen a 4613 || inCapo a (bufSpan a 4613)

/-- HELLO as firmware placed it in the handshake buffer; none where the buffer does not hold one. -/
def State.pickHello (s : State) : Option Bytes × State :=
  if s.get PICK_BUF_LEN_LEN = 4613 ∧ s.helloBufOk s.pickBuf = true then s.keyRead s.pickBuf 4613 else (none, s)

/-- Slot 4,090 RESERVED for a new session's key (R435). -/
def State.renew4090 (s : State) : State :=
  s.setPriv 4090 { Priv.free with st := .reserved, scheme := scEC, pset := 0, use := 2 ^ puPICK, users := 2 }

/-- A session begins: the role, the peer's credential unknown, STATE HELLO (R435, R568). -/
def State.sessBegin (s : State) (reader : Bool) : State :=
  let x : PickSess := ⟨reader, s.clock, s.clock, [], [], [], [], [], 0, 0⟩
  ((s.renew4090).setSess x).pickState 1

/-- Whether an authority is usable (R566): enabled, and its public key, written at provisioning, hashes to PICK_CAHASH. -/
def State.authUsable (s : State) (a : Nat) : Bool :=
  match s.lcs.prov.cas[a]? with
  | some pk => decide (a < 4) && bitOf (s.get PICK_CAEN_EN) a &&
      decide (Config.crypto cySha3_256 [pk] 32 = s.regBytes (PICK_CAHASH (8 * a)) 8)
  | none => false

/-- Whether the signature of a credential verifies under its authority's key (R566, R568). -/
def State.credOk (s : State) (cred : Bytes) : Bool :=
  Config.cryptoOk cyCredential [s.lcs.prov.cas.getD (credAUTH cred) [], cred.take 1204, cred.drop 1204]

/-- The status of ANSWER's first check that fails (R568, step 2, and the slots of steps 1 and 3); `none` where all pass.
The status of a wrong form, role or authority is a free value (log entry 3). -/
def State.answerCheck (s : State) (x : PickSess) (m : Bytes) (free : Nat) : Option Nat :=
  let cred := (m.drop 100).take credLen
  let slot := s.get PICK_SESS_SLOT
  if m.length ≠ 5701 ∨ m.take 4 ≠ [2, 1, 0, 0] then some free
  else if credROLE cred ≠ (if x.reader then 2 else 3) then some free
  else if !(s.authUsable (credAUTH cred)) then some free
  else if !(s.credOk cred) then some stVERIFY_FAIL
  else if !(mlkemKeyOk 1 (credKey cred)) then some stBAD_PARAM
  else if !(pointOk curveP256 ((m.drop 36).take 64)) then some stBAD_PARAM
  else if s.privSt 4091 ≠ .active ∨ s.privSt 4090 ≠ .active then some stKEY_ABSENT
  else if (List.range 3).any (fun i =>
      let p := s.peg (slot + i)
      decide (p.st ≠ .reserved) || decide (p.kalg ≠ kaSECRET) || !(bitOf p.use usePICK)) then some stSTATE_INVALID
  else none

/-- ANSWER's secrets delivered and fetched, the session KEYED, CONFIRM sent (R568, steps 3 to 5). -/
def State.sessKeyed (s : State) (x : PickSess) (hello m : Bytes) : State :=
  let cred := (m.drop 100).take credLen
  let slot := s.get PICK_SESS_SLOT
  let ss1 := Config.crypto cySession [[1], (s.priv 4091).key, m.drop 4613] 32
  let r := s.freeB 32
  let ss2 := Config.crypto cySession [[2], credKey cred, r.1] 32
  let ctM := Config.crypto cySession [[3], credKey cred, r.1] 1088
  let ss3 := Config.crypto cySession [[4], (s.priv 4090).key, (m.drop 36).take 64] 32
  let s1 := ((r.2.pegInstall slot ss1).pegInstall (slot + 1) ss2).pegInstall (slot + 2) ss3
  let s2 := (((s1.pegUse slot).2.pegUse (slot + 1)).2.pegUse (slot + 2)).2
  let t := Config.crypto cySha3_256 [hello ++ m ++ ctM] 32
  let y := { x with ident := credID cred, stepAt := s2.clock }.keyed (kmac256 (ss1 ++ ss2 ++ ss3) t custBadge 96) t
  ((s2.setSess y).pickState 3).pickMsg ([3, 1, 0, 0] ++ ctM ++ kmac256 y.kmac t custConfirmM 32)

/-- A received ANSWER (R568). -/
def State.sessAnswer (s : State) (m : Bytes) : State :=
  match s.pick.sess with
  | none => s
  | some x =>
    if s.get PICK_SESS_STATE ≠ 1 ∨ s.pegRoom = false then s
    else
      let r := s.free
      match r.2.answerCheck x m (anyFailure r.1), r.2.pickHello with
      | some st, _ => r.2.pickFail st
      | none, (none, s2) => s2.pickFail stSTATE_INVALID
      | none, (some hello, s2) => s2.sessKeyed x hello m

/-- A received FINISH: a valid TAG_P opens the session; a badge's is a visit and leaves the backoff list (R565, R568,
R570). -/
def State.sessFinish (s : State) (m : Bytes) : State :=
  match s.pick.sess with
  | none => s
  | some x =>
    if s.get PICK_SESS_STATE ≠ 3 then s
    else if m = [4, 1, 0, 0] ++ kmac256 x.kmac x.t custConfirmP 32 then
      let s1 := ((s.setSess { x with stepAt := s.clock }).pickState 4).put PICK_STATUS_LASTSTATUS stOK
      if x.reader then
        let uid := s1.pick.badges.headD []
        let s2 := s1.visitWrite (s1.visitWords 1 stOK uid x.ident) .whole
        { s2 with pick := { s2.pick with backoff := s2.pick.backoff.filter (fun e => decide (e.1 ≠ uid)) } }
      else s1
    else s.pickFail stVERIFY_FAIL

/-- A received DATA message: its plaintext, or the session closed (R569). The reason of a counter out of sequence and of
a wrong form is a free value (log entry 3). -/
def State.sessData (s : State) (m : Bytes) : Option Bytes × State :=
  match s.pick.sess with
  | none => (none, s)
  | some x =>
    if s.get PICK_SESS_STATE ≠ 4 then (none, s)
    else
      match x.openMsg m with
      | .plain bs => (some bs, (s.setSess { x with ctrIn := x.ctrIn + 1 }).pickMsg bs)
      | .tag => (none, s.pickFail stVERIFY_FAIL)
      | _ =>
        let r := s.free
        (none, r.2.pickFail (anyFailure r.1))

/-- ANSWER. -/
def execAnswer (m : Bytes) (s : State) : Out := if s.pickOn then .next (s.sessAnswer m) else .next s
/-- FINISH. -/
def execFinish (m : Bytes) (s : State) : Out := if s.pickOn then .next (s.sessFinish m) else .next s
/-- DATA. -/
def execData (m : Bytes) (s : State) : Out := if s.pickOn then .next (s.sessData m).2 else .next s

/-- The reader goes on with its next badge, or its field goes off (R564). -/
def State.nextBadge (s : State) : State :=
  let rest := s.pick.badges.drop 1
  let s1 : State := { s with pick := { s.pick with badges := rest } }
  match rest with
  | [] => s1.readerOff
  | u :: _ => ((s1.putWords (PICK_UID 0) 3 (u ++ List.replicate (12 - u.length) 0)).put PICK_UIDLEN_LEN u.length).put
      PICK_STATUS_MODE 2

/-- The badge of a closed session is halted and the next one served. -/
def State.afterSess (s : State) (wasReader : Bool) : State :=
  if wasReader && s.pick.failed.isNone && s.pick.rdrField then s.nextBadge else s

/-- Whether the session that runs is the reader's. -/
def State.sessReader (s : State) : Bool :=
  match s.pick.sess with
  | some x => x.reader
  | none => false

/-- ABORT: a received ABORT with its status code. A badge that aborts before its session is open has failed. -/
def execAbort (st : Nat) (s : State) : Out :=
  if s.pick.sess.isSome then
    let opened := decide (s.get PICK_SESS_STATE = 4)
    let s1 := s.pickEnd (st % 256)
    if s.sessReader && !opened then .next { s1 with pick := { s1.pick with failed := some (st % 256) } }
    else .next (s1.afterSess s.sessReader)
  else .next s

/-- PICK_SESS.ABORT (R585): ABORT is sent and the session closed. -/
def State.sessAbortWrite (s : State) : State :=
  if s.pick.sess.isSome then
    ((s.pickEnd stABORTED).pickMsg [6, BitVec.ofNat 8 stABORTED, 0, 0]).afterSess s.sessReader
  else s

/-- PICK_SESS_ABORT. -/
def execPickSessAbort (s : State) : Out := .next s.sessAbortWrite

/-- PICK_SESS.GO (R435, R570): a session with the badge the reader has selected; while one runs it is ignored with BUSY. -/
def State.sessGo (s : State) : State :=
  if s.pick.sess.isSome then s.put PICK_STATUS_LASTSTATUS stBUSY
  else if s.pickOn && s.pick.rdrField && !s.pick.badges.isEmpty && s.pick.failed.isNone then
    (s.sessBegin true).put PICK_STATUS_MODE 3
  else s

/-- PICK_SESS_GO. -/
def execPickSessGo (s : State) : Out := .next s.sessGo

/-- SESSION_STEP_TIMEOUT: the next handshake message has not come within STEPMS (R567). -/
def execSessionStepTimeout (s : State) : Out :=
  match s.pick.sess with
  | none => .next s
  | some x =>
    let st := s.get PICK_SESS_STATE
    if st = 1 ∨ st = 3 then
      .next ((s.passTo (x.stepAt + cyclesPerMs * s.get PICK_SESSTMO_STEPMS)).pickFail stTIMEOUT)
    else .next s

/-- SESSION_LIFETIME_EXPIRY (R569). -/
def execSessionLifetimeExpiry (s : State) : Out :=
  match s.pick.sess with
  | none => .next s
  | some x => .next ((s.passTo (x.startAt + cyclesPerSec * s.get PICK_SESSTMO_MAXS)).pickFail stTIMEOUT)

/-! ## Sessions with a handheld (Table 16-4) -/

/-- The HELLO of a handheld's session: slot 4,090 filled, a nonce, the module's credential; it stands in the handshake
buffer. -/
def State.tagHello (s : State) : Bytes × State :=
  let s1 := s.sessBegin false
  let key := s1.freeB (Config.privLen scEC 0)
  let pub := Config.crypto cyJobPub [natToBytes 2 scEC, natToBytes 2 0, key.1] 64
  let s2 := key.2.setPriv 4090 { key.2.priv 4090 with st := .active, pub := pub, key := key.1 }
  let nm := s2.freeB 32
  let hello := [1, 1, 0, 0] ++ nm.1 ++ pub ++
    (s2.lcs.prov.cred.take credLen ++ List.replicate (credLen - s2.lcs.prov.cred.length) 0)
  let a := s2.pickBuf
  let s3 := if s.helloBufOk a then
      (nm.2.bufStore a hello).put PICK_BUF_LEN_LEN 4613
    else nm.2
  (hello, s3.pickMsg hello)

/-- TAG_SESSION: an empty SESSION opens a session and answers HELLO, ANSWER is answered with CONFIRM, FINISH opens. -/
def execTagSession (m : Bytes) (s : State) : Out :=
  .next (s.tagApp fun t =>
    if !t.pickOn then t.respond [] 0x6985
    else if m = [] then
      if t.pick.sess.isSome then (t.put PICK_STATUS_LASTSTATUS stBUSY).respond [] 0x6985
      else
        let h := t.tagHello
        h.2.respond h.1 0x9000
    else if m.length = 5701 ∧ m.take 1 = [2] then
      if t.get PICK_SESS_STATE = 1 ∧ t.pick.sess.isSome = true then
        let u := t.sessAnswer m
        if u.pick.sess.isSome then u.respond u.pick.message 0x9000 else u.respond [] 0x6988
      else t.respond [] 0x6982
    else if m.length = 36 ∧ m.take 1 = [4] then
      if t.get PICK_SESS_STATE = 3 ∧ t.pick.sess.isSome = true then
        let u := t.sessFinish m
        u.respond [] (if u.pick.sess.isSome then 0x9000 else 0x6988)
      else t.respond [] 0x6982
    else t.respond [] 0x6700)

/-- The answer to a request of an open session (R561): its plaintext, or the reason of an ABORT. The content of an answer
without data is a free byte. -/
def State.tagRequest (s : State) (req : Bytes) : (Bytes ⊕ Nat) × State :=
  let r := s.freeB 1
  let op := bytesToNat (req.take 1)
  if op = 1 then
    let seq := bytesToNat ((req.drop 1).take 4)
    let n := bytesToNat ((req.drop 5).take 1)
    if req.length ≠ 6 ∨ n = 0 ∨ 15 < n then (.inr stBAD_LENGTH, s)
    else
      let recs := (s.ringOrder.map Prod.snd).filter (fun e => !e.pad && decide ((e.seq + 2 ^ 32 - seq) % 2 ^ 32 < n))
      if recs.isEmpty then (.inl r.1, r.2) else (.inl (recs.flatMap EvRec.bytes), s)
  else if op = 2 then
    (.inl (natToBytes 4 (s.rd LIFE_STATE).toNat ++ natToBytes 4 (s.rd TAMPER_STICKY_LO).toNat ++
      natToBytes 4 (s.rd TAMPER_STICKY_HI).toNat ++ natToBytes 4 (s.rd PWR_STATUS).toNat), s)
  else if op = 3 then
    let ident := match s.pick.sess with
      | some x => x.ident
      | none => []
    (.inl r.1, r.2.visitWrite (s.visitWords 2 stOK [] ident) .whole)
  else (.inr stBAD_OPCODE, s)

/-- TAG_DATA: a sealed request of an open session and its sealed answer. -/
def execTagData (m : Bytes) (s : State) : Out :=
  .next (s.tagApp fun t =>
    if t.get PICK_SESS_STATE ≠ 4 ∨ t.sessReader = true ∨ t.pick.sess.isNone = true then t.respond [] 0x6982
    else if !t.pickOn then t.respond [] 0x6985
    else
      let d := t.sessData m
      match d.1 with
      | none => d.2.respond [] 0x6988
      | some req =>
        let a := d.2.tagRequest req
        match a.1, a.2.pick.sess with
        | .inl plain, some x =>
          let o := x.sealMsg plain
          ((a.2.setSess o.2).pickMsg o.1).respond o.1 0x9000
        | .inr st, _ =>
          let u := a.2.pickFail st
          u.respond u.pick.message 0x9000
        | .inl _, none => a.2.respond [] 0x6982)

/-- WRITE_VISIT: on field energy, once in a field activation, at 2.5 A/m or more, a visit entry of kind UNVERIFIED from
the 48 bytes of the body, its stamps zero (R574). -/
def execWriteVisit (body : Bytes) (strong : Bool) (torn : Torn) (s : State) : Out :=
  .next (s.tagApp fun t =>
    if body.length ≠ 48 then t.respond [] 0x6700
    else if t.pstate ≠ .p3 ∨ t.pick.visitUsed = true ∨ strong = false then t.respond [] 0x6985
    else
      let ws := bytesWords 8 body
      let w1 := wordSet (ws.headD 0) 31 24 3
      let u := t.visitWrite (w1 :: ws.drop 1) torn
      ({ u with pick := { u.pick with visitUsed := true } }).respond [] 0x9000)

/-! ## The reader (R562 to R565) -/

/-- Whether the reader waits for a badge: it is off while the load is shed (R533). -/
def State.readerWaits (s : State) : Bool :=
  s.pickOn && s.on PICK_CTL_RDR_EN && decide (s.get PICK_STATUS_MODE = 1) && !s.pwr.shed

/-- CAP_SENSE: the antenna's capacitance after CAPPERIOD ms, its change in units of 0.01 pF. -/
def execCapSense (delta : Nat) (s : State) : Out :=
  if s.readerWaits then
    let s1 := s.pass (cyclesPerMs * s.get PICK_WAIT_CAPPERIOD)
    .next (if s1.get PICK_WAIT_CAPTHRESH < delta then s1.put PICK_STATUS_MODE 2 else s1)
  else .next s

/-- DETUNING_PING: the ping after 250 ms with PING_EN; the tuning shifts or not. -/
def execDetuningPing (shift : Bool) (s : State) : Out :=
  if s.readerWaits && s.on PICK_CTL_PING_EN then
    let s1 := s.pass (250 * cyclesPerMs)
    .next (if shift then s1.put PICK_STATUS_MODE 2 else s1)
  else .next s

/-- The bytes a badge sends in its cascade levels, without the BCCs: CT before every level but the last. -/
def cascade (u : Bytes) : Bytes :=
  if u.length = 7 then 0x88 :: u
  else if u.length = 10 then 0x88 :: u.take 3 ++ 0x88 :: u.drop 3
  else u

/-- A byte's bits in the order sent, as a number. -/
def bitsSent (b : Byte) : Nat := (List.range 8).foldl (fun a i => a * 2 + b.toNat / 2 ^ i % 2) 0

/-- The place of a UID in the order of anticollision: at a collision the reader takes 1 (R564). -/
def uidKey (u : Bytes) : Nat := (cascade u ++ List.replicate (12 - (cascade u).length) 0).foldl (fun a b => a * 256 + bitsSent b) 0

/-- A UID inserted before those with a smaller key. -/
def uidInsert (u : Bytes) : List Bytes → List Bytes
  | [] => [u]
  | v :: vs => if uidKey v < uidKey u then u :: v :: vs else v :: uidInsert u vs

/-- Whether a UID is in backoff (R565). -/
def State.inBackoff (s : State) (u : Bytes) : Bool :=
  s.pick.backoff.any (fun e => decide (e.1 = u) && decide (s.clock < e.2.2))

/-- BADGE_POLL: the check for an external field, the guard time, WUPA up to POLLS times, anticollision; the first MAXTAGS
badges that are not in backoff wait to be served. -/
def execBadgePoll (ext : Bool) (field : BadgeField) (s : State) : Out :=
  if s.pickOn && s.on PICK_CTL_RDR_EN && decide (s.get PICK_STATUS_MODE = 2) && !s.pick.rdrField && !s.pwr.shed then
    if ext || s.pick.fdet then
      .next (s.put PICK_STATUS_MODE (if s.pick.fdet && s.on PICK_CTL_TAG_EN then 4 else 1))
    else
      let s1 := s.pass (s.get PICK_RDR_GUARD * (cyclesPerMs / 10))
      let ok := field.uids.filter (fun u => decide (u.length = 4 ∨ u.length = 7 ∨ u.length = 10) && !(s1.inBackoff u))
      let served := if s1.get PICK_RDR_POLLS ≤ field.missed then [] else (ok.foldr uidInsert []).take (s1.get PICK_RDR_MAXTAGS)
      .next (({ s1 with pick := { s1.pick with rdrField := true, badges := [] :: served } }).nextBadge)
  else .next s

/-- The backoff list with a failure of a UID: the oldest of 16 entries gives way. -/
def State.backoffPut (s : State) (u : Bytes) : State :=
  let n := match s.pick.backoff.find? (fun e => decide (e.1 = u)) with
    | some e => e.2.1
    | none => 0
  let ms := min (s.get PICK_BACKOFF_BASE * 2 ^ n) (1000 * s.get PICK_BACKOFF_MAX)
  let l := s.pick.backoff.filter (fun e => decide (e.1 ≠ u))
  { s with pick := { s.pick with
    backoff := (if 16 ≤ l.length then l.drop 1 else l) ++ [(u, (n + 1, s.clock + cyclesPerMs * ms))] } }

/-- BADGE_REFUSE: the badge of a failed session is refused and the next one served (R565). -/
def execBadgeRefuse (s : State) : Out :=
  match s.pick.failed with
  | none => .next s
  | some st =>
    let s1 : State := { s with pick := { s.pick with failed := none } }
    let s2 := ((s1.backoffPut (s1.pick.badges.headD [])).inc PICK_REFUSED_COUNT)
    let s3 := (s2.evUnit 481 st).raise SRC_PICK_HANDSHAKE 0
    .next (if s3.pick.rdrField then s3.nextBadge else s3)

/-- PICK_STATUS_READ. -/
def execPickStatusRead (s : State) : Out := .next (s.clrIrq 480)
/-- PICK_MIRROR_READ. -/
def execPickMirrorRead (s : State) : Out := .next (s.clrIrq 482)

end Sys2Proof.Machine
end

