-- ==== Sys2Proof/Machine/Reset.lean ====
section
/-! DEFINITION. What a loss of the logic's power and a module reset leave: the always-on domain, the Case die, the
Pickguard's memory, the host (R50, R52, R69, R476, R500, R502, R527, R537). -/

namespace Sys2Proof.Machine

/-- Whether a register lies in the always-on domain, or shows what the Case die holds since manufacture: it survives
every reset. -/
def aonReg (off : Nat) : Bool :=
  decide (off = PWRCYC) || decide (off = TAMPER_LOGCOUNT) || decide (off = TAMPER_LOGLOST) || decide (off = TAMPER_ALARMS) ||
    decide (off = TAMPER_EVIDBUF) || decide (off = TAMPER_STICKY_LO) || decide (off = TAMPER_STICKY_HI) ||
    (decide (FAULT_LAST 0 ≤ off) && decide (off ≤ FAULT_LAST 7)) || decide (off = WDOG_MOD_STATUS) ||
    decide (off = LIFE_STATE) || decide (off = LIFE_MINVER) || decide (off = LIFE_DBGOPENS) || decide (off = LIFE_BOOT) ||
    decide (off = CASE_BAD) || decide (off = CASE_STATUS)

/-- Whether a register counts since the last cold boot: it survives a module reset. -/
def coldCount (off : Nat) : Bool :=
  decide (off = SOUND_ZEROIZE) || decide (off = KEY_ZEROIZE) || decide (off = ROSIN_STOPS) || decide (off = EVREC_FLUSHES) ||
    decide (off = CARD_REMOVALS) || (List.range 16).any (fun n => decide (off = CELL_KAT n)) ||
    (List.range 4).any (fun c => decide (off = ROSIN_COND c)) || (List.range 7).any (fun a => decide (off = LEDGER_RUNS a))

/-- Whether a register of the watch sequencer keeps its value in P3 Watch. -/
def watchReg (off : Nat) : Bool :=
  (decide (TAMPER_CTL ≤ off) && decide (off < TAMPER_CTL + 0x10000)) || decide (off = PWR_WATCH)

/-- Registers with those kept that a test names. -/
def State.keepRegs (s : State) (keep : Nat → Bool) : List (Nat × Word32) := s.regs.filter (fun e => keep e.1)

/-- Tamper entries that wait are programmed before the die is left (R500). -/
def State.logDrain (s : State) : Nat → State
  | 0 => s
  | n + 1 =>
    match s.tamp.log with
    | [] => s
    | e :: es => (({ s with tamp := { s.tamp with log := es } }).logProgram e).logDrain n

/-- The newest sequence number of the event ring. -/
def State.ringNewest (s : State) : Option Nat :=
  (s.ringOrder.filter (fun e => !e.2.pad)).getLast?.map (fun e => e.2.seq)

/-- The event recorder after a loss of its buffer: the ring stays; the next record carries LOST_BEFORE where records
were lost (R479, R520). -/
def State.evKept (s : State) : EvState :=
  { EvState.reset with
    ring := s.ev.ring
    wp := s.ev.wp
    nextSeq := match s.ringNewest with
      | some q => (q + 1) % 2 ^ 32
      | none => 0
    lostPend := s.ev.lostPend || !s.ev.buf.isEmpty
    oldestFloor := s.ev.oldestFloor }

/-- The key store's parts that last: the root key, the vault's records (R419, R420, R434 to R436), QN at the reservation
head (R365). -/
def State.keyKept (s : State) : KeyState :=
  { KeyState.reset with
    rootKey := s.key.rootKey
    vaultRoot := s.key.vaultRoot
    privs := (s.key.privs.filter (fun e => e.2.stored && decide (e.2.st = .active ∨ e.2.st = .lost))).map (fun e =>
      (e.1, { e.2 with qn := e.2.rh, reserving := false })) }

/-- What an operation of the Case die that a reset cuts short leaves (Table 13-7). Of an SLC program the first units stand,
how many is free, and the next program takes the unit after them; an MLC lower page is undefined, its block takes no
further program and is flagged; an upper page counts as never programmed; of an erase the intent stands. -/
def State.opCut (s : State) (o : DieOp) : State :=
  match o.work, s.caseZone o.block with
  | .program u bs, some z =>
    let first := o.page * z.perPage + u
    if z.slc then
      let n := bs.length / z.unit_
      let r := s.free
      let k := r.1 % (n + 1)
      r.2.blkProgram o.block (4096 * o.page + u * z.unit_) (first + min (k + 1) n) (bs.take (k * z.unit_))
    else if o.page < 128 then
      let r := s.freeB 4096
      let s1 := r.2.blkProgram o.block (4096 * o.page) 256 r.1
      s1.setBlk o.block { s1.blk o.block with flagged := true }
    else s
  | _, _ => s

/-- A program that completes before the reset (R520). -/
def State.opWhole (s : State) (o : DieOp) : State :=
  match o.work, s.caseZone o.block with
  | .program u bs, some z =>
    s.blkProgram o.block (4096 * o.page + u * z.unit_) (o.page * z.perPage + u + bs.length / z.unit_) bs
  | _, _ => s

/-- A flush that a reset cuts short: the first of its units stand in the ring, how many is free (Table 13-7). -/
def State.flushCut (s : State) : State :=
  match s.ev.flushN with
  | none => s
  | some n =>
    let r := s.free
    r.2.ringWrite ((padUnits ((s.ev.buf.take n).map Prod.fst)).take (16 * (r.1 % (ceilDiv n 16 + 1))))

/-- The Case die with its operations cut short (R476): what they programmed whole stands, a running erase leaves its
intent. -/
def State.dieKept (s : State) : CaseState :=
  { s.die with waiting := [], running := [], asleep := [], cmd := none, cache := [], badPages := [] }

/-- The Pickguard without the module: its memory, the field and the tag go on (R555); sessions and the reader are gone. -/
def State.pickKept (s : State) : PickState :=
  { s.pick with rdrField := false, message := [], sess := none, badges := [], failed := none, backoff := [], copyReq := false }

/-- The module with its logic at reset and everything else as it was: registers as a test keeps them. -/
def State.rebuild (s : State) (keep : Nat → Bool) : State :=
  let present := s.get CARD_STATUS_PRESENT
  let s0 := (s.die.running.foldl (fun t e => t.opCut e.2) (s.logDrain s.tamp.log.length)).flushCut
  { State.reset with
    clock := s.clock
    regs := (s0.keepRegs keep)
    topUnmapped := 0
    freeCtr := s0.freeCtr
    time := { TimeState.reset with
      opTime := s.time.opTime, opSub := s.time.opSub, opMirror := s.time.opMirror, opMirrorAt := s.time.opMirrorAt }
    mem := { MemState.reset with host := s.mem.host, m32 := s.mem.m32 }
    ev := s0.evKept
    key := s.keyKept
    die := s0.dieKept
    tamp := { s0.tamp with log := [], bistAt := s.clock }
    pwr := { PowerState.reset with rstLow := s.pwr.rstLow, perstLow := s.pwr.perstLow }
    lcs := { s.lcs with
      running := none, bootFailed := false, measured := [], chalAt := none, waiting := none, applying := false,
      haltReq := [], halters := [], stepReq := [], breaks := [] }
    pick := s.pickKept
    card := CardState.reset
    pending := s.pending } |> fun t =>
    ((((t.put CARD_STATUS_PRESENT present).putB PICK_STATUS_FIELD s.pick.fdet).put PICK_STATUS_TAGSTATE
      (s.get PICK_STATUS_TAGSTATE)).putB KEY_STATE_ROOT (decide (s.key.rootKey = some s.key.vaultRoot))).privCount

/-- P3 Watch is entered: only the always-on domain is powered; per-boot keys, SRAM and DRAM are lost (R527). -/
def State.enterP3 (s : State) : State :=
  { s.rebuild (fun o => aonReg o || watchReg o) with pstate := .p3, resetPend := none }

end Sys2Proof.Machine
end

