-- ==== Sys2Proof/Machine/DebugBase.lean ====
section
/-! DEFINITION. What the debug visibility matrix lets a debug master see of a processor, and the halts it asks for (R550
to R552, R517, R519). -/

namespace Sys2Proof.Machine

/-- What a cell of Table 15-10 gives: nothing, R, H. -/
inductive DbgSee where
  | none | read | full
  deriving DecidableEq, Repr

/-- What the matrix gives of a processor in a privilege state: 0 and 1 the Station world, 2 and 3 the Trust world of a Fret
engine, the ring on the Capo (Table 15-10). -/
def State.sees (s : State) (p priv : Nat) : DbgSee :=
  let fret := isFret p
  if s.life = lcBlank then .full
  else if s.life = lcProvisioned then (if fret then .full else if 2 ≤ priv then .full else .read)
  else if s.life = lcDebug then
    (if s.get LIFE_STATE_SCOPE = 0 then
      (if fret then (if priv < 2 then .full else .none)
      else if priv = 3 then .full else if priv = 2 then .read else .none)
    else if fret then .full else if 1 ≤ priv then .full else .read)
  else .none

/-- A processor halts (R552): the mask or the Capo's bit follows, the Capo's watchdog pauses (R517), the module watchdog
only in Debug-opened with DBGSTOP = 1 (R519). -/
def State.haltNow (s : State) (mid p : Nat) : State :=
  let s1 := s.setProc p { s.proc p with halted := true }
  let s2 : State := { s1 with lcs := { s1.lcs with
    haltReq := s1.lcs.haltReq.filter (fun e => decide (e.2 ≠ p))
    stepReq := s1.lcs.stepReq.filter (fun e => decide (e.2 ≠ p))
    halters := s1.lcs.halters.filter (fun e => decide (e.2 ≠ p)) ++ [(mid, p)] } }
  if isFret p then s2.put DEBUG_FEHALT_MASK (s2.get DEBUG_FEHALT_MASK ||| 2 ^ p)
  else
    let s3 : State := { s2 with wdog := { s2.wdog with
      capoPaused := if s2.wdog.capoPaused.isSome then s2.wdog.capoPaused else some s2.clock
      modPaused := if s2.wdog.modPaused.isNone && decide (s2.life = lcDebug) && s2.on WDOG_MOD_CTL_DBGSTOP then some s2.clock
        else s2.wdog.modPaused } }
    s3.put DEBUG_STATUS_CAPOHALT 1

/-- Who halts a processor at its boundary: a halt request, the end of a single step, or a breakpoint at its PC. -/
def State.haltDue (s : State) (p : Nat) : Option Nat :=
  ((s.lcs.haltReq ++ s.lcs.stepReq).find? (fun e => decide (e.2 = p))).map Prod.fst |>.orElse fun _ =>
    (s.lcs.breaks.find? (fun e => decide (e.2 = (p, (s.proc p).pc.toNat)))).map Prod.fst

/-- A processor that has come to a boundary in a world or ring where the matrix gives H halts if one of these is due; in
other worlds and rings it runs on (R551). -/
def State.debugCatch (s : State) (p : Nat) : State :=
  if s.lcs.haltReq.isEmpty && s.lcs.stepReq.isEmpty && s.lcs.breaks.isEmpty then s
  else if (s.proc p).halted then s
  else
    match s.haltDue p with
    | some mid => if s.sees p (s.proc p).priv = .full then s.haltNow mid p else s
    | none => s

end Sys2Proof.Machine
end

