-- ==== Sys2Proof/Machine/FretRegs.lean ====
section
/-! DEFINITION. The Fret engines' control registers (R182, R183). -/

namespace Sys2Proof.Machine

/-- A write of FE_CTL (R182): while RUN = 0, HELD follows HOLD at once. -/
def State.feCtlWrite (s : State) (n : Nat) (v : Word32) : State :=
  (s.regStore (FE_CTL n) v).holdNow n

/-- FE_CTL_WRITE. -/
def execFeCtlWrite (n : Nat) (v : Word32) (s : State) : Out :=
  if n < 32 then .next (s.feCtlWrite n v) else .next s

/-- Whether an offset of an engine's register set is one that R183 guards. -/
def feGuarded (r : Nat) : Bool := decide (0x08 ≤ r ∧ r < 0x68) || decide (0x100 ≤ r ∧ r < 0x140)

/-- A write of a set-up register of an engine: ignored with CFGREJ while RUN = 1 and HELD = 0 (R183). A LAST of
FE_ARANGE below its FIRST is refused (Table 8-10). -/
def State.feConfigWrite (s : State) (off : Nat) (v : Word32) : State :=
  let n := (off - FE_CTL 0) / 0x8000
  let r := (off - FE_CTL 0) % 0x8000
  if s.on TIME_CTL_RUN && !(s.on (FE_CTL_HELD n)) then s.put (FE_STATUS_CFGREJ n) 1
  else if 0x100 ≤ r ∧ r % 8 = 4 ∧ wordField v 20 0 < wordField (s.rd (off - 4)) 20 0 then s.raise (cfgSource off) 0
  else s.regStore off v

/-- FE_CONFIG_WRITE: a write of the register at offset `r` of engine `n`'s set. -/
def execFeConfigWrite (n r : Nat) (v : Word32) (s : State) : Out :=
  if n < 32 ∧ feGuarded r then .next (s.feConfigWrite (FE_CTL n + r) v) else .next s

end Sys2Proof.Machine
end

