-- ==== Sys2Proof/Machine/Tick.lean ====
section
/-! DEFINITION. The tick edge (R24 to R33, R41, R166, R181, R182, R208, R307, R312, R314, R316), the start of FE_B, and
writes of TIME_CTL. -/

namespace Sys2Proof.Machine

/-! ## Starting engines -/

/-- An engine starts a tick at its Trust-world tick entry, with TB at the tick's sample frame, whose address the spec
does not give (R32, R181; log entry 3). -/
def State.engineStart (s : State) (n : Nat) : State :=
  let park := (s.proc n).twaited
  let c := (s.tickEntry n).free
  (c.2.setProc n { c.2.proc n with
    tb := a24 c.1, run := .running, parkEntry := park, twaited := false, budgetGiven := false, staged := [],
    now := c.2.clock }).debugCatch n

/-- FE_B starts d cycles after the edge (R316). -/
def State.feBStart (s : State) : State :=
  let s1 := s.passTo (s.time.edge + s.get REL_STATUS_D)
  ({ s1 with data := { s1.data with feBWaits := false } }).engineStart (s.get REL_CTL_FE_B)

/-- FE_B_START. -/
def execFeBStart (s : State) : Out := if s.data.feBWaits then .next s.feBStart else .next s

/-! ## The end of a tick -/

/-- The engines that started the tick and have not retired TWAIT are abandoned (R41). -/
def State.abandonLate (s : State) : State :=
  s.data.ran.foldl (fun t n =>
    let pr := t.proc n
    if !pr.twaited && (decide (pr.run = .running) || decide (pr.run = .wait)) then t.feAbandon n .edge else t) s

/-- The lists of a tick are gone. -/
def State.listsGone (s : State) : State :=
  { s with data := { s.data with gfail := [], decided := [], relList := [], heldList := [], heldOver := [] } }

/-- What an edge does for the tick that ends. -/
def State.endTick (s : State) : State :=
  let s1 := if s.data.feBWaits then s.feBStart else s
  (s1.abandonLate.relEdge.objEdge).listsGone

/-! ## The start of a tick -/

/-- The tick counters (R27). -/
def State.tickCounters (s : State) (n : Nat) : State :=
  let c := s.get TICK_COUNT_LO_COUNT + 2 ^ 32 * s.get TICK_COUNT_HI_COUNT
  let c' := if s.time.firstTick then 0 else (c + 1) % 2 ^ 48
  ((s.put TICK_INDEX_N n).put TICK_COUNT_LO_COUNT c').put TICK_COUNT_HI_COUNT (c' / 2 ^ 32)

/-- The sample sets at an edge: the edge cut holds the latest whose verdict is complete (R44). -/
def State.sampleEdge (s : State) : State :=
  { s with data := { s.data with samples := s.data.samples.map (fun e =>
    (e.1, ⟨match e.2.guard with
      | some x => some x
      | none => match e.2.live with
        | some x => some x
        | none => e.2.edge, none, none⟩)) } }

/-- HELD follows HOLD at an edge (R182). -/
def State.heldFollows (s : State) (n : Nat) : State :=
  let h := s.on (FE_CTL_HOLD n)
  let s1 := s.putB (FE_CTL_HELD n) h
  let pr := s1.proc n
  if h && decide (pr.run ≠ .held) then s1.setProc n { pr with run := .held, twaited := false }
  else if !h && decide (pr.run = .held) then s1.setProc n { pr with run := .parked }
  else s1

/-- Every engine but a held one, and one that its fault source has isolated, starts its tick; FE_B waits for its
start. -/
def State.startEngines (s : State) : State :=
  let b := s.get REL_CTL_FE_B
  (List.range 32).foldl (fun t n =>
    if (t.proc n).run = .held ∨ t.flt.isolated.contains (SRC_FE_TICK n) then t
    else
      let t1 : State := { t with data := { t.data with ran := t.data.ran ++ [n] } }
      if n = b then { t1 with data := { t1.data with feBWaits := true } } else t1.engineStart n)
    { s with data := { s.data with ran := [] } }

/-- A tick starts with number `n` in its second. -/
def State.startTick (s : State) (n : Nat) : State :=
  let s1 := (if n = 0 then s.ratePending else s).tickCounters n
  let s2 := (List.range 32).foldl State.heldFollows s1
  let s3 : State := { s2 with time := { s2.time with edge := s2.clock, inTick := true, firstTick := false } }
  let s4 := s3.sampleEdge.heldForm.relScan
  let s5 : State := { s4 with data := { s4.data with relList := s4.relListed } }
  s5.drawD.startEngines

/-! ## A stop edge (R26) -/

/-- The engines remain parked at their tick entry. -/
def State.parkEngines (s : State) : State :=
  s.data.ran.foldl (fun t n =>
    let t1 := t.tickEntry n
    t1.setProc n { t1.proc n with run := .parked, twaited := false, parkEntry := false }) s

/-- The edge at which ticks stop: no tick starts; they go on at the next edge where RUN has been set again. -/
def State.stopEdge (s : State) : State :=
  let s1 := s.parkEngines.ratePending
  let s2 : State := { s1 with
    time := { s1.time with stopPend := false, inTick := false, firstTick := true, ticking := s1.on TIME_CTL_RUN }
    data := { s1.data with ran := [] } }
  (List.range 32).foldl State.heldFollows s2

/-- TICK_EDGE. -/
def execTickEdge (s : State) : Out :=
  if s.time.ticking && s.logicUp then
    let n := s.edgeIndex % s.time.rate
    let s1 := (s.passTo s.edgeCycle).endTick
    .next (if s1.time.stopPend then s1.stopEdge else s1.startTick n).settle
  else .next s

/-! ## TIME_CTL (R21, R26, R318) -/

/-- A write of TIME_CTL: SRC and RUN take effect; a clear of RUN ends every PENDING request. -/
def State.timeCtlWrite (s : State) (v : Word32) : State :=
  let s1 := s.timeCtlBase v
  if s.on TIME_CTL_RUN && !(s1.on TIME_CTL_RUN) then (List.range 32).foldl State.holdNow s1.relRunCleared else s1

/-- TIME_SRC_WRITE, TICK_RUN_SET, TICK_RUN_CLEAR: writes of TIME_CTL that change SRC, set RUN, clear RUN. -/
def execTimeSrcWrite (v : Word32) (s : State) : Out := .next (s.timeCtlWrite v).settle
def execTickRunSet (v : Word32) (s : State) : Out := .next (s.timeCtlWrite (v ||| 1)).settle
def execTickRunClear (v : Word32) (s : State) : Out := .next (s.timeCtlWrite (v &&& 0xFFFFFFFE)).settle

end Sys2Proof.Machine
end

