-- ==== Sys2Proof/Machine/Power.lean ====
section
/-! DEFINITION. The power controller: P1 Gated, P2 Retain and its wake, supply dips, the pins RST_N and PERST_N (R33, R291,
R420, R524 to R536, R591, R595, R596, R600). -/

namespace Sys2Proof.Machine

/-! ## P1 Gated -/

/-- Cycles a gated unit takes to wake at the level in force (Table 7-9). -/
def State.wakeCycles (s : State) : Nat := wakeNs (s.get BRIDGE_GATE_LEVEL) * 3 / 2

/-- UNIT_GATE_WAKE: a unit gated at the level in force wakes for new work (R291). -/
def execUnitGateWake (s : State) : Out :=
  if s.logicUp then .next ((s.pass s.wakeCycles).putGated false) else .next s

/-- ENGINE_PRE_WAKE: an engine gated in P1 Gated wakes so that it runs at the tick edge (R33): the edge is still to come. -/
def execEnginePreWake (n : Nat) (s : State) : Out :=
  if n < 32 ∧ s.pstate = .p1 ∧ s.time.ticking = true then
    let s1 := s.passTo (s.edgeCycle - s.wakeCycles)
    .next ((s1.passTo (min (s1.clock + s.wakeCycles) (s.edgeCycle - 1))).putGated false)
  else .next s

/-! ## PWR_CTL and P2 Retain (R525, R526) -/

/-- A module reset asked for; one that waits already keeps its cause. -/
def State.askReset (s : State) (c : ResetCause) : State :=
  match s.resetPend with
  | none => { s with resetPend := some c }
  | some _ => s

/-- A write of PWR_CTL. -/
def State.pwrCtlWrite (s : State) (mid : Nat) (v : Word32) : State :=
  let req := wordField v 31 30
  let s1 := if 2 ≤ req then s.raise SRC_PWR_CFG 0
    else if req = 1 ∧ mid = 0x40 then { s with pwr := { s.pwr with retainReq := true } } else s
  if wordField v 15 0 = 0xC0DE ∧ mid = 0x40 then s1.askReset .software else s1

/-- SOFTWARE_RESET: a write of PWR_CTL with RESET = 0xC0DE. -/
def execSoftwareReset (mid : Nat) (s : State) : Out := .next (s.pwrCtlWrite mid 0xC0DE)

/-- Ports P0 to P3 are taken down. -/
def State.portsDown (s : State) : State := (List.range 4).foldl (fun t n => t.setLink n false) s

/-- Why a retain request is refused (R525); `l12` tells whether the host has enabled L1.2. -/
def State.retainRefused (s : State) (l12 : Bool) : Nat :=
  if s.on TIME_CTL_RUN then 1
  else if s.on BRIDGE_LINK_UP && !l12 then 2
  else if !s.lcs.halters.isEmpty then 3
  else if s.on LIFE_CMD_RESULT_BUSY || s.key.cer.isSome then 4
  else 0

/-- RETAIN_REQUEST: the Capo, in ring 0, has requested RETAIN and executed WAIT. -/
def execRetainRequest (l12 : Bool) (s : State) : Out :=
  if s.pwr.retainReq = true ∧ (s.proc 32).run = .wait ∧ (s.proc 32).priv = 0 ∧ s.logicUp = true then
    let s1 : State := { s with pwr := { s.pwr with retainReq := false } }
    let e := s.retainRefused l12
    let s2 := s1.put PWR_STATUS_REQERR e
    if e ≠ 0 then .next (s2.setIrq 83)
    else
      let s3 := s2.portsDown
      .next ({ s3 with pwr := { s3.pwr with draining := some s3.clock } }).flushStart
  else .next s

/-- RETAIN_DRAIN_EXPIRY: work that still runs after DRAIN ms ends with ABORTED. -/
def execRetainDrainExpiry (s : State) : Out :=
  match s.pwr.draining with
  | none => .next s
  | some c =>
    let s1 := s.passTo (c + cyclesPerMs * s.get PWR_RETAIN_DRAIN)
    let s2 := s1.jobs.jobs.foldl (fun t e => t.cellEnd e.1 stABORTED 0) s1
    .next (s2.ve.cmds.foldl (fun t e => if e.2.result.isNone || !(t.veHeld e.2) then t.veStop e.1 stABORTED else t) s2)

/-- The reader and the sessions over the antenna end with the logic; the tag serves the mirror on (R555, R561). -/
def State.pickStop (s : State) : State :=
  let s1 := if s.pick.sess.isSome then s.pickEnd stABORTED else s
  let s2 := ({ s1 with pick := { s1.pick with failed := none } }).readerOff
  if s2.get PICK_STATUS_MODE = 4 then s2 else s2.put PICK_STATUS_MODE 0

/-- The Rosin array loses its supply: its reserve and held bits are discarded (Table 11-3). FAILED lasts until module
reset (R411); an expired wait timeout does not outlast the start-up that follows (R406). -/
def State.rosinOff (s : State) : State :=
  let failed := decide (s.get ROSIN_STATE_STATE = roFailed)
  let s1 : State := { s.putReserve [] with
    rosin := { s.rosin with
      reserve := [], cond := [], passed := [], run := [], limits := [], timedOut := failed && s.rosin.timedOut }
    jobs := { s.jobs with fill := [], grants := 0 } }
  if failed then s1 else s1.rosinPut roOff

/-- P2 Retain is entered: records flushed, operating time mirrored, the core logic in retention (R526, R528). -/
def State.enterP2 (s : State) : State :=
  let s1 := if s.ev.flushN.isSome || !s.ev.buf.isEmpty then s.flushDone s.ev.buf.length else s
  let s2 := ({ s1 with ev := { s1.ev with again := false } }).mirrorOpTime.rosinOff.pickStop
  let s3 := if s2.get CARD_STATUS_STATE = 0 then s2 else s2.cardOff
  { s3 with
    pstate := .p2
    time := { s3.time with ppsEnd := none }
    pwr := { s3.pwr with draining := none }
    wdog := { s3.wdog with capoPaused := some s3.clock, modPaused := some s3.clock } }

/-- LINK_L1_2_ENTRY: the work has ended and the host lets the link enter L1.2. -/
def execLinkL12Entry (s : State) : Out :=
  if s.pwr.draining.isSome && s.jobs.jobs.isEmpty && s.ve.cmds.all (fun e => s.veHeld e.2) && s.die.running.isEmpty &&
      s.die.asleep.isEmpty then
    .next s.enterP2
  else .next s

/-! ## Phases of a dip (R532 to R535) -/

/-- The actions of WARN. -/
def State.dipWarn (s : State) : State :=
  (((s.put PWR_STATUS_PHASE 1).setIrq 80).evUnitFree 80).raise SRC_PWR_WARN 0

/-- The actions of SHED (R533, R584). -/
def State.dipShed (s : State) : State :=
  let s1 : State := { s with pwr := { s.pwr with shed := true } }
  let s2 := (((s1.put PWR_STATUS_PHASE 2).flushStart).put CASE_STATUS_SUSPENDED 1).erasesSuspend
  let s3 := if s2.sessReader then s2.pickEnd stABORTED else s2
  let s4 := ({ s3 with pick := { s3.pick with failed := none } }).readerOff
  (if s4.get PICK_STATUS_MODE = 4 then s4 else s4.put PICK_STATUS_MODE 0).gateChange

/-- The actions of STOPPING (R534). -/
def State.dipStop (s : State) : State :=
  let s0 := if s.pwr.shed then s else s.dipShed
  let s1 : State := { s0 with pwr := { s0.pwr with stopped := true } }
  let s2 := ((s1.put PWR_STATUS_PHASE 3).timeCtlWrite (s1.rd TIME_CTL &&& 0xFFFFFFFE)).portsDown.mirrorOpTime
  let s3 := (s2.setIrq 82).raise SRC_PWR_STOP 0
  let s4 := if s3.on PWR_NOTIFY_MSIEN then s3.msiSend (s3.get (FN_VEC_VEC_BASE 0) + s3.get PWR_NOTIFY_VEC) else s3
  if s4.get CARD_STATUS_STATE = 0 then s4 else s4.cardOff

/-- The bank voltage measured, in mV: the lowest of the dip is kept. -/
def State.bankAt (s : State) (mv : Nat) : State :=
  ({ s with pwr := { s.pwr with minBank := min s.pwr.minBank mv } }).put PWR_BANK_MV mv

/-- SUPPLY_WARNING: the input has stayed below 34.0 V for 50 µs; input and bank voltage in mV. A dip that lasts has had
its warning; one that comes back during the recharge starts again at WARN (R532, R536). -/
def execSupplyWarning (input bank : Nat) (s : State) : Out :=
  if 34000 ≤ input ∨ s.pstate = .p3 ∨ (s.pwr.dipAt.isSome = true ∧ s.pwr.restoredAt = none) then .next s
  else
    let s0 := s.pass 75000
    let s1 : State := { s0 with pwr := { s0.pwr with dipAt := some s0.clock, minBank := bank, restoredAt := none } }
    if s.pstate = .p2 then .next s1 else .next ((s1.put PWR_INPUT_MV input).put PWR_BANK_MV bank).dipWarn

/-- SUPPLY_SHED: 20 ms after the warning; the bank voltage in mV. -/
def execSupplyShed (bank : Nat) (s : State) : Out :=
  match s.pwr.dipAt with
  | none => .next s
  | some c =>
    if s.get PWR_STATUS_PHASE = 1 ∧ s.pwr.restoredAt = none then
      .next ((s.passTo (c + 20 * cyclesPerMs)).bankAt bank).dipShed.settle
    else .next s

/-- SUPPLY_STOPPING: the bank is at 40 V. -/
def execSupplyStopping (s : State) : Out :=
  if s.pwr.dipAt.isSome ∧ (s.get PWR_STATUS_PHASE = 1 ∨ s.get PWR_STATUS_PHASE = 2) then
    .next (s.bankAt 40000).dipStop.settle
  else .next s

/-- SUPPLY_RESET_LEVEL: the bank is at 32 V, the input absent or not: P3 Watch, or a module reset held (R527, R532). -/
def execSupplyResetLevel (absent : Bool) (s : State) : Out :=
  if s.pwr.dipAt.isSome ∧ s.pstate ≠ .p3 then
    let s1 := if s.pstate = .p2 ∨ s.pwr.stopped = true then s else (s.bankAt 32000).dipStop.settle
    if absent then .next s1.enterP3
    else .next (({ s1 with pwr := { s1.pwr with resetHeld := true } }).askReset .restore)
  else .next s

/-- INPUT_RESTORED: the input stays at or above 35.5 V; input and bank voltage in mV. -/
def execInputRestored (input bank : Nat) (s : State) : Out :=
  if s.pwr.dipAt.isSome ∧ 35500 ≤ input ∧ s.pstate ≠ .p3 then
    if s.pstate = .p2 then .next { s with pwr := { s.pwr with dipAt := none } }
    else
      let s1 := (s.bankAt bank).put PWR_INPUT_MV input
      .next { s1 with pwr := { s1.pwr with restoredAt := some s1.clock } }
  else .next s

/-- The reader waits again where it may. -/
def State.readerBack (s : State) : State :=
  if s.get PICK_STATUS_MODE = 0 ∧ s.on PICK_CTL_RDR_EN = true then s.put PICK_STATUS_MODE 1 else s

/-- The dip is over: the shed lifts, operations resume, the dip record is written (R535). -/
def State.dipLift (s : State) (from_ restored : Nat) : State :=
  let ms := (restored - from_) / cyclesPerMs
  let r := s.free
  let s1 := r.2.evEnter (srcHw 81) (r.1 % 65536) stOK 0xFF
    (natToBytes 4 ms ++ natToBytes 4 (s.get PWR_STATUS_PHASE) ++ natToBytes 4 s.pwr.minBank)
  let s2 := (((s1.inc PWR_DIPS_COUNT).setIrq 81).put PWR_LASTDIP_MS (satAt 65535 ms)).put PWR_LASTDIP_MINV
    (satAt 65535 (s.pwr.minBank / 10))
  let s3 := ((s2.put PWR_STATUS_PHASE 0).clrIrq 80).put CASE_STATUS_SUSPENDED 0
  let s4 : State := { s3 with pwr := { s3.pwr with shed := false, dipAt := none, restoredAt := none, restoreAt := restored } }
  s4.readerBack.gateChange.keyRetry.lifeRetry

/-- SHED_LIFT: 5 ms of restored input: the dip ends, or after a stop a module reset follows. -/
def execShedLift (s : State) : Out :=
  match s.pwr.dipAt, s.pwr.restoredAt with
  | some d, some r =>
    let s1 := s.passTo (r + 5 * cyclesPerMs)
    if s1.pwr.stopped || s1.pwr.resetHeld then
      .next (({ s1 with pwr := { s1.pwr with resetHeld := false } }).askReset .restore)
    else .next (s1.dipLift d r)
  | _, _ => .next s

/-- HOLDUP_CHECK: 2 s after a boot or a restore of the input; the bank voltage in mV (Table 15-11). -/
def execHoldupCheck (bank : Nat) (s : State) : Out :=
  let due := s.pwr.restoreAt + 2 * cyclesPerSec
  if s.logicUp = true ∧ s.clock ≤ due then
    let s1 := (s.passTo due).put PWR_BANK_MV bank
    .next (if bank < 65000 then s1.raise SRC_PWR_HOLDUP 0 else s1)
  else .next s

/-- OVERVOLTAGE: the input has been above 75 V for 1 ms; its voltage in mV (R591). -/
def execOvervoltage (input : Nat) (s : State) : Out :=
  if s.logicUp = true ∧ 75000 < input then
    .next (((s.pass cyclesPerMs).put PWR_INPUT_MV input).raise SRC_PWR_OVERVOLT 0)
  else .next s

/-- POWER_TOTAL_LOSS: input and backup cell are both absent: the always-on domain is lost with the root key; what the
Case die mirrors comes back from it (R51, R420, R501, R502). -/
def execPowerTotalLoss (s : State) : Out :=
  let s1 := (if s.pstate = .p3 then s else s.enterP3).rootErase
  let s2 : State := { s1 with
    regs := s1.keepRegs (fun o => decide (o = LIFE_STATE ∨ o = LIFE_MINVER ∨ o = LIFE_DBGOPENS ∨ o = CASE_BAD ∨
      o = CASE_STATUS ∨ o = TAMPER_LOGCOUNT ∨ o = TAMPER_ALARMS ∨ o = PWRCYC))
    time := { s1.time with opTime := (s1.time.opMirror + 60000) % 2 ^ 44, opSub := 0 }
    tamp := { s1.tamp with qty := [], evid := [] } }
  .next ((((s2.putSticky s2.tamp.mirror).put TAMPER_LOGLOST_COUNT s2.tamp.lostMirror).putB PICK_STATUS_FIELD s.pick.fdet).put
    PICK_STATUS_TAGSTATE (s.get PICK_STATUS_TAGSTATE))

/-! ## Wake (R529, R530, R600) -/

/-- Whether a wake source ends P2 Retain: those of PWR_WAKEEN by their bits, TAMPER after a confirmed alarm. -/
def State.wakes (s : State) (src : Nat) : Bool :=
  (decide (2 ≤ src ∧ src ≤ 6) && bitOf (s.get PWR_WAKEEN_EN) (src - 2) &&
      (decide (src ≠ 6) || decide (s.get PWR_WAKETIMER_MS ≠ 0)) && (decide (src ≠ 4) || s.pick.fdet)) ||
    (decide (src = 7) && s.pwr.alarmReset)

/-- A wake from P2 Retain after a number of microseconds; after a confirmed alarm it is a module reset (R497). -/
def State.wake (s : State) (src us : Nat) : State :=
  let s0 := ((s.pass (1500 * us)).put PWR_WAKESRC_SRC src).put PWR_WAKESRC_CAUSE 0
  if s0.pwr.alarmReset then s0.askReset .tamper
  else
    let s1 : State := { s0 with
      pstate := .p0, wdog := { s0.wdog with capoAt := s0.clock, capoPaused := none, modAt := s0.clock, modPaused := none } }
    let c := s1.proc 32
    let s2 := if c.run = .wait then s1.setProc 32 { c with run := .running } else s1
    let s3 := (((s2.put PWR_STATUS_STATE 0).put PWR_WAKETIME_US (satAt 255 us)).setIrq 83)
    let s4 := (if s3.get ROSIN_STATE_STATE = roFailed then s3 else (s3.rosinPut roStartup).rosinRestart).readerBack
    if s4.pwr.dipAt.isSome then s4.dipWarn else s4

/-- The cycle up to which a wake source passes time: the timer's expiry, counted from the entry of P2 Retain. -/
def State.wakeDue (s : State) (src : Nat) : Nat :=
  if src = 6 then s.wdog.modPaused.getD s.clock + cyclesPerMs * s.get PWR_WAKETIMER_MS else s.clock

/-- WAKE: an enabled source; the microseconds the wake takes. -/
def execWake (src us : Nat) (s : State) : Out :=
  if s.pstate = .p2 ∧ s.wakes src = true then .next ((s.passTo (s.wakeDue src)).wake src us) else .next s

/-- WAKE_N_LOW: WAKE_N has been low for 100 µs. -/
def execWakeNLow (us : Nat) (s : State) : Out :=
  if s.pstate = .p2 ∧ s.wakes 2 = true then .next ((s.pass (100 * cyclesPerUs)).wake 2 us) else .next s

/-- WAKE_FAIL: a ready signal of the wake is missing beyond four times its limit. -/
def execWakeFail (src : Nat) (s : State) : Out :=
  if s.pstate = .p2 ∧ s.wakes src = true then
    let s1 := (s.passTo (s.wakeDue src)).raise SRC_PWR_WAKEFAIL 0
    .next { s1 with resetPend := some (if s1.pwr.alarmReset then .tamper else .wakeFail) }
  else .next s

/-! ## Pins -/

/-- RST_N_LOW: a low level of 10 µs is taken; a zeroize completes first; FAULT_N is driven low and a module reset begins,
held while the pin is low (R595, R607). In P3 Watch the pin only keeps a cold boot waiting. -/
def execRstNLow (s : State) : Out :=
  let s1 := (s.pass 15000).settle
  let s2 : State := { s1 with pwr := { s1.pwr with rstLow := true } }
  if s.pstate = .p3 then .next s2 else .next ((s2.put FAULT_NCTL_ASSERTED 1).askReset .rstN)

/-- PERST_N_LOW: the Bridge's reset acts as a link-down. -/
def execPerstNLow (s : State) : Out :=
  let s1 : State := { s with pwr := { s.pwr with perstLow := true } }
  .next (if s1.on BRIDGE_LINK_UP then s1.linkDown else s1)

/-- PERST_N_RISE: the Bridge may train. -/
def execPerstNRise (s : State) : Out := .next { s with pwr := { s.pwr with perstLow := false } }

/-- PWR_STATUS_READ. -/
def execPwrStatusRead (s : State) : Out := .next ((s.clrIrq 80).clrIrq 83)

end Sys2Proof.Machine
end

