-- ==== Sys2Proof/Machine/Case.lean ====
section
/-! DEFINITION. The commands of the Case die, its planes, the read cache, refreshes and the subregions of GENERAL (R457 to
R475). -/

namespace Sys2Proof.Machine

/-! ## Commands (R460, R461) -/

/-- Detail codes (Table 13-3). -/
abbrev dtREGION : Nat := 0x30
abbrev dtORDER : Nat := 0x31
abbrev dtXIP : Nat := 0x32
abbrev dtLEDGER : Nat := 0x33
abbrev dtBADBLOCK : Nat := 0x34
abbrev dtTLOG : Nat := 0x35
abbrev dtMODE : Nat := 0x36

/-- Operations (Table 13-2). -/
abbrev coREAD : Nat := 1
abbrev coPROGRAM : Nat := 2
abbrev coERASE : Nat := 3
abbrev coTUNING : Nat := 4
abbrev coINFO : Nat := 5
abbrev coRELOCATE : Nat := 6

/-- A command ends: its status and detail, source CASE_CMD_DONE. -/
def State.caseEnd (s : State) (st det : Nat) : State :=
  ((({ s with die := { s.die with cmd := none } }).put CASE_CMD_RESULT_BUSY 0).put CASE_CMD_RESULT_DETAIL det).put
    CASE_CMD_RESULT_STATUS st |>.setIrq 320

/-- Bytes stored in a buffer that the command's checks allowed. -/
def State.keyWrite (s : State) (a : Nat) (bs : Bytes) : State :=
  s.bufStore a bs

/-- Whether a ring may act on a zone (Table 13-1): an image slot is written only while it does not run. -/
def State.zoneOk (s : State) (z : CaseZone) (ring : Nat) (write : Bool) : Bool :=
  if write then bitOf z.writeRings ring && !(decide (z.region = 5) && decide (s.get CASE_XIP_SLOT = 0)) &&
    !(decide (z.region = 6) && decide (s.get CASE_XIP_SLOT = 1))
  else bitOf z.readRings ring

/-- The unit of a block at which a PROGRAM may start: the next unprogrammed one, or the first of the next unprogrammed
page (R457, R461). -/
def atNext (z : CaseZone) (next page unit_ : Nat) : Bool :=
  decide (page * z.perPage + unit_ = next) ||
    (decide (unit_ = 0) && decide (page * z.perPage = ceilDiv next z.perPage * z.perPage))

/-- Whether a buffer lies where R460 allows. -/
def State.caseBufOk (s : State) (a n : Nat) : Bool := s.inGen a n || inCapo a (bufSpan a n) || inCommon a (bufSpan a n)

/-- The checks of R461 from step 2 on: the first that fails, with its status and detail. READ_TUNING names no block, page
or unit, so only its requester, length and buffer are checked (log entry 70). -/
def State.caseRefuse (s : State) (mid op : Nat) : Option (Nat × Nat) :=
  let b := s.get CASE_CMD_ADDR_BLOCK
  let page := s.get CASE_CMD_ADDR_PAGE
  let u := s.get CASE_CMD_ADDR_UNIT
  let len := s.get CASE_CMD_LEN_LEN
  let ring := mid - 0x40
  let onBlock := decide (op ≠ coTUNING)
  let changes := decide (op = coPROGRAM ∨ op = coERASE ∨ op = coRELOCATE)
  let z := (s.caseZone b).getD ⟨9, true, false, 4096, 0, 0⟩
  let buffer := decide (op = coREAD ∨ op = coPROGRAM ∨ op = coTUNING)
  if mid < 0x40 ∨ 0x43 < mid ∨ (onBlock && z.slc && decide (z.perPage ≤ u)) = true then some (stBAD_PARAM, dtFIELD)
  else if changes && decide (s.xipBlock = some b) then some (stNOT_PERMITTED, dtXIP)
  else if op = coERASE ∧ z.region = 2 then
    if s.life ≠ lcRetired then some (stNOT_PERMITTED, dtTLOG)
    else if ring ≠ 0 then some (stNOT_PERMITTED, dtREGION)
    else if 127 < page then some (stBAD_PARAM, dtMODE)
    else if len ≠ 0 then some (stBAD_LENGTH, 0)
    else none
  else if onBlock && !(s.zoneOk z ring changes) then some (stNOT_PERMITTED, dtREGION)
  else if onBlock && ((z.slc && decide (127 < page)) || (!z.slc && decide (u ≠ 0))) then some (stBAD_PARAM, dtMODE)
  else if (op = coREAD ∨ op = coTUNING) ∧ (len < 1 ∨ 4096 < len) then some (stBAD_LENGTH, 0)
  else if op = coPROGRAM ∧ (len = 0 ∨ len % z.unit_ ≠ 0 ∨ 4096 < u * z.unit_ + len) then some (stBAD_LENGTH, 0)
  else if buffer = false ∧ len ≠ 0 then some (stBAD_LENGTH, 0)
  else if op = coPROGRAM ∧ atNext z (s.blk b).next page u = false then some (stSTATE_INVALID, dtORDER)
  else if op = coRELOCATE ∧ (mid ≠ 0x40 ∨ s.ledHolds laCOMMIT = 0) then some (stNOT_PERMITTED, dtLEDGER)
  else if buffer && !(s.caseBufOk (s.addr40 CASE_CMD_BUF_LO) len) then some (stBAD_PARAM, dtWINDOW)
  else none

/-- An operation waits for its plane. -/
def State.dieQueue (s : State) (o : DieOp) : State := { s with die := { s.die with waiting := s.die.waiting ++ [o] } }

/-- The words of CASE_INFO (Table 13-14). -/
def State.blockInfo (s : State) (b : Nat) : State :=
  let x := s.blk b
  let per := ((s.caseZone b).map CaseZone.perPage).getD 1
  (((s.put (CASE_INFO_WORD 0) x.erases).put (CASE_INFO_WORD 1) x.retry).put (CASE_INFO_WORD 2)
    (Config.caseNextWord (x.next / per) (x.next % per))).put (CASE_INFO_WORD 3)
    ((if x.flagged then 1 else 0) + (if x.intent then 2 else 0))

/-- A write of CASE_CMD with GO = 1: the checks of R461, then the command. -/
def State.caseGo (s : State) (mid op : Nat) : State :=
  if s.on CASE_CMD_RESULT_BUSY then s
  else
    let b := s.get CASE_CMD_ADDR_BLOCK
    let page := s.get CASE_CMD_ADDR_PAGE
    let len := s.get CASE_CMD_LEN_LEN
    let buf := s.addr40 CASE_CMD_BUF_LO
    let s0 := (((s.put CASE_CMD_RESULT_BUSY 1).put CASE_CMD_RESULT_STEP 0).put CASE_CMD_RESULT_CORR 0).clrIrq 320
    if op = 0 ∨ 7 ≤ op then s0.caseEnd stBAD_OPCODE 0
    else
      match s0.caseRefuse mid op with
      | some r =>
        let s1 := s0.caseEnd r.1 r.2
        if r.2 = dtXIP then ((s1.setIrq 323).raiseBase SRC_CASE_XIP 0 false).settle else s1
      | none =>
        let s1 : State := { s0 with die := { s0.die with cmd := some (mid, buf) } }
        if op = coREAD then s1.dieQueue ⟨0, b, page, .read len⟩
        else if op = coPROGRAM then
          match s1.keyRead buf len with
          | (none, s2) => s2.caseEnd stABORTED dtMEMORY
          | (some bs, s2) => s2.dieQueue ⟨3, b, page, .program (s2.get CASE_CMD_ADDR_UNIT) bs⟩
        else if op = coERASE then s1.dieQueue ⟨3, b, page, .erase⟩
        else if op = coTUNING then (s1.keyWrite buf (tuningRow.take len)).caseEnd stOK 0
        else if op = coINFO then (s1.blockInfo b).caseEnd stOK 0
        else s1.dieQueue ⟨3, b, page, .relocate true⟩

/-- CASE_READ: a write of CASE_CMD with GO = 1 and OP = 1. -/
def execCaseRead (mid : Nat) (s : State) : Out := .next (s.caseGo mid coREAD)
/-- CASE_PROGRAM: OP = 2. -/
def execCaseProgram (mid : Nat) (s : State) : Out := .next (s.caseGo mid coPROGRAM)
/-- CASE_ERASE: OP = 3. -/
def execCaseErase (mid : Nat) (s : State) : Out := .next (s.caseGo mid coERASE)
/-- READ_TUNING: OP = 4. -/
def execReadTuning (mid : Nat) (s : State) : Out := .next (s.caseGo mid coTUNING)
/-- BLOCKINFO: OP = 5. -/
def execBlockinfo (mid : Nat) (s : State) : Out := .next (s.caseGo mid coINFO)
/-- RELOCATE: OP = 6. -/
def execRelocate (mid : Nat) (s : State) : Out := .next (s.caseGo mid coRELOCATE)
/-- CASE_CMD_UNASSIGNED: an OP of 0 or from 7 to 15. -/
def execCaseCmdUnassigned (mid op : Nat) (s : State) : Out :=
  if 1 ≤ op % 16 ∧ op % 16 ≤ 6 then .next s else .next (s.caseGo mid (op % 16))

/-- CASE_CMD_RESULT_READ. -/
def execCaseCmdResultRead (s : State) : Out := .next ((s.clrIrq 320).clrIrq 323)
/-- CASE_FAIL_ADDR_READ. -/
def execCaseFailAddrRead (s : State) : Out := .next (s.clrIrq 321)

/-! ## Planes (R463, R472, R475) -/

/-- Whether an operation may start: only reads and evidence writes during a Case suspension; a relocation with a spare;
one of the controller itself once the PC has left the block (R473, R475). -/
def State.dieReady (s : State) (plane : Nat) (o : DieOp) : Bool :=
  decide (o.block % 4 = plane) && (!(s.on CASE_STATUS_SUSPENDED) || decide (o.cls ≤ 1)) &&
    (match o.work with
     | .relocate cmd => !(s.die.noSpare.contains o.block) && (cmd || decide (s.xipBlock ≠ some o.block))
     | _ => true)

/-- The operation a plane takes next: of the lowest class, the one that came first. -/
def State.dieChoice (s : State) (plane : Nat) : Option DieOp :=
  (s.die.waiting.filter (s.dieReady plane)).foldl (fun best o =>
    match best with
    | none => some o
    | some p => if o.cls < p.cls then some o else some p) none

/-- The list without its first entry that equals one. -/
def dropOp (o : DieOp) : List DieOp → List DieOp
  | [] => []
  | p :: ps => if p = o then ps else p :: dropOp o ps

/-- An operation starts on its plane: an erase leaves its intent, an upper page of a shielded pair is preceded by its
shield copy, a relocation needs a spare (R462, R468, R474). -/
def State.dieStart (s : State) (plane : Nat) (o : DieOp) : State :=
  let run (t : State) : State := { t with die := { t.die with
    waiting := dropOp o t.die.waiting, running := tset t.die.running plane o } }
  match o.work with
  | .read _ => run s
  | .erase => run (s.setBlk o.block { s.blk o.block with intent := true })
  | .program _ _ =>
    match s.caseZone o.block with
    | some z =>
      if z.shield && !z.slc && decide (128 ≤ o.page) && decide (o.page - 128 < (s.blk o.block).next) then
        run (s.shieldCopy o.block (o.page - 128))
      else run s
    | none => run s
  | .relocate _ => if (s.planeSpare plane).isNone then s.blkSwap o.block false else run s

/-- The erase on a plane is suspended (R472, R475). -/
def State.eraseSuspend (s : State) (plane : Nat) : State :=
  match tget s.die.running plane with
  | some o =>
    if o.work = .erase then
      ({ s with die := { s.die with
        running := terase s.die.running plane, asleep := tset s.die.asleep plane o } }).inc CASE_ERASE_SUSP_COUNT
    else s
  | none => s

/-- CASE_PLANE_DISPATCH: a plane takes its next operation (R463). A read suspends an erase; a suspended erase resumes
when no read waits (R472). -/
def execCasePlaneDispatch (plane : Nat) (s : State) : Out :=
  if 4 ≤ plane then .next s
  else
    let c := s.dieChoice plane
    let read := c.any (fun o => decide (o.cls = 0))
    match tget s.die.running plane with
    | some r =>
      if r.work = .erase ∧ read = true then
        .next (match c with | some o => ((s.eraseSuspend plane).dieStart plane o).settle | none => s)
      else .next s
    | none =>
      match tget s.die.asleep plane with
      | some e =>
        if read then .next (match c with | some o => (s.dieStart plane o).settle | none => s)
        else if s.on CASE_STATUS_SUSPENDED then .next s
        else .next { s with die := { s.die with
          asleep := terase s.die.asleep plane, running := tset s.die.running plane e } }
      | none => .next (match c with | some o => (s.dieStart plane o).settle | none => s)

/-- What a command's read delivers: its data in the buffer with the step and the bits corrected. -/
def State.caseReadEnd (s : State) (b page len step corr : Nat) : State :=
  let s1 := ((s.readOk b step corr).put CASE_CMD_RESULT_STEP (ladderTop (s.blk b).retry step)).put
    CASE_CMD_RESULT_CORR corr
  match s1.die.cmd with
  | some c => (s1.keyWrite c.2 (s1.pageRead b page len)).caseEnd stOK 0
  | none => s1

/-- The unit of a block that follows a program. -/
def nextUnit (z : CaseZone) (page unit_ n : Nat) : Nat := page * z.perPage + unit_ + n / z.unit_

/-- The spare that a relocation used is bad: it is retired. -/
def State.spareFail (s : State) (plane : Nat) : State :=
  match s.planeSpare plane with
  | some sp => (s.putSpares (dropFirst sp s.die.spares)).inc CASE_BAD_COUNT
  | none => s

/-- Commit records that a program of the Capo leaves in META, and those that an erase there takes away (R541). -/
def State.metaWritten (s : State) (b : Nat) (bs : Bytes) : State :=
  if b < 8 then { s with lcs := { s.lcs with commits := s.lcs.commits ++ commitsOf (bs.length / 512) bs } } else s
def State.metaErased (s : State) (b : Nat) : State :=
  if b < 8 then { s with lcs := { s.lcs with commits := s.lcs.commits.filter (fun c => s.metaHolds c) } } else s

/-- The operation of a plane comes to its end. The page of a relocation that no step of the ladder reads is free
(R467). -/
def State.dieDone (s : State) (o : DieOp) (e : DieEnd) (link : Bool) : State :=
  let b := o.block
  match o.work with
  | .read len =>
    if !link then s.caseEnd stABORTED dtMEMORY
    else
      match e with
      | .ok step corr => s.caseReadEnd b o.page len (min step 7) (min corr 72)
      | _ => ((s.readBad b o.page).put CASE_CMD_RESULT_STEP 7).caseEnd stABORTED dtMEMORY
  | .program u bs =>
    if !link then s.caseEnd stABORTED dtMEMORY
    else
      match e, s.caseZone b with
      | .ok _ _, some z =>
        (((s.blkProgram b (4096 * o.page + u * z.unit_) (nextUnit z o.page u bs.length) bs).cacheDrop b).metaWritten b
          bs).caseEnd stOK 0
      | _, _ => (s.blkSwap b true).caseEnd stABORTED dtBADBLOCK
  | .erase =>
    match e with
    | .ok _ _ => (((s.blkErase b).cacheDrop b).metaErased b).caseEnd stOK 0
    | _ => ((s.blkSwap b true).cacheDrop b).caseEnd stABORTED dtBADBLOCK
  | .relocate cmd =>
    let tlog := decide (10 ≤ b ∧ b ≤ 13)
    match e with
    | .ok _ _ =>
      let s1 := (s.blkSwap b tlog).cacheDrop b
      if cmd then s1.caseEnd stOK 0 else s1.ledRelease laREFRESH
    | .failed =>
      let s1 := s.spareFail (b % 4)
      if cmd then s1.caseEnd stABORTED dtBADBLOCK else s1.dieQueue o
    | .uncorrectable =>
      let r := s.free
      let s1 := r.2.readBad b (r.1 % 256)
      if cmd then s1.caseEnd stABORTED dtMEMORY else s1.ledRelease laREFRESH

/-- CASE_DIE_OP_DONE: the operation on a plane ends; `resends` flits were sent again where data crossed the link, which
erases and relocations inside the die do not do (R462, R464, R465). -/
def execCaseDieOpDone (plane : Nat) (e : DieEnd) (resends : Nat) (s : State) : Out :=
  match tget s.die.running plane with
  | none => .next s
  | some o =>
    let s1 : State := { s with die := { s.die with running := terase s.die.running plane } }
    match o.work with
    | .erase => .next (s1.dieDone o e true).settle
    | .relocate _ => .next (s1.dieDone o e true).settle
    | _ =>
      let l := s1.dieLink resends
      .next (l.2.dieDone o e l.1).settle

/-- READ_CACHE_FILL: a miss fetches a page of the running slot, the Capo waiting `stall` cycles (R467, R472). -/
def execReadCacheFill (page : Nat) (e : DieEnd) (resends stall : Nat) (s : State) : Out :=
  if 2048 ≤ page then .next s
  else
    let b := slotBlock (s.get CASE_XIP_SLOT) + page / 256
    let erasing := (tget s.die.running (b % 4)).any (fun o => decide (o.work = .erase))
    let s1 := if erasing then s.inc CASE_ERASE_SUSP_COUNT else s
    let capo := s1.proc 32
    let s2 := (if capo.run = .running then s1.setProc 32 { capo with now := s1.procStart 32 + stall } else s1).inc64
      CASE_XIP_STALL_LO CASE_XIP_STALL_HI stall
    let l := s2.dieLink resends
    let bad (t : State) : State := { t with die := { t.die with
      badPages := page :: t.die.badPages.filter (· ≠ page), cache := t.die.cache.filter (· ≠ page) } }
    if !l.1 then .next (bad l.2).settle
    else
      match e with
      | .ok step corr =>
        let s3 := (l.2.readOk b (min step 7) (min corr 72)).cacheTouch page
        .next ({ s3 with die := { s3.die with badPages := s3.die.badPages.filter (· ≠ page) } }).settle
      | _ => .next (bad (l.2.readBad b (page % 256))).settle

/-! ## Refresh (R466) -/

/-- CASE_REFRESH: the relocation of a flagged block begins under its grant. -/
def execCaseRefresh (block : Nat) (s : State) : Out :=
  if 0 < s.ledHolds laREFRESH ∧ s.led.block = some block then
    let o : DieOp := ⟨4, block, 0, .relocate false⟩
    if (s.blk block).flagged = false then .next (s.ledRelease laREFRESH)
    else if s.die.waiting.contains o ∨ tget s.die.running (block % 4) = some o then .next s
    else .next (s.dieQueue o)
  else .next s

/-- REFRESH_AGE_FLAG: a block whose oldest page is older than DAYS days of operating time. -/
def execRefreshAgeFlag (block : Nat) (s : State) : Out :=
  let x := s.blk block
  if block < 512 ∧ x.next ≠ 0 ∧ x.flagged = false ∧
      x.since + 86400000 * s.get CASE_REFRESH_CFG_DAYS < s.time.opTime then .next (s.blkFlag block)
  else .next s

/-! ## Subregions of GENERAL (R459) -/

/-- Whether a unit is allowed for a mode (Table 13-14). -/
def genUnitOk (slc : Bool) (u : Nat) : Bool := if slc then decide (u = 5 ∨ u = 9 ∨ u = 10 ∨ u = 12) else decide (u = 12)

/-- Whether every block of a subregion is erased. -/
def State.genErased (s : State) (range : Word32) : Bool :=
  wordField range 31 31 = 0 ||
    (List.range (wordField range 8 0)).all (fun i =>
      let x := s.blk (wordField range 24 16 + i)
      decide (x.next = 0) && !x.intent)

/-- Whether the range of subregion `k` overlaps another enabled one or leaves GENERAL. -/
def State.genOverlap (s : State) (k : Nat) (range : Word32) : Bool :=
  let f := wordField range 24 16
  let n := wordField range 8 0
  wordField range 31 31 = 1 &&
    (decide (f < 208) || decide (512 < f + n) ||
      (List.range 8).any (fun j => decide (j ≠ k) && s.on (CASE_GEN_RANGE_EN j) &&
        decide (s.get (CASE_GEN_RANGE_FIRST j) < f + n) &&
        decide (f < s.get (CASE_GEN_RANGE_FIRST j) + s.get (CASE_GEN_RANGE_COUNT j))))

/-- A write of a word of CASE_GEN[k] (R459). -/
def State.caseGenWrite (s : State) (k word : Nat) (v : Word32) : State :=
  if s.slOpen then
    let old := s.rd (CASE_GEN_RANGE k)
    let range := if word = 0 then v else old
    let mode := if word = 1 then v else s.rd (CASE_GEN_MODE k)
    let unitOk := genUnitOk (decide (wordField mode 31 31 = 1)) (wordField mode 4 0)
    let needUnit := decide (word = 1) || decide (wordField range 31 31 = 1)
    if s.genOverlap k range || !(s.genErased old) || !(s.genErased range) || (needUnit && !unitOk) then
      s.raise SRC_CASE_CFG 0
    else s.regStore (CASE_GEN_RANGE k + 4 * word) v
  else s

/-- CASE_GEN_WRITE: a write of word 0 to 2 of CASE_GEN[k]. -/
def execCaseGenWrite (k word : Nat) (v : Word32) (s : State) : Out :=
  if k < 8 ∧ word < 3 then .next (s.caseGenWrite k word v) else .next s

end Sys2Proof.Machine
end

