-- ==== Sys2Proof/Machine/Ledger.lean ====
section
/-! DEFINITION. The ledger's commands, and the hardware activities that run under its grants: the table scrub, the
DRAM scrub, LMS index reservations, the periodic self-test of the Rosin array (R366, R416, R485 to R487). -/

namespace Sys2Proof.Machine

/-- A write of LEDGER_ACT[a] (Table 13-16): REQ and REL of a firmware activity by its ring. -/
def State.ledActWrite (s : State) (mid a : Nat) (v : Word32) : State :=
  if (a = laROLL ∧ mid = 0x41) ∨ (a = laCOMMIT ∧ mid = 0x40) then
    let s1 := if wordField v 31 31 = 1 then s.ledRequest a 0 else s
    if wordField v 30 30 = 1 ∧ 0 < s1.ledHolds a then s1.ledRelease a else s1
  else s

/-- LEDGER_REQUEST: a write of LEDGER_ACT[a] with REQ = 1. -/
def execLedgerRequest (mid a : Nat) (s : State) : Out := .next (s.ledActWrite mid a 0x80000000)

/-- LEDGER_RELEASE: a write of LEDGER_ACT[a] with REL = 1. -/
def execLedgerRelease (mid a : Nat) (s : State) : Out := .next (s.ledActWrite mid a 0x40000000)

/-- LEDGER_GRANT: the request that comes next is granted (R485). -/
def execLedgerGrant (s : State) : Out :=
  match s.ledNext with
  | none => .next s
  | some r => .next (s.ledGrant r)

/-- LEDGER_MAXWAIT: a request has waited longer than MAXWAIT (R487). -/
def execLedgerMaxwait (s : State) : Out :=
  match s.led.waiting.find? (fun r => !r.noted) with
  | none => .next s
  | some r =>
    let s1 := s.passTo (r.since + cyclesPerMs * s.get (LEDGER_CFG_MAXWAIT r.act))
    let s2 : State := { s1 with led := { s1.led with
      waiting := s1.led.waiting.map (fun q => if q = r then { q with noted := true } else q) } }
    .next ((s2.setIrq 326).evUnitFree 326).settle

/-- LEDGER_STATUS_READ. -/
def execLedgerStatusRead (s : State) : Out := .next ((s.clrIrq 326).clrIrq 327)

/-- The cycle at which a periodic activity is due. -/
def State.ledDue (s : State) (a : Nat) : Nat :=
  tgetD s.led.lastRun a 0 + cyclesPerSec * (s.get (LEDGER_CFG_PERIOD a) * 60)

/-- The pass of a periodic activity has begun. -/
def State.ledRan (s : State) (a : Nat) : State :=
  { s with led := { s.led with lastRun := tset s.led.lastRun a s.clock } }

/-! ## The table scrub -/

/-- Entries of the association table of which a byte is not zero in DRAM, and those of the hot cache. -/
def State.tableEntries (s : State) : List Nat :=
  ((s.mem.cells.filterMap (fun c =>
    if dramBase ≤ c.1 ∧ c.1 < dramBase + 128 * Sys2Proof.Machine.entryCount then some ((c.1 - dramBase) / 128) else none)) ++
      s.data.hot.map (fun e => e.2.entry)).eraseDups

/-- Whether an entry lies in an enabled range of LEDGER_ROLLRANGE (R486). -/
def State.inRollRange (s : State) (i : Nat) : Bool :=
  (List.range 16).any (fun k => s.on (LEDGER_ROLL_FIRST_EN k) && decide (s.get (LEDGER_ROLL_FIRST_FIRST k) ≤ i) &&
    decide (i ≤ s.get (LEDGER_ROLL_LAST_LAST k)))

/-- Whether a key position names a slot that is neither ACTIVE nor SPENT with that epoch. -/
def State.keyPosBad (s : State) (slot epoch : Nat) : Bool :=
  let p := s.peg slot
  !(decide (p.st = .active ∨ p.st = .spent) && decide (p.epoch = epoch))

/-- A change of the scrub is counted and recorded (Table 13-10). -/
def State.scrubNote (s : State) : State :=
  ({ s with led := { s.led with scrubFixes := s.led.scrubFixes + 1 } }).evUnitFree 326

/-- One entry read by the table scrub. -/
def State.scrubEntry (s : State) (i : Nat) : State :=
  let e := s.entry i
  let m := s.mix (entryKey e)
  if s.inRollRange i || !(eon e eV) then s
  else if (s.imageBad e false).isSome || (decide (m.1 ≠ i / 4) && decide (m.2.1 ≠ i / 4)) then
    (s.setEntry i (eput e eV 0)).scrubNote
  else
    let badA := eon e eAV && s.keyPosBad (eget e eSLOTA) (eget e eEPOCHA)
    let badB := eon e eBV && s.keyPosBad (eget e eSLOTB) (eget e eEPOCHB)
    let e1 := if badA then eput e eAV 0 else e
    let e2 := if badB then eput e1 eBV 0 else e1
    if badA || badB then
      let s1 := s.setEntry i e2
      let s2 := if badA then s1.scrubNote else s1
      if badB then s2.scrubNote else s2
    else s

/-- TABLE_SCRUB: every PERIOD minutes every entry is read (Table 13-10). -/
def execTableScrub (s : State) : Out :=
  let s1 := s.passTo (s.ledDue laTABLE)
  match s1.ledEnter laTABLE 0 with
  | (false, s2) => .next s2
  | (true, s2) =>
    .next (((s2.tableEntries.foldl (fun t i => t.scrubEntry i) s2).ledRan laTABLE).ledRelease laTABLE).settle

/-! ## The DRAM scrub -/

/-- A versioned page rewritten through the guard (R81). -/
def State.guardRewrite (s : State) (p : Nat) : State :=
  if s.guardTakes p then s.guardEnqueue p else s.guardWriteback.guardEnqueue p

/-- What the scrub finds on the mapped lines from an address on is reported (R79, R80): the CRC mismatches of its bursts,
the lines whose tag does not verify. -/
def State.scrubLines (s : State) (from_ : Nat) : State :=
  (s.mem.lines.filter (fun e => decide (from_ ≤ e.1) && !(s.lineVerifies e.1))).foldl (fun t e => t.dramTagFail e.1)
    (s.dramLink from_ false).2

/-- DRAM_SCRUB: every PERIOD minutes every mapped line is read and rewritten. The association table's DRAM is skipped
while TABLE_SCRUB holds a grant (R486). -/
def execDramScrub (env : FabEnv) (s : State) : Out :=
  let s1 := (s.disturb env).passTo (s.ledDue laDRAM)
  match s1.ledEnter laDRAM 0 with
  | (false, s2) => .next s2
  | (true, s2) =>
    let skip := decide (0 < s2.ledHolds laTABLE)
    let s3 := s2.scrubLines (if skip then dramBase + 65536 * 4096 else dramBase)
    let pages := if skip then (List.range 4096).map (· + 65536) else List.range 69632
    .next (((pages.foldl (fun t p => t.guardRewrite p) s3).ledRan laDRAM).ledRelease laDRAM).settle

/-! ## LMS reservations (R366) -/

/-- A job that waits for an index takes the first new one; none left ends it (R365). -/
def State.lmsResume (s : State) (slot : Nat) (n : Nat) : State :=
  match tget s.jobs.jobs n with
  | none => s
  | some j =>
    if j.waitsIndex && decide (j.words.getD 1 0 % 4096 = slot) then
      let p := s.priv slot
      if p.qn = 2 ^ lmsHeight p.pset then s.cellEnd n stINDEX_EXHAUSTED dtINDEX
      else
        let t := s.lmsTake slot
        match t.1 with
        | none => t.2
        | some q =>
          { t.2 with jobs := { t.2.jobs with
            jobs := tset t.2.jobs.jobs n { j with index := some q, waitsIndex := false } } }
    else s

/-- LMS_RESERVE: under a grant the new RH is written and takes effect; jobs that wait take their indices. -/
def execLmsReserve (slot : Nat) (s : State) : Out :=
  let p := s.priv slot
  if slot < 4096 ∧ p.st = .active ∧ p.scheme = scLMS ∧ p.reserving = true then
    match s.ledEnter laLMS 0 with
    | (false, s1) => .next s1
    | (true, s1) =>
      if s1.vaultHeld then .next s1
      else
        let rh := min (p.rh + s1.get SOUND_LMS_RES_BLOCK) (2 ^ lmsHeight p.pset)
        let s2 := (s1.setPriv slot { p with rh := rh, reserving := false }).ledRelease laLMS
        .next (((List.range 16).foldl (fun t n => t.lmsResume slot n) s2).lmsLow slot).settle
  else .next s

/-! ## The periodic self-test of the Rosin array (R416) -/

/-- The test of one bank: BIAS with the trims at the upper and at the lower limit, and R407 once; the run of R401 goes on
from that window. -/
def State.pstBank (s : State) (t : BankTest) : State :=
  if t.bank < 64 ∧ s.bankRetired t.bank = false then
    let s1 : State := { s with rosin := { s.rosin with run := terase s.rosin.run t.bank } }
    let r := s1.runOn t.bank (s.get ROSIN_RCT_CUTOFF) t.bits
    if t.up < 4096 ∨ -4096 < t.low ∨ r.1 = true ∨ startupOk (s.limitsNow wkStart) t.bits = false then
      ((r.2.put (BANK_STATUS_LASTFAIL t.bank) bfSelftest).bankRetire t.bank).minBanks rcMinbanks
    else r.2
  else s

/-- ROSIN_PST: every PERIOD seconds, once the array is READY, the banks and then the conditioners are tested; PERIOD 0
disables. `tests` holds what the banks measured (a bank without a test of its own passes; its run of R401 begins anew),
`kat` the conditioners that fail. -/
def execRosinPst (tests : List BankTest) (kat : List Nat) (s : State) : Out :=
  if s.get ROSIN_STATE_STATE = roReady ∧ s.get ROSIN_PST_PERIOD ≠ 0 then
    let s1 := s.passTo (s.rosin.pstAt + cyclesPerSec * s.get ROSIN_PST_PERIOD)
    match s1.ledEnter laPST 0 with
    | (false, s2) => .next s2
    | (true, s2) =>
      let s3 := tests.foldl (fun t x => t.pstBank x) { s2 with rosin := { s2.rosin with run := [] } }
      let s4 := (List.range 4).foldl (State.condKat · kat ·) s3
      let s5 : State := { s4 with rosin := { s4.rosin with pstAt := s4.clock } }
      .next (s5.ledRelease laPST).settle
  else .next s

end Sys2Proof.Machine
end

