-- ==== Sys2Proof/Machine/RegWrite.lean ====
section
/-! DEFINITION. A write of a control register by software: every register of the map with what its table and the
rules give its write (R11, R14, R65, R66, R75). The rows of the registers that have one call the same operations. -/

namespace Sys2Proof.Machine

/-- A refused value: the register unchanged, the configuration fault of its block raised (R14, R506). -/
def State.refuseWrite (s : State) (off : Nat) : State := s.raise (cfgSource off) 0

/-- A write of which one field's value is refused: the field keeps its value, the others are stored. -/
def State.refuseField (s : State) (f : Fld) (v : Word32) : State :=
  s.storeBut f.off v [(f, true)]

/-! ## Blocks -/

def State.timeRegWrite (s : State) (off : Nat) (v : Word32) : State :=
  if off = TIME_CTL then (s.timeCtlWrite v).settle
  else if off = TIME_SEC_LO then s.timeSecWrite false v
  else if off = TIME_SEC_HI then s.timeSecWrite true v
  else if off = TICK_RATE then s.tickRateWrite v
  else s.regStore off v

/-- TARGET, WORLD and GROUP of a source in service wait for its completion (R205). -/
def State.intcSrcWrite (s : State) (i : Nat) (v : Word32) : State :=
  if s.on (INTC_SRC_ACTIVE i) then
    let off := INTC_SRC i
    let cur := s.rd off
    let r := s.regEffect off v
    let held := tgetD s.intcHeld i cur
    let t := if r.refused then wordField held 13 8 else wordField v 13 8
    let h := wordSet (wordSet (wordSet held 13 8 t) 14 14 (wordField v 14 14)) 21 16 (wordField v 21 16)
    let w := wordSet (wordSet (wordSet r.val 13 8 (wordField cur 13 8)) 14 14 (wordField cur 14 14)) 21 16
      (wordField cur 21 16)
    let s1 := s.wr off w
    let s2 : State := { s1 with intcHeld := tset s1.intcHeld i h }
    if r.refused then s2.refuseWrite off else s2
  else s.regStore (INTC_SRC i) v

def State.intcRegWrite (s : State) (off : Nat) (v : Word32) : State :=
  if off < INTC_SRC 512 then s.intcSrcWrite ((off - INTC_SRC 0) / 4) v else s.regStore off v

def State.portRegWrite (s : State) (off : Nat) (v : Word32) : State :=
  if off < PAIR_CTL 0 then
    let n := (off - PORT_CTL 0) / 0x8000
    if off = PORT_CTL n then s.portCtlWrite n v else s.regStore off v
  else if off = PAIR_CTL 0 then s.pairCtlWrite 0 v
  else if off = PAIR_CTL 1 then s.pairCtlWrite 1 v
  else if off = PTP_DEMOTED then
    let s1 := s.regStore off v
    if s1.rd off = s.rd off then s1 else s1.setIrq 108
  else s.regStore off v

def State.assocRegWrite (s : State) (off : Nat) (v : Word32) : State :=
  if off = ASSOC_CMD then (if wordField v 31 31 = 1 then s.assocGo (wordField v 3 0) else s)
  else if off = REL_CTL then s.relCtlWrite v
  else s.regStore off v

/-- A write that would leave a whole default limit at 0 is refused (Table 6-16). -/
def State.bowRegWrite (s : State) (off : Nat) (v : Word32) : State :=
  if off < BOW_KEYWARN_LO ∧ v = 0 ∧ s.rd (if off % 8 = 0 then off + 4 else off - 4) = 0 then s.refuseWrite off
  else s.regStore off v

def State.feRegWrite (s : State) (off : Nat) (v : Word32) : State :=
  let n := (off - FE_CTL 0) / 0x8000
  let r := (off - FE_CTL 0) % 0x8000
  if r = 0 then s.feCtlWrite n v else if feGuarded r then s.feConfigWrite off v else s.regStore off v

def State.queueRegWrite (s : State) (off : Nat) (v : Word32) : State :=
  let q := (off - QUEUE_BASE_LO 0) / 0x40
  let r := (off - QUEUE_BASE_LO 0) % 0x40
  if r < 8 then s.queueBaseWrite q off v else if r = 8 then s.queueCfgWrite q v else s.regStore off v

def State.qgRegWrite (s : State) (off : Nat) (v : Word32) : State :=
  if off % 0x40 = 0 then (s.regStore off v).gateChange else s.regStore off v

def State.bridgeRegWrite (s : State) (off : Nat) (v : Word32) : State :=
  if off = BRIDGE_GATE then (s.regStore off v).gateChange
  else if FN_QG 0 ≤ off ∧ off < FN_QG 64 ∧ off % 0x20 < 8 then s.fnSplitWrite ((off - FN_QG 0) / 0x20) (decide (off % 0x20 = 4)) v
  else if MSIX_ADDR_LO 0 ≤ off ∧ off < MSIX_PBA 0 ∧ off % 16 = 12 then
    let s1 := s.regStore off v
    if wordField v 0 0 = 0 then s1.unmask ((off - MSIX_ADDR_LO 0) / 16) else s1
  else s.regStore off v

/-- A register of a ring's set (R330, R334, R339, R340, R342), at its offset in the set. -/
def State.ringRegWrite (s : State) (mid r o : Nat) (v : Word32) : State :=
  if ringGuarded o then s.ringCfgWrite mid r o v
  else if o = 0x24 then s.prodWrite mid r v.toNat
  else if o = 0x2C then (s.regStore (ringBase r + o) v).ringLine r
  else if o = 0x3C then (if wordField v 31 31 = 1 ∧ s.on (rgEN r) = true then s.ringAbort r else s)
  else s.regStore (ringBase r + o) v

/-- SOUND_LMS_RES: LOW lies in 1 to BLOCK (Table 9-15). -/
def State.lmsResWrite (s : State) (v : Word32) : State :=
  let low := wordField v 31 16
  let blk := s.accepted SOUND_LMS_RES_BLOCK v
  s.storeBut SOUND_LMS_RES v [(SOUND_LMS_RES_LOW, decide (low < 1 ∨ blk < low))]

def State.soundRegWrite (s : State) (mid off : Nat) (v : Word32) : State :=
  if JR_BASE_LO 0 ≤ off then s.ringRegWrite mid ((off - JR_BASE_LO 0) / 0x40) ((off - JR_BASE_LO 0) % 0x40) v
  else if off = SOUND_LMS_RES then s.lmsResWrite v
  else if CELL_CTL 0 ≤ off ∧ off % 0x40 = 0 then s.cellCtlWrite ((off - CELL_CTL 0) / 0x40) v
  else s.regStore off v

def State.verifyRegWrite (s : State) (mid off : Nat) (v : Word32) : State :=
  if off < VE_OWNER 0 then s.regStore off v
  else
    let e := (off - VE_OWNER 0) / 0x100
    let o := (off - VE_OWNER 0) % 0x100
    if o = 0 ∨ (0x28 ≤ o ∧ o ≤ 0x34) then s.veOwnerWrite mid e o v
    else if o = 0x04 then s.veWrite e mid v
    else if o = 0x3C then s.veAbortWrite e mid v
    else if o = 0x08 ∨ (0x10 ≤ o ∧ o ≤ 0x24) ∨ o = 0x40 then s.veRegWrite mid e o v
    else if o = 0x0C then
      let s1 := s.regStore off (if mid = s.get (VE_OWNER_MID e) then v else wordSet v 31 31 0)
      s1.irq (256 + e) (s1.on (VE_STATUS_DONE e))
    else s.regStore off v

def State.digestRegWrite (s : State) (mid off : Nat) (v : Word32) : State :=
  if DR_BASE_LO 0 ≤ off then
    s.ringRegWrite mid (1024 + (off - DR_BASE_LO 0) / 0x40) ((off - DR_BASE_LO 0) % 0x40) v
  else s.regStore off v

def State.rosinRegWrite (s : State) (mid off : Nat) (v : Word32) : State :=
  if off = ROSIN_PULL_CTL then (if wordField v 31 31 = 1 then s.pullGo mid else s)
  else if off = ROSIN_RCT ∨ off = ROSIN_APT ∨ off = ROSIN_BIASMAX ∨ off = ROSIN_CORRMAX ∨ off = ROSIN_STARTMAX then
    s.limitsHold.regStore off v
  else s.regStore off v

/-- The KEY block. The card's answer to a ceremony step that no CER_STEP row brings is a free value. -/
def State.keyRegWrite (s : State) (mid off : Nat) (v : Word32) : State :=
  if off = KEY_CMD then (if wordField v 31 31 = 1 then s.keyGo mid (wordField v 3 0) else s)
  else if off = CER_CTL then s.cerCtlWrite mid v
  else if off = CER_STEP then
    if wordField v 31 31 = 1 then
      ({ s with freeCtr := s.freeCtr + 1 }).cerStep mid (wordField v 3 0) (Config.cardAnswer s.freeCtr)
    else s
  else s.regStore off v

def State.caseRegWrite (s : State) (mid off : Nat) (v : Word32) : State :=
  if off = CASE_CMD then (if wordField v 31 31 = 1 then s.caseGo mid (wordField v 3 0) else s)
  else if CASE_GEN_RANGE 0 ≤ off ∧ off < CASE_GEN_RANGE 8 then
    s.caseGenWrite ((off - CASE_GEN_RANGE 0) / 0x10) (off % 0x10 / 4) v
  else s.regStore off v

def State.evrecRegWrite (s : State) (mid off : Nat) (v : Word32) : State :=
  if off = EVREC_CTL then s.evCtlWrite v
  else if off = EVREC_CLEAR then s.evClearWrite mid v
  else if off = EVREC_PUT_CTL then s.evPutWrite mid v
  else s.regStore off v

/-- The LEDGER block: a LAST of LEDGER_ROLLRANGE below its FIRST is refused (Table 13-16). -/
def State.ledgerRegWrite (s : State) (mid off : Nat) (v : Word32) : State :=
  if LEDGER_ROLL_FIRST 0 ≤ off then
    if off % 8 = 4 ∧ wordField v 20 0 < wordField (s.rd (off - 4)) 20 0 then s.refuseWrite off else s.regStore off v
  else if LEDGER_ACT 0 ≤ off ∧ off % 0x10 = 0 then s.ledActWrite mid ((off - LEDGER_ACT 0) / 0x10) v
  else s.regStore off v

/-- The TAMPER block: COUNT of q = 8, 9 and 10 reads 1 and ignores writes (Table 14-11); a loop's sequence begins anew
where its CFG or SEED is written. -/
def State.tamperRegWrite (s : State) (mid off : Nat) (v : Word32) : State :=
  if off = TAMPER_STICKY_CLR then s.stickyClr mid v
  else if off = TAMPER_STATUS then
    let s1 := s.regStore off v
    s1.irq 66 (s1.on TAMPER_STATUS_EVENT)
  else if TSRC_CFG 0 ≤ off then
    let q := (off - TSRC_CFG 0) / 0x20
    if off = TSRC_FORCE q then s.forceWrite q v
    else if off = TSRC_CFG q ∧ 8 ≤ q ∧ q ≤ 10 then
      s.regStore off (wordSet v (TSRC_CFG_COUNT q).hi (TSRC_CFG_COUNT q).lo (s.get (TSRC_CFG_COUNT q)))
    else if q < 8 ∧ (off = TSRC_CFG q ∨ off = TSRC_SEED q) then
      let s1 := s.regStore off v
      if s.slOpen then { s1 with tamp := { s1.tamp with loopAt := tset s1.tamp.loopAt q s1.clock } } else s1
    else s.regStore off v
  else s.regStore off v

/-- The actions every source of a class has (R504). -/
def classMinimum (c : Nat) : Nat := if c = 2 then 3 else if c = 3 then 0x11 else 1

/-- The FAULT block: FORCEFULL takes writes as R513 allows; bits of the class minimum read 1 (R504). -/
def State.faultRegWrite (s : State) (mid off : Nat) (v : Word32) : State :=
  if off = FAULT_CTL then
    let open_ := decide (s.life = lcBlank ∨ s.life = lcProvisioned ∨ s.life = lcDebug)
    s.regStore off (if open_ then v else wordSet v 30 30 0)
  else if off = FAULT_NCTL then s.nctlWrite mid v
  else if off = FAULT_PEND then
    let s1 := s.regStore off v
    (List.range 5).foldl (fun t i => if bitOf (s1.rd FAULT_PEND).toNat i then t else t.clrIrq i) s1
  else if FAULT_SRC 0 ≤ off ∧ off < FAULT_SRC 320 then
    let i := (off - FAULT_SRC 0) / 4
    s.regStore off (v ||| BitVec.ofNat 32 (classMinimum (s.get (FAULT_SRC_CLASS i))))
  else if FAULT_FORCE 0 ≤ off then s.faultForce ((off - FAULT_FORCE 0) / 4) v
  else s.regStore off v

/-- The WDOG block (Table 14-15): TIMEOUT from ring 0 only; EN of the Capo watchdog stays 1 once set. -/
def State.wdogRegWrite (s : State) (mid off : Nat) (v : Word32) : State :=
  let ring0 (f : Fld) : Word32 := if mid = 0x40 then v else wordSet v f.hi f.lo (s.get f)
  if off = WDOG_CAPO_CTL then
    let en := s.on WDOG_CAPO_CTL_EN
    let s1 := s.regStore off (if en then wordSet (ring0 WDOG_CAPO_CTL_TIMEOUT) 31 31 1 else ring0 WDOG_CAPO_CTL_TIMEOUT)
    if !en && s1.on WDOG_CAPO_CTL_EN then { s1 with wdog := { s1.wdog with capoAt := s1.clock } }
    else s1
  else if off = WDOG_CAPO_KICK then s.capoKick mid (wordField v 15 0)
  else if off = WDOG_MOD_CTL then s.regStore off (ring0 WDOG_MOD_CTL_TIMEOUT)
  else if off = WDOG_MOD_KICK then s.modKick mid (wordField v 15 0)
  else if off = WDOG_FE_HELD then
    let s1 := s.regStore off v
    s1.irq 69 (decide (s1.get WDOG_FE_HELD_MASK ≠ 0))
  else s.regStore off v

/-- The PWR block: a vector that function 0 does not have is refused (Table 15-13). -/
def State.pwrRegWrite (s : State) (mid off : Nat) (v : Word32) : State :=
  if off = PWR_CTL then s.pwrCtlWrite mid v
  else if off = PWR_NOTIFY ∧ s.get (FN_VEC_VEC_COUNT 0) ≤ wordField v 10 0 then s.refuseField PWR_NOTIFY_VEC v
  else s.regStore off v

/-- The LIFE block with the CAPO set (Tables 5-12, 15-14). What META holds for a PROVISION that no row of its own
brings is a free value. -/
def State.lifeRegWrite (s : State) (mid off : Nat) (v : Word32) : State :=
  if off = LIFE_CMD then
    if wordField v 31 31 = 1 then
      let c := s.freeB 4096
      let h := c.2.freeB 32
      let n := h.2.free
      let a := n.2.freeB 2592
      let d := a.2.freeB 4513
      d.2.lifeGo mid ⟨wordField v 3 0, ⟨c.1, [(h.1, n.1 % 2)], [a.1], d.1⟩⟩
    else s
  else if CAPO_FWIN 0 ≤ off ∧ off < CAPO_FWIN 4 then
    if 0x40 + (off - CAPO_FWIN 0) / 4 < mid ∧ mid ≤ 0x43 then s else s.regStore off v
  else if off = CAPO_GATES then (if mid = 0x40 then s.regStore off v else s)
  else s.regStore off v

/-- PICK_CTL: RDR_EN starts and stops the reader, TAG_EN stops the tag (R559, R562). -/
def State.pickCtlWrite (s : State) (v : Word32) : State :=
  let s1 := s.regStore PICK_CTL v
  let s2 :=
    if s.on PICK_CTL_RDR_EN && !(s1.on PICK_CTL_RDR_EN) then
      let t := if s1.pick.sess.any (fun x => x.reader) then s1.pickEnd stABORTED else s1
      t.readerOff
    else if s1.pickOn then s1.readerBack else s1
  if s.on PICK_CTL_TAG_EN && !(s2.on PICK_CTL_TAG_EN) then
    let t := if s2.pick.sess.any (fun x => !x.reader) then s2.pickEnd stABORTED else s2
    let t1 := t.tagGo tgIDLE []
    if t1.get PICK_STATUS_MODE = 4 then t1.put PICK_STATUS_MODE (if t1.pickOn && t1.on PICK_CTL_RDR_EN then 1 else 0)
    else t1
  else if !(s.on PICK_CTL_TAG_EN) && s2.tagRuns && s2.on PICK_STATUS_FIELD then s2.put PICK_STATUS_MODE 4
  else s2

/-- The PICK block: slots of PICK_SESS that would overlap CARD_SESS are refused (R585). -/
def State.pickRegWrite (s : State) (off : Nat) (v : Word32) : State :=
  if off = PICK_CTL then s.pickCtlWrite v
  else if off = PICK_SESS then
    let n := wordField v 17 0
    let c := s.get CARD_SESS_SLOT
    let s1 := s.storeBut off v [(PICK_SESS_SLOT, decide (n ≤ c ∧ c ≤ n + 2))]
    let s2 := if wordField v 30 30 = 1 then s1.sessAbortWrite else s1
    if wordField v 31 31 = 1 then s2.sessGo else s2
  else s.regStore off v

/-- The CARD block. -/
def State.cardRegWrite (s : State) (mid off : Nat) (v : Word32) : State :=
  if off = CARD_CTL then
    let s1 := s.regStore off v
    let en := s1.on CARD_CTL_EN
    if s.on CARD_CTL_EN = en then s1
    else if en then (if s1.cardOn && s1.on CARD_STATUS_PRESENT then s1.cardActivate else s1)
    else s1.cardOff
  else if off = CARD_XFER then (if wordField v 31 31 = 1 then s.cardXfer mid (decide (wordField v 30 30 = 1)) none else s)
  else if off = CARD_SESS then
    let n := s.get PICK_SESS_SLOT
    let c := wordField v 17 0
    s.storeBut off v [(CARD_SESS_SLOT, decide (n ≤ c ∧ c ≤ n + 2))]
  else s.regStore off v

/-! ## The whole map -/

/-- TOP_UNMAPPED and TOP_NARROWWR (R65, R66). -/
def State.unmappedAccess (s : State) : State := { s with topUnmapped := satAt (2 ^ 32 - 1) (s.topUnmapped + 1) }
def State.narrowWrite (s : State) : State := { s with topNarrow := satAt (2 ^ 32 - 1) (s.topNarrow + 1) }

/-- A 32-bit write of the register at a BAR0 offset by a master. -/
def State.regWrite (s : State) (mid off : Nat) (v : Word32) : State :=
  match regDescAt off with
  | none => s.unmappedAccess
  | some _ =>
    if off < 0x20000 then s.timeRegWrite off v
    else if off < 0x30000 then (if off = NUT_COMMIT then s.nutCommitWrite v else s.regStore off v)
    else if off < 0x60000 then s.regStore off v
    else if off < 0x80000 then s.intcRegWrite off v
    else if off < 0xC0000 then s.portRegWrite off v
    else if off < 0x100000 then (if off = CLASS_KDCQ then (s.regStore off v).kdcLine else s.regStore off v)
    else if off < 0x200000 then s.assocRegWrite off v
    else if off < 0x300000 then s.bowRegWrite off v
    else if off < 0x400000 then s.feRegWrite off v
    else if off < 0x800000 then s.queueRegWrite off v
    else if off < 0x1000000 then s.qgRegWrite off v
    else if off < 0x1100000 then s.bridgeRegWrite off v
    else if off < 0x1300000 then s.soundRegWrite mid off v
    else if off < 0x1340000 then s.verifyRegWrite mid off v
    else if off < 0x1380000 then s.digestRegWrite mid off v
    else if off < 0x13C0000 then s.rosinRegWrite mid off v
    else if off < 0x1400000 then s.keyRegWrite mid off v
    else if off < 0x1500000 then s.caseRegWrite mid off v
    else if off < 0x1540000 then s.evrecRegWrite mid off v
    else if off < 0x1550000 then s.ledgerRegWrite mid off v
    else if off < 0x1560000 then s.tamperRegWrite mid off v
    else if off < 0x15A0000 then s.faultRegWrite mid off v
    else if off < 0x15B0000 then s.wdogRegWrite mid off v
    else if off < 0x15C0000 then s.pwrRegWrite mid off v
    else if off < 0x15D0000 then s.lifeRegWrite mid off v
    else if off < 0x15E0000 then s.regStore off v
    else if off < 0x15F0000 then s.pickRegWrite off v
    else s.cardRegWrite mid off v

/-- Whether a register access of a host function reaches its block: until STAGE is RUNNING only TOP and LIFE
(R539). -/
def State.hostReaches (s : State) (mid off : Nat) : Bool :=
  decide (mid < 0x80) || decide (s.get LIFE_BOOT_STAGE = stRUNNING) || decide (off < 0x10000) ||
    decide (0x15C0000 ≤ off ∧ off < 0x15D0000)

/-- A 32-bit write that has reached the register window. -/
def State.regAccessWrite (s : State) (mid off : Nat) (v : Word32) : State :=
  if s.hostReaches mid off then s.regWrite mid off v else s.unmappedAccess

/-- A write of any width at an aligned offset (R65): narrow ones are discarded, a 64-bit one is two writes. A narrow write
to an offset that names no register counts in TOP_NARROWWR alone (log entry 111). -/
def State.regWidthWrite (s : State) (mid off : Nat) (w : Width) (v : Nat) : State :=
  match w with
  | .w8 => s.narrowWrite
  | .w16 => s.narrowWrite
  | .w32 => s.regAccessWrite mid off (BitVec.ofNat 32 v)
  | .w64 => (s.regAccessWrite mid off (BitVec.ofNat 32 v)).regAccessWrite mid (off + 4) (BitVec.ofNat 32 (v / 2 ^ 32))

/-- REGISTER_WRITE: a write that has reached the register window, at an offset aligned to 32 bits. -/
def execRegisterWrite (mid off : Nat) (w : Width) (v : Nat) (s : State) : Out :=
  if s.logicUp then .next (s.regWidthWrite mid (off % 0x4000000 / 4 * 4) w v) else .next s

end Sys2Proof.Machine
end

