-- ==== Sys2Proof/Machine/Boot.lean ====
section
/-! DEFINITION. The boot: what the Case controller, the boot ROM and the first stage do after a cold boot or a module
reset, as one step (R52, R69, R77, R108, R469, R470, R474, R500, R502, R515, R519 to R521, R537 to R546). -/

namespace Sys2Proof.Machine

/-! ## The Case controller (R469, R470, R474, R500) -/

/-- The lower page that the newest shield copy names is restored from it: its block is relocated and the interrupted upper
page counts as never programmed. -/
def State.shieldFix (s : State) : State :=
  match s.die.shield with
  | none => s
  | some (b, j, data) =>
    let x := s.blk b
    if j < x.next then
      let s1 : State := { s with die := { s.die with cells := dieCells s.die.cells (dieAddr b (4096 * j)) data } }
      ((s1.setBlk b { x with next := min x.next (128 + j) }).blkSwap b false).inc CASE_SHIELDFIX_COUNT
    else s

/-- The held tamper entries are programmed in order. -/
def State.evidDrain (s : State) : State :=
  s.tamp.evid.foldl (fun t e => t.logProgram e)
    (({ s with tamp := { s.tamp with evid := [] } }).put TAMPER_EVIDBUF_FILL 0)

/-- Every block that has an erase intent without a completion is erased again. -/
def State.intentErase (s : State) : State :=
  s.die.blocks.foldl (fun t e => if (t.blk e.1).intent then t.blkErase e.1 else t) s

/-- Every flagged block asks for its refresh again. -/
def State.refreshAsk (s : State) : State :=
  s.die.blocks.foldl (fun t e => if (t.blk e.1).flagged then t.ledRequest laREFRESH e.1 else t) s

/-- The Case controller at boot: tuning row, shield check, held entries, intents, in this order; then the sticky flags are
the always-on copy with the mirror (R502). -/
def State.caseBoot (s : State) (env : BootEnv) : State :=
  let s1 := (s.put CASE_STATUS_SUSPENDED 0).putB CASE_STATUS_TUNING_OK env.tuningOk
  let s2 := if env.tuningOk then s1 else s1.raiseBase SRC_CASE_TUNING 0 false
  let s3 := if env.shieldBad then s2.shieldFix else s2
  let s4 := s3.evidDrain.intentErase.settle
  s4.putSticky (s4.sticky ||| s4.tamp.mirror)

/-- The recorder at boot: NEWEST and OLDEST are those of the ring (Table 13-9). -/
def State.recorderBoot (s : State) : State :=
  match s.ringNewest with
  | some q => (s.put EVREC_NEWEST_SEQ q).putOldest
  | none => s

/-! ## Images (R540 to R542) -/

/-- Whether the slot of a commit record passes R540. -/
def State.commitOk (s : State) (c : Commit) : Bool :=
  s.imageSigned c.slot && decide (s.get LIFE_MINVER_VER ≤ (s.imageOf c.slot).1) &&
    decide ((s.imageOf c.slot).2.2 = c.length) && decide (s.imageDigest c.slot = c.digest)

/-- A committed slot is given up: its REVOKE is written, BOOT_FALLBACK raised (R541, R542). -/
def State.bootRevoke (s : State) (c : Commit) : State :=
  (((s.commitPut { c with kind := ckREVOKE }).put LIFE_BOOT_TRIES 0).put LIFE_BOOT_FALLBACK 1).raise SRC_BOOT_FALLBACK 0

/-- A committed slot is started. -/
def State.bootStart (s : State) (c : Commit) (trial : Bool) : State :=
  let s1 : State := { s with lcs := { s.lcs with running := some c.seq } }
  let s2 := (((s1.put LIFE_BOOT_SLOT c.slot).putB LIFE_BOOT_TRIAL trial).put LIFE_VERSION_VER (s.imageOf c.slot).1).put
    CASE_XIP_SLOT c.slot
  s2.irq 85 trial

/-- The boot ROM tries the committed slots, the newest first. -/
def State.bootSlots (s : State) : List Commit → State
  | [] => s
  | c :: cs =>
    let trial := !(s.commitHas ckCONFIRM c.seq)
    if trial && decide (3 ≤ s.get LIFE_BOOT_TRIES) then (s.bootRevoke c).bootSlots cs
    else
      let s1 := if trial then s.inc LIFE_BOOT_TRIES else s
      if s1.commitOk c then s1.bootStart c trial else (s1.bootRevoke c).bootSlots cs

/-- The COMMIT records without a REVOKE, the newest first. -/
def State.bootList (s : State) : List Commit :=
  (s.lcs.commits.filter (fun c => decide (c.kind = ckCOMMIT) && !(s.commitHas ckREVOKE c.seq))).reverse

/-! ## The preset (R545, R546) -/

/-- An entry of the preset image is written by Capo ring 0; one whose offset names no register or whose value is refused
is counted and BOOT_PRESET raised. -/
def State.presetEntry (s : State) (off : Nat) (v : Word32) : State :=
  let bad (t : State) : State := (t.inc LIFE_PRESET_REJECTED).raise SRC_BOOT_PRESET 0
  if (regDescAt off).isNone then bad s
  else
    let f := FAULT_SRC_RAISED (cfgSource off)
    let n := s.get f
    let t := (s.put f 0).regWrite 0x40 off v
    let u := t.put f (satAt 255 (n + t.get f))
    if t.get f = 0 then u.inc LIFE_PRESET_APPLIED else bad u

/-- The entries in order. -/
def State.presetEntries (s : State) : Nat → Bytes → State
  | 0, _ => s
  | n + 1, b =>
    (s.presetEntry (bytesToNat (b.take 4)) (BitVec.ofNat 32 (bytesToNat ((b.drop 4).take 4)))).presetEntries n (b.drop 8)

/-- The preset image is applied; a CRC failure applies no entry. The module watchdog takes its timeout (R519). -/
def State.presetApply (s : State) : State :=
  if presetOk s.lcs.preset then
    let on (t : State) (b : Bool) : State := { t with lcs := { t.lcs with applying := b } }
    let s1 := on ((on (s.put LIFE_PRESET_VALID 1) true).presetEntries (presetCount s.lcs.preset) (s.lcs.preset.drop 16)) false
    { s1 with wdog := { s1.wdog with modTimeout := s1.get WDOG_MOD_CTL_TIMEOUT } }
  else s

/-! ## Measurements (R544) -/

/-- The measurements of Table 15-7 by index. -/
def State.measures (s : State) : List Bytes :=
  let img := s.slotImage (s.get LIFE_BOOT_SLOT)
  let sha (i : Nat) (b : Bytes) : Bytes := Config.crypto cyMeasure [natToBytes 1 i, b] 48
  [sha 1 [], sha 2 img, sha 3 img, sha 4 img, sha 5 s.lcs.preset,
    sha 6 (natToBytes 4 (s.rd LIFE_STATE).toNat ++ natToBytes 4 (s.rd LIFE_DBGOPENS).toNat ++
      natToBytes 4 (s.get FAULT_CTL_FORCEFULL)), sha 7 []]

/-- One entry of the attestation window: index, size, value. -/
def measureEntry (i : Nat) (v : Bytes) : Bytes := natToBytes 4 i ++ natToBytes 4 v.length ++ v

/-- The measurements put into the window from index `i` on. -/
def State.measurePut (s : State) (i : Nat) : List Bytes → State
  | [] => s
  | v :: vs => (s.poke (attestBase + 0x40 + 64 * (i - 1)) (measureEntry i v)).measurePut (i + 1) vs

/-- The attestation window: the measurements and the certificate chain. -/
def State.attest (s : State) : State :=
  let m := s.measures
  let s1 : State := { s with lcs := { s.lcs with measured := m } }
  let s2 := (s1.poke attestBase (natToBytes 4 m.length)).measurePut 1 m
  (s2.poke (attestBase + 0x1000) (natToBytes 4 s.lcs.prov.chain.length)).poke (attestBase + 0x1004) s.lcs.prov.chain

/-! ## The boot -/

/-- The rest of the boot: with a slot accepted STAGE is RUNNING and the Capo executes its firmware, at an entry the spec
does not give; with none the module stays in the boot ROM and drives FAULT_N (R541). `hold` keeps FAULT_N low for
RELEASE (R515). -/
def State.bootEnd (s : State) (hold : Bool) : State :=
  if s.lcs.running.isSome then
    let r := s.free
    let s1 := (r.2.setProc 32 { r.2.proc 32 with pc := a24 r.1 }).put LIFE_BOOT_STAGE 3
    if hold || s1.flt.pulseEnd.isSome then s1 else s1.faultRelease
  else
    let s1 := s.put FAULT_NCTL_ASSERTED 1
    { s1 with flt := { s1.flt with bootHold := true }, lcs := { s1.lcs with bootFailed := true } }

/-- The boot of a module whose logic has been reset, up to its wait for the keys: the conditioners are tested, the array
starts up and KEYLOAD asks for the per-boot keys (R69, R406, R408, R416); Debug-opened has ended; STAGE is ROM. -/
def State.boot (s : State) (hold : Bool) (env : BootEnv) : State :=
  let s1 : State := { s with
    pstate := .p0
    resetPend := none
    rosin := { s.rosin with keyload := bootKeyNames }
    pwr := { s.pwr with restoreAt := s.clock, coldWaits := false, bootWait := some (hold, env) }
    wdog := { s.wdog with capoAt := s.clock, modAt := s.clock } }
  let s2 := ((List.range 4).foldl (State.condKat · env.condFails ·) s1).rosinPut roStartup
  let s3 := (s2.rosinRestart.minBanks rcCond).visitsSeen.mirrorSeen
  let s4 := (((s3.put LIFE_BOOT_STAGE 0).put LIFE_BOOT_SLOT 0).put LIFE_BOOT_TRIAL 0).put LIFE_BOOT_FALLBACK 0
  (if s4.life = lcDebug then s4.debugClose else s4).settle

/-- The boot goes on once its keys are loaded (R538): DRAM initialisation begins (R77), the Case controller comes up, the
preset is applied, a slot is chosen, the window of R544 filled. -/
def State.bootGo (s : State) (hold : Bool) (env : BootEnv) : State :=
  let s1 := { s with pwr := { s.pwr with bootWait := none } }.dramInitStart
  let s2 := (s1.recorderBoot.caseBoot env).presetApply
  ((s2.bootSlots s2.bootList).attest.refreshAsk).bootEnd hold

/-- A boot whose last key has been drawn goes on. -/
def State.bootReady (s : State) : State :=
  match s.pwr.bootWait with
  | none => s
  | some (hold, env) => if s.rosin.keyload = [] then s.bootGo hold env else s

/-- ENTROPY_GRANT: 64 bytes to a port that waits (R413); a boot goes on with the last of its keys. -/
def execEntropyGrant (p : Nat) (s : State) : Out := .next (s.entropyGrant p).bootReady

/-- A cold boot: the power cycle is counted (R52); WAKESRC names the input, or COLD at the first power of the module's
life. -/
def State.coldBoot (s : State) (env : BootEnv) : State :=
  let s1 := s.rebuild aonReg
  let s2 := (((s1.inc PWRCYC_COUNT).put PWR_WAKESRC_SRC (if s.pstate = .p3 then 1 else 0)).put PWR_INPUT_MV
    (s.get PWR_INPUT_MV)).put PWR_BANK_MV (s.get PWR_BANK_MV)
  ((s2.put WDOG_MOD_STATUS_LASTEXP 0).put WDOG_MOD_STATUS_EXPIRIES 0).boot false env

/-- Whether input power enters: in P3 Watch, or for the first time. -/
def State.powerEnters (s : State) : Bool :=
  decide (s.pstate = .p3) || (decide (s.get PWRCYC_COUNT = 0) && decide (s.get ROSIN_STATE_STATE = roOff))

/-- COLD_BOOT: the input has been at 35.5 V or above for 10 ms; while RST_N is low the boot waits (Table 17-10). -/
def execColdBoot (input bank : Nat) (env : BootEnv) (s : State) : Out :=
  if s.powerEnters = true ∧ 35500 ≤ input then
    let s1 := (s.pass (10 * cyclesPerMs)).put PWR_INPUT_MV input |>.put PWR_BANK_MV bank
    if s.pwr.rstLow then .next { s1 with pwr := { s1.pwr with coldWaits := true } } else .next (s1.coldBoot env)
  else .next s

/-- RST_N_RISE: a cold boot that waited for the pin goes on; a module reset that it held may be performed. -/
def execRstNRise (env : BootEnv) (s : State) : Out :=
  let s1 : State := { s with pwr := { s.pwr with rstLow := false } }
  if s1.pwr.coldWaits then .next (s1.coldBoot env) else .next s1

/-! ## Module reset (R505, R509, R515, R520, R537) -/

/-- PWR_WAKESRC.CAUSE of a module reset (Table 15-13). -/
def ResetCause.code : ResetCause → Nat
  | .tamper => 0
  | .fault => 1
  | .wdog => 2
  | .rstN => 3
  | .software => 4
  | .wakeFail => 5
  | .restore => 6

/-- Whether FAULT_N stays low after the boot until RELEASE: a reset by the collector or the module watchdog (R515). -/
def ResetCause.holds : ResetCause → Bool
  | .fault => true
  | .wdog => true
  | .wakeFail => true
  | _ => false

/-- What is completed before the reset: the fault's record is closed and flushed (R505, R509), a flush after a dip
(R535), the programs that run when the module watchdog expires (R520). -/
def State.beforeReset (s : State) (c : ResetCause) : State :=
  let flush (t : State) : State := if t.ev.buf.isEmpty then t else t.flushEnd t.ev.buf.length
  match c with
  | .fault => flush (s.faultClose 3).settle
  | .restore => flush s
  | .wdog =>
    let s1 := s.die.running.foldl (fun t e => t.opWhole e.2) s
    { s1 with die := { s1.die with running := [] } }
  | _ => s

/-- After the boot the collector makes the record of WDOG_MODULE from its latch (R520). -/
def State.wdogRecord (s : State) : State :=
  (s.inc (FAULT_SRC_RAISED SRC_WDOG_MODULE)).openOrMerge SRC_WDOG_MODULE 0 false (faultClass SRC_WDOG_MODULE)
    (s.get (FAULT_SRC_ACTION SRC_WDOG_MODULE))

/-- A module reset with its boot. -/
def State.moduleReset (s : State) (c : ResetCause) (env : BootEnv) : State :=
  let s0 := s.settle.beforeReset c
  let s1 := s0.rebuild (fun o => aonReg o || coldCount o)
  let s2 := ((s1.put PWR_WAKESRC_SRC (if c = .tamper then 7 else 8)).put PWR_WAKESRC_CAUSE c.code).put PWR_INPUT_MV
    (s.get PWR_INPUT_MV) |>.put PWR_BANK_MV (s.get PWR_BANK_MV)
  let s3 : State := { s2 with flt := { s2.flt with pulseEnd := if c.holds then s.flt.pulseEnd else none } }
  let s4 := ((s3.putB FAULT_NCTL_ASSERTED true).putB WDOG_MOD_STATUS_LASTEXP (decide (c = .wdog))).boot c.holds env
  if c = .wdog then s4.wdogRecord else s4

/-- MODULE_RESET: the reset that has been asked for; it is held while RST_N is low, and at 32 V. -/
def execModuleReset (env : BootEnv) (s : State) : Out :=
  match s.resetPend with
  | none => .next s
  | some c => if s.pwr.rstLow || s.pwr.resetHeld || decide (s.pstate = .p3) then .next s else .next (s.moduleReset c env)

end Sys2Proof.Machine
end

