-- ==== Sys2Proof/Machine/RegRead.lean ====
section
/-! DEFINITION. A read of a control register: the value a register shows, the latch of 64-bit counters, the compare of
dual-stored registers, and the interrupt requests that a read ends (R11, R65 to R67, R74, R75). -/

namespace Sys2Proof.Machine

/-! ## What a register shows -/

/-- Milliseconds left of a watchdog's time. -/
def msLeft (timeout since now : Nat) : Nat := timeout - (now - since) / cyclesPerMs

def RunState.code : RunState → Nat
  | .running => 0
  | .wait => 1
  | .parked => 2
  | .held => 3
  | .stopped => 2

/-- A register whose value the hardware forms when it is read (Tables 1-9, 2-16, 5-11, 5-13, 7-13, 10-12, 14-15, 15-14, R470);
otherwise the stored value. -/
def State.regView (s : State) (off : Nat) : Word32 :=
  let w := s.rd off
  let n (v : Nat) : Word32 := BitVec.ofNat 32 v
  if off = TIME_SEC_LO then n s.taiSec
  else if off = TIME_SEC_HI then n (s.taiSec / 2 ^ 32)
  else if off = OPTIME_LO then n s.time.opTime
  else if off = OPTIME_HI then n (s.time.opTime / 2 ^ 32)
  else if FE_CTL 0 ≤ off ∧ off < FE_CTL 32 then
    let e := (off - FE_CTL 0) / 0x8000
    let pr := s.proc e
    if off = FE_STATUS e then wordSet (wordSet w 2 0 pr.run.code) 5 4 pr.priv
    else if off = FE_TSDEPTH e then n (2 ^ 16 * (pr.depth.getD 1 0 % 2 ^ 16) + pr.depth.getD 0 0 % 2 ^ 16)
    else w
  else if off = CAPO_STATUS then
    let pr := s.proc 32
    n (pr.depth.getD 0 0 % 2 ^ 20 * 2 ^ 12 + pr.run.code % 4 * 2 ^ 4 + pr.priv)
  else if QG_ACTIVE 0 ≤ off ∧ off < QG_ACTIVE 1024 ∧ off % 0x40 = 0xC then
    let g := (off - QG_ACTIVE 0) / 0x40
    n ((s.groupOwner g).elim 0 (fun f => f * 2 ^ 16 + 2 ^ 15) + s.activeOf g)
  else if off = DIG_STATUS then
    wordSet w 15 8 ((List.range 8).foldl (fun m k =>
      let st := s.get (CORE_STATUS_STATE k)
      if st = 1 ∨ st = 2 then m + 2 ^ k else m) 0)
  else if off = WDOG_CAPO_STATUS then
    wordSet w 15 0 (if s.on WDOG_CAPO_CTL_EN then
      msLeft (s.get WDOG_CAPO_CTL_TIMEOUT) s.wdog.capoAt (s.wdog.capoPaused.getD s.clock)
    else s.get WDOG_CAPO_CTL_TIMEOUT)
  else if off = WDOG_MOD_STATUS then wordSet w 15 0 (msLeft s.wdog.modTimeout s.wdog.modAt (s.wdog.modPaused.getD s.clock))
  else if off = DRAM_INFO then wordSet w 5 0 s.mappedGib
  else if off = GUARD_STATE then wordSet w 24 8 s.sweepPage
  else if off = LIFE_DBGLEFT then n (if s.life = lcDebug then (s.lcs.dbgUntil - s.clock) / cyclesPerSec else 0)
  else if CASE_TUNING 0 ≤ off ∧ off < CASE_TUNING 1024 then n (bytesToNat ((tuningRow.drop (off - CASE_TUNING 0)).take 4))
  else if TSRC_CFG 0 ≤ off ∧ off < TSRC_CFG 24 ∧ off % 0x20 = 8 then
    let q := (off - TSRC_CFG 0) / 0x20
    wordSet w 7 0 (min 255 ((s.qty q).events.filter (fun e =>
      decide (s.clock ≤ e.1 + cyclesPerUs * s.get (TSRC_WINDOW_US q)))).length)
  else w

/-! ## What a read ends -/

/-- Requests that a read of the one register at an offset ends (Tables 6-8, 7-9b, 9-12, 10-9, 11-4, 12-9, 13-12, 14-8,
15-12, 16-13). -/
def readEnds : List (Nat × List Nat) := [
  (PTP_DEMOTED, [108]), (ASSOC_CMD_RESULT, [109]), (ASSOC_SUPLOST_IDX, [110]), (BOW_SPENT_SLOT, [111]),
  (BOW_WARN_SLOT, [112]), (SOUND_ERR, [144]), (SOUND_LMSWARN_SLOT, [145]), (DIG_ERR, [272]),
  (CASE_CMD_RESULT, [320, 323]), (CASE_FAIL_ADDR, [321]), (EVREC_LOST, [324]), (EVREC_STATUS, [325]),
  (LEDGER_STATUS, [326, 327]), (BRIDGE_LINK, [384]), (BRIDGE_ERR, [385]), (BRIDGE_IDE, [386]), (BRIDGE_FLR_DONE, [387]),
  (ROSIN_STATE, [448]), (ROSIN_RETIRED_LO, [449]), (KEY_CMD_RESULT, [464]), (KEY_FAULT_SLOT, [465]), (CER_STATE, [466]),
  (KEY_STATE, [467]), (PICK_STATUS, [480]), (PICK_SESS, [481]), (PICK_MIRROR, [482]), (CARD_STATUS, [484, 486]),
  (CARD_RESULT, [485]), (TAMPER_STICKY_LO, [67]), (TAMPER_LOGCOUNT, [68]), (PWR_STATUS, [80, 83]), (PWR_DIPS, [81]),
  (LIFE_CMD_RESULT, [84])]

/-- The requests that a read ends, those of arrayed registers included. -/
def readClears (off : Nat) : List Nat :=
  match readEnds.lookup off with
  | some l => l
  | none =>
    if PORT_CTL 0 ≤ off ∧ off < PORT_CTL 4 ∧ off % 0x8000 = 4 then [104 + (off - PORT_CTL 0) / 0x8000]
    else if CELL_CTL 0 ≤ off ∧ off < CELL_CTL 16 ∧ off % 0x40 = 4 then [128 + (off - CELL_CTL 0) / 0x40]
    else if VE_OWNER 0 ≤ off ∧ off < VE_OWNER 4 ∧ off % 0x100 = 0xC then [260 + (off - VE_OWNER 0) / 0x100]
    else if CORE_STATUS 0 ≤ off ∧ off < CORE_STATUS 8 ∧ off % 0x10 = 0 then [273 + (off - CORE_STATUS 0) / 0x10]
    else []

/-- The effects of a read on the register's unit. -/
def State.readEffect (s : State) (off : Nat) : State :=
  let s1 := (readClears off).foldl (fun t i => t.clrIrq i) s
  if off = BRIDGE_LINK then { s1 with data := { s1.data with linkRead := s1.rd BRIDGE_LINK } }
  else if off = ROSIN_STATE then { s1 with rosin := { s1.rosin with lastRead := s1.get ROSIN_STATE_STATE } } else s1

/-! ## 64-bit counters (R67) -/

/-- The _LO registers of single counters. -/
def counterLos : List Nat := [TIME_SEC_LO, TICK_COUNT_LO, OPTIME_LO, ASSOC_HIT_LO, ASSOC_MISS_LO, SOUND_ENT_LO, DIG_EXPORT_LO,
  ROSIN_OUT_LO, KEY_PEG_MISS_LO, CASE_XIP_STALL_LO]

/-- Whether an offset is the _LO register of a counter wider than 32 bits; its _HI register follows it. -/
def counterLo (off : Nat) : Bool :=
  let at_ (base stride n r : Nat) : Bool :=
    decide (base ≤ off) && decide (off < base + stride * n) && decide ((off - base) % stride = r)
  counterLos.contains off || at_ (PORT_CTL 0) 0x8000 4 0x10 || at_ (BOW_LANE_FRAMES_LO 0) 8 8 0 ||
    at_ (QUEUE_BASE_LO 0) 0x40 65536 0x18 || at_ (QG_LATBUDGET 0) 0x40 1024 0x10 || at_ (FN_QG 0) 0x20 64 0xC ||
    at_ (CELL_CTL 0) 0x40 16 0x08 || at_ (CELL_CTL 0) 0x40 16 0x10 || at_ (VE_OWNER 0) 0x100 4 0x44 ||
    at_ (CORE_STATUS 0) 0x10 8 4 || at_ (ROSIN_BYTES_LO 0) 0x10 6 0

/-- Where a master's latched value of a _HI register stands. -/
def latchKey (mid off : Nat) : Nat := 2 ^ 26 * mid + off

/-! ## Dual-stored registers (R75) -/

/-- Whether a register is dual-stored. -/
def dualStored (off : Nat) : Bool :=
  match regDescAt off with
  | some d => d.dual
  | none => false

/-- Whether the two copies of a register differ. -/
def State.dualDiffers (s : State) (off : Nat) : Bool :=
  dualStored off && (tget s.dual off).any (fun w => decide (w ≠ s.rd off))

/-- The source whose unit owns a register: the verification engine or Fret engine it belongs to, else the configuration
source of its block (log entry 106). -/
def owningUnit (off : Nat) : Nat :=
  if VE_OWNER 0 ≤ off ∧ off < VE_OWNER 4 then SRC_VE_KAT ((off - VE_OWNER 0) / 0x100)
  else if FE_CTL 0 ≤ off ∧ off < FE_CTL 32 then SRC_FE_TICK ((off - FE_CTL 0) / 0x8000)
  else cfgSource off

/-- A mismatch recorded: counted, its offset noted, DUAL_MISMATCH raised; with ISOLATE among the source's actions the
owning unit is taken out of service. -/
def State.dualMismatch (s : State) (off : Nat) : State :=
  let s1 := ((s.inc DUAL_MISMATCH_COUNT).put DUAL_MISMATCH_ADDR off).raise SRC_DUAL_MISMATCH 0
  if bitOf (s.get (FAULT_SRC_ACTION SRC_DUAL_MISMATCH)) 3 then s1.isolate (owningUnit off) else s1

/-- All ones: what a read of mismatching copies returns. -/
def allOnes : Word32 := 0xFFFFFFFF

/-- The value of a register with its copies compared, in the types of its fields (R11). -/
def State.comparedRead (s : State) (off : Nat) : Word32 × State :=
  if s.dualDiffers off then (allOnes, s.dualMismatch off)
  else
    match regDescAt off with
    | some d => (readMask d (s.regView off), s)
    | none => (0, s)

/-- The value of a counter's _HI register latched for a master that reads its _LO register. -/
def State.latchHi (s : State) (mid off : Nat) : State :=
  let r := s.comparedRead (off + 4)
  { r.2 with hiLatch := tset r.2.hiLatch (latchKey mid (off + 4)) r.1 }

/-! ## Reads -/

/-- A 32-bit read of the register at a BAR0 offset by a master. -/
def State.regRead (s : State) (mid off : Nat) : Word32 × State :=
  match regDescAt off with
  | none => (0, s.unmappedAccess)
  | some _ =>
    match tget s.hiLatch (latchKey mid off) with
    | some w => (w, { s with hiLatch := terase s.hiLatch (latchKey mid off) })
    | none =>
      if ROSIN_PULL 0 ≤ off ∧ off < ROSIN_PULL 16 then s.pullRead mid ((off - ROSIN_PULL 0) / 4)
      else
        let r := s.comparedRead off
        let s1 := if counterLo off then r.2.latchHi mid off else r.2
        (r.1, s1.readEffect off)

/-- A 32-bit read that has reached the register window. -/
def State.regAccessRead (s : State) (mid off : Nat) : Word32 × State :=
  if s.hostReaches mid off then s.regRead mid off else (0, s.unmappedAccess)

/-- The answer to a read by a master, given to its requester. -/
def State.replyWord (s : State) (off : Nat) (w : Word32) : State :=
  { s with mem := { s.mem with reply := [⟨regWindow + off, 4, true, false, natToBytes 4 w.toNat⟩] } }

/-- COUNTER_LO_READ: a master reads the _LO register of a counter. -/
def execCounterLoRead (mid off : Nat) (s : State) : Out :=
  if s.logicUp && counterLo off then
    let r := s.regAccessRead mid off
    .next (r.2.replyWord off r.1)
  else .next s

/-- DUAL_STORED_READ: a master reads a dual-stored register. A disturbance may have changed its second copy since the
last access to it. -/
def execDualStoredRead (mid off : Nat) (upset : Option Word32) (s : State) : Out :=
  if s.logicUp && dualStored off then
    let s1 : State := match upset with
      | none => s
      | some w => { s with dual := if w = s.rd off then terase s.dual off else tset s.dual off w }
    let r := s1.regAccessRead mid off
    .next (r.2.replyWord off r.1)
  else .next s

end Sys2Proof.Machine
end

