-- ==== Sys2Proof/Machine/Bus.lean ====
section
/-! DEFINITION. The fabric: which addresses decode, what an access to each target does, and the word accesses of the
Diurn processors (R60, R61, R63, R71, R79, R276, R301, R471, R483). -/

namespace Sys2Proof.Machine

/-! ## The internal map (Table 2-4) -/

/-- Windows of the map besides memories. -/
def inRegs (a : Nat) : Bool := inRange a 0x10000000 0x13FFFFFF
def inDoorbells (a : Nat) : Bool := inRange a 0x20000000 0x2FFFFFFF
def inBar4 (a : Nat) : Bool := inRange a 0x30000000 0x30FFFFFF
def inXip (a : Nat) : Bool := inRange a 0x40000000 0x407FFFFF
def inRom (a : Nat) : Bool := inRange a 0xA000000 0xA03FFFF
def State.inDram (s : State) (a : Nat) : Bool := decide (dramBase ≤ a) && decide (a < s.dramTop)
def inOutbound (a : Nat) : Bool := decide (obwBase ≤ a) && decide (a < obwTop)

/-- Whether an address decodes (R60). The boot ROM decodes until it hands over to the first stage. -/
def State.decodes (s : State) (a : Nat) : Bool :=
  (sramPart a).isSome || inRegs a || inDoorbells a || inBar4 a || inXip a || s.inDram a || inOutbound a ||
    (inRom a && decide (s.get LIFE_BOOT_STAGE = 0))

/-! ## Targets -/

/-- A word of a doorbell page (R276). -/
def State.doorbellRead (s : State) (mid a : Nat) : Nat :=
  let q := (a - 0x20000000) / 0x1000
  let o := a % 0x1000
  if !(s.hostReaches mid 0x400000) then 0
  else if o = 0x800 then (s.rd (QUEUE_CONS q)).toNat
  else if o = 0x804 then (s.rd (QUEUE_STATUS q)).toNat
  else 0

/-- A word of BAR4: the recorder's view, then the attestation window (R483, R544). -/
def State.bar4Read (s : State) (mid a n : Nat) : Bytes × State :=
  if !(s.hostReaches mid 0x1500000) then (List.replicate n 0, s.unmappedAccess)
  else if a < 0x30800000 then s.evViewRead mid (a - 0x30000000) n
  else (s.peek a n, s)

/-- A word written to BAR4: only the reader's WINBASE takes it. -/
def State.bar4Write (s : State) (mid a v : Nat) : State :=
  if !(s.hostReaches mid 0x1500000) then s.unmappedAccess
  else if a = 0x30000010 then s.winBaseWrite (evReader mid) v
  else s

/-- A 32-bit doorbell write (R274). -/
def State.doorbellStore (s : State) (mid a v : Nat) : State :=
  if s.hostReaches mid 0x400000 then s.doorbellPage ((a - 0x20000000) / 0x1000) (a % 0x1000) .w32 v else s.unmappedAccess

/-- Bytes of the word memories hold 36-bit words in 8-byte images: bits 63:36 stay zero (Table 2-4). -/
def imageByte (a : Nat) (b : Byte) : Byte :=
  if !(wordMem a) then b else if a % 8 = 4 then b &&& 0x0F else if 5 ≤ a % 8 then 0 else b

/-- Bytes as a word memory takes them. -/
def imageBytes (a : Nat) : Bytes → Bytes
  | [] => []
  | b :: bs => imageByte a b :: imageBytes (a + 1) bs

/-! ## Word accesses of the Diurn processors -/

/-- Why an access brings no data (Table 5-5): Nut denial, decode fault, a data error of SRAM, DRAM, the
fabric or the Case die. -/
inductive BusErr where
  | nut | unmapped | sram | dram | fabric | case
  deriving DecidableEq, Repr

/-- The answer to a word access: an 8-byte image, or an error. -/
inductive BusRes where
  | ok (v : Nat)
  | err (e : BusErr)
  deriving DecidableEq, Repr

/-- The answer of a memory that delivers bytes, or else the error it reports. -/
def BusRes.ofBytes (r : Option Bytes) (e : BusErr) : BusRes :=
  match r with
  | some b => .ok (bytesToNat b)
  | none => .err e

/-- A word read from its target; a register is read as 32 bits. -/
def State.targetRead (s : State) (mid a : Nat) : BusRes × State :=
  if inRegs a then
    let r := s.regAccessRead mid (a - regWindow)
    (.ok r.1.toNat, r.2)
  else if inDoorbells a then (.ok (s.doorbellRead mid a), s)
  else if inBar4 a then
    let r := s.bar4Read mid a 8
    (.ok (bytesToNat r.1), r.2)
  else if inXip a then
    let r := s.xipRead (a - 0x40000000) 8
    (.ofBytes r.1 .case, r.2)
  else if inRom a then (.ok (bytesToNat ((List.range 8).map (fun i => Config.romByte (a - 0xA000000 + i)))), s)
  else if inOutbound a then
    if s.inHost a 8 then
      let r := s.hostFetch a 8
      (.ofBytes r.1 .fabric, r.2)
    else (.err .unmapped, s)
  else
    let r := s.memRead a 8
    (.ofBytes r.1 (if s.inDram a then .dram else .sram), r.2)

/-- A word read over the fabric: decoded, checked by the Nut, carried to its target. -/
def State.busRead (s : State) (mid a : Nat) (fetch : Bool) : BusRes × State :=
  if !(s.decodes a) then (.err .unmapped, s)
  else if s.nutGrant mid (granule a) false fetch then
    let t := s.transfer a
    if t.1 then t.2.targetRead mid a else (.err .fabric, t.2)
  else (.err .nut, s.nutDeny mid a 8 false fetch)

/-- Whether a write at an address ends in a decode fault: unlisted, the read-only windows, a disabled outbound
window (R60, R301, R471). -/
def State.writeDecodes (s : State) (a : Nat) : Bool :=
  s.decodes a && !(inXip a) && !(inRom a) && (!(inOutbound a) || (s.hostAddr a).isSome)

/-- The check of a word write over the fabric before it is carried out. -/
def State.busCheck (s : State) (mid a : Nat) : Option BusErr × State :=
  if !(s.decodes a) then (some .unmapped, s)
  else if s.nutGrant mid (granule a) true false && !(s.tickMemLocked a true) then
    (if s.writeDecodes a then none else some .unmapped, s)
  else (some .nut, s.nutDeny mid a 8 true false)

/-- A word write over the fabric that has passed its check: 32 bits into a register, the image elsewhere. -/
def State.targetWrite (s : State) (mid a v : Nat) : State :=
  if inRegs a then s.regAccessWrite mid (a - regWindow) (BitVec.ofNat 32 v)
  else if inDoorbells a then s.doorbellStore mid a (v % 2 ^ 32)
  else if inBar4 a then s.bar4Write mid a v
  else if inOutbound a then (s.hostStore a (natToBytes 8 v)).2
  else s.memStore a (imageBytes a (natToBytes 8 v))

/-- The write carried over the fabric; one whose transfer fails twice does not reach its target (R73). -/
def State.busWrite (s : State) (mid a v : Nat) : State :=
  let t := s.transfer a
  if t.1 then t.2.targetWrite mid a v else t.2

end Sys2Proof.Machine
end

