-- ==== Sys2Proof/Machine/Fabric.lean ====
section
/-! DEFINITION. An access over the fabric by any master: decoded, checked by the Nut, split at region boundaries and
carried to its target, with the answer its requester gets (R60, R63, R65, R70 to R73, R78 to R80, R85 to R95, R270,
R301). -/

namespace Sys2Proof.Machine

/-- The length of an access, whether it writes, whether it fetches. -/
def opLen : FabOp → Nat
  | .read n => n
  | .fetch n => n
  | .write bs => bs.length
def opWrites : FabOp → Bool
  | .write _ => true
  | _ => false
def opFetches : FabOp → Bool
  | .fetch _ => true
  | _ => false

/-! ## Reads -/

/-- Registers read in ascending order (R65). -/
def State.regWordsRead (s : State) (mid off : Nat) : Nat → Bytes × State
  | 0 => ([], s)
  | k + 1 =>
    let r := s.regAccessRead mid off
    let q := r.2.regWordsRead mid (off + 4) k
    (natToBytes 4 r.1.toNat ++ q.1, q.2)

/-- Words of doorbell pages. -/
def State.doorbellWordsRead (s : State) (mid a : Nat) : Nat → Bytes
  | 0 => []
  | k + 1 => natToBytes 4 (s.doorbellRead mid a) ++ s.doorbellWordsRead mid (a + 4) k

/-- The words that bytes from an address touch. -/
def wordsTouched (a n : Nat) : Nat := (a + n - 1) / 4 + 1 - a / 4

/-- The bytes a target delivers; none where it delivers a data error. -/
def State.targetBytes (s : State) (mid a n : Nat) : Option Bytes × State :=
  if inRegs a then
    let r := s.regWordsRead mid (a / 4 * 4 - regWindow) (wordsTouched a n)
    (some ((r.1.drop (a % 4)).take n), r.2)
  else if inDoorbells a then
    (some (((s.doorbellWordsRead mid (a / 4 * 4) (wordsTouched a n)).drop (a % 4)).take n), s)
  else if inBar4 a then
    let r := s.bar4Read mid a n
    (some r.1, r.2)
  else if inXip a then s.xipRead (a - 0x40000000) n
  else if inRom a then (some ((List.range n).map (fun i => Config.romByte (a - 0xA000000 + i))), s)
  else if inOutbound a then s.hostFetch a n
  else s.memRead a n

/-- The bytes of a granted part; none where the part decodes to nothing, its transfer fails or its target delivers a data
error (R60, R70 to R73, R78 to R80, R301). -/
def State.partRead (s : State) (mid a n : Nat) : Option Bytes × State :=
  if !(s.decodes a) || !(s.decodes (a + n - 1)) then (none, s)
  else
    let t := s.transfer a
    if t.1 then t.2.targetBytes mid a n else (none, t.2)

/-! ## Writes -/

/-- Bytes cut where a 32-bit word ends: each piece with its address. -/
def wordPieces (a : Nat) : Bytes → List (Nat × Bytes)
  | [] => []
  | b :: bs =>
    match wordPieces (a + 1) bs with
    | [] => [(a, [b])]
    | p :: ps => if (a + 1) % 4 = 0 then (a, [b]) :: p :: ps else (a, b :: p.2) :: ps

/-- One piece written to the registers, the doorbells or BAR4; a piece narrower than 32 bits is discarded and counted
(R65, R275). -/
def State.pieceWrite (s : State) (mid : Nat) (p : Nat × Bytes) : State :=
  let v := bytesToNat p.2
  if p.2.length = 4 then
    if inRegs p.1 then s.regAccessWrite mid (p.1 - regWindow) (BitVec.ofNat 32 v)
    else if inDoorbells p.1 then s.doorbellStore mid p.1 v
    else s.bar4Write mid p.1 v
  else if inRegs p.1 then s.narrowWrite
  else if inDoorbells p.1 then s.inc BRIDGE_DBIGN_COUNT
  else s

/-- Bytes written to a target; false where no request passes to the host. -/
def State.targetStore (s : State) (mid a : Nat) (bs : Bytes) : Bool × State :=
  if inRegs a || inDoorbells a || inBar4 a then (true, (wordPieces a bs).foldl (fun t p => t.pieceWrite mid p) s)
  else if inOutbound a then s.hostStore a bs
  else (true, s.memStore a (imageBytes a bs))

/-- A granted part written; false where it decodes to nothing, its transfer fails or no request passes to the host. -/
def State.partWrite (s : State) (mid a : Nat) (bs : Bytes) : Bool × State :=
  if !(s.writeDecodes a) || !(s.writeDecodes (a + bs.length - 1)) then (false, s)
  else
    let t := s.transfer a
    if t.1 then t.2.targetStore mid a bs else (false, t.2)

/-! ## Where a request leads (R63, R270) -/

/-- Where an offset in a BAR leads: an internal address, byte `o` of a virtual function's Pending Bit Array, or an
offset that reads zero and ignores writes. -/
inductive BarTarget where
  | addr (a : Nat)
  | pba (o : Nat)
  | zero
  deriving DecidableEq, Repr

/-- The BARs of the physical function. -/
def pfBar (b off : Nat) : BarTarget :=
  if b = 0 ∧ off < 0x4000000 then .addr (regWindow + off)
  else if b = 2 ∧ off < 0x10000000 then .addr (0x20000000 + off)
  else if b = 4 ∧ off < 0x1000000 then .addr (0x30000000 + off)
  else .zero

/-- The BARs of virtual function `f` (Table 7-3). -/
def State.vfBar (s : State) (f b off : Nat) : BarTarget :=
  let g := s.fnGroups f
  let vecs := tgetD s.data.vfVecs f 0
  let v0 := s.get (FN_VEC_VEC_BASE f)
  if b = 0 then
    if off < 0x400000 then
      (if off / 0x40 < 64 * g.2 then .addr (regWindow + QUEUE_BASE_LO (64 * g.1) + off) else .zero)
    else if off < 0x7E0000 then
      (if (off - 0x400000) / 0x40 < g.2 then .addr (regWindow + QG_LATBUDGET g.1 + (off - 0x400000)) else .zero)
    else if off < 0x7E8000 then
      (if (off - 0x7E0000) / 16 < vecs then .addr (regWindow + MSIX_ADDR_LO v0 + (off - 0x7E0000)) else .zero)
    else if off < 0x7E8000 + ceilDiv vecs 8 then .pba (off - 0x7E8000)
    else .zero
  else if b = 2 then
    (if off / 0x1000 < 64 * g.2 then .addr (0x20000000 + 0x1000 * (64 * g.1) + off) else .zero)
  else if b = 4 ∧ off < 0x1000000 then .addr (0x30000000 + off)
  else .zero

/-- The target that follows a target one byte on. -/
def BarTarget.plus (t : BarTarget) (i : Nat) : BarTarget :=
  match t with
  | .addr a => .addr (a + i)
  | .pba o => .pba (o + i)
  | .zero => .zero

/-- A part of a request: its first byte in the request, where it leads, its length, whether it is granted. -/
structure ReqPart where
  pos : Nat
  tgt : BarTarget
  len : Nat
  granted : Bool
  deriving DecidableEq, Repr

/-- The registers that hold the bits of byte `o` of a virtual function's Pending Bit Array: internal address of the first
byte. -/
def State.vfPbaAddr (s : State) (f o : Nat) : Nat :=
  regWindow + MSIX_PBA 0 + (s.get (FN_VEC_VEC_BASE f) + 8 * o) / 8

/-- Byte `o` of a virtual function's Pending Bit Array. -/
def State.vfPbaByte (s : State) (f o : Nat) : Byte :=
  let v0 := s.get (FN_VEC_VEC_BASE f) + 8 * o
  BitVec.ofNat 8 ((List.range 8).foldl (fun m i =>
    if bitOf (s.get (MSIX_PBA_PEND ((v0 + i) / 32))) ((v0 + i) % 32) then m + 2 ^ i else m) 0)

/-- Whether the Nut grants a byte of a Pending Bit Array: the granules of both registers' bytes its bits stand in. -/
def State.pbaGrant (s : State) (mid f o : Nat) (write : Bool) : Bool :=
  s.nutGrant mid (granule (s.vfPbaAddr f o)) write false &&
    s.nutGrant mid (granule (regWindow + MSIX_PBA 0 + (s.get (FN_VEC_VEC_BASE f) + 8 * o + 7) / 8)) write false

/-- The parts of `n` bytes that lead to one target (R93). -/
def State.reqParts (s : State) (mid pos n : Nat) (t : BarTarget) (write fetch : Bool) : List ReqPart :=
  match t with
  | .addr a => (s.accParts mid a n write fetch).map (fun p => ⟨pos + (p.addr - a), .addr p.addr, p.len, p.granted⟩)
  | .zero => [⟨pos, .zero, n, true⟩]
  | .pba o =>
    (runsOf ((List.range n).map (fun i => (o + i, s.pbaGrant mid (mid - 0x80) (o + i) write)))).map
      (fun r => ⟨pos + (r.1 - o), .pba r.1, r.2.2, r.2.1⟩)

/-- The bytes of a BAR from an offset, cut where they do not lead on to consecutive places. -/
def barRuns (f : Nat → BarTarget) (off : Nat) : Nat → List (Nat × BarTarget × Nat)
  | 0 => []
  | n + 1 =>
    match barRuns f (off + 1) n with
    | [] => [(off, f off, 1)]
    | (o, t, k) :: u => if t = (f off).plus 1 then (off, f off, k + 1) :: u else (off, f off, 1) :: (o, t, k) :: u

/-! ## Accesses -/

/-- One part of a request carried out. -/
def State.carryPart (s : State) (mid : Nat) (op : FabOp) (p : ReqPart) : ReplyPart × State :=
  let a := match p.tgt with
    | .addr a => a
    | .pba o => s.vfPbaAddr (mid - 0x80) o
    | .zero => 0
  if !p.granted then (⟨a, p.len, false, true, []⟩, s)
  else
    match p.tgt with
    | .zero => (⟨a, p.len, true, false, if opWrites op then [] else List.replicate p.len 0⟩, s.unmappedAccess)
    | .pba o =>
      (⟨a, p.len, true, false,
        if opWrites op then [] else (List.range p.len).map (fun i => s.vfPbaByte (mid - 0x80) (o + i))⟩, s)
    | .addr _ =>
      match op with
      | .write bs =>
        let r := s.partWrite mid a ((bs.drop p.pos).take p.len)
        (⟨a, p.len, true, !r.1, []⟩, r.2)
      | .read _ | .fetch _ =>
        let r := s.partRead mid a p.len
        (⟨a, p.len, true, r.1.isNone, r.1.getD []⟩, r.2)

/-- The parts of a request carried out in ascending order. -/
def State.carryParts (s : State) (mid : Nat) (op : FabOp) : List ReqPart → List ReplyPart × State
  | [] => ([], s)
  | p :: ps =>
    let r := s.carryPart mid op p
    let q := r.2.carryParts mid op ps
    (r.1 :: q.1, q.2)

/-- The parts a read carried by the Bridge comes to: those before the first denied part, and that one (R94). -/
def untilDenied : List ReqPart → List ReqPart
  | [] => []
  | p :: ps => if p.granted then p :: untilDenied ps else [p]

/-- The answer given to the requester. -/
def State.replyParts (s : State) (l : List ReplyPart) : State := { s with mem := { s.mem with reply := l } }

/-- A request in parts carried out: all are checked against the regions in force when it is accepted (R91); one denial is
recorded, with its lowest denied address and the length of its first denied part (R95). -/
def State.carryRequest (s : State) (mid : Nat) (op : FabOp) (parts : List ReqPart) : State :=
  let done := if 0x80 ≤ mid ∧ opWrites op = false then untilDenied parts else parts
  let r := s.carryParts mid op done
  let s1 := match parts.find? (fun p => !p.granted), r.1.find? (fun q => !q.granted) with
    | some p, some q => r.2.nutDeny mid q.addr p.len (opWrites op) (opFetches op)
    | _, _ => r.2
  s1.replyParts r.1

/-- An access at an internal address. -/
def State.fabricAccess (s : State) (mid a : Nat) (op : FabOp) : State :=
  if !(s.decodes a) then s.replyParts [⟨a, opLen op, true, true, []⟩]
  else s.carryRequest mid op (s.reqParts mid 0 (opLen op) (.addr a) (opWrites op) (opFetches op))

/-- A host access through a BAR, under the MID of its function: bytes past the function's own queues, groups, vectors and
pages read zero and ignore writes (R270). -/
def State.barAccess (s : State) (mid b off : Nat) (op : FabOp) : State :=
  let f := mid - 0x80
  let runs := barRuns (if f = 0 then pfBar b else s.vfBar f b) off (opLen op)
  s.carryRequest mid op
    (runs.flatMap (fun r => s.reqParts mid (r.1 - off) r.2.2 r.2.1 (opWrites op) (opFetches op)))

/-- Whether a master issues an access as FABRIC_ACCESS: an assigned MID (Table 2-3) that is no debug port's, and no
engine's access to its own tick memory (R62); a host's request passes the link. -/
def State.issues (s : State) (mid : Nat) (t : AccAddr) : Bool :=
  (decide (mid < 0x44) || (decide (0x50 ≤ mid) && decide (mid < 0x70)) ||
    (decide (0x80 ≤ mid) && decide (mid < 0xC0) && s.hostLink && (decide (mid = 0x80) || s.data.vfEnable))) &&
    match t with
    | .internal a => !(decide (mid < 0x40) && decide (a / 0x80000 = mid % 32))
    | .bar _ _ => decide (0x80 ≤ mid)

/-- FABRIC_ACCESS. -/
def execFabricAccess (mid : Nat) (t : AccAddr) (op : FabOp) (env : FabEnv) (s : State) : Out :=
  let s1 := s.disturb env
  if s1.logicUp && s1.issues mid t && decide (1 ≤ opLen op ∧ opLen op ≤ 4096) then
    match t with
    | .internal a => .next (s1.fabricAccess mid a op)
    | .bar b off => .next (s1.barAccess mid b off op)
  else .next s1

end Sys2Proof.Machine
end

