-- ==== Sys2Proof/Machine/Flags.lean ====
section
/-! DEFINITION. What the operations of the Diurn instruction set compute and which flags they set
(chapter "Diurn instruction reference", R144 to R163): values as unsigned numbers of the operand size. -/

namespace Sys2Proof.Machine

/-- A number of `w` bits read as two's complement (R97). -/
def toSigned (w x : Nat) : Int := if x < 2 ^ (w - 1) then (x : Int) else (x : Int) - 2 ^ w

/-- A number narrowed to `w` bits. -/
def ofInt (w : Nat) (i : Int) : Nat := (i % (2 ^ w : Int)).toNat

/-- Whether a signed number lies outside `w` bits. -/
def overflows (w : Nat) (i : Int) : Bool := decide (i < -(2 ^ (w - 1) : Int)) || decide ((2 ^ (w - 1) : Int) ≤ i)

/-- What an operation yields: the value for C, the flags it sets (none: unchanged), and whether it divided
by zero (R145). -/
structure AluOut where
  val : Nat
  n : Option Bool
  z : Option Bool
  v : Option Bool
  c : Option Bool
  divZero : Bool
  deriving DecidableEq, Repr

/-- A result whose N and Z follow the value at the size of C. -/
def outNZ (w val : Nat) (v c : Option Bool) : AluOut :=
  ⟨val, some (decide (2 ^ (w - 1) ≤ val)), some (decide (val = 0)), v, c, false⟩

/-- A + B + carry in (R153). -/
def aluAdd (w a b cin : Nat) : AluOut :=
  outNZ w ((a + b + cin) % 2 ^ w) (some (overflows w (toSigned w a + toSigned w b + cin)))
    (some (decide (2 ^ w ≤ a + b + cin)))

/-- A − B − borrow in (R153). -/
def aluSub (w a b bin : Nat) : AluOut :=
  outNZ w (ofInt w ((a : Int) - b - bin)) (some (overflows w (toSigned w a - toSigned w b - bin)))
    (some (decide (a < b + bin)))

/-- ABS: the most negative word stays and sets V (R154). -/
def aluAbs (a : Nat) : AluOut :=
  outNZ 36 (ofInt 36 (toSigned 36 a).natAbs) (some (decide (a = 2 ^ 35))) none

/-- MUL: low 36 bits of the signed product; V when it lies outside a word (R155). -/
def aluMul (a b : Nat) : AluOut :=
  outNZ 36 (ofInt 36 (toSigned 36 a * toSigned 36 b)) (some (overflows 36 (toSigned 36 a * toSigned 36 b)))
    (some false)

/-- MULD: the 72-bit product (R155). -/
def aluMuld (a b : Nat) : AluOut := outNZ 72 (ofInt 72 (toSigned 36 a * toSigned 36 b)) (some false) (some false)

/-- MACD: the 72-bit product added to C (R155). -/
def aluMacd (a b c : Nat) : AluOut :=
  let p := ofInt 72 (toSigned 36 a * toSigned 36 b)
  outNZ 72 ((c + p) % 2 ^ 72) (some (overflows 72 (toSigned 72 c + toSigned 36 a * toSigned 36 b)))
    (some (decide (2 ^ 72 ≤ c + p)))

/-- A division by zero with DZE = 0 (Table 4-5). -/
def divByZero (val : Nat) : AluOut := { outNZ 36 val (some true) (some true) with divZero := true }

/-- DIV and REM: truncated toward zero, the remainder with the sign of the dividend (R156). -/
def aluDiv (a b : Nat) : AluOut :=
  if b = 0 then divByZero 0
  else outNZ 36 (ofInt 36 ((toSigned 36 a).tdiv (toSigned 36 b)))
    (some (decide (a = 2 ^ 35 ∧ b = 2 ^ 36 - 1))) (some false)
def aluRem (a b : Nat) : AluOut :=
  if b = 0 then divByZero a
  else outNZ 36 (ofInt 36 ((toSigned 36 a).tmod (toSigned 36 b))) (some false) (some false)

/-- DIVU and REMU (R156). -/
def aluDivu (a b : Nat) : AluOut :=
  if b = 0 then divByZero 0 else outNZ 36 (a / b) (some false) (some false)
def aluRemu (a b : Nat) : AluOut :=
  if b = 0 then divByZero a else outNZ 36 (a % b) (some false) (some false)

/-- The lesser and the greater of two signed words. -/
def aluMin (a b : Nat) : AluOut := outNZ 36 (if toSigned 36 a ≤ toSigned 36 b then a else b) none none
def aluMax (a b : Nat) : AluOut := outNZ 36 (if toSigned 36 a ≤ toSigned 36 b then b else a) none none

/-- Logic (Table 4-6). -/
def aluAnd (a b : Nat) : AluOut := outNZ 36 (a &&& b) none none
def aluOr (a b : Nat) : AluOut := outNZ 36 (a ||| b) none none
def aluXor (a b : Nat) : AluOut := outNZ 36 (a ^^^ b) none none
def aluAndn (a b : Nat) : AluOut := outNZ 36 (a &&& (2 ^ 36 - 1 - b)) none none
def aluNot (a : Nat) : AluOut := outNZ 36 (2 ^ 36 - 1 - a) none none

/-- Shifts (R157). -/
def aluShl (a b : Nat) : AluOut :=
  outNZ 36 (if b ≤ 36 then a * 2 ^ b % 2 ^ 36 else 0) (some false)
    (some (decide (1 ≤ b ∧ b ≤ 36 ∧ a / 2 ^ (36 - b) % 2 = 1)))
def aluShr (a b : Nat) : AluOut :=
  outNZ 36 (if b ≤ 36 then a / 2 ^ b else 0) (some false)
    (some (decide (1 ≤ b ∧ b ≤ 36 ∧ a / 2 ^ (b - 1) % 2 = 1)))
/-- Arithmetic right shift at `w` bits: a count of `w` or more gives copies of the top bit (R157, R160). -/
def aluSar (w a b : Nat) : AluOut :=
  outNZ w
    (if w ≤ b then (if a / 2 ^ (w - 1) % 2 = 1 then 2 ^ w - 1 else 0)
     else ofInt w (toSigned w a / 2 ^ b)) (some false)
    (some (if b = 0 then false
      else if w ≤ b then decide (a / 2 ^ (w - 1) % 2 = 1) else decide (a / 2 ^ (b - 1) % 2 = 1)))
def aluRol (a b : Nat) : AluOut :=
  let k := b % 36
  let r := (a * 2 ^ k % 2 ^ 36) + a / 2 ^ (36 - k)
  if k = 0 then outNZ 36 a (some false) (some false)
  else outNZ 36 r (some false) (some (decide (r % 2 = 1)))

/-- EXT, EXTS and INS: position in B bits 5:0, length in bits 11:6 (R158). -/
def fieldOf (a b : Nat) : Nat := a / 2 ^ (b % 64) % 2 ^ (b / 64 % 64)
def aluExt (a b : Nat) : AluOut := outNZ 36 (fieldOf a b % 2 ^ 36) none none
def aluExts (a b : Nat) : AluOut :=
  let l := b / 64 % 64
  outNZ 36 (if l = 0 then 0 else ofInt 36 (toSigned l (fieldOf a b))) none none
def aluIns (a b c : Nat) : AluOut :=
  let p := b % 64
  let l := b / 64 % 64
  let field := a % 2 ^ l * 2 ^ p
  let hole := (2 ^ l - 1) * 2 ^ p % 2 ^ 36
  outNZ 36 ((c &&& (2 ^ 36 - 1 - hole)) + field % 2 ^ 36) none none

/-- The halves of a word (R98). -/
def hiHalf (a : Nat) : Nat := a / 2 ^ 18 % 2 ^ 18
def loHalf (a : Nat) : Nat := a % 2 ^ 18
def pack (h l : Nat) : Nat := 2 ^ 18 * (h % 2 ^ 18) + l % 2 ^ 18

/-- The half operations (R159): independent lanes. -/
def aluHadd (a b : Nat) : AluOut :=
  outNZ 36 (pack (hiHalf a + hiHalf b) (loHalf a + loHalf b))
    (some (overflows 18 (toSigned 18 (hiHalf a) + toSigned 18 (hiHalf b)) ||
      overflows 18 (toSigned 18 (loHalf a) + toSigned 18 (loHalf b))))
    (some (decide (2 ^ 18 ≤ hiHalf a + hiHalf b) || decide (2 ^ 18 ≤ loHalf a + loHalf b)))
def aluHsub (a b : Nat) : AluOut :=
  outNZ 36 (pack (ofInt 18 ((hiHalf a : Int) - hiHalf b)) (ofInt 18 ((loHalf a : Int) - loHalf b)))
    (some (overflows 18 (toSigned 18 (hiHalf a) - toSigned 18 (hiHalf b)) ||
      overflows 18 (toSigned 18 (loHalf a) - toSigned 18 (loHalf b))))
    (some (decide (hiHalf a < hiHalf b) || decide (loHalf a < loHalf b)))
def aluHmul (a b : Nat) : AluOut :=
  let ph := toSigned 18 (hiHalf a) * toSigned 18 (hiHalf b)
  let pl := toSigned 18 (loHalf a) * toSigned 18 (loHalf b)
  outNZ 36 (pack (ofInt 18 ph) (ofInt 18 pl)) (some (overflows 18 ph || overflows 18 pl)) (some false)
def aluHpack (a b : Nat) : AluOut := outNZ 36 (pack a b) none none
def aluHhi (a : Nat) : AluOut := outNZ 36 (ofInt 36 (toSigned 18 (hiHalf a))) none none
def aluHlo (a : Nat) : AluOut := outNZ 36 (ofInt 36 (toSigned 18 (loHalf a))) none none
def aluHswp (a : Nat) : AluOut := outNZ 36 (pack (loHalf a) (hiHalf a)) none none

/-- MOV and DMOV. -/
def aluMov (w a : Nat) : AluOut := outNZ w a none none

/-- DCVT: a word sign-extended to a double. -/
def aluDcvt (a : Nat) : AluOut := outNZ 72 (ofInt 72 (toSigned 36 a)) none none

/-- DSAT: a double saturated to a word; V when it was out of range (R160). -/
def aluDsat (a : Nat) : AluOut :=
  let i := toSigned 72 a
  if overflows 36 i then outNZ 36 (if i < 0 then 2 ^ 35 else 2 ^ 35 - 1) (some true) none
  else outNZ 36 (ofInt 36 i) (some false) none

/-- OCNT: the flags set in bits 35:32; N is cleared. -/
def aluOcnt (a : Nat) : AluOut :=
  let k := a / 2 ^ 32 % 2 + a / 2 ^ 33 % 2 + a / 2 ^ 34 % 2 + a / 2 ^ 35 % 2
  ⟨k, some false, some (decide (k = 0)), none, none, false⟩

/-- BERLEN's result from the octets at A (Table 4-10): octets used and length, and V. -/
def berLen (o : Nat → Nat) : Nat × Nat × Bool :=
  if o 0 < 0x80 then (1, o 0, false)
  else if o 0 = 0x81 then (2, o 1, false)
  else if o 0 = 0x82 then (3, o 1 * 256 + o 2, false)
  else if o 0 = 0x83 then (4, 65536 * o 1 + o 2 * 256 + o 3, false)
  else (1, 0, true)

/-- The octets a BER length field that starts with the given octet uses. -/
def berUsed (first : Nat) : Nat :=
  if first = 0x81 then 2 else if first = 0x82 then 3 else if first = 0x83 then 4 else 1

/-- Octet `k` (0 to 3) of an octet-view word and its valid flag (Table 3-2). -/
def octetOf (w k : Nat) : Nat × Bool :=
  (w / 2 ^ (24 - 8 * k) % 256, decide (w / 2 ^ (35 - k) % 2 = 1))

/-- An octet stored in an octet-view word, its flag set; the other octets unchanged (R123). -/
def octetPut (w k v : Nat) : Nat :=
  let sh := 24 - 8 * k
  let w1 := 2 ^ (sh + 8) * (w / 2 ^ (sh + 8)) + 2 ^ sh * (v % 256) + w % 2 ^ sh
  if w1 / 2 ^ (35 - k) % 2 = 1 then w1 else w1 + 2 ^ (35 - k)

/-- The four octets and flags of an octet-view word that holds the first `n` octets of a number, most
significant first (R162). -/
def octetsWord (a n : Nat) : Nat → Nat
  | 0 => 0
  | k + 1 => octetPut (octetsWord a n k) k (a / 2 ^ (8 * (n - 1 - k)) % 256)

end Sys2Proof.Machine
end

