-- ==== Sys2Proof/Machine/Windows.lean ====
section
/-! DEFINITION. The data-path windows of a Fret engine (R303 to R307, R312, Tables 8-1 to 8-3). -/

namespace Sys2Proof.Machine

/-- Word `i` of the octet view of a byte string (R104): flags of the octets that it has. -/
def octetViewWord (bs : Bytes) (i : Nat) : Nat :=
  let o := (bs.drop (4 * i)).take 4
  (List.range o.length).foldl (fun w k => octetPut w k ((o.getD k 0).toNat)) 0

/-- The held list of an engine in the current tick, and of the requests it is shown. -/
def State.myHeld (s : State) (p : Nat) : List Nat := tgetD s.data.heldList p []
def State.decides (s : State) (p : Nat) : Bool := decide (p = s.get REL_CTL_FE_A) || decide (p = s.get REL_CTL_FE_B)
def State.myReqs (s : State) (p : Nat) : List Nat := if s.decides p then s.data.relList else []

/-- Role of an engine (Table 8-2). -/
def State.role (s : State) (p : Nat) : Nat :=
  if p = s.get REL_CTL_FE_A then 1 else if p = s.get REL_CTL_FE_B then 2 else 0

/-- A word of the tick header (Table 8-2). -/
def State.headerWord (s : State) (p k : Nat) : Nat :=
  if k = 0 then s.tick36
  else if k = 1 then s.get TICK_INDEX_N
  else if k = 2 then (s.myHeld p).length
  else if k = 3 then (s.myReqs p).length
  else if k = 4 then (if s.decides p then s.get REL_STATUS_D * 2 ^ 8 else 0) + s.role p
  else if k = 5 then tgetD s.data.heldOver p 0
  else 0

/-- A word of a held-list entry (Table 8-3). -/
def State.heldWord (s : State) (slot f : Nat) : Nat :=
  match tget s.data.held slot with
  | none => 0
  | some h =>
    if f = 0 then slot
    else if f = 1 then h.entry + 2 ^ 24 * eget (s.entry h.entry) eTYPE
    else if f = 2 then h.octets.length
    else h.tick

/-- A word of a request-list entry (Table 8-3). -/
def State.reqWord (s : State) (slot f : Nat) : Nat :=
  match tget s.data.rel slot with
  | none => 0
  | some r =>
    if f = 0 then 2 ^ 22 + slot
    else if f = 1 then r.assoc + (if r.host.isSome then 0 else 2 ^ 35)
    else if f = 2 then r.octets.length
    else r.presented

/-- A word of a data-path window as engine `p` reads it; none outside the ranges of Table 8-1 (R304, R305). -/
def State.windowRead (s : State) (p w : Nat) : Option Nat :=
  if 0x800000 ≤ w ∧ w < 0x800010 then some (s.headerWord p (w - 0x800000))
  else if 0x801000 ≤ w ∧ w < 0x802000 then
    some (((s.myHeld p)[(w - 0x801000) / 4]?).elim 0 (fun k => s.heldWord k (w % 4)))
  else if 0x802000 ≤ w ∧ w < 0x802400 then
    some (((s.myReqs p)[(w - 0x802000) / 4]?).elim 0 (fun k => s.reqWord k (w % 4)))
  else if 0x900000 ≤ w ∧ w < 0x960000 then
    let k := (w - 0x900000) / 384
    some (if (s.myHeld p).contains k then
      (tget s.data.held k).elim 0 (fun h => octetViewWord h.octets ((w - 0x900000) % 384)) else 0)
  else if 0xB00000 ≤ w ∧ w < 0xB18000 then
    let k := (w - 0xB00000) / 384
    some (if (s.myReqs p).contains k then
      (tget s.data.rel k).elim 0 (fun r => octetViewWord r.octets ((w - 0xB00000) % 384)) else 0)
  else if 0xC00000 ≤ w ∧ w < 0xC04000 then some (tgetD s.data.objCur (w - 0xC00000) 0).toNat
  else if 0xC10000 ≤ w ∧ w < 0xC14000 then
    some (if p = s.get REL_CTL_FE_A then (tgetD s.data.objShadow (w - 0xC10000) 0).toNat else 0)
  else none

/-- Whether engine `p` may write a window word: the shadow bank by FE_A (R304). -/
def State.windowWritable (s : State) (p w : Nat) : Bool :=
  decide (0xC10000 ≤ w ∧ w < 0xC14000) && decide (p = s.get REL_CTL_FE_A)

/-- A window word written. -/
def State.windowWrite (s : State) (w v : Nat) : State :=
  { s with data := { s.data with
    objShadow := tsetD 0 s.data.objShadow (w - 0xC10000) (BitVec.ofNat 36 v) } }

end Sys2Proof.Machine
end

