-- ==== Sys2Proof/Machine/Operands.lean ====
section
/-! DEFINITION. The operands of the Diurn instruction set: word access by a processor, special registers,
decode with its checks, effective addresses, operand reads and writes (chapter "The Diurn machine"). -/

namespace Sys2Proof.Machine

/-! ## Execution of one instruction -/

/-- A synchronous exception: vector, detail, specifier and INFO (Tables 5-2 to 5-5). -/
structure Exc where
  vector : Nat
  detail : Nat
  spec : Nat
  info : Nat
  deriving DecidableEq, Repr

abbrev vILLEGAL : Nat := 1
abbrev vPRIVILEGE : Nat := 2
abbrev vADDRESS : Nat := 3
abbrev vACCESS : Nat := 4
abbrev vMEMORY : Nat := 5
abbrev vLOOP : Nat := 6
abbrev vDIVIDE : Nat := 7
abbrev vOVERFLOW : Nat := 8
abbrev vGATE : Nat := 9
abbrev vRETURN : Nat := 10
abbrev vBUDGET : Nat := 11
abbrev vSERVICE : Nat := 12

/-- An instruction in execution: the module's state (with what its reads did to devices), the processor,
its registers as the instruction changes them, the memory words it writes in order (they reach memory when
it completes, R130), the T flag it sets (R124), cycles spent, the instruction's first word. -/
structure Cx where
  s : State
  p : Nat
  pr : Proc
  writes : List (Nat × Nat)
  tset : Bool
  cost : Nat
  first : Nat
  deriving DecidableEq, Repr

/-- A step of an instruction: it goes on with a value, or raises an exception. -/
inductive Res (α : Type) where
  | ok (a : α) (c : Cx)
  | exc (e : Exc) (c : Cx)

/-- The next step of an instruction after one that went on. -/
def Res.andThen {α β : Type} (r : Res α) (f : α → Cx → Res β) : Res β :=
  match r with
  | .ok a c => f a c
  | .exc e c => .exc e c

/-! ## Words of memory -/

/-- Where a processor's word address lies (Table 2-5). -/
inductive Loc where
  | tick (a : Nat)     -- own local tick memory
  | fabric (a : Nat)   -- an internal address
  | window (w : Nat)   -- a data-path window
  | nowhere
  deriving DecidableEq, Repr

/-- The word views of Table 2-5 for a privilege state, whose ring has its own fabric window on the Capo. -/
def Cx.locAs (c : Cx) (priv w : Nat) : Loc :=
  if isFret c.p then
    if w < 0x10000 then .tick (0x80000 * c.p + 8 * w)
    else if 0x100000 ≤ w ∧ w < 0x200000 then .fabric (0x1000000 + 8 * (w - 0x100000))
    else if 0x800000 ≤ w then .window w
    else .nowhere
  else
    if w < 0x70000 then .fabric (0x2000000 + 8 * w)
    else if 0x100000 ≤ w ∧ w < 0x200000 then .fabric (0x1000000 + 8 * (w - 0x100000))
    else if 0x200000 ≤ w ∧ w < 0x300000 then .fabric (0x40000000 + 8 * (w - 0x200000))
    else if 0x800000 ≤ w then .fabric (2 ^ 26 * c.s.get (CAPO_FWIN_BASE priv) + 8 * (w - 0x800000))
    else .nowhere

/-- The word views of Table 2-5 for the executing code. -/
def Cx.loc (c : Cx) (w : Nat) : Loc := c.locAs c.pr.priv w

/-- The access cost of a word (Table 3-7). -/
def Cx.accessCost (c : Cx) (w : Nat) (write : Bool) : Nat :=
  if isFret c.p then (if w < 0x10000 then 1 else if w < 0x800000 then 4 else 6)
  else if w < 0x70000 then 1
  else if w < 0x200000 then 4
  else if w < 0x300000 then 6
  else if write then 2 else 24

/-- The exception a failed access raises (Table 5-5). -/
def busExc (e : BusErr) (spec w : Nat) : Exc :=
  match e with
  | .nut => ⟨vACCESS, 0x42, spec, w⟩
  | .unmapped => ⟨vACCESS, 0x41, spec, w⟩
  | .sram => ⟨vMEMORY, 0x50, spec, w⟩
  | .dram => ⟨vMEMORY, 0x51, spec, w⟩
  | .fabric => ⟨vMEMORY, 0x52, spec, w⟩
  | .case => ⟨vMEMORY, 0x53, spec, w⟩

/-- The word an instruction has written earlier to where an address lies, if any: on the Capo two addresses may name
one word (R129). -/
def Cx.written (c : Cx) (priv w : Nat) : Option Nat :=
  c.writes.foldl (fun r e => if c.loc e.1 = c.locAs priv w then some e.2 else r) none

/-- Whether a read at an internal address finds no page in the Case die's read cache (R471). -/
def State.xipMiss (s : State) (a : Nat) : Bool :=
  let page := (a - 0x40000000) / 4096
  inXip a && !(s.die.cache.contains page) && !(s.die.badPages.contains page)

/-- The cycles of a read cache miss that the page's fill did not bring before: the wait of R472, up to 115,500 cycles
from an image slot, counted in CASE_XIP_STALL (log entry 112). -/
def Cx.afterMiss (c : Cx) (miss : Bool) : Cx :=
  if miss then
    let f := c.s.free
    let wait := f.1 % 115501
    { c with s := f.2.inc64 CASE_XIP_STALL_LO CASE_XIP_STALL_HI wait, cost := c.cost + wait }
  else c

/-- Whether the Station world reaches into the Trust part (R178). -/
def Cx.trustLocal (c : Cx) (w priv : Nat) : Bool :=
  decide (priv < 2) && decide (c.s.get (FE_TSPLIT_SPLIT c.p) ≤ w)

/-- A word read in a privilege state: an earlier write of the same instruction is seen (R129). -/
def Cx.readAs (c : Cx) (priv w spec : Nat) : Res Nat :=
  match c.written priv w with
  | some v => .ok v c
  | none =>
    match c.locAs priv w with
    | .tick a =>
      if c.trustLocal w priv then .exc ⟨vACCESS, 0x43, spec, w⟩ c
      else match c.s.sramRead a 8 with
        | (some b, s') => .ok (bytesToNat b % 2 ^ 36) { c with s := s' }
        | (none, s') => .exc ⟨vMEMORY, 0x50, spec, w⟩ { c with s := s' }
    | .fabric a =>
      match c.s.busRead (midOf c.p priv) a false with
      | (.ok v, s') => .ok (v % 2 ^ 36) (({ c with s := s' } : Cx).afterMiss (c.s.xipMiss a))
      | (.err e, s') => .exc (busExc e spec w) { c with s := s' }
    | .window w' =>
      match c.s.windowRead c.p w' with
      | some v => .ok (v % 2 ^ 36) c
      | none => .exc ⟨vACCESS, 0x41, spec, w⟩ c
    | .nowhere => .exc ⟨vACCESS, 0x41, spec, w⟩ c

/-- A word read by the executing code, at the cost of one access. -/
def Cx.read (c : Cx) (w spec : Nat) : Res Nat :=
  (c.readAs c.pr.priv w spec).andThen fun v c => .ok v { c with cost := c.cost + c.accessCost w false }

/-- A word written in a privilege state: checked now, stored when the instruction completes. -/
def Cx.writeAs (c : Cx) (priv w v spec : Nat) : Res Unit :=
  let put (c : Cx) : Res Unit := .ok () { c with writes := c.writes ++ [(w, v % 2 ^ 36)] }
  match c.locAs priv w with
  | .tick _ => if c.trustLocal w priv then .exc ⟨vACCESS, 0x43, spec, w⟩ c else put c
  | .fabric a =>
    match c.s.busCheck (midOf c.p priv) a with
    | (none, s') => put { c with s := s' }
    | (some e, s') => .exc (busExc e spec w) { c with s := s' }
  | .window w' =>
    if c.s.windowWritable c.p w' then put c else .exc ⟨vACCESS, 0x41, spec, w⟩ c
  | .nowhere => .exc ⟨vACCESS, 0x41, spec, w⟩ c

/-- A word written by the executing code, at the cost of one access. -/
def Cx.write (c : Cx) (w v spec : Nat) : Res Unit :=
  (c.writeAs c.pr.priv w v spec).andThen fun _ c => .ok () { c with cost := c.cost + c.accessCost w true }

/-- A written word stored: a full-word write clears a poison mark (R71) and a pending write-back (R70). -/
def Cx.store (c : Cx) (e : Nat × Nat) : Cx :=
  match c.loc e.1 with
  | .tick a => { c with s := (c.s.poke a (natToBytes 8 e.2)).sramStored a 8 }
  | .fabric a => { c with s := c.s.busWrite (midOf c.p c.pr.priv) a e.2 }
  | .window w => { c with s := c.s.windowWrite w e.2 }
  | .nowhere => c

/-- Every word the instruction writes stored, in order. -/
def Cx.storeAll (c : Cx) : Cx := { c.writes.foldl Cx.store c with writes := [] }

/-! ## Special registers (Table 3-3) -/

/-- The value of a special register, zero-extended (R105). -/
def Proc.srRead (pr : Proc) (p s : Nat) : Nat :=
  let w := pr.world p
  if s = 1 then pr.pc.toNat
  else if s = 2 then pr.sw.toNat
  else if s = 3 then pr.spv
  else if s = 4 then pr.fp.toNat
  else if s = 5 then pr.tb.toNat
  else if s = 6 then (pr.evb.getD w 0).toNat
  else if s = 7 then (pr.tsb.getD w 0).toNat
  else if s = 8 then (pr.tsl.getD w 0).toNat
  else if s = 9 then pr.gtb.toNat
  else if 12 ≤ s ∧ s ≤ 15 then (pr.ls.getD (s - 12) 0).toNat
  else if 16 ≤ s ∧ s ≤ 19 then (pr.le.getD (s - 16) 0).toNat
  else if 20 ≤ s ∧ s ≤ 23 then (pr.lc.getD (s - 20) 0).toNat
  else if 24 ≤ s ∧ s ≤ 27 then (pr.lx.getD (s - 24) 0).toNat
  else if 28 ≤ s ∧ s ≤ 31 then (pr.ix.getD (s - 28) 0).toNat
  else 0

/-- The value of an index register in an address sum: signed for IX0 to IX3 (R125). -/
def Proc.index (pr : Proc) (p s : Nat) : Int :=
  if 28 ≤ s then toSigned 36 (pr.srRead p s) else (pr.srRead p s : Int)

/-- The fields of SW a write stores (R110). -/
def Proc.writeSw (pr : Proc) (p v : Nat) : Proc :=
  let w1 := swSet pr.sw 35 28 (v / 2 ^ 28)
  { pr with sw := if pr.super p then swSet w1 23 20 (v / 2 ^ 20) else w1 }

/-- A special register written with a value its rule allows. A write of TSB sets the chain's depth to 0
(R192). -/
def Proc.srPut (pr : Proc) (p s v : Nat) : Proc :=
  let w := pr.world p
  let a := a24 v
  if s = 2 then pr.writeSw p v
  else if s = 3 then { pr with sp := pr.sp.set pr.priv a }
  else if s = 4 then { pr with fp := a }
  else if s = 5 then { pr with tb := a }
  else if s = 6 then { pr with evb := pr.evb.set w a }
  else if s = 7 then { pr with tsb := pr.tsb.set w a, depth := pr.depth.set w 0 }
  else if s = 8 then { pr with tsl := pr.tsl.set w a }
  else if s = 9 then { pr with gtb := a }
  else if 12 ≤ s ∧ s ≤ 15 then { pr with ls := pr.ls.set (s - 12) a }
  else if 16 ≤ s ∧ s ≤ 19 then { pr with le := pr.le.set (s - 16) a }
  else if 20 ≤ s ∧ s ≤ 23 then { pr with lc := pr.lc.set (s - 20) a }
  else if 28 ≤ s ∧ s ≤ 31 then { pr with ix := pr.ix.set (s - 28) (BitVec.ofNat 36 v) }
  else pr

/-- A write to a special register as a destination (R106): an address register refuses a value with any of
bits 35:24 set, a loop count likewise as COUNT_RANGE. -/
def Cx.srWrite (c : Cx) (s v spec : Nat) : Res Unit :=
  if (3 ≤ s ∧ s ≤ 9 ∨ 12 ≤ s ∧ s ≤ 19) ∧ 2 ^ 24 ≤ v then .exc ⟨vADDRESS, 0x23, spec, v⟩ c
  else if 20 ≤ s ∧ s ≤ 23 ∧ 2 ^ 24 ≤ v then .exc ⟨vLOOP, 0x31, spec, 0⟩ c
  else .ok () { c with pr := c.pr.srPut c.p s v }

/-! ## Decode (R112 to R123, R132) -/

/-- Operand sizes (R143): word, double, octet position. -/
inductive Sz where
  | w | d | o
  deriving DecidableEq, Repr

/-- An opcode's specifiers, whether it is dyadic, and its operation cost (Tables 4-2 to 4-11). -/
structure OpDesc where
  a : Option Sz
  b : Option Sz
  c : Option Sz
  dyadic : Bool
  cost : Nat
  deriving DecidableEq, Repr

/-- Mode and small field of a specifier (R112). -/
def specMode (x : Nat) : Nat := x / 32 % 16
def specS (x : Nat) : Nat := x % 32

/-- The extension words of a specifier (Table 3-6). -/
def extWords (x : Nat) (sz : Option Sz) : Nat :=
  let m := specMode x
  if sz = none ∨ x = 0o777 then 0
  else if m = 1 then (if sz = some .d then 2 else 1)
  else if m = 3 ∨ m = 4 ∨ m = 5 ∨ m = 6 ∨ m = 7 ∨ m = 9 ∨ m = 0xB ∨ m = 0xC then 1
  else 0

/-- Whether a special register number is refused by its number (R121). -/
def srRefused (p s : Nat) : Bool := decide (s = 10 ∨ s = 11) || (isFret p && decide (s = 9))

/-- The checks of one specifier (R132, step 2): its mode, unused, its small field, its size and
destination. The answer is the detail code of the first that fails. -/
def specCheck (p x : Nat) (sz : Option Sz) (marker dest : Bool) : Option Nat :=
  let m := specMode x
  let s := specS x
  if m = 0xD ∨ m = 0xE ∨ (m = 0xF ∧ ¬ (marker ∧ x = 0o777)) then some 0x02
  else match sz with
    | none => if x = 0 then none else some 0x03
    | some z =>
      if m = 0xF then none
      else if (m = 2 ∨ m = 5 ∨ m = 0xC) ∧ srRefused p s then some 0x07
      else if (m = 1 ∨ m = 3 ∨ m = 4 ∨ m = 9 ∨ m = 0xB) ∧ s ≠ 0 then some 0x09
      else if (m = 2 ∨ m = 0xC) ∧ z = .d then some 0x08
      else if (m = 0 ∨ m = 1) ∧ dest then some 0x05
      else none

/-- The check of a specifier's extension word (R121, R132 step 4). -/
def extCheck (x ext : Nat) : Bool :=
  let m := specMode x
  if m = 3 ∨ m = 4 ∨ m = 5 ∨ m = 6 ∨ m = 7 ∨ m = 9 ∨ m = 0xB then decide (ext < 2 ^ 24) else true

/-- The check of a special register as a destination (R132 step 5): vector and detail. -/
def srDestCheck (pr : Proc) (p s : Nat) : Option (Nat × Nat) :=
  if s = 1 ∨ (24 ≤ s ∧ s ≤ 27) then some (vILLEGAL, 0x06)
  else if s = 5 ∧ isFret p ∧ ¬ pr.super p then some (vPRIVILEGE, 0x10)
  else if 6 ≤ s ∧ s ≤ 9 ∧ ¬ pr.super p then some (vPRIVILEGE, 0x10)
  else none

/-- A decoded instruction: its specifiers with their extension words, and the address after it. -/
structure Dec where
  a : Nat
  b : Nat
  c : Nat
  ea : List Nat
  eb : List Nat
  ec : List Nat
  next : Nat
  deriving DecidableEq, Repr

/-- The opcodes assigned in stepping B0 (R142, Tables 4-2 to 4-11). -/
def assignedOps : List Nat :=
  [0o001, 0o002, 0o003, 0o004, 0o005, 0o006, 0o010, 0o011, 0o012, 0o013, 0o014, 0o015, 0o016, 0o017, 0o020,
   0o021, 0o022, 0o024, 0o030, 0o031, 0o032, 0o033, 0o034, 0o035, 0o036, 0o037, 0o040, 0o041, 0o042, 0o043] ++
  [0o100, 0o101, 0o102, 0o103, 0o104, 0o105, 0o106, 0o107, 0o110, 0o111, 0o112, 0o113, 0o114, 0o115, 0o116,
   0o117, 0o200, 0o201, 0o202, 0o203, 0o204, 0o210, 0o211, 0o212, 0o213, 0o214, 0o215, 0o216] ++
  [0o300, 0o301, 0o302, 0o303, 0o304, 0o305, 0o306, 0o400, 0o401, 0o402, 0o403, 0o404, 0o405, 0o406, 0o407,
   0o500, 0o501, 0o502, 0o503, 0o600, 0o601, 0o602, 0o603, 0o604, 0o605, 0o606, 0o607]

/-- Whether an opcode is assigned for the executing code (R142): the tick and data-path opcodes on Fret
engines alone, TABANDON in the Trust world alone. -/
def opAssigned (p priv op : Nat) : Bool :=
  assignedOps.contains op && (decide (op < 0o600) || (isFret p && (decide (op ≠ 0o607) || decide (2 ≤ priv))))

/-- Whether a fetch address lies where the processor fetches (R118) and in its world's part (R178). -/
def fetchExc (c : Cx) (w spec : Nat) : Option Exc :=
  if isFret c.p then
    if 0x10000 ≤ w then some ⟨vACCESS, 0x40, spec, w⟩
    else if c.trustLocal w c.pr.priv then some ⟨vACCESS, 0x43, spec, w⟩
    else if 2 ≤ c.pr.priv ∧ w < c.s.get (FE_TSPLIT_SPLIT c.p) then some ⟨vACCESS, 0x44, spec, w⟩
    else none
  else if w < 0x70000 ∨ (0x200000 ≤ w ∧ w < 0x300000) then none
  else some ⟨vACCESS, 0x40, spec, w⟩

/-- A word of the instruction stream fetched (R118, R133). -/
def Cx.fetch (c : Cx) (w : Nat) : Res Nat :=
  match fetchExc c w 0 with
  | some e => .exc e c
  | none =>
    let done (v : Nat) (c : Cx) : Res Nat :=
      .ok (v % 2 ^ 36) { c with cost := c.cost + (if isFret c.p then 1 else c.accessCost w false) }
    match c.loc w with
    | .tick a =>
      match c.s.sramRead a 8 with
      | (some b, s') => done (bytesToNat b) { c with s := s' }
      | (none, s') => .exc ⟨vMEMORY, 0x50, 0, w⟩ { c with s := s' }
    | .fabric a =>
      match c.s.busRead (midOf c.p c.pr.priv) a true with
      | (.ok v, s') => done v (({ c with s := s' } : Cx).afterMiss (c.s.xipMiss a))
      | (.err e, s') => .exc (busExc e 0 w) { c with s := s' }
    | _ => .exc ⟨vACCESS, 0x40, 0, w⟩ c

/-- Consecutive words of the instruction stream fetched. -/
def Cx.fetchN (c : Cx) (w : Nat) : Nat → Res (List Nat)
  | 0 => .ok [] c
  | n + 1 => (c.fetch w).andThen fun v c => (c.fetchN (w + 1) n).andThen fun vs c => .ok (v :: vs) c

/-- Decode of the instruction whose first word has been fetched, with the checks of R132 in order. -/
def Cx.decode (c : Cx) (w : Nat) (d : OpDesc) : Res Dec :=
  let xa := w / 2 ^ 18 % 512
  let xb := w / 2 ^ 9 % 512
  let xc := w % 512
  let ill (det spec : Nat) : Res Dec := .exc ⟨vILLEGAL, det, spec, 0⟩ c
  match specCheck c.p xa d.a d.dyadic false with
  | some det => ill det 1
  | none =>
    match specCheck c.p xb d.b false false with
    | some det => ill det 2
    | none =>
      match specCheck c.p xc d.c false true with
      | some det => ill det 3
      | none =>
        let na := extWords xa d.a
        let nb := extWords xb d.b
        let nc := extWords xc d.c
        if 3 < na + nb + nc then ill 0x04 0
        else
          let pc := c.pr.pc.toNat
          (c.fetchN (pc + 1) (na + nb + nc)).andThen fun ext c =>
            let ea := ext.take na
            let eb := (ext.drop na).take nb
            let ec := ext.drop (na + nb)
            if !(ea.all (extCheck xa)) then .exc ⟨vILLEGAL, 0x09, 1, 0⟩ c
            else if !(eb.all (extCheck xb)) then .exc ⟨vILLEGAL, 0x09, 2, 0⟩ c
            else if !(ec.all (extCheck xc)) then .exc ⟨vILLEGAL, 0x09, 3, 0⟩ c
            else
              let ok : Res Dec := .ok ⟨xa, xb, xc, ea, eb, ec, pc + 1 + na + nb + nc⟩ c
              if d.c.isSome && decide (specMode xc = 2) then
                match srDestCheck c.pr c.p (specS xc) with
                | some (v, det) => .exc ⟨v, det, 3, 0⟩ c
                | none => ok
              else ok

/-! ## Effective addresses (R120 to R127) -/

/-- An evaluated operand: an immediate value, a special register, a memory word (or the first word of a
double), or an octet of a word with its index. -/
inductive Opnd where
  | imm (v : Nat)
  | spr (s : Nat)
  | mem (w : Nat)
  | oct (base : Nat) (o : Nat)
  deriving DecidableEq, Repr

/-- An effective address kept within 24 bits, and a double within the address space (R99, R125). -/
def Cx.ea (c : Cx) (spec : Nat) (sz : Sz) (sum : Int) : Res Opnd :=
  if sum < 0 ∨ (2 ^ 24 : Int) ≤ sum then .exc ⟨vADDRESS, 0x21, spec, ofInt 36 sum⟩ c
  else if sz = .d ∧ sum = (2 ^ 24 - 1 : Int) then .exc ⟨vADDRESS, 0x22, spec, sum.toNat⟩ c
  else .ok (.mem sum.toNat) c

/-- A pointer word checked (R126). -/
def Cx.ptr (c : Cx) (spec : Nat) (sz : Sz) (v : Nat) : Res Opnd :=
  if 2 ^ 24 ≤ v then .exc ⟨vADDRESS, 0x20, spec, v⟩ c else c.ea spec sz v

/-- The step of AINC and ADEC (R122). -/
def ptrStep (sz : Sz) (s : Nat) : Int := if s = 0 then (if sz = .d then 2 else 1) else toSigned 5 s

/-- Phase 1 for one specifier (R120, R129). -/
def Cx.evalSpec (c : Cx) (x : Nat) (ext : List Nat) (sz : Sz) (spec : Nat) : Res Opnd :=
  let m := specMode x
  let s := specS x
  let e := ext.getD 0 0
  let e24 : Nat := e % 2 ^ 24
  if m = 0 then .ok (.imm (ofInt (if sz = .d then 72 else 36) (toSigned 5 s))) c
  else if m = 1 then .ok (.imm (if sz = .d then e * 2 ^ 36 + ext.getD 1 0 else e)) c
  else if m = 2 then .ok (.spr s) c
  else if m = 3 then c.ea spec sz (e24 : Int)
  else if m = 4 then (c.read e24 spec).andThen fun v c => c.ptr spec sz v
  else if m = 5 then c.ea spec sz ((e24 : Int) + c.pr.index c.p s)
  else if m = 6 then
    (c.read e24 spec).andThen fun v c =>
      (c.ptr spec sz v).andThen fun o c =>
        (c.write e24 (ofInt 36 ((v : Int) + ptrStep sz s)) spec).andThen fun _ c => .ok o c
  else if m = 7 then
    (c.read e24 spec).andThen fun v c =>
      let v' := ofInt 36 ((v : Int) - ptrStep sz s)
      (c.write e24 v' spec).andThen fun _ c => c.ptr spec sz v'
  else if m = 8 then c.ea spec sz ((c.pr.fp.toNat : Int) + toSigned 5 s)
  else if m = 9 then c.ea spec sz ((c.pr.fp.toNat : Int) + toSigned 24 e24)
  else if m = 0xA then c.ea spec sz ((c.pr.tb.toNat : Int) + s)
  else if m = 0xB then c.ea spec sz ((c.pr.tb.toNat : Int) + e24)
  else
    let o : Int := (e / 2 ^ 24 : Nat) + c.pr.index c.p s
    if o < 0 then .exc ⟨vADDRESS, 0x24, spec, ofInt 36 o⟩ c
    else (c.ea spec .w ((e24 : Int) + o / 4)).andThen fun _ c => .ok (.oct e24 o.toNat) c

/-! ## Operand reads and writes (R123, R124, R129) -/

/-- Octet `o` of an octet view at a base: its word is read; a clear flag gives zero and sets T. -/
def Cx.readOctet (c : Cx) (base o spec : Nat) : Res Nat :=
  let w := base + o / 4
  if 2 ^ 24 ≤ w then .exc ⟨vADDRESS, 0x21, spec, w⟩ c
  else (c.read w spec).andThen fun v c =>
    let r := octetOf v (o % 4)
    if r.2 then .ok r.1 c else .ok 0 { c with tset := true }

/-- Whether a double at an address is one access: at an even address of local tick memory, common word memory or Capo
word memory (R100). -/
def oneAccess (w : Nat) : Bool := decide (w % 2 = 0) && decide (w < 0x200000)

/-- A double read: bits 71:36 at the lower address (R99); an even one costs one access (R100, R133). -/
def Cx.readDouble (c : Cx) (w spec : Nat) : Res Nat :=
  (c.read w spec).andThen fun hi c =>
    let k := c.cost
    (c.read (w + 1) spec).andThen fun lo c =>
      .ok (2 ^ 36 * hi + lo) (if oneAccess w then { c with cost := k } else c)

/-- Phase 2 read of an operand. -/
def Cx.get (c : Cx) (o : Opnd) (sz : Sz) (spec : Nat) : Res Nat :=
  match o with
  | .imm v => .ok v c
  | .spr s => .ok (c.pr.srRead c.p s) c
  | .mem w => if sz = .d then c.readDouble w spec else c.read w spec
  | .oct b k => c.readOctet b k spec

/-- The word that an octet write reads inside the memory that holds it, under the check of the write (R124). -/
def Cx.rmwRead (c : Cx) (w spec : Nat) : Res Nat :=
  match c.loc w, c.written c.pr.priv w with
  | .fabric a, none =>
    match c.s.busCheck (midOf c.p c.pr.priv) a with
    | (some e, s') => .exc (busExc e spec w) { c with s := s' }
    | (none, s') =>
      match s'.targetRead (midOf c.p c.pr.priv) a with
      | (.ok v, s2) => .ok (v % 2 ^ 36) { c with s := s2 }
      | (.err e, s2) => .exc (busExc e spec w) { c with s := s2 }
  | _, _ => c.readAs c.pr.priv w spec

/-- An octet stored in its word: a read-modify-write that costs one access (R124, R133). -/
def Cx.writeOctet (c : Cx) (base o v spec : Nat) : Res Unit :=
  let w := base + o / 4
  if 2 ^ 24 ≤ w then .exc ⟨vADDRESS, 0x21, spec, w⟩ c
  else (c.rmwRead w spec).andThen fun x c => c.write w (octetPut x (o % 4) v) spec

/-- Phase 4 write of C. -/
def Cx.put (c : Cx) (o : Opnd) (sz : Sz) (v spec : Nat) : Res Unit :=
  match o with
  | .imm _ => .ok () c
  | .spr s => c.srWrite s (v % 2 ^ 36) spec
  | .mem w =>
    if sz = .d then
      (c.write w (v / 2 ^ 36) spec).andThen fun _ c =>
        let k := c.cost
        (c.write (w + 1) v spec).andThen fun _ c =>
          .ok () (if oneAccess w then { c with cost := k } else c)
    else c.write w v spec
  | .oct b k => c.writeOctet b k v spec

end Sys2Proof.Machine
end

