-- ==== Sys2Proof/Machine/Debug.lean ====
section
/-! DEFINITION. The debug masters: the test port (MID 0x70) and the debug window (MID 0x71), under the visibility matrix
(R59, R550 to R553). -/

namespace Sys2Proof.Machine

/-! ## The matrix (Table 15-10) -/

/-- Whether the row gives an instruction of the test port. -/
def State.seesTap (s : State) (i : TapInstr) : Bool :=
  match i with
  | .idcode => true
  | .bypass => true
  | .sample => !(decide (s.life = lcSealed)) && (decide (s.life ≠ lcDebug) || s.on LIFE_STATE_SCOPE)
  | .extest => !(decide (s.life = lcSealed ∨ s.life = lcDebug))
  | .other _ => !(decide (s.life = lcSealed ∨ s.life = lcDebug))

/-- Registers of the blocks TOP and LIFE. -/
def topOrLife (a : Nat) : Bool :=
  inRange a regWindow (regWindow + 0xFFFF) || inRange a (regWindow + 0x15C0000) (regWindow + 0x15CFFFF)

/-- Whether the row gives a fabric access (column N), or a read of TOP or LIFE (column R). -/
def State.seesFabric (s : State) (a : Nat) (op : FabOp) : Bool :=
  (topOrLife a && topOrLife (a + opLen op - 1) && !(opWrites op)) || decide (s.life ≤ lcProvisioned) || decide (s.life = lcDebug)

/-- Whether the row gives H of a processor in some world or ring. -/
def State.mayHalt (s : State) (p : Nat) : Bool := [0, 1, 2, 3].any (fun v => decide (s.sees p v = .full))

/-- Whether the row gives H, or H or R, of the world or ring that a processor executes in. -/
def State.seesNow (s : State) (p : Nat) (write : Bool) : Bool :=
  match s.sees p (s.proc p).priv with
  | .full => true
  | .read => !write
  | .none => false

/-! ## Accesses -/

/-- An access refused by the matrix: counted. -/
def State.debugRefused (s : State) : State := s.inc DEBUG_REFUSED_COUNT

/-- A session of a debug port is active. -/
def State.debugSession (s : State) (mid : Nat) (b : Bool) : State :=
  if mid = 0x70 then s.putB DEBUG_STATUS_TAP b else s.putB DEBUG_STATUS_WINDOW b

/-- An access to a gated unit wakes it. -/
def State.debugWake (s : State) : State := if s.pstate = .p1 then (s.pass (2 * cyclesPerUs)).putGated false else s

/-- A word given to the debug master. -/
def State.debugReply (s : State) (v : Nat) : State := s.replyParts [⟨0, 5, true, false, natToBytes 5 v⟩]

/-- A register as the row shows it: banked to a world or ring that the row does not give it reads zero (R551). -/
def State.debugRegRead (s : State) (p bank n : Nat) : Nat :=
  let pr := s.proc p
  let banked := decide (n = 3) || decide (6 ≤ n ∧ n ≤ 8)
  if banked && decide (s.sees p bank = .none) then 0
  else ({ pr with sw := if banked then swSet pr.sw 1 0 bank else pr.sw }).srRead p n

/-- A register written; PC as its 24 bits; one banked to a world or ring without H keeps its value. -/
def State.debugRegWrite (s : State) (p bank n v : Nat) : State :=
  let pr := s.proc p
  let banked := decide (n = 3) || decide (6 ≤ n ∧ n ≤ 8)
  if n = 1 then s.setProc p { pr with pc := a24 v }
  else if banked then
    (if s.sees p bank = .full then
      s.setProc p { ({ pr with sw := swSet pr.sw 1 0 bank }).srPut p n v with sw := pr.sw }
    else s)
  else s.setProc p (pr.srPut p n v)

/-- A halted processor runs on; the watchdogs that its halt paused count on (R517, R519). -/
def State.debugResume (s : State) (p : Nat) : State :=
  let s1 := s.setProc p { s.proc p with halted := false }
  let s2 : State := { s1 with lcs := { s1.lcs with halters := s1.lcs.halters.filter (fun e => decide (e.2 ≠ p)) } }
  if isFret p then s2.put DEBUG_FEHALT_MASK (s2.get DEBUG_FEHALT_MASK &&& (2 ^ 32 - 1 - 2 ^ p))
  else
    let w := s2.wdog
    let go (at_ : Nat) (q : Option Nat) : Nat := match q with
      | some c => at_ + (s2.clock - c)
      | none => at_
    ({ s2 with wdog := { w with
      capoAt := go w.capoAt w.capoPaused, capoPaused := none, modAt := go w.modAt w.modPaused, modPaused := none } }).put
      DEBUG_STATUS_CAPOHALT 0

/-- What the port does where the logic runs. -/
def State.debugDo (s : State) (mid : Nat) (op : DbgOp) : State :=
  let on (p : Nat) (ok : Bool) (t : State) : State := if p ≤ 32 then (if ok then t else s.debugRefused) else s
  match op with
  | .tap i =>
    if mid ≠ 0x70 then s
    else if s.seesTap i then
      let r := s.free
      (if i = .bypass then s else r.2.debugReply r.1).debugSession mid true
    else s.debugRefused
  | .leave => s.debugSession mid false
  | .fabric a o env =>
    if opLen o = 0 then s
    else if s.seesFabric a o then ((s.debugWake.disturb env).fabricAccess mid a o).debugSession mid true
    else s.debugRefused
  | .regRead p bank n =>
    on p (s.seesNow p false) ((s.debugWake.debugReply (s.debugRegRead p (bank % 4) n)).debugSession mid true)
  | .regWrite p bank n v =>
    on p (s.seesNow p true) ((s.debugWake.debugRegWrite p (bank % 4) n v).debugSession mid true)
  | .resume p =>
    on p (s.mayHalt p) ((if (s.proc p).halted then s.debugResume p else s).debugSession mid true)
  | .step p =>
    on p (s.mayHalt p)
      ((if (s.proc p).halted then
        let s1 := s.debugResume p
        { s1 with lcs := { s1.lcs with stepReq := (mid, p) :: s1.lcs.stepReq } }
      else s).debugSession mid true)
  | .breakSet p w =>
    on p (s.mayHalt p) (({ s with lcs := { s.lcs with
      breaks := (mid, (p, w)) :: s.lcs.breaks.filter (fun e => decide (e ≠ (mid, (p, w)))) } }).debugSession mid true)
  | .breakDel p w =>
    on p (s.mayHalt p) (({ s with lcs := { s.lcs with
      breaks := s.lcs.breaks.filter (fun e => decide (e ≠ (mid, (p, w)))) } }).debugSession mid true)
  | .secret => s.debugRefused

/-- What the test port answers in P2 Retain (R553): IDCODE, BYPASS, a read of LIFE_STATE through the always-on domain. -/
def State.debugAon (s : State) (op : DbgOp) : State :=
  match op with
  | .tap .idcode => let r := s.free; r.2.debugReply r.1
  | .tap .bypass => s
  | .fabric a (.read n) _ =>
    if a = regWindow + LIFE_STATE ∧ n = 4 then
      s.replyParts [⟨a, 4, true, false, natToBytes 4 (s.rd LIFE_STATE).toNat⟩]
    else s
  | _ => s

/-- Whether a MID names a debug master. -/
def debugMid (mid : Nat) : Bool := decide (mid = 0x70 ∨ mid = 0x71)

/-- DEBUG_ACCESS: the matrix, then the Nut for fabric accesses. -/
def execDebugAccess (mid : Nat) (op : DbgOp) (s : State) : Out :=
  if !(debugMid mid) then .next s
  else if s.logicUp then .next (s.debugDo mid op)
  else if s.pstate = .p2 ∧ mid = 0x70 then .next (s.debugAon op)
  else .next s

/-- DEBUG_HALT: a processor is to halt: at once where the matrix gives H of the world or ring it executes in, else when it
enters one (R551); refused where the row gives H of none. -/
def execDebugHalt (mid p : Nat) (s : State) : Out :=
  if debugMid mid && decide (p ≤ 32) && s.logicUp then
    if s.mayHalt p then
      .next ((({ s.debugWake with lcs := { s.lcs with
        haltReq := (mid, p) :: s.lcs.haltReq.filter (fun e => decide (e.2 ≠ p)) } }).debugSession mid true).debugCatch p)
    else .next s.debugRefused
  else .next s

end Sys2Proof.Machine
end

