-- ==== Sys2Proof/Machine/Diurn.lean ====
section
/-! DEFINITION. Execution of one Diurn instruction: entries to handlers, gates and drops (R186 to R196),
returns (R197 to R203), completion with the loop end check (R136), the runner that fetches, decodes and
executes, and the bodies the opcodes share. -/

namespace Sys2Proof.Machine

/-! ## Entries -/

/-- An entry (R187): KIND, vector, HPRIV, chain, new IPL, saved PC, CAUSE and INFO parts, and the entry
address of a gate or drop. -/
structure Entry where
  kind : Nat
  vec : Option Nat
  hpriv : Nat
  chain : Nat
  ipl : Option Nat
  pcSaved : Nat
  detail : Nat
  spec : Nat
  info : Nat
  first : Nat
  target : Nat
  deriving DecidableEq, Repr

/-- The CAUSE word (Table 5-3). -/
def Entry.cause (e : Entry) : Nat :=
  2 ^ 34 * e.kind + 2 ^ 32 * (e.hpriv % 4) + 2 ^ 18 * e.vec.getD 0 + 2 ^ 16 * e.spec + e.detail * 2 ^ 8

/-- The words of a task-state block (Table 5-2). -/
def entryBlock (pr : Proc) (e : Entry) : List Nat :=
  [e.pcSaved, pr.sw.toNat, pr.spv, pr.fp.toNat, pr.tb.toNat] ++ pr.ls.map BitVec.toNat ++
    pr.le.map BitVec.toNat ++ pr.lc.map BitVec.toNat ++ pr.lx.map BitVec.toNat ++
    [e.info % 2 ^ 36, e.cause, e.first]

/-- Whether a block word may lie at an address (R187): local tick memory or common word memory on a Fret
engine, Capo word memory or common word memory on the Capo. -/
def blockPlace (p w : Nat) : Bool :=
  (if isFret p then decide (w < 0x10000) else decide (w < 0x70000)) || decide (0x100000 ≤ w ∧ w < 0x200000)

/-- The privilege state under whose identity a chain's block is written: the world that owns the chain on a
Fret engine, the ring entered on the Capo (R187). -/
def chainPriv (p : Nat) (e : Entry) : Nat := if isFret p then 2 * e.chain + 1 else e.hpriv

/-- Block words written at once, ascending, until one fails. -/
def Cx.putBlock (c : Cx) (priv w : Nat) : List Nat → Bool × Cx
  | [] => (true, c)
  | v :: vs =>
    if blockPlace c.p w then
      match c.writeAs priv w v 0 with
      | .ok _ c' => c'.storeAll.putBlock priv (w + 1) vs
      | .exc _ c' => (false, c')
    else (false, c)

/-- The words of the reserve block written, a failed one ignored (R188). -/
def Cx.putReserve (c : Cx) (priv w : Nat) : List Nat → Cx
  | [] => c
  | v :: vs =>
    if blockPlace c.p w then
      match c.writeAs priv w v 0 with
      | .ok _ c' => c'.storeAll.putReserve priv (w + 1) vs
      | .exc _ c' => c'.putReserve priv (w + 1) vs
    else c.putReserve priv (w + 1) vs

/-- A stack overflow or an entry failure (R188, R189): the reserve block is written; a Fret engine abandons
the tick, the Capo stops and its fault source is raised. -/
def Cx.entryRefused (c : Cx) (pr : Proc) (e : Entry) (fail : Bool) : State :=
  let c1 := c.putReserve (chainPriv c.p e) (pr.tsl.getD e.chain 0).toNat (entryBlock pr e)
  if isFret c.p then c1.s.feAbandon c.p (if fail then .entryFail else .stack)
  else
    (c1.s.setProc c.p { c1.s.proc c.p with run := .stopped }).raise (if fail then SRC_CAPO_ENTRY else SRC_CAPO_STACK) 0

/-- The last entry's register (Table 5-11, Table 5-13). -/
def State.putLastExc (s : State) (p : Nat) (e : Entry) : State :=
  match e.vec with
  | none => s
  | some v =>
    if 2 ≤ e.kind then s
    else if isFret p then
      ((s.put (FE_LASTEXC_VECTOR p) v).put (FE_LASTEXC_DETAIL p) e.detail).put (FE_LASTEXC_HPRIV p) e.hpriv
    else ((s.put CAPO_LASTEXC_VECTOR v).put CAPO_LASTEXC_DETAIL e.detail).put CAPO_LASTEXC_HPRIV e.hpriv

/-- An entry from the state of registers `pr` (R187, R190, R191). The answer says whether it was made. -/
def Cx.enter (c : Cx) (pr : Proc) (e : Entry) : Bool × State :=
  let tsb := (pr.tsb.getD e.chain 0).toNat
  let tsl := (pr.tsl.getD e.chain 0).toNat
  if (tsb : Int) - 24 < (tsl : Int) then (false, c.entryRefused pr e false)
  else
    let handler : Option Nat × Cx :=
      match e.vec with
      | none => (some e.target, c)
      | some v =>
        match c.readAs e.hpriv ((pr.evb.getD (worldOf c.p e.hpriv) 0).toNat + v) 0 with
        | .ok h c' => (if 2 ^ 24 ≤ h then none else some h,
            { c' with cost := c'.cost + c'.accessCost ((pr.evb.getD (worldOf c.p e.hpriv) 0).toNat + v) false })
        | .exc _ c' => (none, c')
    match handler with
    | (none, c1) => (false, c1.entryRefused pr e true)
    | (some h, c1) =>
      match c1.putBlock (chainPriv c.p e) tsb (entryBlock pr e) with
      | (false, c2) => (false, c2.entryRefused pr e true)
      | (true, c2) =>
        let sw0 : Word36 := BitVec.ofNat 36 (e.hpriv + 2 ^ 20 * (e.ipl.getD pr.ipl))
        let start := c2.s.procStart c.p
        let pr' : Proc := { pr with
          tsb := pr.tsb.set e.chain (a24 (tsb - 24))
          depth := pr.depth.set e.chain (pr.depth.getD e.chain 0 + 1)
          sw := sw0
          pc := a24 h
          run := .running
          parkEntry := false
          now := start + c2.cost + 6 + 24 * c2.accessCost tsb true }
        (true, (c2.s.setProc c.p pr').putLastExc c.p e)

/-- The privilege state a synchronous exception's handler runs in (R194). -/
def excHpriv (p priv : Nat) : Nat := if isFret p then priv / 2 * 2 + 1 else 0

/-- A synchronous exception: the instruction has no effect (R130), the entry is made. What its reads did to registers
over the fabric stays (log entry 113). -/
def Cx.takeExc (c : Cx) (x : Exc) : State :=
  let pr := c.s.proc c.p
  let h := excHpriv c.p pr.priv
  (({ c with pr := pr, writes := [] }).enter pr
    ⟨0, some x.vector, h, worldOf c.p h, none, pr.pc.toNat, x.detail, x.spec, x.info, c.first, 0⟩).2

/-! ## Completion -/

/-- The loop end check (R136): the next address after it, and the processor's registers. -/
def Proc.endCheck : Nat → Proc → Nat → Proc × Nat
  | 0, pr, next => (pr, next)
  | k + 1, pr, next =>
    let d := pr.ldepth
    if d = 0 then (pr, next)
    else
      let i := d - 1
      if (pr.le.getD i 0).toNat = next then
        let lc := (pr.lc.getD i 0).toNat
        if 1 < lc then
          ({ pr with lc := pr.lc.set i (a24 (lc - 1)), lx := pr.lx.set i (a24 ((pr.lx.getD i 0).toNat + 1)) },
            (pr.ls.getD i 0).toNat)
        else Proc.endCheck k { pr with lc := pr.lc.set i 0, sw := swSet pr.sw 19 17 (d - 1) } next
      else (pr, next)

/-- An instruction completes: its writes are stored, T is set if an octet was missing, the end check is made
unless a branch was taken, its cycles pass for the processor. -/
def Cx.finish (c : Cx) (next : Nat) (taken : Option Nat) (opCost : Nat) : State :=
  let c1 := c.storeAll
  let pr0 := if c.tset then c1.pr.setBit 30 true else c1.pr
  let r := match taken with
    | some t => (pr0, t)
    | none => Proc.endCheck 4 pr0 next
  c1.s.setProc c.p { r.1 with
    pc := a24 r.2, parkEntry := false, now := c.s.procStart c.p + c.cost + opCost }

/-! ## The runner -/

/-- Whether the budget-exceeded exception is due to an engine at its boundary (R38): tick + W has come, and it
has not been delivered in this tick. -/
def State.budgetDue (s : State) (p : Nat) : Bool :=
  isFret p && s.time.inTick && !(s.proc p).budgetGiven &&
    decide (s.time.edge + s.get TICK_WORK_W ≤ s.procStart p)

/-- Whether the next tick edge is due before an engine's next instruction begins. -/
def State.edgeDue (s : State) (p : Nat) : Bool :=
  isFret p && s.time.ticking && decide (s.edgeCycle ≤ s.procStart p)

/-- Whether a processor executes its next instruction now: the module is powered, it runs, is not halted, no
entry is due at the boundary (R196), no tick edge comes first. -/
def State.canStep (s : State) (p : Nat) : Bool :=
  s.logicUp && decide (p ≤ 32) && decide ((s.proc p).run = .running) && !(s.proc p).halted && !(s.budgetDue p) &&
    !(s.edgeDue p) && (s.irqChoice p).isNone

/-- The start of an instruction. -/
def State.cx (s : State) (p : Nat) : Cx := ⟨s, p, s.proc p, [], false, 0, 0⟩

/-- What an instruction did, unless the tick edge comes before it is complete: it then does not complete, and the
engine is abandoned at it (R41). -/
def State.beforeEdge (s : State) (p : Nat) (t : State) : State :=
  if isFret p && s.time.ticking && decide (s.edgeCycle < (t.proc p).now) then s else t

/-- One instruction of an opcode: fetched at the processor's PC, checked, executed. A fetch that fails takes
its exception; another opcode than this row's is not this row's event (log entry 11). -/
def State.runInstr (s : State) (p code : Nat) (d : OpDesc) (body : Dec → Cx → Res State) : State :=
  if s.canStep p then
    match (s.cx p).fetch (s.proc p).pc.toNat with
    | .exc e c => (s.beforeEdge p (c.takeExc e)).debugCatch p
    | .ok w c =>
      if w / 2 ^ 27 = code && opAssigned p (s.proc p).priv code then
        match (({ c with first := w }).decode w d).andThen body with
        | .ok t _ => (s.beforeEdge p t).debugCatch p
        | .exc e c => (s.beforeEdge p (c.takeExc e)).debugCatch p
      else s
  else s

/-- The operands after phase 1, in the order A, B, C; the marker takes C for A (R115). -/
structure Opnds where
  a : Opnd
  b : Opnd
  c : Opnd
  marker : Bool
  deriving DecidableEq, Repr

/-- Phase 1 of a specifier that is used. -/
def Cx.evalOpt (c : Cx) (x : Nat) (ext : List Nat) (sz : Option Sz) (spec : Nat) : Res Opnd :=
  match sz with
  | none => .ok (.imm 0) c
  | some z => if x = 0o777 then .ok (.imm 0) c else c.evalSpec x ext z spec

/-- Phase 1 (R129). -/
def Cx.phase1 (c : Cx) (d : OpDesc) (i : Dec) : Res Opnds :=
  (c.evalOpt i.a i.ea d.a 1).andThen fun a c =>
    (c.evalOpt i.b i.eb d.b 2).andThen fun b c =>
      (c.evalOpt i.c i.ec d.c 3).andThen fun o c =>
        .ok ⟨if i.a = 0o777 then o else a, b, o, decide (i.a = 0o777)⟩ c

/-- Phase 2 read of an operand that the opcode has. -/
def Cx.getOpt (c : Cx) (o : Opnd) (sz : Option Sz) (spec : Nat) : Res Nat :=
  match sz with
  | none => .ok 0 c
  | some z => c.get o z spec

/-- The flags an operation sets, S with V (R109, R144). -/
def Proc.setFlags (pr : Proc) (r : AluOut) : Proc :=
  let p1 := (((pr.setBit? 35 r.n).setBit? 34 r.z).setBit? 33 r.v).setBit? 32 r.c
  if r.v = some true then p1.setBit 31 true else p1

/-- The exceptions of R145: division by zero with DZE, signed overflow with OVE. -/
def aluExc (pr : Proc) (r : AluOut) : Option Exc :=
  if r.divZero && pr.dze then some ⟨vDIVIDE, 0x60, 0, 0⟩
  else if r.v = some true && pr.ove && !r.divZero then some ⟨vOVERFLOW, 0x61, 0, 0⟩
  else none

/-- Phases 3 and 4 of an operation with a result: flags, exceptions, the write of C; a result written to SW
leaves the operation's flags out (R111), though not their overflow exception (log entry 114). -/
def Cx.aluEnd (c : Cx) (d : OpDesc) (o : Opnds) (r : AluOut) (next : Nat) : Res State :=
  match aluExc c.pr r with
  | some e => .exc e c
  | none =>
    match d.c with
    | none => .ok (({ c with pr := c.pr.setFlags r }).finish next none d.cost) c
    | some z =>
      if o.c = .spr 2 then
        (({ c with tset := false }).put o.c z r.val 3).andThen fun _ c => .ok (c.finish next none d.cost) c
      else
        (c.put o.c z r.val 3).andThen fun _ c =>
          .ok (({ c with pr := c.pr.setFlags r }).finish next none d.cost) c

/-- The body of an opcode that computes from A, B and, where it reads it, C (R129). -/
def aluBody (d : OpDesc) (readC : Bool) (f : Nat → Nat → Nat → Proc → AluOut) (i : Dec) (c : Cx) : Res State :=
  (c.phase1 d i).andThen fun o c =>
    (c.getOpt o.a d.a (if o.marker then 3 else 1)).andThen fun a c =>
      (c.getOpt o.b d.b 2).andThen fun b c =>
        (if readC then c.getOpt o.c d.c 3 else .ok 0 c).andThen fun cv c =>
          c.aluEnd d o (f a b cv c.pr) i.next

/-- A word opcode with one source, and with two. -/
def dUn (cost : Nat) : OpDesc := ⟨some .w, none, some .w, false, cost⟩
def dBin (cost : Nat) : OpDesc := ⟨some .w, some .w, some .w, true, cost⟩
def dBinN (cost : Nat) : OpDesc := ⟨some .w, some .w, some .w, false, cost⟩
def dNone (cost : Nat) : OpDesc := ⟨none, none, none, false, cost⟩
def dA (cost : Nat) : OpDesc := ⟨some .w, none, none, false, cost⟩
def dC (cost : Nat) : OpDesc := ⟨none, none, some .w, false, cost⟩

/-! ## Control transfer (R148 to R152) -/

/-- A branch: the target is A's value, checked as a pointer when taken (R148). -/
def branchBody (d : OpDesc) (cond : Proc → Bool) (i : Dec) (c : Cx) : Res State :=
  (c.phase1 d i).andThen fun o c =>
    (c.getOpt o.a d.a 1).andThen fun t c =>
      let pr := if c.tset then c.pr.setBit 30 true else c.pr
      if cond pr then
        if 2 ^ 24 ≤ t then .exc ⟨vADDRESS, 0x20, 1, t⟩ c
        else .ok (c.finish i.next (some t) (d.cost + 1)) c
      else .ok (c.finish i.next none d.cost) c

/-- A new stack pointer and the pushed word (R149). -/
def Cx.push (c : Cx) (v : Nat) : Res Nat :=
  let sp := c.pr.spv
  if sp = 0 then .exc ⟨vADDRESS, 0x21, 0, 2 ^ 36 - 1⟩ c
  else (c.write (sp - 1) v 0).andThen fun _ c => .ok (sp - 1) c

/-- The word on top of the stack and the new stack pointer (R149). -/
def Cx.pop (c : Cx) (sp : Nat) : Res Nat :=
  if sp + 1 = 2 ^ 24 then .exc ⟨vADDRESS, 0x21, 0, 2 ^ 24⟩ c else c.read sp 0

/-- SP of the current privilege state replaced. -/
def Cx.setSp (c : Cx) (v : Nat) : Cx := { c with pr := c.pr.srPut c.p 3 v }

def nopBody (i : Dec) (c : Cx) : Res State := .ok (c.finish i.next none 0) c

def jmpBody (i : Dec) (c : Cx) : Res State :=
  (c.phase1 (dA 1) i).andThen fun o c =>
    (c.getOpt o.a (some .w) 1).andThen fun t c =>
      if 2 ^ 24 ≤ t then .exc ⟨vADDRESS, 0x20, 1, t⟩ c else .ok (c.finish i.next (some t) 1) c

/-- CALL: its target is checked before the push (R149; log entry 115). -/
def callBody (i : Dec) (c : Cx) : Res State :=
  (c.phase1 (dA 2) i).andThen fun o c =>
    (c.getOpt o.a (some .w) 1).andThen fun t c =>
      if 2 ^ 24 ≤ t then .exc ⟨vADDRESS, 0x20, 1, t⟩ c
      else (c.push i.next).andThen fun sp c => .ok ((c.setSp sp).finish i.next (some t) 2) c

def retBody (i : Dec) (c : Cx) : Res State :=
  (c.pop c.pr.spv).andThen fun t c =>
    if 2 ^ 24 ≤ t then .exc ⟨vADDRESS, 0x20, 0, t⟩ c
    else .ok ((c.setSp (c.pr.spv + 1)).finish i.next (some t) 2) c

/-- LOOP (R135): depth, count and end checked in order; a count of 0 is a taken branch. -/
def loopBody (i : Dec) (c : Cx) : Res State :=
  (c.phase1 ⟨some .w, some .w, none, false, 2⟩ i).andThen fun o c =>
    (c.getOpt o.a (some .w) 1).andThen fun n c =>
      (c.getOpt o.b (some .w) 2).andThen fun e c =>
        let d := c.pr.ldepth
        if 4 ≤ d then .exc ⟨vLOOP, 0x30, 0, 0⟩ c
        else if 2 ^ 24 ≤ n then .exc ⟨vLOOP, 0x31, 1, 0⟩ c
        else if 2 ^ 24 ≤ e ∨ e ≤ i.next then .exc ⟨vLOOP, 0x32, 2, 0⟩ c
        else if n = 0 then .ok (c.finish i.next (some e) 2) c
        else
          .ok (({ c with pr := { c.pr with
            ls := c.pr.ls.set d (a24 i.next), le := c.pr.le.set d (a24 e), lc := c.pr.lc.set d (a24 n),
            lx := c.pr.lx.set d 0, sw := swSet c.pr.sw 19 17 (d + 1) } }).finish i.next none 2) c

/-- LPOP closes the innermost level (R151). -/
def lpopBody (i : Dec) (c : Cx) : Res State :=
  let d := c.pr.ldepth
  if d = 0 then .ok (c.finish i.next none 1) c
  else
    .ok (({ c with pr := { c.pr with
      lc := c.pr.lc.set (d - 1) 0, lx := c.pr.lx.set (d - 1) 0, sw := swSet c.pr.sw 19 17 (d - 1) } }).finish
      i.next none 1) c

/-- WAIT stops instruction fetch until an entry (R152). -/
def waitBody (i : Dec) (c : Cx) : Res State :=
  let s := c.finish i.next none 1
  .ok (s.setProc c.p { s.proc c.p with run := .wait }) c

def pushBody (i : Dec) (c : Cx) : Res State :=
  (c.phase1 (dA 1) i).andThen fun o c =>
    (c.getOpt o.a (some .w) 1).andThen fun v c =>
      (c.push v).andThen fun sp c => .ok ((c.setSp sp).finish i.next none 1) c

def popBody (i : Dec) (c : Cx) : Res State :=
  (c.phase1 (dC 1) i).andThen fun o c =>
    (c.pop c.pr.spv).andThen fun v c =>
      ((c.setSp (c.pr.spv + 1)).put o.c .w v 3).andThen fun _ c =>
        .ok ((if o.c = .spr 2 then { c with tset := false } else c).finish i.next none 1) c

/-- ENTER: FP pushed, FP ← SP, SP ← SP − A (R149). -/
def enterBody (i : Dec) (c : Cx) : Res State :=
  (c.phase1 (dA 2) i).andThen fun o c =>
    (c.getOpt o.a (some .w) 1).andThen fun a c =>
      if 2 ^ 24 ≤ a then .exc ⟨vADDRESS, 0x23, 1, a⟩ c
      else
        (c.push c.pr.fp.toNat).andThen fun sp c =>
          if sp < a then .exc ⟨vADDRESS, 0x21, 0, ofInt 36 ((sp : Int) - a)⟩ c
          else .ok ((({ c with pr := { c.pr with fp := a24 sp } }).setSp (sp - a)).finish i.next none 2) c

/-- LEAVE: SP ← FP, FP ← pop (R149). -/
def leaveBody (i : Dec) (c : Cx) : Res State :=
  let sp := c.pr.fp.toNat
  (c.pop sp).andThen fun v c =>
    if 2 ^ 24 ≤ v then .exc ⟨vADDRESS, 0x23, 0, v⟩ c
    else .ok ((({ c with pr := { c.pr with fp := a24 v } }).setSp (sp + 1)).finish i.next none 2) c

/-! ## Returns and gates (R197 to R203) -/

/-- The words of a block read under the identity of a chain. -/
def Cx.readBlock (c : Cx) (priv w : Nat) : Nat → Res (List Nat)
  | 0 => .ok [] c
  | n + 1 => (c.readAs priv w 0).andThen fun v c => (c.readBlock priv (w + 1) n).andThen fun vs c => .ok (v :: vs) c

/-- The bits of SW that a return restores: the fields of Table 3-4. -/
def swFields (v : Nat) : Nat := 2 ^ 28 * (v / 2 ^ 28) + 2 ^ 17 * (v / 2 ^ 17 % 2 ^ 7) + v % 4

/-- Whether a restored privilege state is permitted from the current one (R198). -/
def privDown (p cur new : Nat) : Bool :=
  if isFret p then decide (new / 2 < cur / 2) || (decide (new / 2 = cur / 2) && decide (new % 2 ≤ cur % 2))
  else decide (cur ≤ new)

/-- Whether a block's values are refused (R197, step 4). -/
def blockRefused (p cur : Nat) (b : List Nat) (order : Bool) : Bool :=
  (([0, 2, 3, 4] ++ (List.range 12).map (· + 5)).any (fun k => decide (2 ^ 24 ≤ b.getD k 0))) ||
    decide (4 < b.getD 1 0 / 2 ^ 17 % 8) || (order && !(privDown p cur (b.getD 1 0 % 4)))

/-- Words 0 to 20 of a block restored, the block taken off its chain (R199). -/
def Proc.restore (pr : Proc) (p ch : Nat) (b : List Nat) (keepFlags : Bool) : Proc :=
  let sw0 : Word36 := BitVec.ofNat 36 (swFields (b.getD 1 0))
  let sw1 := if keepFlags then swSet sw0 35 32 (swGet pr.sw 35 32) else sw0
  let bank := swGet sw0 1 0
  let four (k : Nat) : List Addr24 := ((b.drop k).take 4).map a24
  { pr with
    pc := a24 (b.getD 0 0)
    sw := sw1
    sp := pr.sp.set bank (a24 (b.getD 2 0))
    fp := a24 (b.getD 3 0)
    tb := a24 (b.getD 4 0)
    ls := four 5
    le := four 9
    lc := four 13
    lx := four 17
    tsb := pr.tsb.set ch (a24 ((pr.tsb.getD ch 0).toNat + 24))
    depth := pr.depth.set ch (pr.depth.getD ch 0 - 1)
    now := if isFret p then pr.now else pr.now }

/-- A return that has passed its checks: registers restored, cycles passed, the source of an interrupt block
completed (R200). -/
def Cx.doReturn (c : Cx) (ch : Nat) (b : List Nat) (keepFlags : Bool) (rx : Bool) : State :=
  let start := c.s.procStart c.p
  let c1 := c.storeAll
  let pr := (if c.tset then c1.pr.setBit 30 true else c1.pr).restore c.p ch b keepFlags
  let s1 := c1.s.setProc c.p { pr with
    parkEntry := false
    now := start + c.cost + 6 + 24 * c.accessCost ((c.pr.tsb.getD ch 0).toNat + 24) false }
  if rx && decide (b.getD 22 0 / 2 ^ 34 = 1) then
    let i := b.getD 21 0
    if i < 512 && s1.on (INTC_SRC_ACTIVE i) && decide (s1.get (INTC_SRC_TARGET i) = c.p) then s1.irqComplete i
    else if isFret c.p then s1.inc (FE_RETIGN_COUNT c.p) else s1.inc CAPO_RETIGN_COUNT
  else s1

/-- RETX and RETG with their checks in order (R197): EMPTY, KIND, PRIV, VALUE. -/
def returnBody (rx : Bool) (_i : Dec) (c : Cx) : Res State :=
  let ch := c.pr.world c.p
  if c.pr.depth.getD ch 0 = 0 then .exc ⟨vRETURN, 0x78, 0, 0⟩ c
  else
    (c.readBlock c.pr.priv ((c.pr.tsb.getD ch 0).toNat + 24) 24).andThen fun b c =>
      let kind := b.getD 22 0 / 2 ^ 34
      if (if rx then decide (2 ≤ kind) else decide (kind ≠ 2)) then .exc ⟨vRETURN, 0x79, 0, 0⟩ c
      else if b.getD 22 0 / 2 ^ 32 % 4 ≠ c.pr.priv then .exc ⟨vRETURN, 0x7A, 0, 0⟩ c
      else if blockRefused c.p c.pr.priv b true then .exc ⟨vRETURN, 0x7B, 0, 0⟩ c
      else .ok (c.doReturn ch b (!rx) rx) c

/-- GATE 63: a return through the top drop block of the Trust chain (R202). -/
def Cx.gate63 (c : Cx) : Res State :=
  if c.pr.depth.getD 1 0 = 0 then .exc ⟨vGATE, 0x74, 0, 0⟩ c
  else
    (c.readBlock 3 ((c.pr.tsb.getD 1 0).toNat + 24) 24).andThen fun b c =>
      if b.getD 22 0 / 2 ^ 34 ≠ 3 then .exc ⟨vGATE, 0x74, 0, 0⟩ c
      else if blockRefused c.p c.pr.priv b false then .exc ⟨vRETURN, 0x7B, 0, 0⟩ c
      else .ok (c.doReturn 1 b true false) c

/-- A gate or drop entered: the calling code's pointer updates are stored, then the entry is made. -/
def Cx.gateEnter (c : Cx) (e : Entry) : Res State :=
  let c1 := c.storeAll
  let pr := if c.tset then c1.pr.setBit 30 true else c1.pr
  .ok (c1.enter pr e).2 c

/-- GATE on a Fret engine (R201, R202, Table 5-6). -/
def Cx.gateFret (c : Cx) (g next : Nat) : Res State :=
  let pv := c.pr.priv
  let n := c.p
  let en (kind : Nat) (vec : Option Nat) (hpriv ch target : Nat) : Entry :=
    ⟨kind, vec, hpriv, ch, none, next, 0, 0, g, c.first, target⟩
  if pv < 2 then
    if g ≤ 62 then c.gateEnter (en 2 none 3 1 (c.s.get (FE_TGATE_ADDR n)))
    else if g = 63 then c.gate63
    else if g ≤ 127 then
      if pv = 0 then c.gateEnter (en 2 (some vSERVICE) 1 0 0) else .exc ⟨vGATE, 0x75, 0, 0⟩ c
    else .exc ⟨vGATE, 0x70, 0, 0⟩ c
  else
    if 64 ≤ g ∧ g ≤ 127 then
      if pv = 2 then c.gateEnter (en 2 (some vSERVICE) 3 1 0) else .exc ⟨vGATE, 0x75, 0, 0⟩ c
    else if 128 ≤ g ∧ g ≤ 135 then
      if pv = 3 then
        let k := g - 128
        if c.s.on (FE_SENTRY_V n k) then
          c.gateEnter (en 3 none (c.s.get (FE_SENTRY_LEVEL n k)) 1 (c.s.get (FE_SENTRY_ADDR n k)))
        else .exc ⟨vGATE, 0x71, 0, 0⟩ c
      else .exc ⟨vGATE, 0x75, 0, 0⟩ c
    else .exc ⟨vGATE, 0x70, 0, 0⟩ c

/-- GATE on the Capo (R203, Table 5-7). -/
def Cx.gateCapo (c : Cx) (g next : Nat) : Res State :=
  if c.s.get CAPO_GATES_COUNT ≤ g then .exc ⟨vGATE, 0x70, 0, 0⟩ c
  else
    (c.read (c.pr.gtb.toNat + g) 0).andThen fun w c =>
      if w / 2 ^ 35 ≠ 1 ∨ w / 2 ^ 28 % 2 ^ 7 ≠ 0 then .exc ⟨vGATE, 0x71, 0, 0⟩ c
      else if w / 2 ^ 26 % 4 < c.pr.priv then .exc ⟨vGATE, 0x72, 0, 0⟩ c
      else if c.pr.priv < w / 2 ^ 24 % 4 then .exc ⟨vGATE, 0x73, 0, 0⟩ c
      else c.gateEnter ⟨2, none, w / 2 ^ 24 % 4, 0, none, next, 0, 0, g, c.first, w % 2 ^ 24⟩

/-- GATE: its operand is the gate number. -/
def gateBody (i : Dec) (c : Cx) : Res State :=
  (c.phase1 (dA 0) i).andThen fun o c =>
    (c.getOpt o.a (some .w) 1).andThen fun g c => if isFret c.p then c.gateFret g i.next else c.gateCapo g i.next

/-! ## Octets (R161 to R163) -/

/-- `n` octets of an operand from octet `k`: of the octet view at its base in mode OCT, of its one word
otherwise; big-endian. Each word touched is read once, and with no octet none is (log entry 116). -/
def Cx.octets (c : Cx) (o : Opnd) (acc k : Nat) : Nat → Res Nat
  | 0 => .ok acc c
  | n + 1 =>
    match o with
    | .oct b i =>
      let w := b + (i + k) / 4
      if 2 ^ 24 ≤ w then .exc ⟨vADDRESS, 0x21, 1, w⟩ c
      else
        let kept := c.cost
        (c.read w 1).andThen fun v c =>
          let c := if k ≠ 0 ∧ (i + k) % 4 ≠ 0 then { c with cost := kept } else c
          let r := octetOf v ((i + k) % 4)
          ({ c with tset := c.tset || !r.2 }).octets o (acc * 256 + (if r.2 then r.1 else 0)) (k + 1) n
    | _ =>
      let kept := c.cost
      (c.get o .w 1).andThen fun v c =>
        let c := if k ≠ 0 then { c with cost := kept } else c
        let r := if k < 4 then octetOf v k else (0, false)
        ({ c with tset := c.tset || !r.2 }).octets o (acc * 256 + (if r.2 then r.1 else 0)) (k + 1) n

/-- OGET: B is read before the octets of A; N cleared, Z from the result (R161). -/
def ogetBody (i : Dec) (c : Cx) : Res State :=
  let d : OpDesc := ⟨some .o, some .w, some .w, false, 1⟩
  (c.phase1 d i).andThen fun o c =>
    (c.getOpt o.b (some .w) 2).andThen fun n c =>
      (c.octets o.a 0 0 (min n 4)).andThen fun v c =>
        c.aluEnd d o ⟨v, some false, some (decide (v = 0)), none, none, false⟩ i.next

/-- `n` octets of A stored from octet `k` of the octet view at C (R162). -/
def Cx.putOctets (c : Cx) (b i a n k : Nat) : Nat → Res Unit
  | 0 => .ok () c
  | m + 1 =>
    let kept := c.cost
    (c.writeOctet b (i + k) (a / 2 ^ (8 * (n - 1 - k)) % 256) 3).andThen fun _ c =>
      let c := if k ≠ 0 ∧ (i + k) % 4 ≠ 0 then { c with cost := kept } else c
      c.putOctets b i a n (k + 1) m

/-- OPUT (R162). -/
def oputBody (i : Dec) (c : Cx) : Res State :=
  let d : OpDesc := ⟨some .w, some .w, some .o, false, 1⟩
  (c.phase1 d i).andThen fun o c =>
    (c.getOpt o.a (some .w) 1).andThen fun a c =>
      (c.getOpt o.b (some .w) 2).andThen fun nb c =>
        let n := min nb 4
        match o.c with
        | .oct b k => (c.putOctets b k a n 0 n).andThen fun _ c => .ok (c.finish i.next none 1) c
        | _ =>
          let c := if o.c = .spr 2 then { c with tset := false } else c
          (c.put o.c .w (octetsWord a n n) 3).andThen fun _ c => .ok (c.finish i.next none 1) c

/-- BERLEN: result u and len, Z from len, V for an unusable length (R163). -/
def berlenBody (i : Dec) (c : Cx) : Res State :=
  let d : OpDesc := ⟨some .o, none, some .w, false, 3⟩
  (c.phase1 d i).andThen fun o c =>
    (c.octets o.a 0 0 1).andThen fun first c =>
      let u := berUsed first
      let restCx : Res Nat := if u = 1 then .ok 0 c else c.octets o.a 0 1 (u - 1)
      restCx.andThen fun rest c =>
        let oct (k : Nat) : Nat := if k = 0 then first else rest / 2 ^ (8 * (u - 1 - k)) % 256
        let r := berLen oct
        c.aluEnd d o ⟨2 ^ 24 * r.1 + r.2.1, some false, some (decide (r.2.1 = 0)), some r.2.2, none, false⟩ i.next

end Sys2Proof.Machine
end

