-- ==== Sys2Proof/Machine/DiurnRows.lean ====
section
/-! DEFINITION. The opcodes of the Diurn instruction set but the tick and data-path group: each is its
opcode, its operands and cost (Tables 4-2 to 4-9) and its body. -/

namespace Sys2Proof.Machine

/-- NOP does nothing (R142). -/
def execNop (p : Nat) (s : State) : Out := .next (s.runInstr p 0o001 (dNone 0) nopBody)

/-- JMP: PC ← A, checked as a pointer (R148). -/
def execJmp (p : Nat) (s : State) : Out := .next (s.runInstr p 0o002 (dA 1) jmpBody)

/-- CALL pushes the return address and jumps to A (R149). -/
def execCall (p : Nat) (s : State) : Out := .next (s.runInstr p 0o003 (dA 2) callBody)

/-- RET pops a word, checks it and jumps to it (R149). -/
def execRet (p : Nat) (s : State) : Out := .next (s.runInstr p 0o004 (dNone 2) retBody)

/-- LOOP opens a loop level (R135). -/
def execLoop (p : Nat) (s : State) : Out := .next (s.runInstr p 0o005 ⟨some .w, some .w, none, false, 2⟩ loopBody)

/-- LPOP closes the innermost level (R151). -/
def execLpop (p : Nat) (s : State) : Out := .next (s.runInstr p 0o006 (dNone 1) lpopBody)

/-- BEQ branches when Z = 1 (R148, Table 4-3). -/
def execBeq (p : Nat) (s : State) : Out := .next (s.runInstr p 0o010 (dA 1) (branchBody (dA 1) fun pr => pr.flagZ))

/-- BNE branches when Z = 0 (R148, Table 4-3). -/
def execBne (p : Nat) (s : State) : Out := .next (s.runInstr p 0o011 (dA 1) (branchBody (dA 1) fun pr => !pr.flagZ))

/-- BLT branches when N ≠ V (R148, Table 4-3). -/
def execBlt (p : Nat) (s : State) : Out := .next (s.runInstr p 0o012 (dA 1) (branchBody (dA 1) fun pr => pr.flagN != pr.flagV))

/-- BGE branches when N = V (R148, Table 4-3). -/
def execBge (p : Nat) (s : State) : Out := .next (s.runInstr p 0o013 (dA 1) (branchBody (dA 1) fun pr => pr.flagN == pr.flagV))

/-- BLTU branches when C = 1 (R148, Table 4-3). -/
def execBltu (p : Nat) (s : State) : Out := .next (s.runInstr p 0o014 (dA 1) (branchBody (dA 1) fun pr => pr.flagC))

/-- BGEU branches when C = 0 (R148, Table 4-3). -/
def execBgeu (p : Nat) (s : State) : Out := .next (s.runInstr p 0o015 (dA 1) (branchBody (dA 1) fun pr => !pr.flagC))

/-- BMI branches when N = 1 (R148, Table 4-3). -/
def execBmi (p : Nat) (s : State) : Out := .next (s.runInstr p 0o016 (dA 1) (branchBody (dA 1) fun pr => pr.flagN))

/-- BPL branches when N = 0 (R148, Table 4-3). -/
def execBpl (p : Nat) (s : State) : Out := .next (s.runInstr p 0o017 (dA 1) (branchBody (dA 1) fun pr => !pr.flagN))

/-- BGT branches when Z = 0 and N = V (R148, Table 4-3). -/
def execBgt (p : Nat) (s : State) : Out := .next (s.runInstr p 0o030 (dA 1) (branchBody (dA 1) fun pr => !pr.flagZ && (pr.flagN == pr.flagV)))

/-- BLE branches when Z = 1 or N ≠ V (R148, Table 4-3). -/
def execBle (p : Nat) (s : State) : Out := .next (s.runInstr p 0o031 (dA 1) (branchBody (dA 1) fun pr => pr.flagZ || (pr.flagN != pr.flagV)))

/-- BHI branches when C = 0 and Z = 0 (R148, Table 4-3). -/
def execBhi (p : Nat) (s : State) : Out := .next (s.runInstr p 0o032 (dA 1) (branchBody (dA 1) fun pr => !pr.flagC && !pr.flagZ))

/-- BLS branches when C = 1 or Z = 1 (R148, Table 4-3). -/
def execBls (p : Nat) (s : State) : Out := .next (s.runInstr p 0o033 (dA 1) (branchBody (dA 1) fun pr => pr.flagC || pr.flagZ))

/-- BVS branches when V = 1 (R148, Table 4-3). -/
def execBvs (p : Nat) (s : State) : Out := .next (s.runInstr p 0o034 (dA 1) (branchBody (dA 1) fun pr => pr.flagV))

/-- BVC branches when V = 0 (R148, Table 4-3). -/
def execBvc (p : Nat) (s : State) : Out := .next (s.runInstr p 0o035 (dA 1) (branchBody (dA 1) fun pr => !pr.flagV))

/-- BTS branches when T = 1 (R148, Table 4-3). -/
def execBts (p : Nat) (s : State) : Out := .next (s.runInstr p 0o036 (dA 1) (branchBody (dA 1) fun pr => pr.flagT))

/-- BTC branches when T = 0 (R148, Table 4-3). -/
def execBtc (p : Nat) (s : State) : Out := .next (s.runInstr p 0o037 (dA 1) (branchBody (dA 1) fun pr => !pr.flagT))

/-- GATE (R201 to R203). -/
def execGate (p : Nat) (s : State) : Out := .next (s.runInstr p 0o020 (dA 0) gateBody)

/-- RETG (R197). -/
def execRetg (p : Nat) (s : State) : Out := .next (s.runInstr p 0o021 (dNone 0) (returnBody false))

/-- RETX (R197, R200). -/
def execRetx (p : Nat) (s : State) : Out := .next (s.runInstr p 0o022 (dNone 0) (returnBody true))

/-- WAIT stops fetch until an entry (R152). -/
def execWait (p : Nat) (s : State) : Out := .next (s.runInstr p 0o024 (dNone 1) waitBody)

/-- PUSH (R149). -/
def execPush (p : Nat) (s : State) : Out := .next (s.runInstr p 0o040 (dA 1) pushBody)

/-- POP (R149). -/
def execPop (p : Nat) (s : State) : Out := .next (s.runInstr p 0o041 (dC 1) popBody)

/-- ENTER (R149). -/
def execEnter (p : Nat) (s : State) : Out := .next (s.runInstr p 0o042 (dA 2) enterBody)

/-- LEAVE (R149). -/
def execLeave (p : Nat) (s : State) : Out := .next (s.runInstr p 0o043 (dNone 2) leaveBody)

/-- MOV: C ← A (Table 4-4). -/
def execMov (p : Nat) (s : State) : Out := .next (s.runInstr p 0o100 (dUn 1) (aluBody (dUn 1) false fun a _ _ _ => aluMov 36 a))

/-- ADD: C ← A + B (R153). -/
def execAdd (p : Nat) (s : State) : Out := .next (s.runInstr p 0o101 (dBin 1) (aluBody (dBin 1) false fun a b _ _ => aluAdd 36 a b 0))

/-- SUB: C ← A − B (R153). -/
def execSub (p : Nat) (s : State) : Out := .next (s.runInstr p 0o102 (dBin 1) (aluBody (dBin 1) false fun a b _ _ => aluSub 36 a b 0))

/-- ADC: C ← A + B + SW.C (R153). -/
def execAdc (p : Nat) (s : State) : Out := .next (s.runInstr p 0o103 (dBin 1) (aluBody (dBin 1) false fun a b _ pr => aluAdd 36 a b (if pr.flagC then 1 else 0)))

/-- SBC: C ← A − B − SW.C (R153). -/
def execSbc (p : Nat) (s : State) : Out := .next (s.runInstr p 0o104 (dBin 1) (aluBody (dBin 1) false fun a b _ pr => aluSub 36 a b (if pr.flagC then 1 else 0)))

/-- NEG: C ← 0 − A (R153, R154). -/
def execNeg (p : Nat) (s : State) : Out := .next (s.runInstr p 0o105 (dUn 1) (aluBody (dUn 1) false fun a _ _ _ => aluSub 36 0 a 0))

/-- ABS: C ← |A| (R154). -/
def execAbs (p : Nat) (s : State) : Out := .next (s.runInstr p 0o106 (dUn 1) (aluBody (dUn 1) false fun a _ _ _ => aluAbs a))

/-- MUL (R155). -/
def execMul (p : Nat) (s : State) : Out := .next (s.runInstr p 0o107 (dBin 3) (aluBody (dBin 3) false fun a b _ _ => aluMul a b))

/-- MULD (R155). -/
def execMuld (p : Nat) (s : State) : Out := .next (s.runInstr p 0o110 ⟨some .w, some .w, some .d, false, 4⟩ (aluBody ⟨some .w, some .w, some .d, false, 4⟩ false fun a b _ _ => aluMuld a b))

/-- DIV (R156). -/
def execDiv (p : Nat) (s : State) : Out := .next (s.runInstr p 0o111 (dBin 20) (aluBody (dBin 20) false fun a b _ _ => aluDiv a b))

/-- REM (R156). -/
def execRem (p : Nat) (s : State) : Out := .next (s.runInstr p 0o112 (dBin 20) (aluBody (dBin 20) false fun a b _ _ => aluRem a b))

/-- DIVU (R156). -/
def execDivu (p : Nat) (s : State) : Out := .next (s.runInstr p 0o113 (dBin 20) (aluBody (dBin 20) false fun a b _ _ => aluDivu a b))

/-- REMU (R156). -/
def execRemu (p : Nat) (s : State) : Out := .next (s.runInstr p 0o114 (dBin 20) (aluBody (dBin 20) false fun a b _ _ => aluRemu a b))

/-- MIN (Table 4-4). -/
def execMin (p : Nat) (s : State) : Out := .next (s.runInstr p 0o115 (dBin 1) (aluBody (dBin 1) false fun a b _ _ => aluMin a b))

/-- MAX (Table 4-4). -/
def execMax (p : Nat) (s : State) : Out := .next (s.runInstr p 0o116 (dBin 1) (aluBody (dBin 1) false fun a b _ _ => aluMax a b))

/-- MACD: C ← C + A × B (R155). -/
def execMacd (p : Nat) (s : State) : Out := .next (s.runInstr p 0o117 ⟨some .w, some .w, some .d, false, 4⟩ (aluBody ⟨some .w, some .w, some .d, false, 4⟩ true fun a b c _ => aluMacd a b c))

/-- AND (Table 4-6). -/
def execAnd (p : Nat) (s : State) : Out := .next (s.runInstr p 0o200 (dBin 1) (aluBody (dBin 1) false fun a b _ _ => aluAnd a b))

/-- OR (Table 4-6). -/
def execOr (p : Nat) (s : State) : Out := .next (s.runInstr p 0o201 (dBin 1) (aluBody (dBin 1) false fun a b _ _ => aluOr a b))

/-- XOR (Table 4-6). -/
def execXor (p : Nat) (s : State) : Out := .next (s.runInstr p 0o202 (dBin 1) (aluBody (dBin 1) false fun a b _ _ => aluXor a b))

/-- ANDN (Table 4-6). -/
def execAndn (p : Nat) (s : State) : Out := .next (s.runInstr p 0o203 (dBin 1) (aluBody (dBin 1) false fun a b _ _ => aluAndn a b))

/-- NOT (Table 4-6). -/
def execNot (p : Nat) (s : State) : Out := .next (s.runInstr p 0o204 (dUn 1) (aluBody (dUn 1) false fun a _ _ _ => aluNot a))

/-- SHL (R157). -/
def execShl (p : Nat) (s : State) : Out := .next (s.runInstr p 0o210 (dBin 1) (aluBody (dBin 1) false fun a b _ _ => aluShl a b))

/-- SHR (R157). -/
def execShr (p : Nat) (s : State) : Out := .next (s.runInstr p 0o211 (dBin 1) (aluBody (dBin 1) false fun a b _ _ => aluShr a b))

/-- SAR (R157). -/
def execSar (p : Nat) (s : State) : Out := .next (s.runInstr p 0o212 (dBin 1) (aluBody (dBin 1) false fun a b _ _ => aluSar 36 a b))

/-- ROL (R157). -/
def execRol (p : Nat) (s : State) : Out := .next (s.runInstr p 0o213 (dBin 1) (aluBody (dBin 1) false fun a b _ _ => aluRol a b))

/-- EXT (R158). -/
def execExt (p : Nat) (s : State) : Out := .next (s.runInstr p 0o214 (dBinN 1) (aluBody (dBinN 1) false fun a b _ _ => aluExt a b))

/-- EXTS (R158). -/
def execExts (p : Nat) (s : State) : Out := .next (s.runInstr p 0o215 (dBinN 1) (aluBody (dBinN 1) false fun a b _ _ => aluExts a b))

/-- INS (R158). -/
def execIns (p : Nat) (s : State) : Out := .next (s.runInstr p 0o216 (dBinN 2) (aluBody (dBinN 2) true fun a b c _ => aluIns a b c))

/-- HADD (R159). -/
def execHadd (p : Nat) (s : State) : Out := .next (s.runInstr p 0o300 (dBin 1) (aluBody (dBin 1) false fun a b _ _ => aluHadd a b))

/-- HSUB (R159). -/
def execHsub (p : Nat) (s : State) : Out := .next (s.runInstr p 0o301 (dBin 1) (aluBody (dBin 1) false fun a b _ _ => aluHsub a b))

/-- HMUL (R159). -/
def execHmul (p : Nat) (s : State) : Out := .next (s.runInstr p 0o302 (dBin 2) (aluBody (dBin 2) false fun a b _ _ => aluHmul a b))

/-- HPACK (Table 4-7). -/
def execHpack (p : Nat) (s : State) : Out := .next (s.runInstr p 0o303 (dBinN 1) (aluBody (dBinN 1) false fun a b _ _ => aluHpack a b))

/-- HHI (Table 4-7). -/
def execHhi (p : Nat) (s : State) : Out := .next (s.runInstr p 0o304 (dUn 1) (aluBody (dUn 1) false fun a _ _ _ => aluHhi a))

/-- HLO (Table 4-7). -/
def execHlo (p : Nat) (s : State) : Out := .next (s.runInstr p 0o305 (dUn 1) (aluBody (dUn 1) false fun a _ _ _ => aluHlo a))

/-- HSWP (Table 4-7). -/
def execHswp (p : Nat) (s : State) : Out := .next (s.runInstr p 0o306 (dUn 1) (aluBody (dUn 1) false fun a _ _ _ => aluHswp a))

/-- DMOV (R160). -/
def execDmov (p : Nat) (s : State) : Out := .next (s.runInstr p 0o400 ⟨some .d, none, some .d, false, 1⟩ (aluBody ⟨some .d, none, some .d, false, 1⟩ false fun a _ _ _ => aluMov 72 a))

/-- DADD (R160). -/
def execDadd (p : Nat) (s : State) : Out := .next (s.runInstr p 0o401 ⟨some .d, some .d, some .d, true, 1⟩ (aluBody ⟨some .d, some .d, some .d, true, 1⟩ false fun a b _ _ => aluAdd 72 a b 0))

/-- DSUB (R160). -/
def execDsub (p : Nat) (s : State) : Out := .next (s.runInstr p 0o402 ⟨some .d, some .d, some .d, true, 1⟩ (aluBody ⟨some .d, some .d, some .d, true, 1⟩ false fun a b _ _ => aluSub 72 a b 0))

/-- DNEG (R160). -/
def execDneg (p : Nat) (s : State) : Out := .next (s.runInstr p 0o403 ⟨some .d, none, some .d, false, 1⟩ (aluBody ⟨some .d, none, some .d, false, 1⟩ false fun a _ _ _ => aluSub 72 0 a 0))

/-- DCVT (Table 4-8). -/
def execDcvt (p : Nat) (s : State) : Out := .next (s.runInstr p 0o404 ⟨some .w, none, some .d, false, 1⟩ (aluBody ⟨some .w, none, some .d, false, 1⟩ false fun a _ _ _ => aluDcvt a))

/-- DSAT (R160). -/
def execDsat (p : Nat) (s : State) : Out := .next (s.runInstr p 0o405 ⟨some .d, none, some .w, false, 1⟩ (aluBody ⟨some .d, none, some .w, false, 1⟩ false fun a _ _ _ => aluDsat a))

/-- DSAR (R160). -/
def execDsar (p : Nat) (s : State) : Out := .next (s.runInstr p 0o406 ⟨some .d, some .w, some .d, false, 1⟩ (aluBody ⟨some .d, some .w, some .d, false, 1⟩ false fun a b _ _ => aluSar 72 a b))

/-- DCMP: flags of A − B (R160). -/
def execDcmp (p : Nat) (s : State) : Out := .next (s.runInstr p 0o407 ⟨some .d, some .d, none, false, 1⟩ (aluBody ⟨some .d, some .d, none, false, 1⟩ false fun a b _ _ => aluSub 72 a b 0))

/-- OGET (R161). -/
def execOget (p : Nat) (s : State) : Out := .next (s.runInstr p 0o500 ⟨some .o, some .w, some .w, false, 1⟩ ogetBody)

/-- OPUT (R162). -/
def execOput (p : Nat) (s : State) : Out := .next (s.runInstr p 0o501 ⟨some .w, some .w, some .o, false, 1⟩ oputBody)

/-- BERLEN (R163). -/
def execBerlen (p : Nat) (s : State) : Out := .next (s.runInstr p 0o502 ⟨some .o, none, some .w, false, 3⟩ berlenBody)

/-- OCNT (Table 4-9). -/
def execOcnt (p : Nat) (s : State) : Out := .next (s.runInstr p 0o503 (dUn 1) (aluBody (dUn 1) false fun a _ _ _ => aluOcnt a))

end Sys2Proof.Machine
end

