-- ==== Sys2Proof/Machine/Fret.lean ====
section
/-! DEFINITION. Entries from outside the instruction stream: interrupts and the budget-exceeded exception
(R131, R196, R204 to R207) and the hold-off timers. -/

namespace Sys2Proof.Machine

/-- The entry of a source at a processor's boundary (R187, R194). -/
def State.irqEntry (s : State) (p i : Nat) : Entry :=
  let pr := s.proc p
  let prio := s.get (INTC_SRC_PRIO i)
  let h := if isFret p then (if s.on (INTC_SRC_WORLD i) then 3 else 1) else 0
  ⟨1, some (48 + prio), h, worldOf p h, some prio, pr.pc.toNat, 0, 0, i, 0, 0⟩

/-- A delivery in state `s`, entered in `t`, restarts the hold-off of its group; one under an exception of R207 counts in BYPASS. -/
def State.irqDelivered (s : State) (p i : Nat) (t : State) : State :=
  let g := s.get (INTC_SRC_GROUP i)
  let s1 := if s.heldOff i p then t.inc (INTC_MOD_BYPASS g) else t
  let h := s.get (INTC_MOD_HOLDOFF g)
  if h = 0 then { s1 with holdoffs := terase s1.holdoffs g }
  else { s1 with holdoffs := tset s1.holdoffs g (s.procStart p + 16 * h) }

/-- INTERRUPT_ENTRY: at a boundary the processor takes the deliverable source of R206 and its ACTIVE bit is
set. An entry refused by the chain has the effect of R188 or R189. -/
def execInterruptEntry (p : Nat) (s : State) : Out :=
  if s.logicUp = true ∧ p ≤ 32 ∧ s.budgetDue p = false ∧ (s.proc p).halted = false then
    match s.irqChoice p with
    | none => .next s
    | some i =>
      match (s.cx p).enter (s.proc p) (s.irqEntry p i) with
      | (true, t) => .next (((s.irqDelivered p i t).put (INTC_SRC_ACTIVE i) 1).debugCatch p)
      | (false, t) => .next t
  else .next s

/-- INTC_HOLDOFF_EXPIRY: the hold-off of a group ends (R207). -/
def execIntcHoldoffExpiry (g : Nat) (s : State) : Out :=
  match tget s.holdoffs g with
  | none => .next s
  | some c => let s1 := s.passTo c; .next { s1 with holdoffs := terase s1.holdoffs g }

/-- BUDGET_EXCEEDED: at tick + W an engine that is not parked takes the budget-exceeded exception in the world
and level of the interrupted code, once per tick, counted in FE_BUDGETX (R38, R39, R194). -/
def execBudgetExceeded (n : Nat) (s : State) : Out :=
  let pr := s.proc n
  if n < 32 ∧ s.time.inTick ∧ pr.budgetGiven = false ∧ (pr.run = .running ∨ pr.run = .wait) ∧
      pr.halted = false then
    let s1 := s.passTo (s.time.edge + s.get TICK_WORK_W)
    let s2 := s1.setProc n { pr with budgetGiven := true }
    match (s2.cx n).enter (s2.proc n)
        ⟨0, some vBUDGET, pr.priv, worldOf n pr.priv, none, pr.pc.toNat, 0x80, 0, 0, 0, 0⟩ with
    | (true, t) => .next ((t.inc (FE_BUDGETX_COUNT n)).debugCatch n)
    | (false, t) => .next (t.debugCatch n)
  else .next s

end Sys2Proof.Machine
end

