-- ==== Sys2Proof/Machine/TickRows.lean ====
section
/-! DEFINITION. The tick and data-path group of the Diurn instruction set (R34 to R40, R44, R45, R164 to R176). -/

namespace Sys2Proof.Machine

/-! ## Staging (R34, R36, R164) -/

/-- The descriptor of a staging opcode: A, B and C words. -/
def dStage (cost : Nat) : OpDesc := dBinN cost

/-- The status a staging opcode writes to C, C of SW with it. -/
def Cx.stageStatus (c : Cx) (d : OpDesc) (o : Opnds) (st : Nat) (full : Bool) (next : Nat) : Res State :=
  c.aluEnd d o ⟨st, none, none, none, some full, false⟩ next

/-- An output staged, or nothing where the buffer holds 512 (R36). -/
def Cx.stage (c : Cx) (d : OpDesc) (o : Opnds) (x : Staged) (next : Nat) : Res State :=
  if 512 ≤ c.pr.staged.length then
    (c.stageStatus d o stABORTED true next).andThen fun t c => .ok (t.inc (FE_OUTDROP_COUNT c.p)) c
  else ({ c with pr := { c.pr with staged := c.pr.staged ++ [x] } }).stageStatus d o stOK false next

/-- The phase 1 check of C of a staging opcode: an address-form or access fault of C comes before the opcode's own
checks (R164). -/
def Cx.checkC (c : Cx) (o : Opnd) : Res Unit :=
  match c.put o .w 0 3 with
  | .ok _ _ => .ok () c
  | .exc e c' => if e.vector = vMEMORY then .ok () c else .exc e c'

/-- Phases 1 and 2 of a staging opcode. -/
def stagingBody (d : OpDesc) (f : Opnds → Nat → Nat → Dec → Cx → Res State) (i : Dec) (c : Cx) : Res State :=
  (c.phase1 d i).andThen fun o c =>
    (c.checkC o.c).andThen fun _ c =>
      (c.getOpt o.a d.a 1).andThen fun a c => (c.getOpt o.b d.b 2).andThen fun b c => f o a b i c

/-- Words of a source block read, each one word access (R146). -/
def Cx.readWords (c : Cx) (w : Nat) : Nat → Res (List Nat)
  | 0 => .ok [] c
  | n + 1 =>
    if 2 ^ 24 ≤ w then .exc ⟨vADDRESS, 0x21, 2, w⟩ c
    else (c.read w 2).andThen fun v c => (c.readWords (w + 1) n).andThen fun vs c => .ok (v :: vs) c

/-- The four octets of an octet-view word, leftmost first (R103). -/
def viewOctets (w : Nat) : Bytes := (List.range 4).map (fun k => BitVec.ofNat 8 (octetOf w k).1)

/-- Bytes of words' bits 31:0, byte 4i in bits 7:0 of word i (R173). -/
def blockBytes (ws : List Nat) : Bytes := ws.flatMap (fun w => natToBytes 4 (w % 2 ^ 32))

/-- Whether the executing code runs in the Trust world. -/
def Cx.trust (c : Cx) : Bool := decide (2 ≤ c.pr.priv)

/-- GOSUB (R172). -/
def gosubBody : Dec → Cx → Res State :=
  stagingBody (dStage 8) fun o a b i c =>
    if 2 ^ 21 ≤ a ∨ c.s.reaches c.p c.trust a = false then .exc ⟨vACCESS, 0x45, 1, 0⟩ c
    else if 0x10000 ≤ b then .exc ⟨vACCESS, 0x46, 2, b⟩ c
    else
      (c.readWords b 1).andThen fun ws c =>
        let l := ws.getD 0 0 % 2 ^ 11
        let n := ceilDiv l 4
        if l = 0 ∨ 1400 < l then c.stageStatus (dStage 8) o stBAD_LENGTH false i.next
        else if 0x10000 < b + 1 + n then .exc ⟨vACCESS, 0x46, 2, 0x10000⟩ c
        else
          (c.readWords (b + 1) n).andThen fun fs c =>
            c.stage (dStage 8) o (.gosub a ((fs.flatMap viewOctets).take l)) i.next

/-- JOBPUT (R173). -/
def jobputBody : Dec → Cx → Res State :=
  stagingBody (dStage 6) fun o a b i c =>
    if 1032 ≤ a ∨ c.s.ringOwner a ≠ midOf c.p c.pr.priv then .exc ⟨vACCESS, 0x47, 1, 0⟩ c
    else if 2 ^ 24 ≤ b then .exc ⟨vADDRESS, 0x20, 2, b⟩ c
    else (c.readWords b 16).andThen fun ws c => c.stage (dStage 6) o (.jobput a (blockBytes ws) c.trust) i.next

/-- VERDICT stages without checking its operands (R174). -/
def verdictBody : Dec → Cx → Res State :=
  stagingBody (dStage 4) fun o a b i c => c.stage (dStage 4) o (.verdict (a % 2 ^ 24) (b % 256)) i.next

/-- EVPUT (R175). -/
def evputBody : Dec → Cx → Res State :=
  stagingBody (dStage 6) fun o a b i c =>
    if 2 ^ 24 ≤ b then .exc ⟨vADDRESS, 0x20, 2, b⟩ c
    else
      (c.readWords b 8).andThen fun ws c => c.stage (dStage 6) o (.evput (a % 2 ^ 16) (blockBytes ws) c.trust) i.next

/-! ## TWAIT, TLEFT, TABANDON (R35, R40, R165 to R167, R176) -/

/-- The MID of engine `n` in a world (Table 2-8). -/
def worldMid (n : Nat) (trust : Bool) : Nat := midOf n (if trust then 2 else 0)

/-- One output committed by engine `n`, whose TWAIT retires in a world; a job post and an event record carry the MID of
the world that staged them (R173, R175). -/
def State.commitOne (n : Nat) (trust : Bool) (s : State) (x : Staged) : State :=
  match x with
  | .gosub a f => s.relEnter a f (Config.frameView f) none n
  | .jobput r d tr => s.jobPost (worldMid n tr) r d
  | .verdict ref code => s.verdictCommit n trust ref code
  | .evput code pl tr => s.evPut (srcFret tr n) code stOK (worldMid n tr) pl false false

/-- Every staged output committed in staging order, the engine parked (R35, R166). -/
def State.commitTick (s : State) (n : Nat) (outs : List Staged) (priv : Nat) : State :=
  let s1 := outs.foldl (State.commitOne n (decide (2 ≤ priv))) s
  (s1.setProc n { s1.proc n with
    staged := [], run := .parked, twaited := true, parkEntry := false, abandons := 0 }).settle

/-- TWAIT: 3 cycles and 2 for each staged output (Table 4-11). -/
def twaitBody (i : Dec) (c : Cx) : Res State :=
  let outs := c.pr.staged
  .ok ((c.finish i.next none (3 + 2 * outs.length)).commitTick c.p outs c.pr.priv) c

/-- TLEFT: W minus the cycles since the edge in the cycle in which phase 3 begins. -/
def tleftBody (i : Dec) (c : Cx) : Res State :=
  (c.phase1 (dC 1) i).andThen fun o c =>
    let elapsed : Int := ((c.s.procStart c.p + c.cost : Nat) : Int) - c.s.time.edge
    c.aluEnd (dC 1) o (outNZ 36 (ofInt 36 ((c.s.get TICK_WORK_W : Int) - elapsed)) (some false) none) i.next

/-- TABANDON: the tick is abandoned at once; the PC recorded is the instruction's. -/
def tabandonBody (_i : Dec) (c : Cx) : Res State := .ok (c.s.feAbandon c.p .tabandon) c

/-! ## SVPULL (R168 to R171) -/

/-- The sample set of a cut (R44): the live cut holds what a verdict in the tick's work window brought before the cycle
in which phase 3 begins (R171), else the edge cut's set. -/
def State.cutSet (s : State) (a : Nat) (live : Bool) (phase3 : Nat) : Option SampleSet :=
  match tget s.data.samples a with
  | none => none
  | some x =>
    if live then (match x.live with | some y => if y.cycle < phase3 then some y else x.edge | none => x.edge) else x.edge

/-- A channel's word in the guard form, sign-extended, or in the quality form (Table 3-1, R102): validity in bits 1:0
of the quality (1 invalid, 2 reserved, 3 questionable), test in bit 11, substituted in bit 10. -/
def channelWord (quality : Bool) (ch : Nat × Nat) : Nat :=
  let v := ch.1 % 2 ^ 32
  if quality then
    let val := ch.2 % 4
    v + (if val = 1 ∨ val = 2 then 2 ^ 35 else 0) + (if val = 3 then 2 ^ 34 else 0) +
      2 ^ 33 * (ch.2 / 2 ^ 11 % 2) + 2 ^ 32 * (ch.2 / 2 ^ 10 % 2)
  else ofInt 36 (toSigned 32 v)

/-- Where a sample block may lie (R169). -/
def sampleMem (w : Nat) : Bool := decide (w < 0x10000) || decide (0x100000 ≤ w ∧ w < 0x200000)

/-- Words written from an address up. -/
def Cx.putWords (c : Cx) (w : Nat) : List Nat → Res Unit
  | [] => .ok () c
  | v :: vs => (c.write w v 3).andThen fun _ c => c.putWords (w + 1) vs

/-- The channels SVPULL copies: MAXCH, at most 64, and at most the association's channel count (R168). -/
def State.pullCount (s : State) (a b : Nat) : Nat :=
  min (min (b / 4 % 128) 64) (if s.entryValid a then eget (s.entry a) eCHCOUNT else 0)

/-- The word address of an operand in memory. -/
def Opnd.wordEa : Opnd → Option Nat
  | .mem w => some w
  | .oct b o => some (b + o / 4)
  | _ => none

/-- SVPULL. -/
def svpullBody (i : Dec) (c : Cx) : Res State :=
  (c.phase1 (dBinN 12) i).andThen fun o c =>
    (c.getOpt o.a (some .w) 1).andThen fun a c =>
      (c.getOpt o.b (some .w) 2).andThen fun b c =>
        if 2 ^ 21 ≤ a ∨ c.s.reaches c.p c.trust a = false then .exc ⟨vACCESS, 0x45, 1, 0⟩ c
        else
          let k := c.s.pullCount a b
          match o.c.wordEa with
          | some w =>
            match (List.range (2 + k)).find? (fun j => !(sampleMem (w + j))) with
            | some j => .exc ⟨vACCESS, 0x46, 3, w + j⟩ c
            | none =>
              match c.s.cutSet a (decide (b % 2 = 1)) (c.s.procStart c.p + c.cost) with
              | none =>
                (c.putWords w [0, 0]).andThen fun _ c =>
                  .ok (({ c with pr := c.pr.setBit 34 true }).finish i.next none (12 + k)) c
              | some x =>
                let ch := (List.range k).map (fun j => channelWord (decide (b / 2 % 2 = 1)) (x.chans.getD j (0, 0)))
                (c.putWords w ([2 ^ 16 * k + x.smpCnt % 2 ^ 16, x.tick] ++ ch)).andThen fun _ c =>
                  .ok (({ c with pr := c.pr.setBit 34 false }).finish i.next none (12 + k)) c
          | none => .exc ⟨vACCESS, 0x46, 3, 0⟩ c

/-! ## Rows -/

/-- TWAIT of one engine. -/
def State.runTwait (s : State) (p : Nat) : State := s.runInstr p 0o600 (dNone 3) twaitBody

/-- The TWAIT at which engine `n` stands, where it retires in cycle `at_`; else nothing. -/
def State.twaitIn (at_ : Nat) (s : State) (n : Nat) : State :=
  let t := s.runTwait n
  if s.canStep n ∧ (t.proc n).twaited ∧ (t.proc n).now = at_ then t else s

/-- TWAIT (R35, R165, R166): engines of lower number whose TWAIT retires in the same cycle commit first. -/
def execTwait (p : Nat) (s : State) : Out :=
  let t := s.runTwait p
  if s.canStep p ∧ (t.proc p).twaited then
    .next (((List.range (min p 32)).foldl (State.twaitIn (t.proc p).now) s).runTwait p)
  else .next t

/-- TLEFT (R40, R167). -/
def execTleft (p : Nat) (s : State) : Out := .next (s.runInstr p 0o601 (dC 1) tleftBody)

/-- SVPULL (R168 to R171). -/
def execSvpull (p : Nat) (s : State) : Out := .next (s.runInstr p 0o602 (dBinN 12) svpullBody)

/-- GOSUB (R172). -/
def execGosub (p : Nat) (s : State) : Out := .next (s.runInstr p 0o603 (dStage 8) gosubBody)

/-- JOBPUT (R173). -/
def execJobput (p : Nat) (s : State) : Out := .next (s.runInstr p 0o604 (dStage 6) jobputBody)

/-- VERDICT (R174). -/
def execVerdict (p : Nat) (s : State) : Out := .next (s.runInstr p 0o605 (dStage 4) verdictBody)

/-- EVPUT (R175). -/
def execEvput (p : Nat) (s : State) : Out := .next (s.runInstr p 0o606 (dStage 6) evputBody)

/-- TABANDON (R176). -/
def execTabandon (p : Nat) (s : State) : Out := .next (s.runInstr p 0o607 (dNone 1) tabandonBody)

/-- UNASSIGNED_OPCODE (R142): ILLEGAL_INSTR with detail OPCODE. -/
def execUnassignedOpcode (p : Nat) (s : State) : Out :=
  if s.canStep p then
    match (s.cx p).fetch (s.proc p).pc.toNat with
    | .exc e c => .next (s.beforeEdge p (c.takeExc e))
    | .ok w c =>
      if opAssigned p (s.proc p).priv (w / 2 ^ 27) then .next s
      else .next (s.beforeEdge p (({ c with first := w }).takeExc ⟨vILLEGAL, 0x01, 0, 0⟩))
  else .next s

end Sys2Proof.Machine
end

