-- ==== Sys2Proof/Machine/Rows.lean ====
section
/-! DEFINITION. The meanings of all commands, gathered for the dispatch. -/
end

