-- ==== Sys2Proof/Machine/Dispatch.lean ====
section
/-! DEFINITION. The dispatch: one arm per command of the table of operations and events, each one
direct call of the command's meaning. -/

namespace Sys2Proof.Machine

def exec (i : Instr) (s : State) : Host.Outcome State Fault Refusal :=
  match i with
  | .tickEdge => Sys2Proof.Machine.execTickEdge s
  | .enginePreWake n => Sys2Proof.Machine.execEnginePreWake n s
  | .feBStart => Sys2Proof.Machine.execFeBStart s
  | .budgetExceeded n => Sys2Proof.Machine.execBudgetExceeded n s
  | .requestTimeout k => Sys2Proof.Machine.execRequestTimeout k s
  | .holdExpiry k => Sys2Proof.Machine.execHoldExpiry k s
  | .timeSrcWrite v => Sys2Proof.Machine.execTimeSrcWrite v s
  | .tickRunSet v => Sys2Proof.Machine.execTickRunSet v s
  | .tickRunClear v => Sys2Proof.Machine.execTickRunClear v s
  | .timeSecWrite hi v => Sys2Proof.Machine.execTimeSecWrite hi v s
  | .tickRateWrite v => Sys2Proof.Machine.execTickRateWrite v s
  | .ptpMessageRx ident port m => Sys2Proof.Machine.execPtpMessageRx ident port m s
  | .ptpDemoteExpiry => Sys2Proof.Machine.execPtpDemoteExpiry s
  | .ptpSyncTx port => Sys2Proof.Machine.execPtpSyncTx port s
  | .sourceLost => Sys2Proof.Machine.execSourceLost s
  | .holdoverExpiry => Sys2Proof.Machine.execHoldoverExpiry s
  | .ppsInEdge falling => Sys2Proof.Machine.execPpsInEdge falling s
  | .ppsOutPulse => Sys2Proof.Machine.execPpsOutPulse s
  | .optimeMirror => Sys2Proof.Machine.execOptimeMirror s
  | .registerWrite mid off w v => Sys2Proof.Machine.execRegisterWrite mid off w v s
  | .counterLoRead mid off => Sys2Proof.Machine.execCounterLoRead mid off s
  | .dualStoredRead mid off upset => Sys2Proof.Machine.execDualStoredRead mid off upset s
  | .fabricAccess mid at_ op env => Sys2Proof.Machine.execFabricAccess mid at_ op env s
  | .sramWriteback a => Sys2Proof.Machine.execSramWriteback a s
  | .scrubRead p a ecc => Sys2Proof.Machine.execScrubRead p a ecc s
  | .dramInitComplete => Sys2Proof.Machine.execDramInitComplete s
  | .guardWriteback => Sys2Proof.Machine.execGuardWriteback s
  | .guardSweepComplete => Sys2Proof.Machine.execGuardSweepComplete s
  | .nutCommit region => Sys2Proof.Machine.execNutCommit region s
  | .nop p => Sys2Proof.Machine.execNop p s
  | .jmp p => Sys2Proof.Machine.execJmp p s
  | .call p => Sys2Proof.Machine.execCall p s
  | .ret p => Sys2Proof.Machine.execRet p s
  | .loop p => Sys2Proof.Machine.execLoop p s
  | .lpop p => Sys2Proof.Machine.execLpop p s
  | .beq p => Sys2Proof.Machine.execBeq p s
  | .bne p => Sys2Proof.Machine.execBne p s
  | .blt p => Sys2Proof.Machine.execBlt p s
  | .bge p => Sys2Proof.Machine.execBge p s
  | .bltu p => Sys2Proof.Machine.execBltu p s
  | .bgeu p => Sys2Proof.Machine.execBgeu p s
  | .bmi p => Sys2Proof.Machine.execBmi p s
  | .bpl p => Sys2Proof.Machine.execBpl p s
  | .bgt p => Sys2Proof.Machine.execBgt p s
  | .ble p => Sys2Proof.Machine.execBle p s
  | .bhi p => Sys2Proof.Machine.execBhi p s
  | .bls p => Sys2Proof.Machine.execBls p s
  | .bvs p => Sys2Proof.Machine.execBvs p s
  | .bvc p => Sys2Proof.Machine.execBvc p s
  | .bts p => Sys2Proof.Machine.execBts p s
  | .btc p => Sys2Proof.Machine.execBtc p s
  | .gate p => Sys2Proof.Machine.execGate p s
  | .retg p => Sys2Proof.Machine.execRetg p s
  | .retx p => Sys2Proof.Machine.execRetx p s
  | .wait p => Sys2Proof.Machine.execWait p s
  | .push p => Sys2Proof.Machine.execPush p s
  | .pop p => Sys2Proof.Machine.execPop p s
  | .enter p => Sys2Proof.Machine.execEnter p s
  | .leave p => Sys2Proof.Machine.execLeave p s
  | .mov p => Sys2Proof.Machine.execMov p s
  | .add p => Sys2Proof.Machine.execAdd p s
  | .sub p => Sys2Proof.Machine.execSub p s
  | .adc p => Sys2Proof.Machine.execAdc p s
  | .sbc p => Sys2Proof.Machine.execSbc p s
  | .neg p => Sys2Proof.Machine.execNeg p s
  | .abs p => Sys2Proof.Machine.execAbs p s
  | .mul p => Sys2Proof.Machine.execMul p s
  | .muld p => Sys2Proof.Machine.execMuld p s
  | .div p => Sys2Proof.Machine.execDiv p s
  | .rem p => Sys2Proof.Machine.execRem p s
  | .divu p => Sys2Proof.Machine.execDivu p s
  | .remu p => Sys2Proof.Machine.execRemu p s
  | .min p => Sys2Proof.Machine.execMin p s
  | .max p => Sys2Proof.Machine.execMax p s
  | .macd p => Sys2Proof.Machine.execMacd p s
  | .and p => Sys2Proof.Machine.execAnd p s
  | .or p => Sys2Proof.Machine.execOr p s
  | .xor p => Sys2Proof.Machine.execXor p s
  | .andn p => Sys2Proof.Machine.execAndn p s
  | .not p => Sys2Proof.Machine.execNot p s
  | .shl p => Sys2Proof.Machine.execShl p s
  | .shr p => Sys2Proof.Machine.execShr p s
  | .sar p => Sys2Proof.Machine.execSar p s
  | .rol p => Sys2Proof.Machine.execRol p s
  | .ext p => Sys2Proof.Machine.execExt p s
  | .exts p => Sys2Proof.Machine.execExts p s
  | .ins p => Sys2Proof.Machine.execIns p s
  | .hadd p => Sys2Proof.Machine.execHadd p s
  | .hsub p => Sys2Proof.Machine.execHsub p s
  | .hmul p => Sys2Proof.Machine.execHmul p s
  | .hpack p => Sys2Proof.Machine.execHpack p s
  | .hhi p => Sys2Proof.Machine.execHhi p s
  | .hlo p => Sys2Proof.Machine.execHlo p s
  | .hswp p => Sys2Proof.Machine.execHswp p s
  | .dmov p => Sys2Proof.Machine.execDmov p s
  | .dadd p => Sys2Proof.Machine.execDadd p s
  | .dsub p => Sys2Proof.Machine.execDsub p s
  | .dneg p => Sys2Proof.Machine.execDneg p s
  | .dcvt p => Sys2Proof.Machine.execDcvt p s
  | .dsat p => Sys2Proof.Machine.execDsat p s
  | .dsar p => Sys2Proof.Machine.execDsar p s
  | .dcmp p => Sys2Proof.Machine.execDcmp p s
  | .oget p => Sys2Proof.Machine.execOget p s
  | .oput p => Sys2Proof.Machine.execOput p s
  | .berlen p => Sys2Proof.Machine.execBerlen p s
  | .ocnt p => Sys2Proof.Machine.execOcnt p s
  | .twait p => Sys2Proof.Machine.execTwait p s
  | .tleft p => Sys2Proof.Machine.execTleft p s
  | .svpull p => Sys2Proof.Machine.execSvpull p s
  | .gosub p => Sys2Proof.Machine.execGosub p s
  | .jobput p => Sys2Proof.Machine.execJobput p s
  | .verdict p => Sys2Proof.Machine.execVerdict p s
  | .evput p => Sys2Proof.Machine.execEvput p s
  | .tabandon p => Sys2Proof.Machine.execTabandon p s
  | .interruptEntry p => Sys2Proof.Machine.execInterruptEntry p s
  | .intcHoldoffExpiry g => Sys2Proof.Machine.execIntcHoldoffExpiry g s
  | .feCtlWrite n v => Sys2Proof.Machine.execFeCtlWrite n v s
  | .feConfigWrite n r v => Sys2Proof.Machine.execFeConfigWrite n r v s
  | .portCtlWrite n v => Sys2Proof.Machine.execPortCtlWrite n v s
  | .portLinkChange n link => Sys2Proof.Machine.execPortLinkChange n link s
  | .pairCtlWrite k v => Sys2Proof.Machine.execPairCtlWrite k v s
  | .portFrameRx n f => Sys2Proof.Machine.execPortFrameRx n f s
  | .prpSupervisionTx k => Sys2Proof.Machine.execPrpSupervisionTx k s
  | .dupEntryForget k => Sys2Proof.Machine.execDupEntryForget k s
  | .pairSupvTimeout k => Sys2Proof.Machine.execPairSupvTimeout k s
  | .frameClassify => Sys2Proof.Machine.execFrameClassify s
  | .hotCacheFill id env => Sys2Proof.Machine.execHotCacheFill id env s
  | .bowVerify id lane => Sys2Proof.Machine.execBowVerify id lane s
  | .pegBlobLoad slot env => Sys2Proof.Machine.execPegBlobLoad slot env s
  | .replayStep id => Sys2Proof.Machine.execReplayStep id s
  | .supervisionSweep => Sys2Proof.Machine.execSupervisionSweep s
  | .assocInsert => Sys2Proof.Machine.execAssocInsert s
  | .assocFind => Sys2Proof.Machine.execAssocFind s
  | .assocRead => Sys2Proof.Machine.execAssocRead s
  | .assocUpdate => Sys2Proof.Machine.execAssocUpdate s
  | .assocDelete => Sys2Proof.Machine.execAssocDelete s
  | .assocResetseq => Sys2Proof.Machine.execAssocResetseq s
  | .assocClrcnt => Sys2Proof.Machine.execAssocClrcnt s
  | .assocCmdUnassigned op => Sys2Proof.Machine.execAssocCmdUnassigned op s
  | .assocCmdResultRead => Sys2Proof.Machine.execAssocCmdResultRead s
  | .assocSuplostIdxRead => Sys2Proof.Machine.execAssocSuplostIdxRead s
  | .bowSpentSlotRead => Sys2Proof.Machine.execBowSpentSlotRead s
  | .bowWarnSlotRead => Sys2Proof.Machine.execBowWarnSlotRead s
  | .portStatusRead n => Sys2Proof.Machine.execPortStatusRead n s
  | .ptpDemotedRead => Sys2Proof.Machine.execPtpDemotedRead s
  | .bowKatRun lane pass => Sys2Proof.Machine.execBowKatRun lane pass s
  | .bridgeLinkUp gen width => Sys2Proof.Machine.execBridgeLinkUp gen width s
  | .bridgeLinkDown => Sys2Proof.Machine.execBridgeLinkDown s
  | .fnSplitWrite f vec v => Sys2Proof.Machine.execFnSplitWrite f vec v s
  | .functionLevelReset f => Sys2Proof.Machine.execFunctionLevelReset f s
  | .flrComplete f => Sys2Proof.Machine.execFlrComplete f s
  | .queueCfgWrite q v => Sys2Proof.Machine.execQueueCfgWrite q v s
  | .doorbellWrite q off w v => Sys2Proof.Machine.execDoorbellWrite q off w v s
  | .deliverySlotFetch q => Sys2Proof.Machine.execDeliverySlotFetch q s
  | .queueDeliver => Sys2Proof.Machine.execQueueDeliver s
  | .submissionFetch => Sys2Proof.Machine.execSubmissionFetch s
  | .submissionComplete q => Sys2Proof.Machine.execSubmissionComplete q s
  | .hostReadError q timeout => Sys2Proof.Machine.execHostReadError q timeout s
  | .msixFire v => Sys2Proof.Machine.execMsixFire v s
  | .gatingRecompute => Sys2Proof.Machine.execGatingRecompute s
  | .doeRequest r => Sys2Proof.Machine.execDoeRequest r s
  | .ideInsecure stream => Sys2Proof.Machine.execIdeInsecure stream s
  | .bridgeErrRead => Sys2Proof.Machine.execBridgeErrRead s
  | .relCtlWrite v => Sys2Proof.Machine.execRelCtlWrite v s
  | .releaseSignSend k lane => Sys2Proof.Machine.execReleaseSignSend k lane s
  | .cellDispatch n err => Sys2Proof.Machine.execCellDispatch n err s
  | .mlkemKeygen n used err => Sys2Proof.Machine.execMlkemKeygen n used err s
  | .mlkemEncaps n used err => Sys2Proof.Machine.execMlkemEncaps n used err s
  | .mlkemDecaps n used err => Sys2Proof.Machine.execMlkemDecaps n used err s
  | .mldsaKeygen n used err => Sys2Proof.Machine.execMldsaKeygen n used err s
  | .mldsaSign n used err => Sys2Proof.Machine.execMldsaSign n used err s
  | .mldsaVerify n used err => Sys2Proof.Machine.execMldsaVerify n used err s
  | .slhdsaKeygen n used err => Sys2Proof.Machine.execSlhdsaKeygen n used err s
  | .slhdsaSign n used err => Sys2Proof.Machine.execSlhdsaSign n used err s
  | .slhdsaVerify n used err => Sys2Proof.Machine.execSlhdsaVerify n used err s
  | .lmsKeygen n used err => Sys2Proof.Machine.execLmsKeygen n used err s
  | .lmsSign n used err => Sys2Proof.Machine.execLmsSign n used err s
  | .lmsVerify n used err => Sys2Proof.Machine.execLmsVerify n used err s
  | .lmsInfo n used err => Sys2Proof.Machine.execLmsInfo n used err s
  | .mceEncaps n used err => Sys2Proof.Machine.execMceEncaps n used err s
  | .mceDecaps n used err => Sys2Proof.Machine.execMceDecaps n used err s
  | .hqcKeygen n used err => Sys2Proof.Machine.execHqcKeygen n used err s
  | .hqcEncaps n used err => Sys2Proof.Machine.execHqcEncaps n used err s
  | .hqcDecaps n used err => Sys2Proof.Machine.execHqcDecaps n used err s
  | .ecKeygen n used err => Sys2Proof.Machine.execEcKeygen n used err s
  | .ecdsaSign n used err => Sys2Proof.Machine.execEcdsaSign n used err s
  | .ecdh n used err => Sys2Proof.Machine.execEcdh n used err s
  | .x25519Keygen n used err => Sys2Proof.Machine.execX25519Keygen n used err s
  | .x25519 n used err => Sys2Proof.Machine.execX25519 n used err s
  | .ed25519Keygen n used err => Sys2Proof.Machine.execEd25519Keygen n used err s
  | .ed25519Sign n used err => Sys2Proof.Machine.execEd25519Sign n used err s
  | .ed25519Verify n used err => Sys2Proof.Machine.execEd25519Verify n used err s
  | .pubexport n used err => Sys2Proof.Machine.execPubexport n used err s
  | .random n used err => Sys2Proof.Machine.execRandom n used err s
  | .jobCompletion r count => Sys2Proof.Machine.execJobCompletion r count s
  | .cellClearDone n => Sys2Proof.Machine.execCellClearDone n s
  | .cellKatRun n pass => Sys2Proof.Machine.execCellKatRun n pass s
  | .cellOfflineWrite n v => Sys2Proof.Machine.execCellOfflineWrite n v s
  | .cellStatusRead n => Sys2Proof.Machine.execCellStatusRead n s
  | .jrProdWrite mid r v => Sys2Proof.Machine.execJrProdWrite mid r v s
  | .jrCfgWrite mid r off v => Sys2Proof.Machine.execJrCfgWrite mid r off v s
  | .ringAbort r => Sys2Proof.Machine.execRingAbort r s
  | .jobTimeout r count => Sys2Proof.Machine.execJobTimeout r count s
  | .entropyRefill n used stalled => Sys2Proof.Machine.execEntropyRefill n used stalled s
  | .entropyWaitTimeout => Sys2Proof.Machine.execEntropyWaitTimeout s
  | .lmsReserve slot => Sys2Proof.Machine.execLmsReserve slot s
  | .soundErrRead => Sys2Proof.Machine.execSoundErrRead s
  | .soundLmswarnSlotRead => Sys2Proof.Machine.execSoundLmswarnSlotRead s
  | .veOwnerWrite mid e off v => Sys2Proof.Machine.execVeOwnerWrite mid e off v s
  | .ecdsaVerify e mid v => Sys2Proof.Machine.execEcdsaVerify e mid v s
  | .pointValidate e mid v => Sys2Proof.Machine.execPointValidate e mid v s
  | .rsaPkcs1 e mid v => Sys2Proof.Machine.execRsaPkcs1 e mid v s
  | .rsaPss e mid v => Sys2Proof.Machine.execRsaPss e mid v s
  | .rsaPublic e mid v => Sys2Proof.Machine.execRsaPublic e mid v s
  | .loadCurve e mid v => Sys2Proof.Machine.execLoadCurve e mid v s
  | .clearCurve e mid v => Sys2Proof.Machine.execClearCurve e mid v s
  | .veOpUnassigned e mid v => Sys2Proof.Machine.execVeOpUnassigned e mid v s
  | .veCommandEnd e => Sys2Proof.Machine.execVeCommandEnd e s
  | .veTimeout e => Sys2Proof.Machine.execVeTimeout e s
  | .veAbort e mid => Sys2Proof.Machine.execVeAbort e mid s
  | .veKatRun e pass => Sys2Proof.Machine.execVeKatRun e pass s
  | .digest k err => Sys2Proof.Machine.execDigest k err s
  | .hmac k err => Sys2Proof.Machine.execHmac k err s
  | .kmac k err => Sys2Proof.Machine.execKmac k err s
  | .memcmp k err => Sys2Proof.Machine.execMemcmp k err s
  | .digestOpUnassigned k => Sys2Proof.Machine.execDigestOpUnassigned k s
  | .digKatRun k pass => Sys2Proof.Machine.execDigKatRun k pass s
  | .digErrRead => Sys2Proof.Machine.execDigErrRead s
  | .startupWindowEnd b bits => Sys2Proof.Machine.execStartupWindowEnd b bits s
  | .aptWindowEnd b bits => Sys2Proof.Machine.execAptWindowEnd b bits s
  | .healthWindowEnd b bits => Sys2Proof.Machine.execHealthWindowEnd b bits s
  | .trimLimit b => Sys2Proof.Machine.execTrimLimit b s
  | .conditionerBlock c => Sys2Proof.Machine.execConditionerBlock c s
  | .rosinWaitTimeout => Sys2Proof.Machine.execRosinWaitTimeout s
  | .entropyGrant p => Sys2Proof.Machine.execEntropyGrant p s
  | .rosinPullGo mid => Sys2Proof.Machine.execRosinPullGo mid s
  | .rosinPullRead mid k => Sys2Proof.Machine.execRosinPullRead mid k s
  | .rosinPst tests kat => Sys2Proof.Machine.execRosinPst tests kat s
  | .rosinStateRead => Sys2Proof.Machine.execRosinStateRead s
  | .rosinRetiredLoRead => Sys2Proof.Machine.execRosinRetiredLoRead s
  | .reservePeg mid => Sys2Proof.Machine.execReservePeg mid s
  | .importGke mid => Sys2Proof.Machine.execImportGke mid s
  | .erasePeg mid => Sys2Proof.Machine.execErasePeg mid s
  | .infoPeg mid => Sys2Proof.Machine.execInfoPeg mid s
  | .lowerLimit mid => Sys2Proof.Machine.execLowerLimit mid s
  | .derive mid => Sys2Proof.Machine.execDerive mid s
  | .reservePriv mid => Sys2Proof.Machine.execReservePriv mid s
  | .importPriv mid => Sys2Proof.Machine.execImportPriv mid s
  | .destroyPriv mid => Sys2Proof.Machine.execDestroyPriv mid s
  | .infoPriv mid => Sys2Proof.Machine.execInfoPriv mid s
  | .rekeyRoot mid => Sys2Proof.Machine.execRekeyRoot mid s
  | .keyCmdUnassigned mid op => Sys2Proof.Machine.execKeyCmdUnassigned mid op s
  | .keyCmdTimeout => Sys2Proof.Machine.execKeyCmdTimeout s
  | .vaultCopy bad => Sys2Proof.Machine.execVaultCopy bad s
  | .keyCmdResultRead => Sys2Proof.Machine.execKeyCmdResultRead s
  | .keyFaultSlotRead => Sys2Proof.Machine.execKeyFaultSlotRead s
  | .shareIn mid v => Sys2Proof.Machine.execShareIn mid v s
  | .shareOut mid v => Sys2Proof.Machine.execShareOut mid v s
  | .authorise mid v => Sys2Proof.Machine.execAuthorise mid v s
  | .cerStep mid index ans => Sys2Proof.Machine.execCerStep mid index ans s
  | .cerAbort mid v => Sys2Proof.Machine.execCerAbort mid v s
  | .cerTimeout => Sys2Proof.Machine.execCerTimeout s
  | .authwinExpiry => Sys2Proof.Machine.execAuthwinExpiry s
  | .cerStateRead => Sys2Proof.Machine.execCerStateRead s
  | .caseRead mid => Sys2Proof.Machine.execCaseRead mid s
  | .caseProgram mid => Sys2Proof.Machine.execCaseProgram mid s
  | .caseErase mid => Sys2Proof.Machine.execCaseErase mid s
  | .readTuning mid => Sys2Proof.Machine.execReadTuning mid s
  | .blockinfo mid => Sys2Proof.Machine.execBlockinfo mid s
  | .relocate mid => Sys2Proof.Machine.execRelocate mid s
  | .caseCmdUnassigned mid op => Sys2Proof.Machine.execCaseCmdUnassigned mid op s
  | .casePlaneDispatch plane => Sys2Proof.Machine.execCasePlaneDispatch plane s
  | .caseDieOpDone plane e resends => Sys2Proof.Machine.execCaseDieOpDone plane e resends s
  | .readCacheFill page e resends stall => Sys2Proof.Machine.execReadCacheFill page e resends stall s
  | .caseRefresh block => Sys2Proof.Machine.execCaseRefresh block s
  | .caseCmdResultRead => Sys2Proof.Machine.execCaseCmdResultRead s
  | .caseFailAddrRead => Sys2Proof.Machine.execCaseFailAddrRead s
  | .caseGenWrite k word v => Sys2Proof.Machine.execCaseGenWrite k word v s
  | .eventRecordEnter source code status payload => Sys2Proof.Machine.execEventRecordEnter source code status payload s
  | .evrecFlush => Sys2Proof.Machine.execEvrecFlush s
  | .evrecFlushWrite v => Sys2Proof.Machine.execEvrecFlushWrite v s
  | .evrecMaxageExpiry => Sys2Proof.Machine.execEvrecMaxageExpiry s
  | .evrecPut mid v => Sys2Proof.Machine.execEvrecPut mid v s
  | .evrecClear mid => Sys2Proof.Machine.execEvrecClear mid s
  | .evrecWindowRead mid word => Sys2Proof.Machine.execEvrecWindowRead mid word s
  | .evrecStatusRead => Sys2Proof.Machine.execEvrecStatusRead s
  | .mirrorCopy resends torn bad => Sys2Proof.Machine.execMirrorCopy resends torn bad s
  | .ledgerRequest mid a => Sys2Proof.Machine.execLedgerRequest mid a s
  | .ledgerRelease mid a => Sys2Proof.Machine.execLedgerRelease mid a s
  | .ledgerGrant => Sys2Proof.Machine.execLedgerGrant s
  | .ledgerMaxwait => Sys2Proof.Machine.execLedgerMaxwait s
  | .ledgerStatusRead => Sys2Proof.Machine.execLedgerStatusRead s
  | .tableScrub => Sys2Proof.Machine.execTableScrub s
  | .dramScrub env => Sys2Proof.Machine.execDramScrub env s
  | .tamperDetection q detB reading frame => Sys2Proof.Machine.execTamperDetection q detB reading frame s
  | .tamperRearm q => Sys2Proof.Machine.execTamperRearm q s
  | .pairDisagreement q detB => Sys2Proof.Machine.execPairDisagreement q detB s
  | .detectorBist run => Sys2Proof.Machine.execDetectorBist run s
  | .tamperLogAppend => Sys2Proof.Machine.execTamperLogAppend s
  | .tamperStickyClr mid => Sys2Proof.Machine.execTamperStickyClr mid s
  | .tamperForce q v => Sys2Proof.Machine.execTamperForce q v s
  | .tamperStickyLoRead => Sys2Proof.Machine.execTamperStickyLoRead s
  | .tamperLogcountRead => Sys2Proof.Machine.execTamperLogcountRead s
  | .watchCycle events => Sys2Proof.Machine.execWatchCycle events s
  | .faultRecordClose t => Sys2Proof.Machine.execFaultRecordClose t s
  | .faultForce k v => Sys2Proof.Machine.execFaultForce k v s
  | .faultnPulseEnd => Sys2Proof.Machine.execFaultnPulseEnd s
  | .faultNctlRelease mid => Sys2Proof.Machine.execFaultNctlRelease mid s
  | .wdogCapoKick mid v => Sys2Proof.Machine.execWdogCapoKick mid v s
  | .wdogModKick mid v => Sys2Proof.Machine.execWdogModKick mid v s
  | .wdogCapoWarn => Sys2Proof.Machine.execWdogCapoWarn s
  | .wdogCapoExpiry => Sys2Proof.Machine.execWdogCapoExpiry s
  | .wdogModuleWarn => Sys2Proof.Machine.execWdogModuleWarn s
  | .wdogModuleExpiry => Sys2Proof.Machine.execWdogModuleExpiry s
  | .retainRequest l12 => Sys2Proof.Machine.execRetainRequest l12 s
  | .retainDrainExpiry => Sys2Proof.Machine.execRetainDrainExpiry s
  | .wake src us => Sys2Proof.Machine.execWake src us s
  | .wakeFail src => Sys2Proof.Machine.execWakeFail src s
  | .unitGateWake => Sys2Proof.Machine.execUnitGateWake s
  | .supplyWarning input bank => Sys2Proof.Machine.execSupplyWarning input bank s
  | .supplyShed bank => Sys2Proof.Machine.execSupplyShed bank s
  | .supplyStopping => Sys2Proof.Machine.execSupplyStopping s
  | .supplyResetLevel absent => Sys2Proof.Machine.execSupplyResetLevel absent s
  | .inputRestored input bank => Sys2Proof.Machine.execInputRestored input bank s
  | .shedLift => Sys2Proof.Machine.execShedLift s
  | .powerTotalLoss => Sys2Proof.Machine.execPowerTotalLoss s
  | .overvoltage input => Sys2Proof.Machine.execOvervoltage input s
  | .coldBoot input bank env => Sys2Proof.Machine.execColdBoot input bank env s
  | .moduleReset env => Sys2Proof.Machine.execModuleReset env s
  | .softwareReset mid => Sys2Proof.Machine.execSoftwareReset mid s
  | .rstNLow => Sys2Proof.Machine.execRstNLow s
  | .perstNLow => Sys2Proof.Machine.execPerstNLow s
  | .provision mid chain keys => Sys2Proof.Machine.execProvision mid chain keys s
  | .seal mid => Sys2Proof.Machine.execSeal mid s
  | .retire mid => Sys2Proof.Machine.execRetire mid s
  | .debugChallenge mid => Sys2Proof.Machine.execDebugChallenge mid s
  | .debugOpen mid => Sys2Proof.Machine.execDebugOpen mid s
  | .debugClose mid => Sys2Proof.Machine.execDebugClose mid s
  | .debugExpiry => Sys2Proof.Machine.execDebugExpiry s
  | .debugChallengeExpiry => Sys2Proof.Machine.execDebugChallengeExpiry s
  | .commitImage mid => Sys2Proof.Machine.execCommitImage mid s
  | .confirmImage mid => Sys2Proof.Machine.execConfirmImage mid s
  | .writePreset mid => Sys2Proof.Machine.execWritePreset mid s
  | .lifeCmdUnassigned mid op => Sys2Proof.Machine.execLifeCmdUnassigned mid op s
  | .pwrStatusRead => Sys2Proof.Machine.execPwrStatusRead s
  | .debugAccess mid op => Sys2Proof.Machine.execDebugAccess mid op s
  | .debugHalt mid p => Sys2Proof.Machine.execDebugHalt mid p s
  | .externalFieldOn => Sys2Proof.Machine.execExternalFieldOn s
  | .fieldLoss => Sys2Proof.Machine.execFieldLoss s
  | .reqa => Sys2Proof.Machine.execReqa s
  | .wupa => Sys2Proof.Machine.execWupa s
  | .anticollision known value => Sys2Proof.Machine.execAnticollision known value s
  | .select uid => Sys2Proof.Machine.execSelect uid s
  | .hlta => Sys2Proof.Machine.execHlta s
  | .rats => Sys2Proof.Machine.execRats s
  | .tagSelectAid p1 aid => Sys2Proof.Machine.execTagSelectAid p1 aid s
  | .readMirror first => Sys2Proof.Machine.execReadMirror first s
  | .readHeader => Sys2Proof.Machine.execReadHeader s
  | .tagSession m => Sys2Proof.Machine.execTagSession m s
  | .tagData m => Sys2Proof.Machine.execTagData m s
  | .writeVisit body strong torn => Sys2Proof.Machine.execWriteVisit body strong torn s
  | .capSense delta => Sys2Proof.Machine.execCapSense delta s
  | .detuningPing shift => Sys2Proof.Machine.execDetuningPing shift s
  | .badgePoll ext field => Sys2Proof.Machine.execBadgePoll ext field s
  | .badgeRefuse => Sys2Proof.Machine.execBadgeRefuse s
  | .pickSessGo => Sys2Proof.Machine.execPickSessGo s
  | .pickSessAbort => Sys2Proof.Machine.execPickSessAbort s
  | .answer m => Sys2Proof.Machine.execAnswer m s
  | .finish m => Sys2Proof.Machine.execFinish m s
  | .data m => Sys2Proof.Machine.execData m s
  | .abort st => Sys2Proof.Machine.execAbort st s
  | .sessionStepTimeout => Sys2Proof.Machine.execSessionStepTimeout s
  | .sessionLifetimeExpiry => Sys2Proof.Machine.execSessionLifetimeExpiry s
  | .pickStatusRead => Sys2Proof.Machine.execPickStatusRead s
  | .pickMirrorRead => Sys2Proof.Machine.execPickMirrorRead s
  | .cardInsert => Sys2Proof.Machine.execCardInsert s
  | .atrReceived atr pps => Sys2Proof.Machine.execAtrReceived atr pps s
  | .atrTimeout => Sys2Proof.Machine.execAtrTimeout s
  | .cardRemoval share => Sys2Proof.Machine.execCardRemoval share s
  | .cardOvercurrent => Sys2Proof.Machine.execCardOvercurrent s
  | .t1BlockError resync => Sys2Proof.Machine.execT1BlockError resync s
  | .cardMaxwaitExpiry => Sys2Proof.Machine.execCardMaxwaitExpiry s
  | .cardClockStop => Sys2Proof.Machine.execCardClockStop s
  | .cardXfer mid sealed ans => Sys2Proof.Machine.execCardXfer mid sealed ans s
  | .cardResultRead => Sys2Proof.Machine.execCardResultRead s
  | .cardStatusRead => Sys2Proof.Machine.execCardStatusRead s
  | .wakeNLow us => Sys2Proof.Machine.execWakeNLow us s
  | .unassignedOpcode p => Sys2Proof.Machine.execUnassignedOpcode p s
  | .rstNRise env => Sys2Proof.Machine.execRstNRise env s
  | .perstNRise => Sys2Proof.Machine.execPerstNRise s
  | .holdupCheck bank => Sys2Proof.Machine.execHoldupCheck bank s
  | .refreshAgeFlag block => Sys2Proof.Machine.execRefreshAgeFlag block s
  | .msixUnmask v => Sys2Proof.Machine.execMsixUnmask v s
  | .vfEnableWrite on => Sys2Proof.Machine.execVfEnableWrite on s
  | .linkL12Entry => Sys2Proof.Machine.execLinkL12Entry s
  | .mirrorDeferEnd => Sys2Proof.Machine.execMirrorDeferEnd s
  | .pdelayReqTx port => Sys2Proof.Machine.execPdelayReqTx port s

end Sys2Proof.Machine
end

