-- ==== Sys2Proof/Machine/Step.lean ====
section
/-! DEFINITION. One step of the module: the command at the front of the queue is taken; on an empty queue
one cycle passes (log entry 1). -/

namespace Sys2Proof.Machine

/-- A cycle without a command: time passes, and what disturbs the memories, the links and the dual-stored registers takes
its place (log entries 1 and 90). -/
def State.idle (s : State) : State :=
  let s1 := s.pass 1
  ({ s1 with freeCtr := s1.freeCtr + 1 }).disturb (Config.disturb s1.freeCtr)

/-- A step: the first waiting command's effect on the state with the rest of the queue. -/
def step (s : State) : Host.Outcome State Fault Refusal :=
  match s.pending with
  | [] => .next s.idle
  | c :: rest => exec c { s with pending := rest }

/-- The command a table word spells, put at the front of the queue. -/
def State.withFetchWord (s : State) (nbits w : Nat) : State :=
  match Sys2Proof.decodeTableWord nbits w with
  | some c => { s with pending := c :: s.pending }
  | none => s

end Sys2Proof.Machine
end

