-- ==== Sys2Proof/Safety.lean ====
section
/-! DEFINITION. What a safe run of the module is, and what leaves a part of it as it was, in the terms the
statements use. -/

namespace Sys2Proof.Machine

/-- Both byte memories in their canonical form: addresses strictly rising, no byte equal to what an unlisted address
reads as. -/
def State.memOk (s : State) : Prop := Memory.wf s.mem.cells = true ∧ Memory.wf s.mem.host = true

/-- Every byte of the internal map and of host memory reads as before. -/
def SameMem (s t : State) : Prop :=
  ∀ a, cellRead t.mem.cells a = cellRead s.mem.cells a ∧ cellRead t.mem.host a = cellRead s.mem.host a

/-- Every register but those at the offsets of a list reads as before, in both copies. -/
def SameRegs (except : List Nat) (s t : State) : Prop :=
  ∀ off, off ∉ except → t.rd off = s.rd off ∧ tget t.dual off = tget s.dual off

/-- Every Diurn processor but those of a list is as before. -/
def SameProcs (except : List Nat) (s t : State) : Prop := ∀ p, p ∉ except → t.proc p = s.proc p

/-- A command that completes: it answers the next state `t`. -/
def Completes (c : Instr) (s t : State) : Prop := exec c s = .next t

/-- A command that stops the module: none of the spec's does. -/
def Stops (c : Instr) (s : State) : Prop := (∃ f, exec c s = .fault f) ∨ ∃ r, exec c s = .refused r

/-- A safe step: a next state with its memories in canonical form. -/
def SafeStep (s : State) : Prop := ∃ t, step s = .next t ∧ t.memOk

/-! ## Rows that share a statement -/

/-- The status reads and the request lines they lower (Table 5-8). -/
def statusReads : List (Instr × List Nat) :=
  [(.keyCmdResultRead, [464]), (.keyFaultSlotRead, [465]), (.cerStateRead, [466]), (.soundErrRead, [144]),
   (.soundLmswarnSlotRead, [145]), (.digErrRead, [272]), (.assocSuplostIdxRead, [110]), (.bowSpentSlotRead, [111]),
   (.bowWarnSlotRead, [112]), (.ptpDemotedRead, [108]), (.bridgeErrRead, [385]), (.rosinStateRead, [448]),
   (.rosinRetiredLoRead, [449]), (.caseCmdResultRead, [320, 323]), (.caseFailAddrRead, [321]), (.evrecStatusRead, [325]),
   (.ledgerStatusRead, [326, 327]), (.tamperStickyLoRead, [67]), (.tamperLogcountRead, [68]), (.pwrStatusRead, [80, 83]),
   (.pickStatusRead, [480]), (.pickMirrorRead, [482]), (.cardStatusRead, [484, 486]), (.cardResultRead, [485])]

/-! ## The Diurn instruction set -/

/-- A row of the instruction set: the command of processor `p`, its opcode, its operands and its body. -/
structure DiurnRow where
  instr : Instr
  code : Nat
  desc : OpDesc
  body : Dec → Cx → Res State

/-- The rows of Tables 4-2 to 4-11 whose operation is `C ← f(A, B, C)`: the function, with the value of C where
it is read. -/
structure AluRow where
  instr : Instr
  code : Nat
  desc : OpDesc
  readC : Bool
  f : Nat → Nat → Nat → Proc → AluOut

/-- Processor `p` is at a boundary where it executes, the word at its PC is fetched, its opcode is `code`,
assigned to it, and the instruction decodes to `i`, with every check of R132 passed; `c` is the instruction so far. -/
def State.Decodes (s : State) (p code : Nat) (d : OpDesc) (i : Dec) (c : Cx) : Prop :=
  s.canStep p = true ∧ ∃ w c1, (s.cx p).fetch (s.proc p).pc.toNat = .ok w c1 ∧ w / 2 ^ 27 = code ∧
    opAssigned p (s.proc p).priv code = true ∧ ({ c1 with first := w } : Cx).decode w d = .ok i c

/-- The module after an instruction of `p` that has come to `t`. -/
def State.retires (s : State) (p : Nat) (t : State) : State := (s.beforeEdge p t).debugCatch p

/-- What an instruction of `p` has come to stands: it ends before the edge of the tick (R35), and no debug master waits for
a boundary (R550). -/
def State.stands (s : State) (p : Nat) (t : State) : Prop :=
  (isFret p = true → s.time.ticking = true → (t.proc p).now ≤ s.edgeCycle) ∧
    t.lcs.haltReq = [] ∧ t.lcs.stepReq = [] ∧ t.lcs.breaks = []

/-- The module after an instruction of `p` that raised a synchronous exception. -/
def State.raises (s : State) (p : Nat) (e : Exc) (c : Cx) : State := s.retires p (c.takeExc e)

/-- The phases before the operation go through: operands evaluated, A and B read, and C where the opcode reads
it. -/
def AluRow.Reads (r : AluRow) (i : Dec) (c : Cx) (o : Opnds) (a b cv : Nat) (c' : Cx) : Prop :=
  ∃ c1 c2 c3, c.phase1 r.desc i = .ok o c1 ∧ c1.getOpt o.a r.desc.a (if o.marker then 3 else 1) = .ok a c2 ∧
    c2.getOpt o.b r.desc.b 2 = .ok b c3 ∧ (if r.readC then c3.getOpt o.c r.desc.c 3 else .ok 0 c3) = .ok cv c'

/-- Operand A of an opcode with one operand evaluated and read. -/
def Cx.ReadsA (c : Cx) (d : OpDesc) (i : Dec) (o : Opnds) (a : Nat) (c' : Cx) : Prop :=
  ∃ c1, c.phase1 d i = .ok o c1 ∧ c1.getOpt o.a (some .w) 1 = .ok a c'

/-- Operands A and B evaluated and read. -/
def Cx.ReadsAB (c : Cx) (d : OpDesc) (i : Dec) (o : Opnds) (a b : Nat) (c' : Cx) : Prop :=
  ∃ c1 c2, c.phase1 d i = .ok o c1 ∧ c1.getOpt o.a (some .w) 1 = .ok a c2 ∧ c2.getOpt o.b (some .w) 2 = .ok b c'

/-- A staging opcode's phases 1 and 2 go through, C checked first (R164). -/
def Cx.ReadsStage (c : Cx) (d : OpDesc) (i : Dec) (o : Opnds) (a b : Nat) (c' : Cx) : Prop :=
  ∃ c1 c2 c3, c.phase1 d i = .ok o c1 ∧ c1.checkC o.c = .ok () c2 ∧ c2.getOpt o.a d.a 1 = .ok a c3 ∧
    c3.getOpt o.b d.b 2 = .ok b c'

/-- The opcodes that run as one instruction, with opcode, operands and body (Tables 4-2 to 4-11), part 1. -/
def diurnRows1 (p : Nat) : List DiurnRow :=
  [⟨.nop p, 0o001, (dNone 0), nopBody⟩,
   ⟨.jmp p, 0o002, (dA 1), jmpBody⟩,
   ⟨.call p, 0o003, (dA 2), callBody⟩,
   ⟨.ret p, 0o004, (dNone 2), retBody⟩,
   ⟨.loop p, 0o005, ⟨some .w, some .w, none, false, 2⟩, loopBody⟩,
   ⟨.lpop p, 0o006, (dNone 1), lpopBody⟩,
   ⟨.beq p, 0o010, (dA 1), branchBody (dA 1) fun pr => pr.flagZ⟩,
   ⟨.bne p, 0o011, (dA 1), branchBody (dA 1) fun pr => !pr.flagZ⟩,
   ⟨.blt p, 0o012, (dA 1), branchBody (dA 1) fun pr => pr.flagN != pr.flagV⟩,
   ⟨.bge p, 0o013, (dA 1), branchBody (dA 1) fun pr => pr.flagN == pr.flagV⟩,
   ⟨.bltu p, 0o014, (dA 1), branchBody (dA 1) fun pr => pr.flagC⟩,
   ⟨.bgeu p, 0o015, (dA 1), branchBody (dA 1) fun pr => !pr.flagC⟩,
   ⟨.bmi p, 0o016, (dA 1), branchBody (dA 1) fun pr => pr.flagN⟩,
   ⟨.bpl p, 0o017, (dA 1), branchBody (dA 1) fun pr => !pr.flagN⟩,
   ⟨.bgt p, 0o030, (dA 1), branchBody (dA 1) fun pr => !pr.flagZ && (pr.flagN == pr.flagV)⟩,
   ⟨.ble p, 0o031, (dA 1), branchBody (dA 1) fun pr => pr.flagZ || (pr.flagN != pr.flagV)⟩,
   ⟨.bhi p, 0o032, (dA 1), branchBody (dA 1) fun pr => !pr.flagC && !pr.flagZ⟩,
   ⟨.bls p, 0o033, (dA 1), branchBody (dA 1) fun pr => pr.flagC || pr.flagZ⟩,
   ⟨.bvs p, 0o034, (dA 1), branchBody (dA 1) fun pr => pr.flagV⟩,
   ⟨.bvc p, 0o035, (dA 1), branchBody (dA 1) fun pr => !pr.flagV⟩,
   ⟨.bts p, 0o036, (dA 1), branchBody (dA 1) fun pr => pr.flagT⟩,
   ⟨.btc p, 0o037, (dA 1), branchBody (dA 1) fun pr => !pr.flagT⟩,
   ⟨.gate p, 0o020, (dA 0), gateBody⟩,
   ⟨.retg p, 0o021, (dNone 0), returnBody false⟩,
   ⟨.retx p, 0o022, (dNone 0), returnBody true⟩]

/-- The opcodes that run as one instruction, with opcode, operands and body (Tables 4-2 to 4-11), part 2. -/
def diurnRows2 (p : Nat) : List DiurnRow :=
  [⟨.wait p, 0o024, (dNone 1), waitBody⟩,
   ⟨.push p, 0o040, (dA 1), pushBody⟩,
   ⟨.pop p, 0o041, (dC 1), popBody⟩,
   ⟨.enter p, 0o042, (dA 2), enterBody⟩,
   ⟨.leave p, 0o043, (dNone 2), leaveBody⟩,
   ⟨.mov p, 0o100, (dUn 1), aluBody (dUn 1) false fun a _ _ _ => aluMov 36 a⟩,
   ⟨.add p, 0o101, (dBin 1), aluBody (dBin 1) false fun a b _ _ => aluAdd 36 a b 0⟩,
   ⟨.sub p, 0o102, (dBin 1), aluBody (dBin 1) false fun a b _ _ => aluSub 36 a b 0⟩,
   ⟨.adc p, 0o103, (dBin 1), aluBody (dBin 1) false fun a b _ pr => aluAdd 36 a b (if pr.flagC then 1 else 0)⟩,
   ⟨.sbc p, 0o104, (dBin 1), aluBody (dBin 1) false fun a b _ pr => aluSub 36 a b (if pr.flagC then 1 else 0)⟩,
   ⟨.neg p, 0o105, (dUn 1), aluBody (dUn 1) false fun a _ _ _ => aluSub 36 0 a 0⟩,
   ⟨.abs p, 0o106, (dUn 1), aluBody (dUn 1) false fun a _ _ _ => aluAbs a⟩,
   ⟨.mul p, 0o107, (dBin 3), aluBody (dBin 3) false fun a b _ _ => aluMul a b⟩,
   ⟨.muld p, 0o110, ⟨some .w, some .w, some .d, false, 4⟩, aluBody ⟨some .w, some .w, some .d, false, 4⟩ false fun a b _ _ => aluMuld a b⟩,
   ⟨.div p, 0o111, (dBin 20), aluBody (dBin 20) false fun a b _ _ => aluDiv a b⟩,
   ⟨.rem p, 0o112, (dBin 20), aluBody (dBin 20) false fun a b _ _ => aluRem a b⟩,
   ⟨.divu p, 0o113, (dBin 20), aluBody (dBin 20) false fun a b _ _ => aluDivu a b⟩,
   ⟨.remu p, 0o114, (dBin 20), aluBody (dBin 20) false fun a b _ _ => aluRemu a b⟩,
   ⟨.min p, 0o115, (dBin 1), aluBody (dBin 1) false fun a b _ _ => aluMin a b⟩,
   ⟨.max p, 0o116, (dBin 1), aluBody (dBin 1) false fun a b _ _ => aluMax a b⟩,
   ⟨.macd p, 0o117, ⟨some .w, some .w, some .d, false, 4⟩, aluBody ⟨some .w, some .w, some .d, false, 4⟩ true fun a b c _ => aluMacd a b c⟩,
   ⟨.and p, 0o200, (dBin 1), aluBody (dBin 1) false fun a b _ _ => aluAnd a b⟩,
   ⟨.or p, 0o201, (dBin 1), aluBody (dBin 1) false fun a b _ _ => aluOr a b⟩,
   ⟨.xor p, 0o202, (dBin 1), aluBody (dBin 1) false fun a b _ _ => aluXor a b⟩,
   ⟨.andn p, 0o203, (dBin 1), aluBody (dBin 1) false fun a b _ _ => aluAndn a b⟩]

/-- The opcodes that run as one instruction, with opcode, operands and body (Tables 4-2 to 4-11), part 3. -/
def diurnRows3 (p : Nat) : List DiurnRow :=
  [⟨.not p, 0o204, (dUn 1), aluBody (dUn 1) false fun a _ _ _ => aluNot a⟩,
   ⟨.shl p, 0o210, (dBin 1), aluBody (dBin 1) false fun a b _ _ => aluShl a b⟩,
   ⟨.shr p, 0o211, (dBin 1), aluBody (dBin 1) false fun a b _ _ => aluShr a b⟩,
   ⟨.sar p, 0o212, (dBin 1), aluBody (dBin 1) false fun a b _ _ => aluSar 36 a b⟩,
   ⟨.rol p, 0o213, (dBin 1), aluBody (dBin 1) false fun a b _ _ => aluRol a b⟩,
   ⟨.ext p, 0o214, (dBinN 1), aluBody (dBinN 1) false fun a b _ _ => aluExt a b⟩,
   ⟨.exts p, 0o215, (dBinN 1), aluBody (dBinN 1) false fun a b _ _ => aluExts a b⟩,
   ⟨.ins p, 0o216, (dBinN 2), aluBody (dBinN 2) true fun a b c _ => aluIns a b c⟩,
   ⟨.hadd p, 0o300, (dBin 1), aluBody (dBin 1) false fun a b _ _ => aluHadd a b⟩,
   ⟨.hsub p, 0o301, (dBin 1), aluBody (dBin 1) false fun a b _ _ => aluHsub a b⟩,
   ⟨.hmul p, 0o302, (dBin 2), aluBody (dBin 2) false fun a b _ _ => aluHmul a b⟩,
   ⟨.hpack p, 0o303, (dBinN 1), aluBody (dBinN 1) false fun a b _ _ => aluHpack a b⟩,
   ⟨.hhi p, 0o304, (dUn 1), aluBody (dUn 1) false fun a _ _ _ => aluHhi a⟩,
   ⟨.hlo p, 0o305, (dUn 1), aluBody (dUn 1) false fun a _ _ _ => aluHlo a⟩,
   ⟨.hswp p, 0o306, (dUn 1), aluBody (dUn 1) false fun a _ _ _ => aluHswp a⟩,
   ⟨.dmov p, 0o400, ⟨some .d, none, some .d, false, 1⟩, aluBody ⟨some .d, none, some .d, false, 1⟩ false fun a _ _ _ => aluMov 72 a⟩,
   ⟨.dadd p, 0o401, ⟨some .d, some .d, some .d, true, 1⟩, aluBody ⟨some .d, some .d, some .d, true, 1⟩ false fun a b _ _ => aluAdd 72 a b 0⟩,
   ⟨.dsub p, 0o402, ⟨some .d, some .d, some .d, true, 1⟩, aluBody ⟨some .d, some .d, some .d, true, 1⟩ false fun a b _ _ => aluSub 72 a b 0⟩,
   ⟨.dneg p, 0o403, ⟨some .d, none, some .d, false, 1⟩, aluBody ⟨some .d, none, some .d, false, 1⟩ false fun a _ _ _ => aluSub 72 0 a 0⟩,
   ⟨.dcvt p, 0o404, ⟨some .w, none, some .d, false, 1⟩, aluBody ⟨some .w, none, some .d, false, 1⟩ false fun a _ _ _ => aluDcvt a⟩,
   ⟨.dsat p, 0o405, ⟨some .d, none, some .w, false, 1⟩, aluBody ⟨some .d, none, some .w, false, 1⟩ false fun a _ _ _ => aluDsat a⟩,
   ⟨.dsar p, 0o406, ⟨some .d, some .w, some .d, false, 1⟩, aluBody ⟨some .d, some .w, some .d, false, 1⟩ false fun a b _ _ => aluSar 72 a b⟩,
   ⟨.dcmp p, 0o407, ⟨some .d, some .d, none, false, 1⟩, aluBody ⟨some .d, some .d, none, false, 1⟩ false fun a b _ _ => aluSub 72 a b 0⟩,
   ⟨.oget p, 0o500, ⟨some .o, some .w, some .w, false, 1⟩, ogetBody⟩,
   ⟨.oput p, 0o501, ⟨some .w, some .w, some .o, false, 1⟩, oputBody⟩]

/-- The opcodes that run as one instruction, with opcode, operands and body (Tables 4-2 to 4-11), part 4. -/
def diurnRows4 (p : Nat) : List DiurnRow :=
  [⟨.berlen p, 0o502, ⟨some .o, none, some .w, false, 3⟩, berlenBody⟩,
   ⟨.ocnt p, 0o503, (dUn 1), aluBody (dUn 1) false fun a _ _ _ => aluOcnt a⟩,
   ⟨.tleft p, 0o601, (dC 1), tleftBody⟩,
   ⟨.svpull p, 0o602, (dBinN 12), svpullBody⟩,
   ⟨.gosub p, 0o603, (dStage 8), gosubBody⟩,
   ⟨.jobput p, 0o604, (dStage 6), jobputBody⟩,
   ⟨.verdict p, 0o605, (dStage 4), verdictBody⟩,
   ⟨.evput p, 0o606, (dStage 6), evputBody⟩,
   ⟨.tabandon p, 0o607, (dNone 1), tabandonBody⟩]

/-- The opcodes that run as one instruction, with opcode, operands and body (Tables 4-2 to 4-11). -/
def diurnRows (p : Nat) : List DiurnRow := diurnRows1 p ++ diurnRows2 p ++ diurnRows3 p ++ diurnRows4 p

/-- The opcodes that compute C from A, B and C (Tables 4-4 to 4-9), part 1. -/
def aluRows1 (p : Nat) : List AluRow :=
  [⟨.mov p, 0o100, (dUn 1), false, fun a _ _ _ => aluMov 36 a⟩,
   ⟨.add p, 0o101, (dBin 1), false, fun a b _ _ => aluAdd 36 a b 0⟩,
   ⟨.sub p, 0o102, (dBin 1), false, fun a b _ _ => aluSub 36 a b 0⟩,
   ⟨.adc p, 0o103, (dBin 1), false, fun a b _ pr => aluAdd 36 a b (if pr.flagC then 1 else 0)⟩,
   ⟨.sbc p, 0o104, (dBin 1), false, fun a b _ pr => aluSub 36 a b (if pr.flagC then 1 else 0)⟩,
   ⟨.neg p, 0o105, (dUn 1), false, fun a _ _ _ => aluSub 36 0 a 0⟩,
   ⟨.abs p, 0o106, (dUn 1), false, fun a _ _ _ => aluAbs a⟩,
   ⟨.mul p, 0o107, (dBin 3), false, fun a b _ _ => aluMul a b⟩,
   ⟨.muld p, 0o110, ⟨some .w, some .w, some .d, false, 4⟩, false, fun a b _ _ => aluMuld a b⟩,
   ⟨.div p, 0o111, (dBin 20), false, fun a b _ _ => aluDiv a b⟩,
   ⟨.rem p, 0o112, (dBin 20), false, fun a b _ _ => aluRem a b⟩,
   ⟨.divu p, 0o113, (dBin 20), false, fun a b _ _ => aluDivu a b⟩,
   ⟨.remu p, 0o114, (dBin 20), false, fun a b _ _ => aluRemu a b⟩,
   ⟨.min p, 0o115, (dBin 1), false, fun a b _ _ => aluMin a b⟩,
   ⟨.max p, 0o116, (dBin 1), false, fun a b _ _ => aluMax a b⟩,
   ⟨.macd p, 0o117, ⟨some .w, some .w, some .d, false, 4⟩, true, fun a b c _ => aluMacd a b c⟩,
   ⟨.and p, 0o200, (dBin 1), false, fun a b _ _ => aluAnd a b⟩,
   ⟨.or p, 0o201, (dBin 1), false, fun a b _ _ => aluOr a b⟩,
   ⟨.xor p, 0o202, (dBin 1), false, fun a b _ _ => aluXor a b⟩,
   ⟨.andn p, 0o203, (dBin 1), false, fun a b _ _ => aluAndn a b⟩,
   ⟨.not p, 0o204, (dUn 1), false, fun a _ _ _ => aluNot a⟩,
   ⟨.shl p, 0o210, (dBin 1), false, fun a b _ _ => aluShl a b⟩,
   ⟨.shr p, 0o211, (dBin 1), false, fun a b _ _ => aluShr a b⟩,
   ⟨.sar p, 0o212, (dBin 1), false, fun a b _ _ => aluSar 36 a b⟩,
   ⟨.rol p, 0o213, (dBin 1), false, fun a b _ _ => aluRol a b⟩]

/-- The opcodes that compute C from A, B and C (Tables 4-4 to 4-9), part 2. -/
def aluRows2 (p : Nat) : List AluRow :=
  [⟨.ext p, 0o214, (dBinN 1), false, fun a b _ _ => aluExt a b⟩,
   ⟨.exts p, 0o215, (dBinN 1), false, fun a b _ _ => aluExts a b⟩,
   ⟨.ins p, 0o216, (dBinN 2), true, fun a b c _ => aluIns a b c⟩,
   ⟨.hadd p, 0o300, (dBin 1), false, fun a b _ _ => aluHadd a b⟩,
   ⟨.hsub p, 0o301, (dBin 1), false, fun a b _ _ => aluHsub a b⟩,
   ⟨.hmul p, 0o302, (dBin 2), false, fun a b _ _ => aluHmul a b⟩,
   ⟨.hpack p, 0o303, (dBinN 1), false, fun a b _ _ => aluHpack a b⟩,
   ⟨.hhi p, 0o304, (dUn 1), false, fun a _ _ _ => aluHhi a⟩,
   ⟨.hlo p, 0o305, (dUn 1), false, fun a _ _ _ => aluHlo a⟩,
   ⟨.hswp p, 0o306, (dUn 1), false, fun a _ _ _ => aluHswp a⟩,
   ⟨.dmov p, 0o400, ⟨some .d, none, some .d, false, 1⟩, false, fun a _ _ _ => aluMov 72 a⟩,
   ⟨.dadd p, 0o401, ⟨some .d, some .d, some .d, true, 1⟩, false, fun a b _ _ => aluAdd 72 a b 0⟩,
   ⟨.dsub p, 0o402, ⟨some .d, some .d, some .d, true, 1⟩, false, fun a b _ _ => aluSub 72 a b 0⟩,
   ⟨.dneg p, 0o403, ⟨some .d, none, some .d, false, 1⟩, false, fun a _ _ _ => aluSub 72 0 a 0⟩,
   ⟨.dcvt p, 0o404, ⟨some .w, none, some .d, false, 1⟩, false, fun a _ _ _ => aluDcvt a⟩,
   ⟨.dsat p, 0o405, ⟨some .d, none, some .w, false, 1⟩, false, fun a _ _ _ => aluDsat a⟩,
   ⟨.dsar p, 0o406, ⟨some .d, some .w, some .d, false, 1⟩, false, fun a b _ _ => aluSar 72 a b⟩,
   ⟨.dcmp p, 0o407, ⟨some .d, some .d, none, false, 1⟩, false, fun a b _ _ => aluSub 72 a b 0⟩,
   ⟨.ocnt p, 0o503, (dUn 1), false, fun a _ _ _ => aluOcnt a⟩]

/-- The opcodes that compute C from A, B and C (Tables 4-4 to 4-9). -/
def aluRows (p : Nat) : List AluRow := aluRows1 p ++ aluRows2 p

/-- The conditional branches: command, opcode, condition (Table 4-3). -/
def branchRows (p : Nat) : List (Instr × Nat × (Proc → Bool)) :=
  [(.beq p, 0o010, fun pr => pr.flagZ),
   (.bne p, 0o011, fun pr => !pr.flagZ),
   (.blt p, 0o012, fun pr => pr.flagN != pr.flagV),
   (.bge p, 0o013, fun pr => pr.flagN == pr.flagV),
   (.bltu p, 0o014, fun pr => pr.flagC),
   (.bgeu p, 0o015, fun pr => !pr.flagC),
   (.bmi p, 0o016, fun pr => pr.flagN),
   (.bpl p, 0o017, fun pr => !pr.flagN),
   (.bgt p, 0o030, fun pr => !pr.flagZ && (pr.flagN == pr.flagV)),
   (.ble p, 0o031, fun pr => pr.flagZ || (pr.flagN != pr.flagV)),
   (.bhi p, 0o032, fun pr => !pr.flagC && !pr.flagZ),
   (.bls p, 0o033, fun pr => pr.flagC || pr.flagZ),
   (.bvs p, 0o034, fun pr => pr.flagV),
   (.bvc p, 0o035, fun pr => !pr.flagV),
   (.bts p, 0o036, fun pr => pr.flagT),
   (.btc p, 0o037, fun pr => !pr.flagT)]

/-! ## Other row tables -/

/-- The Soundboard's operations (Table 9-6): the command of a cell that ends such a job, and its OP. -/
def jobRows : List ((Nat → Nat → JobErr → Instr) × Nat) :=
  [(.mlkemKeygen, 0x01), (.mlkemEncaps, 0x02), (.mlkemDecaps, 0x03), (.mldsaKeygen, 0x08), (.mldsaSign, 0x09),
   (.mldsaVerify, 0x0A), (.slhdsaKeygen, 0x10), (.slhdsaSign, 0x11), (.slhdsaVerify, 0x12), (.lmsKeygen, 0x18),
   (.lmsSign, 0x19), (.lmsVerify, 0x1A), (.lmsInfo, 0x1B), (.mceEncaps, 0x21), (.mceDecaps, 0x22), (.hqcKeygen, 0x28),
   (.hqcEncaps, 0x29), (.hqcDecaps, 0x2A), (.ecKeygen, 0x30), (.ecdsaSign, 0x31), (.ecdh, 0x32), (.x25519Keygen, 0x34),
   (.x25519, 0x35), (.ed25519Keygen, 0x36), (.ed25519Sign, 0x37), (.ed25519Verify, 0x38), (.pubexport, 0x3C),
   (.random, 0x3D)]

/-- The verification engines' operations (Table 10-1): the command, and its OP. -/
def veRows : List ((Nat → Nat → Word32 → Instr) × Nat) :=
  [(.ecdsaVerify, 1), (.pointValidate, 2), (.rsaPkcs1, 3), (.rsaPss, 4), (.rsaPublic, 5), (.loadCurve, 8),
   (.clearCurve, 9)]

/-- The digest engine's operations (Table 10-4): the command, and its OP. -/
def digRows : List ((Nat → Bool → Instr) × Nat) :=
  [(.digest, doDIGEST), (.hmac, doHMAC), (.kmac, doKMAC), (.memcmp, doMEMCMP)]

/-- The key store's commands (Table 12-4): the master that writes KEY_CMD, and the OP. -/
def keyRow : Instr → Option (Nat × Nat)
  | .reservePeg m => some (m, 1)
  | .importGke m => some (m, 2)
  | .erasePeg m => some (m, 3)
  | .infoPeg m => some (m, 4)
  | .lowerLimit m => some (m, 5)
  | .derive m => some (m, 6)
  | .reservePriv m => some (m, 8)
  | .importPriv m => some (m, 9)
  | .destroyPriv m => some (m, 10)
  | .infoPriv m => some (m, 11)
  | .rekeyRoot m => some (m, 15)
  | _ => none

/-- The masters that may run a key-store command (R451): Capo ring 0 all, ring 1 those of Peg slots. -/
def keyMay (mid op : Nat) : Bool := decide (mid = 0x40) || (decide (op < 8) && decide (mid = 0x41))

/-- The module once an accepted GO of KEY_CMD has set BUSY. -/
def State.keyBegin (s : State) : State := (s.put KEY_CMD_RESULT_BUSY 1).irq 464 false

/-- The command of a GO with its staged operands. -/
def State.keyStaged (s : State) (mid op : Nat) : KeyCmd :=
  ⟨op, mid, s.get KEY_CMD_SLOT_SLOT, (s.rd KEY_CMD_ATTR).toNat, s.get KEY_CMD_USERS_USERS,
    s.get64 KEY_CMD_LIMIT_LO KEY_CMD_LIMIT_HI, s.addr40 KEY_CMD_SRC_LO, s.get KEY_CMD_SRC_LEN_LEN, s.get KEY_CMD_AUX_SLOT,
    s.clock⟩

/-- The commands of the Case die (Table 13-2): the master that writes CASE_CMD, and the OP. -/
def caseRow : Instr → Option (Nat × Nat)
  | .caseRead m => some (m, coREAD)
  | .caseProgram m => some (m, coPROGRAM)
  | .caseErase m => some (m, coERASE)
  | .readTuning m => some (m, coTUNING)
  | .blockinfo m => some (m, coINFO)
  | .relocate m => some (m, coRELOCATE)
  | _ => none

/-- The module once an accepted GO of CASE_CMD has set BUSY. -/
def State.caseBegin (s : State) : State :=
  (((s.put CASE_CMD_RESULT_BUSY 1).put CASE_CMD_RESULT_STEP 0).put CASE_CMD_RESULT_CORR 0).clrIrq 320

/-- The operation that a command leaves waiting for its plane (R460, R463): a read first, the others in their class;
`bs` are the bytes of the buffer. -/
def State.caseStaged (s : State) (op : Nat) (bs : Bytes) : Option DieOp :=
  let b := s.get CASE_CMD_ADDR_BLOCK
  let page := s.get CASE_CMD_ADDR_PAGE
  if op = coREAD then some ⟨0, b, page, .read (s.get CASE_CMD_LEN_LEN)⟩
  else if op = coPROGRAM then some ⟨3, b, page, .program (s.get CASE_CMD_ADDR_UNIT) bs⟩
  else if op = coERASE then some ⟨3, b, page, .erase⟩
  else if op = coRELOCATE then some ⟨3, b, page, .relocate true⟩
  else none

/-- Whether an event of one detector of a quantity meets no event of the other within the pair window (R491). -/
def State.lone (s : State) (q : Nat) (detB : Bool) : Bool :=
  (s.qty q).lone.all fun l => decide (l.1 = detB) || decide (l.2.1 + cyclesPerUs * pairWindow q < s.clock)

/-- The events a quantity counts within WINDOW with one that arrives now (R491). -/
def State.inWin (s : State) (q : Nat) : Nat :=
  ((s.qty q).events.filter fun e => decide (s.clock ≤ e.1 + cyclesPerUs * s.get (TSRC_WINDOW_US q))).length + 1

/-- The events that confirm a quantity: 1 for CASE_SW0, CASE_SW1 and MESH_OPEN, else COUNT (R491). -/
def State.needs (s : State) (q : Nat) : Nat := if 8 ≤ q ∧ q ≤ 10 then 1 else s.get (TSRC_CFG_COUNT q)

/-- The lifecycle commands (Table 15-9): the master that writes LIFE_CMD, and the request. -/
def lifeRow : Instr → Option (Nat × LifeReq)
  | .provision m chain k => some (m, ⟨1, ⟨chain, k.keys, k.cas, k.cred⟩⟩)
  | .seal m => some (m, ⟨2, default⟩)
  | .retire m => some (m, ⟨3, default⟩)
  | .debugChallenge m => some (m, ⟨4, default⟩)
  | .debugOpen m => some (m, ⟨5, default⟩)
  | .debugClose m => some (m, ⟨6, default⟩)
  | .commitImage m => some (m, ⟨7, default⟩)
  | .confirmImage m => some (m, ⟨8, default⟩)
  | .writePreset m => some (m, ⟨9, default⟩)
  | _ => none

/-- The module once an accepted GO of LIFE_CMD has set BUSY. -/
def State.lifeBegin (s : State) : State := (s.put LIFE_CMD_RESULT_BUSY 1).clrIrq 84

/-- Raising a source resets and zeroizes nothing: no zeroize is asked for, and neither the source's actions nor those of the
event recorder's loss, which may follow it, are RESET or ZEROIZE (Table 14-4). -/
def State.calm (s : State) (src : Nat) : Prop :=
  s.flt.zeroizeDue = false ∧ s.get (FAULT_SRC_ACTION src) < 16 ∧ s.get (FAULT_SRC_ACTION SRC_EVREC_LOST) < 16

/-- A stretch of on-die SRAM that reads without an error: no fabric transfer, no word of it was disturbed or poisoned. -/
def State.sramClean (s : State) (a n : Nat) : Prop :=
  (sramPart a).isSome = true ∧ (sramPart (a + n - 1)).isSome = true ∧ s.mem.parityNext = 0 ∧ s.upsetsIn a n = [] ∧
    s.poisoned a n = false

end Sys2Proof.Machine
end

