-- ==== Sys2Proof/WellFormed.lean ====
section
/-! DEFINITION. Well-formed commands: every operand names an instance that exists and every written value fits its
field. A command that is not well-formed is no event of the module; its meaning leaves the state or takes the operand's
low bits (log entry 2). -/

namespace Sys2Proof

/-- A master identity that Table 2-3 assigns. -/
def midOk (m : Nat) : Bool := decide (m < 0x44) || (decide (0x50 ≤ m) && decide (m < 0x72)) || (decide (0x80 ≤ m) && decide (m < 0xC0))

/-- A debug master. -/
def debugOk (m : Nat) : Bool := decide (m = 0x70) || decide (m = 0x71)

/-- A Diurn processor: 0 to 31 a Fret engine, 32 the Capo. -/
def procOk (p : Nat) : Bool := decide (p < 33)

/-- An offset in BAR0. -/
def offOk (o : Nat) : Bool := decide (o < 2 ^ 26)

/-- Whether a command is well-formed. -/
def wellFormed (i : Instr) : Bool :=
  match i with
  | .tickEdge => true
  | .enginePreWake n => decide (n < 32)
  | .feBStart => true
  | .budgetExceeded n => decide (n < 32)
  | .requestTimeout k => decide (k < 64)
  | .holdExpiry _ => true
  | .timeSrcWrite _ => true
  | .tickRunSet _ => true
  | .tickRunClear _ => true
  | .timeSecWrite _ _ => true
  | .tickRateWrite _ => true
  | .ptpMessageRx _ port _ => decide (port < 4)
  | .ptpDemoteExpiry => true
  | .ptpSyncTx port => decide (port < 4)
  | .sourceLost => true
  | .holdoverExpiry => true
  | .ppsInEdge _ => true
  | .ppsOutPulse => true
  | .optimeMirror => true
  | .registerWrite mid off _ _ => midOk mid && offOk off
  | .counterLoRead mid off => midOk mid && offOk off
  | .dualStoredRead mid off _ => midOk mid && offOk off
  | .fabricAccess mid _ _ _ => midOk mid
  | .sramWriteback a => decide (a < 2 ^ 40)
  | .scrubRead p a _ => decide (p < 8) && decide (a < 2 ^ 40)
  | .dramInitComplete => true
  | .guardWriteback => true
  | .guardSweepComplete => true
  | .nutCommit region => decide (region < 256)
  | .nop p => procOk p
  | .jmp p => procOk p
  | .call p => procOk p
  | .ret p => procOk p
  | .loop p => procOk p
  | .lpop p => procOk p
  | .beq p => procOk p
  | .bne p => procOk p
  | .blt p => procOk p
  | .bge p => procOk p
  | .bltu p => procOk p
  | .bgeu p => procOk p
  | .bmi p => procOk p
  | .bpl p => procOk p
  | .bgt p => procOk p
  | .ble p => procOk p
  | .bhi p => procOk p
  | .bls p => procOk p
  | .bvs p => procOk p
  | .bvc p => procOk p
  | .bts p => procOk p
  | .btc p => procOk p
  | .gate p => procOk p
  | .retg p => procOk p
  | .retx p => procOk p
  | .wait p => procOk p
  | .push p => procOk p
  | .pop p => procOk p
  | .enter p => procOk p
  | .leave p => procOk p
  | .mov p => procOk p
  | .add p => procOk p
  | .sub p => procOk p
  | .adc p => procOk p
  | .sbc p => procOk p
  | .neg p => procOk p
  | .abs p => procOk p
  | .mul p => procOk p
  | .muld p => procOk p
  | .div p => procOk p
  | .rem p => procOk p
  | .divu p => procOk p
  | .remu p => procOk p
  | .min p => procOk p
  | .max p => procOk p
  | .macd p => procOk p
  | .and p => procOk p
  | .or p => procOk p
  | .xor p => procOk p
  | .andn p => procOk p
  | .not p => procOk p
  | .shl p => procOk p
  | .shr p => procOk p
  | .sar p => procOk p
  | .rol p => procOk p
  | .ext p => procOk p
  | .exts p => procOk p
  | .ins p => procOk p
  | .hadd p => procOk p
  | .hsub p => procOk p
  | .hmul p => procOk p
  | .hpack p => procOk p
  | .hhi p => procOk p
  | .hlo p => procOk p
  | .hswp p => procOk p
  | .dmov p => procOk p
  | .dadd p => procOk p
  | .dsub p => procOk p
  | .dneg p => procOk p
  | .dcvt p => procOk p
  | .dsat p => procOk p
  | .dsar p => procOk p
  | .dcmp p => procOk p
  | .oget p => procOk p
  | .oput p => procOk p
  | .berlen p => procOk p
  | .ocnt p => procOk p
  | .twait p => procOk p
  | .tleft p => procOk p
  | .svpull p => procOk p
  | .gosub p => procOk p
  | .jobput p => procOk p
  | .verdict p => procOk p
  | .evput p => procOk p
  | .tabandon p => procOk p
  | .interruptEntry p => procOk p
  | .intcHoldoffExpiry g => decide (g < 64)
  | .feCtlWrite n _ => decide (n < 32)
  | .feConfigWrite n r _ => decide (n < 32) && decide (r < 2048)
  | .portCtlWrite n _ => decide (n < 4)
  | .portLinkChange n _ => decide (n < 4)
  | .pairCtlWrite k _ => decide (k < 2)
  | .portFrameRx n _ => decide (n < 4)
  | .prpSupervisionTx k => decide (k < 2)
  | .dupEntryForget _ => true
  | .pairSupvTimeout _ => true
  | .frameClassify => true
  | .hotCacheFill _ _ => true
  | .bowVerify _ lane => decide (lane < 8)
  | .pegBlobLoad i _ => decide (i < 262144)
  | .replayStep _ => true
  | .supervisionSweep => true
  | .assocInsert => true
  | .assocFind => true
  | .assocRead => true
  | .assocUpdate => true
  | .assocDelete => true
  | .assocResetseq => true
  | .assocClrcnt => true
  | .assocCmdUnassigned op => decide (op < 16)
  | .assocCmdResultRead => true
  | .assocSuplostIdxRead => true
  | .bowSpentSlotRead => true
  | .bowWarnSlotRead => true
  | .portStatusRead n => decide (n < 4)
  | .ptpDemotedRead => true
  | .bowKatRun lane _ => decide (lane < 8)
  | .bridgeLinkUp _ _ => true
  | .bridgeLinkDown => true
  | .fnSplitWrite f _ _ => decide (f < 64)
  | .functionLevelReset f => decide (f < 64)
  | .flrComplete f => decide (f < 64)
  | .queueCfgWrite q _ => decide (q < 65536)
  | .doorbellWrite q off _ _ => decide (q < 65536) && decide (off < 4096)
  | .deliverySlotFetch q => decide (q < 65536)
  | .queueDeliver => true
  | .submissionFetch => true
  | .submissionComplete q => decide (q < 65536)
  | .hostReadError q _ => decide (q < 65536)
  | .msixFire v => decide (v < 2048)
  | .gatingRecompute => true
  | .doeRequest _ => true
  | .ideInsecure _ => true
  | .bridgeErrRead => true
  | .relCtlWrite _ => true
  | .releaseSignSend k lane => decide (k < 64) && decide (lane < 8)
  | .cellDispatch n _ => decide (n < 16)
  | .mlkemKeygen n _ _ => decide (n < 16)
  | .mlkemEncaps n _ _ => decide (n < 16)
  | .mlkemDecaps n _ _ => decide (n < 16)
  | .mldsaKeygen n _ _ => decide (n < 16)
  | .mldsaSign n _ _ => decide (n < 16)
  | .mldsaVerify n _ _ => decide (n < 16)
  | .slhdsaKeygen n _ _ => decide (n < 16)
  | .slhdsaSign n _ _ => decide (n < 16)
  | .slhdsaVerify n _ _ => decide (n < 16)
  | .lmsKeygen n _ _ => decide (n < 16)
  | .lmsSign n _ _ => decide (n < 16)
  | .lmsVerify n _ _ => decide (n < 16)
  | .lmsInfo n _ _ => decide (n < 16)
  | .mceEncaps n _ _ => decide (n < 16)
  | .mceDecaps n _ _ => decide (n < 16)
  | .hqcKeygen n _ _ => decide (n < 16)
  | .hqcEncaps n _ _ => decide (n < 16)
  | .hqcDecaps n _ _ => decide (n < 16)
  | .ecKeygen n _ _ => decide (n < 16)
  | .ecdsaSign n _ _ => decide (n < 16)
  | .ecdh n _ _ => decide (n < 16)
  | .x25519Keygen n _ _ => decide (n < 16)
  | .x25519 n _ _ => decide (n < 16)
  | .ed25519Keygen n _ _ => decide (n < 16)
  | .ed25519Sign n _ _ => decide (n < 16)
  | .ed25519Verify n _ _ => decide (n < 16)
  | .pubexport n _ _ => decide (n < 16)
  | .random n _ _ => decide (n < 16)
  | .jobCompletion r _ => decide (r < 1032)
  | .cellClearDone n => decide (n < 16)
  | .cellKatRun n _ => decide (n < 16)
  | .cellOfflineWrite n _ => decide (n < 16)
  | .cellStatusRead n => decide (n < 16)
  | .jrProdWrite mid r _ => midOk mid && decide (r < 1032)
  | .jrCfgWrite mid r off _ => midOk mid && decide (r < 1032) && decide (off < 256)
  | .ringAbort r => decide (r < 1032)
  | .jobTimeout r _ => decide (r < 1032)
  | .entropyRefill n _ _ => decide (n < 16)
  | .entropyWaitTimeout => true
  | .lmsReserve slot => decide (slot < 4096)
  | .soundErrRead => true
  | .soundLmswarnSlotRead => true
  | .veOwnerWrite mid e off _ => midOk mid && decide (e < 4) && decide (off < 256)
  | .ecdsaVerify e mid _ => decide (e < 4) && midOk mid
  | .pointValidate e mid _ => decide (e < 4) && midOk mid
  | .rsaPkcs1 e mid _ => decide (e < 4) && midOk mid
  | .rsaPss e mid _ => decide (e < 4) && midOk mid
  | .rsaPublic e mid _ => decide (e < 4) && midOk mid
  | .loadCurve e mid _ => decide (e < 4) && midOk mid
  | .clearCurve e mid _ => decide (e < 4) && midOk mid
  | .veOpUnassigned e mid _ => decide (e < 4) && midOk mid
  | .veCommandEnd e => decide (e < 4)
  | .veTimeout e => decide (e < 4)
  | .veAbort e mid => decide (e < 4) && midOk mid
  | .veKatRun e _ => decide (e < 4)
  | .digest k _ => decide (k < 8)
  | .hmac k _ => decide (k < 8)
  | .kmac k _ => decide (k < 8)
  | .memcmp k _ => decide (k < 8)
  | .digestOpUnassigned k => decide (k < 8)
  | .digKatRun k _ => decide (k < 8)
  | .digErrRead => true
  | .startupWindowEnd b _ => decide (b < 64)
  | .aptWindowEnd b _ => decide (b < 64)
  | .healthWindowEnd b _ => decide (b < 64)
  | .trimLimit b => decide (b < 64)
  | .conditionerBlock c => decide (c < 4)
  | .rosinWaitTimeout => true
  | .entropyGrant p => decide (p < 6)
  | .rosinPullGo mid => midOk mid
  | .rosinPullRead mid k => midOk mid && decide (k < 16)
  | .rosinPst _ _ => true
  | .rosinStateRead => true
  | .rosinRetiredLoRead => true
  | .reservePeg mid => midOk mid
  | .importGke mid => midOk mid
  | .erasePeg mid => midOk mid
  | .infoPeg mid => midOk mid
  | .lowerLimit mid => midOk mid
  | .derive mid => midOk mid
  | .reservePriv mid => midOk mid
  | .importPriv mid => midOk mid
  | .destroyPriv mid => midOk mid
  | .infoPriv mid => midOk mid
  | .rekeyRoot mid => midOk mid
  | .keyCmdUnassigned mid op => midOk mid && decide (op < 16)
  | .keyCmdTimeout => true
  | .vaultCopy _ => true
  | .keyCmdResultRead => true
  | .keyFaultSlotRead => true
  | .shareIn mid _ => midOk mid
  | .shareOut mid _ => midOk mid
  | .authorise mid _ => midOk mid
  | .cerStep mid _ _ => midOk mid
  | .cerAbort mid _ => midOk mid
  | .cerTimeout => true
  | .authwinExpiry => true
  | .cerStateRead => true
  | .caseRead mid => midOk mid
  | .caseProgram mid => midOk mid
  | .caseErase mid => midOk mid
  | .readTuning mid => midOk mid
  | .blockinfo mid => midOk mid
  | .relocate mid => midOk mid
  | .caseCmdUnassigned mid op => midOk mid && decide (op < 16)
  | .casePlaneDispatch plane => decide (plane < 4)
  | .caseDieOpDone plane _ _ => decide (plane < 4)
  | .readCacheFill page _ _ _ => decide (page < 2048)
  | .caseRefresh block => decide (block < 512)
  | .caseCmdResultRead => true
  | .caseFailAddrRead => true
  | .caseGenWrite k word _ => decide (k < 8) && decide (word < 3)
  | .eventRecordEnter source code status _ => decide (source < 512) && decide (code < 65536) && decide (status < 256)
  | .evrecFlush => true
  | .evrecFlushWrite _ => true
  | .evrecMaxageExpiry => true
  | .evrecPut mid _ => midOk mid
  | .evrecClear mid => midOk mid
  | .evrecWindowRead mid _ => midOk mid
  | .evrecStatusRead => true
  | .mirrorCopy _ _ _ => true
  | .ledgerRequest mid a => midOk mid && decide (a < 7)
  | .ledgerRelease mid a => midOk mid && decide (a < 7)
  | .ledgerGrant => true
  | .ledgerMaxwait => true
  | .ledgerStatusRead => true
  | .tableScrub => true
  | .dramScrub _ => true
  | .tamperDetection q _ _ frame => decide (q < 24) && decide (frame.length ≤ 64)
  | .tamperRearm q => decide (q < 24)
  | .pairDisagreement q _ => decide (q < 24)
  | .detectorBist _ => true
  | .tamperLogAppend => true
  | .tamperStickyClr mid => midOk mid
  | .tamperForce q _ => decide (q < 24)
  | .tamperStickyLoRead => true
  | .tamperLogcountRead => true
  | .watchCycle _ => true
  | .faultRecordClose _ => true
  | .faultForce k _ => decide (k < 10)
  | .faultnPulseEnd => true
  | .faultNctlRelease mid => midOk mid
  | .wdogCapoKick mid _ => midOk mid
  | .wdogModKick mid _ => midOk mid
  | .wdogCapoWarn => true
  | .wdogCapoExpiry => true
  | .wdogModuleWarn => true
  | .wdogModuleExpiry => true
  | .retainRequest _ => true
  | .retainDrainExpiry => true
  | .wake src us => decide (src < 9) && decide (us ≤ 180)
  | .wakeFail src => decide (src < 9)
  | .unitGateWake => true
  | .supplyWarning input bank => decide (input < 131072) && decide (bank < 131072)
  | .supplyShed bank => decide (bank < 131072)
  | .supplyStopping => true
  | .supplyResetLevel _ => true
  | .inputRestored input bank => decide (input < 131072) && decide (bank < 131072)
  | .shedLift => true
  | .powerTotalLoss => true
  | .overvoltage input => decide (input < 131072)
  | .coldBoot input bank _ => decide (input < 131072) && decide (bank < 131072)
  | .moduleReset _ => true
  | .softwareReset mid => midOk mid
  | .rstNLow => true
  | .perstNLow => true
  | .provision mid _ k => midOk mid && decide (k.cas.length ≤ 4)
  | .seal mid => midOk mid
  | .retire mid => midOk mid
  | .debugChallenge mid => midOk mid
  | .debugOpen mid => midOk mid
  | .debugClose mid => midOk mid
  | .debugExpiry => true
  | .debugChallengeExpiry => true
  | .commitImage mid => midOk mid
  | .confirmImage mid => midOk mid
  | .writePreset mid => midOk mid
  | .lifeCmdUnassigned mid op => midOk mid && decide (op < 16)
  | .pwrStatusRead => true
  | .debugAccess mid _ => debugOk mid
  | .debugHalt mid p => debugOk mid && procOk p
  | .externalFieldOn => true
  | .fieldLoss => true
  | .reqa => true
  | .wupa => true
  | .anticollision _ _ => true
  | .select _ => true
  | .hlta => true
  | .rats => true
  | .tagSelectAid p1 _ => decide (p1 < 256)
  | .readMirror _ => true
  | .readHeader => true
  | .tagSession _ => true
  | .tagData _ => true
  | .writeVisit _ _ _ => true
  | .capSense _ => true
  | .detuningPing _ => true
  | .badgePoll _ _ => true
  | .badgeRefuse => true
  | .pickSessGo => true
  | .pickSessAbort => true
  | .answer _ => true
  | .finish _ => true
  | .data _ => true
  | .abort st => decide (st < 256)
  | .sessionStepTimeout => true
  | .sessionLifetimeExpiry => true
  | .pickStatusRead => true
  | .pickMirrorRead => true
  | .cardInsert => true
  | .atrReceived _ _ => true
  | .atrTimeout => true
  | .cardRemoval _ => true
  | .cardOvercurrent => true
  | .t1BlockError _ => true
  | .cardMaxwaitExpiry => true
  | .cardClockStop => true
  | .cardXfer mid _ _ => midOk mid
  | .cardResultRead => true
  | .cardStatusRead => true
  | .wakeNLow _ => true
  | .unassignedOpcode p => procOk p
  | .rstNRise _ => true
  | .perstNRise => true
  | .holdupCheck bank => decide (bank < 131072)
  | .refreshAgeFlag block => decide (block < 512)
  | .msixUnmask v => decide (v < 2048)
  | .vfEnableWrite _ => true
  | .linkL12Entry => true
  | .mirrorDeferEnd => true
  | .pdelayReqTx port => decide (port < 4)

end Sys2Proof
end

