-- ==== Sys2Proof/Certificates/Slice0/Obligations.lean ====
section
/-! DEFINITION. The statements for the provers. Each definition's docstring says in words what it states and which rules of
the spec it rests on. -/

open Sys2Proof Sys2Proof.Machine

/-- For every state whose queue has the command c in front, step answers what exec answers for c on the state with the
rest of the queue. (95_what_each_step_holds, R55) -/
def Obligations.StepRunsFrontCommand : Prop :=
  ∀ (c : Instr) (rest : List Instr) (s : State), s.pending = c :: rest → step s = exec c { s with pending := rest }

/-- With no command waiting a step answers the state after one core-clock cycle: the clock is one higher, operating time
counts only where it runs, and every register, every byte of memory and the queue are as before. That the tick of
time stands on the empty queue is the model's choice (log entry 1). (R50) -/
def Obligations.EmptyQueueLetsOneCyclePass : Prop :=
  ∀ s : State, s.pending = [] →
    ∃ t, step s = .next t ∧ t.clock = s.clock + 1 ∧ (s.pstate = .p3 → t.time.opTime = s.time.opTime) ∧
      SameRegs [] s t ∧ SameMem s t ∧ t.pending = []

/-- Whatever the state and the operands, no command of the table answers a fault or a refusal: every one of the 397
commands answers a next state. (95_what_each_step_holds) -/
def Obligations.NoCommandStopsTheModule : Prop :=
  ∀ (c : Instr) (s : State), ¬ Stops c s ∧ ∃ t, exec c s = .next t

/-- For every command c and every state s: if exec c answers the next state t, the queue of t is the queue of s and the
cycle count of t is at least that of s. (R7, 95_what_each_step_holds) -/
def Obligations.CommandsKeepQueueAndClockRises : Prop :=
  ∀ (c : Instr) (s t : State), exec c s = .next t → t.pending = s.pending ∧ s.clock ≤ t.clock

/-- From every state whose internal memory and host memory are canonical (addresses strictly rising, no byte listed that
an unlisted address reads as), a step that answers a next state answers one whose memories are canonical. (R60,
95_what_each_step_holds) -/
def Obligations.StepKeepsMemoriesCanonical : Prop :=
  ∀ s t : State, s.memOk → step s = .next t → t.memOk

/-- In State.reset both memories are canonical, no command waits and no byte is listed. (R60, R108) -/
def Obligations.ResetMeetsMemoryInvariant : Prop :=
  State.reset.memOk ∧ State.reset.pending = [] ∧ State.reset.mem.cells = [] ∧ State.reset.mem.host = []

/-- In State.reset every special register but SW of every processor 0 to 32 reads zero, SP in every privilege state; SW
is 3 (Trust supervisor) on an engine and 0 (ring 0) on the Capo. At a tick entry SP, FP and TSB of an engine are the
values of its FE_INIT registers. (R108) -/
def Obligations.ResetProcessorsReadZeroButSw : Prop :=
  (∀ p, p ≤ 32 → (∀ r, r < 32 → r ≠ 2 → (State.reset.proc p).srRead p r = 0) ∧ (State.reset.proc p).sp = [0, 0, 0, 0] ∧
      (State.reset.proc p).sw.toNat = if p < 32 then 3 else 0) ∧
    ∀ (s : State) (n : Nat), n < 32 →
      (s.tickEntryProc n).fp = a24 (s.get (FE_INIT_FP_ADDR n)) ∧
      (∀ k, k < 4 → (s.tickEntryProc n).sp.getD k 0 = a24 (s.get (FE_INIT_SP_ADDR n k))) ∧
      ∀ w, w < 2 → (s.tickEntryProc n).tsb.getD w 0 = a24 (s.get (FE_INIT_TSB_ADDR n w))

/-- After the hardware puts a value into a field, the field reads the value cut to its width, every field of the same
register that shares no bit with it and every field of every other register reads as before, and memory, processors,
time and queue are untouched. (R65, R75) -/
def Obligations.HardwareFieldUpdateTouchesOneField : Prop :=
  ∀ (s : State) (f g : Fld) (v : Nat), f.lo ≤ f.hi → f.hi < 32 → g.lo ≤ g.hi → g.hi < 32 →
    (s.put f v).get f = v % 2 ^ (f.hi + 1 - f.lo) ∧
    (g.off ≠ f.off ∨ f.hi < g.lo ∨ g.hi < f.lo → (s.put f v).get g = s.get g) ∧
    SameMem s (s.put f v) ∧ SameProcs [] s (s.put f v) ∧ (s.put f v).clock = s.clock ∧ (s.put f v).pending = s.pending

/-- Each of the status-read rows answers the next state in which the request lines of its unit (Table 5-8) are low;
every other register, every byte of memory and every processor is as before. ASSOC_CMD_RESULT does so once no
command is under way, CELL_STATUS for cells 0 to 15, PORT_STATUS for ports 0 to 3. (R203, 95_what_each_step_holds) -/
def Obligations.StatusReadsLowerTheirRequestLine : Prop :=
  (∀ (s : State) (e : Instr × List Nat), e ∈ statusReads →
      ∃ t, exec e.1 s = .next t ∧ (∀ i, i ∈ e.2 → t.get (INTC_SRC_LEVEL i) = 0) ∧
        SameRegs (e.2.map fun i => (INTC_SRC_LEVEL i).off) s t ∧ SameMem s t ∧ SameProcs [] s t) ∧
    (∀ (s : State) (n : Nat), n < 16 →
      ∃ t, exec (.cellStatusRead n) s = .next t ∧ t.get (INTC_SRC_LEVEL (128 + n)) = 0 ∧
        SameRegs [(INTC_SRC_LEVEL (128 + n)).off] s t ∧ SameMem s t ∧ SameProcs [] s t) ∧
    (∀ (s : State) (n : Nat), n < 4 →
      ∃ t, exec (.portStatusRead n) s = .next t ∧ t.get (INTC_SRC_LEVEL (104 + n)) = 0 ∧
        SameRegs [(INTC_SRC_LEVEL (104 + n)).off] s t ∧ SameMem s t ∧ SameProcs [] s t) ∧
    ∀ s : State, s.on ASSOC_CMD_RESULT_BUSY = false →
      ∃ t, exec .assocCmdResultRead s = .next t ∧ t.get (INTC_SRC_LEVEL 109) = 0 ∧
        SameRegs [(INTC_SRC_LEVEL 109).off] s t ∧ SameMem s t ∧ SameProcs [] s t

/-- While the logic runs: REGISTER_WRITE of 8 or 16 bits is discarded and counted in TOP_NARROWWR, with every register
and byte as before; of 32 bits it has the effect of the register at its offset, and of 64 bits that of two 32-bit
writes in ascending order; of an offset that names no register it is ignored and counted in TOP_UNMAPPED;
MEM_SCRUB_CTL takes the EN and a PERIOD in range. COUNTER_LO_READ answers the register and latches _HI for the
reader. DUAL_STORED_READ answers the register where the copies agree, and where they differ all ones, counting the
mismatch and recording the address. FABRIC_ACCESS by an assigned master is carried under the Nut: a granted read of
clean SRAM answers the bytes stored there and changes no register or byte; a granted write stores its bytes and
changes no other. (R65, R66, R67, R70, R75, R86, R94) -/
def Obligations.RegisterAccessRows : Prop :=
  (∀ (mid off v : Nat) (s : State), s.logicUp = true → ∀ w, w = Width.w8 ∨ w = Width.w16 →
      exec (.registerWrite mid off w v) s = .next s.narrowWrite ∧ SameRegs [] s s.narrowWrite ∧ SameMem s s.narrowWrite ∧
        s.narrowWrite.topNarrow = satAt (2 ^ 32 - 1) (s.topNarrow + 1)) ∧
    (∀ (mid off v : Nat) (s : State), s.logicUp = true → off % 4 = 0 → off < 0x4000000 → s.hostReaches mid off = true →
      exec (.registerWrite mid off .w32 v) s = .next (s.regWrite mid off (BitVec.ofNat 32 v)) ∧
      (regDescAt off = none →
        exec (.registerWrite mid off .w32 v) s = .next { s with topUnmapped := satAt (2 ^ 32 - 1) (s.topUnmapped + 1) })) ∧
    (∀ (mid off v : Nat) (s : State), s.logicUp = true → off % 4 = 0 → off + 4 < 0x4000000 →
      ∃ t, exec (.registerWrite mid off .w32 v) s = .next t ∧
        (t.logicUp = true → exec (.registerWrite mid off .w64 v) s = exec (.registerWrite mid (off + 4) .w32 (v / 2 ^ 32)) t)) ∧
    (∀ (mid v : Nat) (s : State), s.logicUp = true → mid < 0x80 → 100 ≤ v % 2 ^ 16 → v % 2 ^ 16 ≤ 60000 →
      ∃ t, exec (.registerWrite mid MEM_SCRUB_CTL .w32 v) s = .next t ∧ t.on MEM_SCRUB_CTL_EN = bitOf v 31 ∧
        t.get MEM_SCRUB_CTL_PERIOD = v % 2 ^ 16 ∧ SameRegs [MEM_SCRUB_CTL] s t ∧ SameMem s t) ∧
    (∀ (mid off : Nat) (s : State), s.logicUp = true → counterLo off = true → s.hostReaches mid off = true →
      dualStored off = false → dualStored (off + 4) = false → tget s.hiLatch (latchKey mid off) = none →
      ¬ (ROSIN_PULL 0 ≤ off ∧ off < ROSIN_PULL 16) → ∀ d e, regDescAt off = some d → regDescAt (off + 4) = some e →
      ∃ t, exec (.counterLoRead mid off) s = .next t ∧
        t.mem.reply = [⟨regWindow + off, 4, true, false, natToBytes 4 (readMask d (s.regView off)).toNat⟩] ∧
        tget t.hiLatch (latchKey mid (off + 4)) = some (readMask e (s.regView (off + 4))) ∧ SameMem s t) ∧
    (∀ (mid off : Nat) (s : State), s.logicUp = true → dualStored off = true → counterLo off = false →
      s.hostReaches mid off = true → tget s.hiLatch (latchKey mid off) = none → ∀ d, regDescAt off = some d →
      (s.dualDiffers off = false → ∃ t, exec (.dualStoredRead mid off none) s = .next t ∧
        t.mem.reply = [⟨regWindow + off, 4, true, false, natToBytes 4 (readMask d (s.regView off)).toNat⟩] ∧ SameMem s t) ∧
      (s.dualDiffers off = true → s.calm SRC_DUAL_MISMATCH → ∃ t, exec (.dualStoredRead mid off none) s = .next t ∧
        t.mem.reply = [⟨regWindow + off, 4, true, false, [0xFF, 0xFF, 0xFF, 0xFF]⟩] ∧
        t.get DUAL_MISMATCH_COUNT = (s.inc DUAL_MISMATCH_COUNT).get DUAL_MISMATCH_COUNT ∧
        t.get DUAL_MISMATCH_ADDR = off ∧ SameMem s t)) ∧
    (∀ (mid a : Nat) (op : FabOp) (env : FabEnv) (s : State), (s.disturb env).logicUp = true →
      1 ≤ opLen op → opLen op ≤ 4096 →
      ((s.disturb env).issues mid (.internal a) = true →
        exec (.fabricAccess mid (.internal a) op env) s = .next ((s.disturb env).fabricAccess mid a op)) ∧
      ∀ b off, (s.disturb env).issues mid (.bar b off) = true →
        exec (.fabricAccess mid (.bar b off) op env) s = .next ((s.disturb env).barAccess mid b off op)) ∧
    (∀ (mid a n : Nat) (s : State), s.logicUp = true → s.issues mid (.internal a) = true → 1 ≤ n → n ≤ 4096 →
      s.accParts mid a n false false = [⟨a, n, true⟩] → s.sramClean a n →
      ∃ t, exec (.fabricAccess mid (.internal a) (.read n) default) s = .next t ∧
        t.mem.reply = [⟨a, n, true, false, s.peek a n⟩] ∧ SameRegs [] s t ∧ SameMem s t) ∧
    ∀ (mid a : Nat) (bs : Bytes) (s : State), s.logicUp = true → s.issues mid (.internal a) = true → 1 ≤ bs.length →
      bs.length ≤ 4096 → s.accParts mid a bs.length true false = [⟨a, bs.length, true⟩] → s.sramClean a bs.length →
      ∃ t, exec (.fabricAccess mid (.internal a) (.write bs) default) s = .next t ∧
        t.mem.reply = [⟨a, bs.length, true, false, []⟩] ∧ SameRegs [] s t ∧ t.peek a bs.length = imageBytes a bs ∧
        ∀ x, x < a ∨ a + bs.length ≤ x → cellRead t.mem.cells x = cellRead s.mem.cells x

/-- A write-back takes its word off the list of words that wait; an enabled scrub read of a word of its partition leaves
a clean word alone, corrects and counts a correctable one and poisons and records an uncorrectable one; the end of
DRAM initialisation sets INIT_DONE; a page write-back of the guard takes the oldest waiting page, counts it and
raises its version by one (a page of the old generation starts from 0 under the new key); the end of a sweep comes
after its length, clears SWEEP, and every page is then of the present generation. (R70, R71, R72, R77, R82, R84) -/
def Obligations.MemoryGuardRows : Prop :=
  (∀ (a : Nat) (s : State), ∃ t, exec (.sramWriteback a) s = .next t ∧ a ∉ t.mem.writebacks ∧
      (∀ b, b ≠ a → (b ∈ t.mem.writebacks ↔ b ∈ s.mem.writebacks)) ∧ SameRegs [] s t ∧ SameMem s t) ∧
    (∀ (p a : Nat) (s : State), s.on MEM_SCRUB_CTL_EN = true → sramPart a = some p → p ≠ 7 →
      s.upsetsIn (wordAddr a) 8 = [] → s.poisoned (wordAddr a) 8 = false →
      exec (.scrubRead p a .clean) s = .next s ∧
      (s.calm (SRC_SRAM_CE p) → ∃ t, exec (.scrubRead p a .correctable) s = .next t ∧ wordAddr a ∈ t.mem.writebacks ∧
        t.get (MEM_PART_CE_COUNT p) = (s.inc (MEM_PART_CE_COUNT p)).get (MEM_PART_CE_COUNT p) ∧ SameMem s t) ∧
      (s.calm (SRC_SRAM_UE p) → ∃ t, exec (.scrubRead p a .uncorrectable) s = .next t ∧ wordAddr a ∈ t.mem.poison ∧
        t.get (MEM_PART_UE_COUNT p) = (s.inc (MEM_PART_UE_COUNT p)).get (MEM_PART_UE_COUNT p) ∧
        t.get (MEM_PART_ADDR_LO_ADDR p) = wordAddr a % 2 ^ 32 ∧ t.get (MEM_PART_ADDR_HI_ADDR p) = wordAddr a / 2 ^ 32 ∧
        SameMem s t)) ∧
    (∀ (a : Nat) (s : State), s.on MEM_SCRUB_CTL_EN = true → exec (.scrubRead 7 a .clean) s = .next s ∧
      exec (.scrubRead 7 a .correctable) s = .next (s.sramCe 7 a) ∧
      exec (.scrubRead 7 a .uncorrectable) s = .next (s.sramUe 7 a)) ∧
    (∀ s : State, ∃ t, exec .dramInitComplete s = .next t ∧ t.get DRAM_INFO_INIT_DONE = 1 ∧
      SameRegs [DRAM_INFO_INIT_DONE.off] s t ∧ SameMem s t) ∧
    (∀ (s : State) (p v : Nat) (rest : List Nat), s.mem.guardQueue = p :: rest →
      s.pageVersion p = (v, s.on GUARD_STATE_GEN) → v < 2 ^ 32 - 1 →
      ∃ t, exec .guardWriteback s = .next t ∧ t.mem.guardQueue = rest ∧
        tget t.mem.versions p = some (v + 1, s.on GUARD_STATE_GEN) ∧ SameMem s t ∧ SameRegs [GUARD_WB_COUNT.off] s t) ∧
    (∀ (s : State) (p : Nat) (rest : List Nat), s.mem.guardQueue = p :: rest → (s.pageVersion p).2 ≠ s.on GUARD_STATE_GEN →
      ∃ t, exec .guardWriteback s = .next t ∧ t.mem.guardQueue = rest ∧
        tget t.mem.versions p = some (0, s.on GUARD_STATE_GEN) ∧ SameMem s t ∧ SameRegs [GUARD_WB_COUNT.off] s t) ∧
    (∀ s : State, s.on GUARD_STATE_SWEEP = true → ∃ t, exec .guardSweepComplete s = .next t ∧
      t.on GUARD_STATE_SWEEP = false ∧ t.sweepPage = 0 ∧ t.clock = max s.clock (s.mem.sweepAt + sweepLen) ∧
      (∀ p, (t.pageVersion p).2 = t.on GUARD_STATE_GEN) ∧ SameMem s t ∧ SameRegs [GUARD_STATE] s t)

/-- A commit into a locked region answers LOCKED and changes no region; else one whose end is below its start answers
END_BEFORE_START; else an enabled range that overlaps another enabled region answers OVERLAP with the lowest such
region and raises NUT_OVERLAP; else, and always for a staged region with EN = 0, the staged set is stored and the
result is OK. The first check that fails decides. (R88, R89, R90) -/
def Obligations.NutCommitFollowsItsChecks : Prop :=
  ∀ (n : Nat) (s : State), n < 256 →
    (s.on (NUT_REGION_CTL_LOCK n) = true →
      exec (.nutCommit n) s = .next ((s.put NUT_COMMIT_RESULT_RESULT 3).put NUT_COMMIT_RESULT_OTHER 0)) ∧
    (s.on (NUT_REGION_CTL_LOCK n) = false → s.stageEnd < s.stageStart →
      exec (.nutCommit n) s = .next ((s.put NUT_COMMIT_RESULT_RESULT 2).put NUT_COMMIT_RESULT_OTHER 0)) ∧
    (s.on (NUT_REGION_CTL_LOCK n) = false → s.stageStart ≤ s.stageEnd → s.on NUT_STAGE_CTL_EN = true →
      ∀ k, s.nutOverlap n = some k → k ≠ n ∧
        exec (.nutCommit n) s =
          .next (((s.put NUT_COMMIT_RESULT_RESULT 1).put NUT_COMMIT_RESULT_OTHER k).raise SRC_NUT_OVERLAP 0)) ∧
    (s.on (NUT_REGION_CTL_LOCK n) = false → s.stageStart ≤ s.stageEnd →
      (s.on NUT_STAGE_CTL_EN = false ∨ s.nutOverlap n = none) →
        exec (.nutCommit n) s = .next (((s.nutStore n).put NUT_COMMIT_RESULT_RESULT 0).put NUT_COMMIT_RESULT_OTHER 0) ∧
        ∃ t, exec (.nutCommit n) s = .next t ∧ t.get NUT_COMMIT_RESULT_RESULT = 0 ∧
          t.rd (NUT_REGION_START_LO n) = s.rd NUT_STAGE_START_LO ∧ t.rd (NUT_REGION_START_HI n) = s.rd NUT_STAGE_START_HI ∧
          t.rd (NUT_REGION_END_LO n) = s.rd NUT_STAGE_END_LO ∧ t.rd (NUT_REGION_END_HI n) = s.rd NUT_STAGE_END_HI ∧
          t.rd (NUT_REGION_CTL n) = s.rd NUT_STAGE_CTL ∧
          (∀ k, k < 8 → t.rd (NUT_REGION_RMASK n k) = s.rd (NUT_STAGE_RMASK k) ∧
            t.rd (NUT_REGION_WMASK n k) = s.rd (NUT_STAGE_WMASK k)) ∧
          (∀ k, k < 256 → k ≠ n → t.rd (NUT_REGION_CTL k) = s.rd (NUT_REGION_CTL k)) ∧ SameMem s t)

/-- For each of the 84 opcode rows but TWAIT: at a boundary where the processor executes, with the row's opcode at the
PC and every decode check passed, a body that goes through gives the next state it came to, and a body that raises a
synchronous exception gives the entry of that exception made from the registers before the instruction. A fetch or
decode that fails raises its own exception in the same way. What a body comes to stands where it ends before the
edge and no debug master waits: then the command answers exactly that state. (R129, R130, R131, R142) -/
def Obligations.DiurnInstructionsRun : Prop :=
  ∀ (p : Nat) (s : State) (r : DiurnRow), r ∈ diurnRows p →
    (∀ i c, s.Decodes p r.code r.desc i c →
      (∀ t c', r.body i c = .ok t c' → exec r.instr s = .next (s.retires p t) ∧
        (s.stands p t → exec r.instr s = .next t)) ∧
      (∀ e c', r.body i c = .exc e c' → exec r.instr s = .next (s.raises p e c'))) ∧
    (s.canStep p = true →
      (∀ e c', (s.cx p).fetch (s.proc p).pc.toNat = .exc e c' → exec r.instr s = .next (s.raises p e c')) ∧
      (∀ w c1, (s.cx p).fetch (s.proc p).pc.toNat = .ok w c1 → w / 2 ^ 27 = r.code →
        opAssigned p (s.proc p).priv r.code = true →
        ∀ e c', ({ c1 with first := w } : Cx).decode w r.desc = .exc e c' → exec r.instr s = .next (s.raises p e c')))

/-- Where the fetched opcode is not assigned to the executing code the row answers the entry of vector 1 with detail
0x01. No opcode from 0o700 up is assigned; 0o600 to 0o607 are not on the Capo; 0o607 is not in the Station world of
an engine and is in its Trust world. (R142) -/
def Obligations.UnassignedOpcodeRaisesIllegal : Prop :=
  (∀ (p w : Nat) (s : State) (c : Cx), s.canStep p = true → (s.cx p).fetch (s.proc p).pc.toNat = .ok w c →
      opAssigned p (s.proc p).priv (w / 2 ^ 27) = false →
      exec (.unassignedOpcode p) s =
        .next (s.beforeEdge p (({ c with first := w } : Cx).takeExc ⟨vILLEGAL, 0x01, 0, 0⟩))) ∧
    (∀ p priv op, 0o700 ≤ op → opAssigned p priv op = false) ∧
    (∀ priv op, 0o600 ≤ op → opAssigned 32 priv op = false) ∧
    ∀ n priv, n < 32 → (opAssigned n priv 0o607 = true ↔ 2 ≤ priv)

/-- For every opcode that computes C from A, B and C: once its operands are read, an exception of R145 is taken where
one is due; otherwise an opcode without C sets its flags and retires; one with C writes the result and sets the
flags, or, where C is SW, writes it without setting the flags. A write of C that fails takes its exception. Where
what it comes to stands, the command completes with PC at the next instruction and, for an index register as C, the
result in it. (R111, R129, R144, R145) -/
def Obligations.AluRowsCompute : Prop :=
  ∀ (p : Nat) (s : State) (r : AluRow), r ∈ aluRows p → ∀ (i : Dec) (c c' : Cx) (o : Opnds) (a b cv : Nat),
    s.Decodes p r.code r.desc i c → r.Reads i c o a b cv c' →
    (∀ e, aluExc c'.pr (r.f a b cv c'.pr) = some e → exec r.instr s = .next (s.raises p e c')) ∧
    (aluExc c'.pr (r.f a b cv c'.pr) = none →
      (r.desc.c = none → exec r.instr s =
        .next (s.retires p (({ c' with pr := c'.pr.setFlags (r.f a b cv c'.pr) } : Cx).finish i.next none r.desc.cost)) ∧
        (s.stands p (({ c' with pr := c'.pr.setFlags (r.f a b cv c'.pr) } : Cx).finish i.next none r.desc.cost) →
          c'.pr.ldepth = 0 → ∃ t, exec r.instr s = .next t ∧ (t.proc p).pc = a24 i.next)) ∧
      (∀ k, r.desc.c = some .w → o.c = .spr k → 28 ≤ k → k ≤ 31 → k - 28 < c'.pr.ix.length → c'.pr.ldepth = 0 →
        s.stands p (({ c' with pr := (c'.pr.srPut c'.p k ((r.f a b cv c'.pr).val % 2 ^ 36)).setFlags (r.f a b cv c'.pr) } :
          Cx).finish i.next none r.desc.cost) →
        ∃ t, exec r.instr s = .next t ∧ (t.proc p).pc = a24 i.next ∧
          (t.proc p).srRead p k = (r.f a b cv c'.pr).val % 2 ^ 36) ∧
      (∀ k, r.desc.c = some .w → o.c = .mem k → c'.pr.ldepth = 0 → ∀ c2,
        c'.put o.c .w (r.f a b cv c'.pr).val 3 = .ok () c2 →
        s.stands p (({ c2 with pr := c2.pr.setFlags (r.f a b cv c'.pr) } : Cx).finish i.next none r.desc.cost) →
        ∃ t, exec r.instr s = .next t ∧ (t.proc p).pc = a24 i.next) ∧
      ∀ z, r.desc.c = some z →
        (o.c ≠ .spr 2 →
          (∀ k, c'.put o.c z (r.f a b cv c'.pr).val 3 = .ok () k → exec r.instr s =
            .next (s.retires p (({ k with pr := k.pr.setFlags (r.f a b cv c'.pr) } : Cx).finish i.next none r.desc.cost))) ∧
          (∀ e k, c'.put o.c z (r.f a b cv c'.pr).val 3 = .exc e k → exec r.instr s = .next (s.raises p e k))) ∧
        (o.c = .spr 2 → ∀ k, ({ c' with tset := false } : Cx).put o.c z (r.f a b cv c'.pr).val 3 = .ok () k →
          exec r.instr s = .next (s.retires p (k.finish i.next none r.desc.cost))))

/-- On a Fret engine, a computing opcode whose operands A and B are short or word immediates or special registers (or
the 0o777 marker) and whose C is a special register or absent: if it completes, every byte of memory, every module
register and every other processor are unchanged, and so is every special register but C, PC, SW, LC and LX. (R105,
R110, R129, R130) -/
def Obligations.AluRegisterFormFrame : Prop :=
  ∀ (p : Nat) (s : State) (r : AluRow) (i : Dec) (c c' : Cx) (t : State), p < 32 → r ∈ aluRows p →
    s.Decodes p r.code r.desc i c → (i.a = 0o777 ∨ r.desc.a = none ∨ specMode i.a ≤ 2) → (r.desc.b = none ∨ specMode i.b ≤ 2) →
    (r.desc.c = none ∨ specMode i.c = 2) →
    aluBody r.desc r.readC r.f i c = .ok t c' →
    SameMem s t ∧ SameRegs [] s t ∧ SameProcs [p] s t ∧
      ∀ k, k < 32 → k ≠ 1 → k ≠ 2 → (k < 20 ∨ 27 < k) → (r.desc.c = none ∨ k ≠ specS i.c) →
        (t.proc p).srRead p k = (s.proc p).srRead p k

/-- For word values: SHL and SHR by 1 to 36 give the shifted word and set C to the last bit shifted out, above 36 they
give 0 and clear C; SAR by 36 or more gives 36 copies of bit 35 and C = bit 35, and by 1 to 35 the arithmetic shift
with the last bit shifted out in C; ROL rotates by the count mod 36 and sets C to bit 0 of the result, or clears it
when the count mod 36 is 0; a count of 0 leaves the value unchanged and clears C. The four rows compute these
functions of A and of B read as unsigned. (R157) -/
def Obligations.ShiftRule : Prop :=
  ∀ (x b : Nat), x < 2 ^ 36 →
    (1 ≤ b → b ≤ 36 →
      (aluShl x b).val = (BitVec.ofNat 36 x <<< b).toNat ∧ (aluShl x b).c = some ((BitVec.ofNat 36 x).getLsbD (36 - b)) ∧
      (aluShr x b).val = (BitVec.ofNat 36 x >>> b).toNat ∧ (aluShr x b).c = some ((BitVec.ofNat 36 x).getLsbD (b - 1))) ∧
    (36 < b → (aluShl x b).val = 0 ∧ (aluShl x b).c = some false ∧ (aluShr x b).val = 0 ∧ (aluShr x b).c = some false) ∧
    (36 ≤ b → (aluSar 36 x b).val = (if (BitVec.ofNat 36 x).msb then 2 ^ 36 - 1 else 0) ∧
      (aluSar 36 x b).c = some (BitVec.ofNat 36 x).msb) ∧
    (1 ≤ b → b < 36 → (aluSar 36 x b).val = ((BitVec.ofNat 36 x).sshiftRight b).toNat ∧
      (aluSar 36 x b).c = some ((BitVec.ofNat 36 x).getLsbD (b - 1))) ∧
    (aluRol x b).val = ((BitVec.ofNat 36 x).rotateLeft (b % 36)).toNat ∧
    (aluRol x b).c = some (if b % 36 = 0 then false else (aluRol x b).val.testBit 0) ∧
    (aluShl x 0).val = x ∧ (aluShl x 0).c = some false ∧ (aluShr x 0).val = x ∧ (aluShr x 0).c = some false ∧
    (aluSar 36 x 0).val = x ∧ (aluSar 36 x 0).c = some false ∧ (aluRol x 0).val = x ∧ (aluRol x 0).c = some false ∧
    ∀ p : Nat, (⟨.shl p, 0o210, dBin 1, false, fun a k _ _ => aluShl a k⟩ : AluRow) ∈ aluRows p ∧
      (⟨.shr p, 0o211, dBin 1, false, fun a k _ _ => aluShr a k⟩ : AluRow) ∈ aluRows p ∧
      (⟨.sar p, 0o212, dBin 1, false, fun a k _ _ => aluSar 36 a k⟩ : AluRow) ∈ aluRows p ∧
      (⟨.rol p, 0o213, dBin 1, false, fun a k _ _ => aluRol a k⟩ : AluRow) ∈ aluRows p

/-- For words a and b and a carry in of 0 or 1: ADD and ADC give the sum modulo 2^36, carry it out in C and set V
exactly when the signed sum is out of range; SUB and SBC give the difference, C is the borrow and V the signed
overflow; MUL gives the low word of the signed product, V when the product is out of range; DIV and REM by a divisor
that is not 0 truncate toward zero with a·quotient + remainder restored, DIVU and REMU are the unsigned quotient and
remainder, and a division by 0 is reported. (R153, R155, R156, 04_diurn_instructions.md) -/
def Obligations.ArithmeticValues : Prop :=
  (∀ a b k : Nat, a < 2 ^ 36 → b < 2 ^ 36 → k < 2 →
      (aluAdd 36 a b k).val = (BitVec.ofNat 36 a + BitVec.ofNat 36 b + BitVec.ofNat 36 k).toNat ∧
      (aluAdd 36 a b k).c = some (decide (2 ^ 36 ≤ a + b + k)) ∧
      ((aluAdd 36 a b k).v = some true ↔
        toSigned 36 (aluAdd 36 a b k).val ≠ toSigned 36 a + toSigned 36 b + k) ∧
      (aluSub 36 a b k).val = (BitVec.ofNat 36 a - BitVec.ofNat 36 b - BitVec.ofNat 36 k).toNat ∧
      (aluSub 36 a b k).c = some (decide (a < b + k)) ∧
      ((aluSub 36 a b k).v = some true ↔
        toSigned 36 (aluSub 36 a b k).val ≠ toSigned 36 a - toSigned 36 b - k)) ∧
    (∀ a b : Nat, a < 2 ^ 36 → b < 2 ^ 36 →
      (aluMul a b).val = (BitVec.ofNat 36 a * BitVec.ofNat 36 b).toNat ∧
      ((aluMul a b).v = some true ↔ toSigned 36 (aluMul a b).val ≠ toSigned 36 a * toSigned 36 b)) ∧
    (∀ a b : Nat, a < 2 ^ 36 → b < 2 ^ 36 → b ≠ 0 → ¬ (a = 2 ^ 35 ∧ b = 2 ^ 36 - 1) →
      toSigned 36 a = toSigned 36 b * toSigned 36 (aluDiv a b).val + toSigned 36 (aluRem a b).val ∧
      (toSigned 36 (aluRem a b).val).natAbs < (toSigned 36 b).natAbs ∧
      (toSigned 36 (aluRem a b).val = 0 ∨ ((toSigned 36 (aluRem a b).val < 0) ↔ toSigned 36 a < 0)) ∧
      a = b * (aluDivu a b).val + (aluRemu a b).val ∧ (aluRemu a b).val < b) ∧
    ∀ a : Nat, (aluDiv a 0).divZero = true ∧ (aluRem a 0).divZero = true ∧ (aluDivu a 0).divZero = true ∧ (aluRemu a 0).divZero = true

/-- The functions of the rows ABS and NEG on the word −34,359,738,368 give that word with V set; ABS of every other word
gives V = 0. (R154) -/
def Obligations.AbsAndNegOfTheMostNegativeWord : Prop :=
  ∀ p : Nat, ∃ ra rn, ra ∈ aluRows p ∧ ra.instr = .abs p ∧ rn ∈ aluRows p ∧ rn.instr = .neg p ∧
    ∀ (b cv : Nat) (pr : Proc),
      toSigned 36 (ra.f (2 ^ 35) b cv pr).val = -34359738368 ∧ (ra.f (2 ^ 35) b cv pr).v = some true ∧
      toSigned 36 (rn.f (2 ^ 35) b cv pr).val = -34359738368 ∧ (rn.f (2 ^ 35) b cv pr).v = some true ∧
      ∀ a, a < 2 ^ 36 → toSigned 36 a ≠ -34359738368 → (ra.f a b cv pr).v = some false

/-- EXT returns A bits p to p + l − 1 with positions above 35 as zero, EXTS repeats its top bit, INS replaces C bits p
to p + l − 1 by A's low l bits and drops what falls above 35; HADD and HSUB work on each half alone, with no carry
between them; DSAT saturates. (R158, R159, R160) -/
def Obligations.FieldAndHalfValues : Prop :=
  (∀ (a b k : Nat), a < 2 ^ 36 → k < 36 →
      (aluExt a b).val.testBit k = (decide (k < b / 64 % 64) && a.testBit (b % 64 + k)) ∧
      (0 < b / 64 % 64 → (aluExts a b).val.testBit k = a.testBit (b % 64 + min k (b / 64 % 64 - 1))) ∧
      (b / 64 % 64 = 0 → (aluExts a b).val = 0)) ∧
    (∀ (a b c k : Nat), a < 2 ^ 36 → c < 2 ^ 36 → k < 36 →
      (aluIns a b c).val.testBit k =
        (if b % 64 ≤ k ∧ k < b % 64 + b / 64 % 64 then a.testBit (k - b % 64) else c.testBit k)) ∧
    (∀ (a b : Nat), a < 2 ^ 36 → b < 2 ^ 36 →
      loHalf (aluHadd a b).val = (loHalf a + loHalf b) % 2 ^ 18 ∧ hiHalf (aluHadd a b).val = (hiHalf a + hiHalf b) % 2 ^ 18 ∧
      loHalf (aluHsub a b).val = (loHalf a + 2 ^ 18 - loHalf b) % 2 ^ 18 ∧
      hiHalf (aluHsub a b).val = (hiHalf a + 2 ^ 18 - hiHalf b) % 2 ^ 18 ∧
      hiHalf (aluHswp a).val = loHalf a ∧ loHalf (aluHswp a).val = hiHalf a) ∧
    ∀ a : Nat, a < 2 ^ 72 →
      (toSigned 72 a < -2 ^ 35 → toSigned 36 (aluDsat a).val = -2 ^ 35 ∧ (aluDsat a).v = some true) ∧
      (2 ^ 35 ≤ toSigned 72 a → toSigned 36 (aluDsat a).val = 2 ^ 35 - 1 ∧ (aluDsat a).v = some true) ∧
      (-2 ^ 35 ≤ toSigned 72 a → toSigned 72 a < 2 ^ 35 →
        toSigned 36 (aluDsat a).val = toSigned 72 a ∧ (aluDsat a).v = some false)

/-- With A read as the value v: JMP, CALL and a branch whose condition holds go to v, making no end check, and raise
POINTER_FORM where any of bits 35:24 of v is set; CALL pushes the address after itself; a branch whose condition
does not hold goes on at the next address with the loop end check and makes no target check. RET goes to the word
popped. Where that stands, the command answers a state whose PC is there. (R136, R148, R149, R150) -/
def Obligations.ControlTransferRows : Prop :=
  (∀ (p : Nat) (s : State) (r : Instr × Nat × (Proc → Bool)), r ∈ branchRows p → ∀ (i : Dec) (c c' : Cx) (o : Opnds) (v : Nat),
      s.Decodes p r.2.1 (dA 1) i c → c.ReadsA (dA 1) i o v c' →
      (r.2.2 (if c'.tset then c'.pr.setBit 30 true else c'.pr) = true → v < 2 ^ 24 →
        exec r.1 s = .next (s.retires p (c'.finish i.next (some v) 2)) ∧
        (s.stands p (c'.finish i.next (some v) 2) → ∃ t, exec r.1 s = .next t ∧ (t.proc p).pc.toNat = v)) ∧
      (r.2.2 (if c'.tset then c'.pr.setBit 30 true else c'.pr) = true → 2 ^ 24 ≤ v → exec r.1 s = .next (s.raises p ⟨vADDRESS, 0x20, 1, v⟩ c')) ∧
      (r.2.2 (if c'.tset then c'.pr.setBit 30 true else c'.pr) = false →
        exec r.1 s = .next (s.retires p (c'.finish i.next none 1)) ∧
        (c'.pr.ldepth = 0 → s.stands p (c'.finish i.next none 1) → ∃ t, exec r.1 s = .next t ∧ (t.proc p).pc = a24 i.next))) ∧
    (∀ (p : Nat) (s : State) (i : Dec) (c c' : Cx) (o : Opnds) (v : Nat),
      s.Decodes p 0o002 (dA 1) i c → c.ReadsA (dA 1) i o v c' →
      (v < 2 ^ 24 → exec (.jmp p) s = .next (s.retires p (c'.finish i.next (some v) 1)) ∧
        (s.stands p (c'.finish i.next (some v) 1) → ∃ t, exec (.jmp p) s = .next t ∧ (t.proc p).pc.toNat = v)) ∧
      (2 ^ 24 ≤ v → exec (.jmp p) s = .next (s.raises p ⟨vADDRESS, 0x20, 1, v⟩ c'))) ∧
    (∀ (p : Nat) (s : State) (i : Dec) (c c' c2 : Cx) (o : Opnds) (v : Nat),
      s.Decodes p 0o003 (dA 2) i c → c.ReadsA (dA 2) i o v c' → v < 2 ^ 24 → c'.pr.spv ≠ 0 →
      c'.write (c'.pr.spv - 1) i.next 0 = .ok () c2 →
      exec (.call p) s = .next (s.retires p ((c2.setSp (c'.pr.spv - 1)).finish i.next (some v) 2)) ∧
      (s.stands p ((c2.setSp (c'.pr.spv - 1)).finish i.next (some v) 2) → ∃ t, exec (.call p) s = .next t ∧
        (t.proc p).pc.toNat = v)) ∧
    (∀ (p : Nat) (s : State) (i : Dec) (c c2 : Cx) (v : Nat), s.Decodes p 0o004 (dNone 2) i c →
      c.pop c.pr.spv = .ok v c2 → v < 2 ^ 24 →
      exec (.ret p) s = .next (s.retires p ((c2.setSp (c2.pr.spv + 1)).finish i.next (some v) 2)) ∧
      (s.stands p ((c2.setSp (c2.pr.spv + 1)).finish i.next (some v) 2) → ∃ t, exec (.ret p) s = .next t ∧
        (t.proc p).pc.toNat = v)) ∧
    ∀ (c : Cx) (next v cost : Nat), c.writes = [] → v < 2 ^ 24 → ((c.finish next (some v) cost).proc c.p).pc.toNat = v

/-- LOOP at depth 4 raises LOOP_FAULT NEST; else a count of 2^24 or more raises COUNT_RANGE; else an end of 2^24 or more
or not above the next address raises EMPTY_BODY; else a count of 0 goes to the end; else level d is opened with LS,
LE, LC, LX and LDEPTH as R135 says. LPOP at depth 0 changes nothing but the PC; otherwise it clears LC and LX of the
innermost level and lowers LDEPTH. The end check at the innermost level's LE goes back to LS while LC is above 1.
(R135, R136, R151, R152) -/
def Obligations.LoopRows : Prop :=
  (∀ (p : Nat) (s : State) (i : Dec) (c c' : Cx) (o : Opnds) (n e : Nat),
      s.Decodes p 0o005 ⟨some .w, some .w, none, false, 2⟩ i c → c.ReadsAB ⟨some .w, some .w, none, false, 2⟩ i o n e c' →
      (4 ≤ c'.pr.ldepth → exec (.loop p) s = .next (s.raises p ⟨vLOOP, 0x30, 0, 0⟩ c')) ∧
      (c'.pr.ldepth < 4 → 2 ^ 24 ≤ n → exec (.loop p) s = .next (s.raises p ⟨vLOOP, 0x31, 1, 0⟩ c')) ∧
      (c'.pr.ldepth < 4 → n < 2 ^ 24 → (2 ^ 24 ≤ e ∨ e ≤ i.next) → exec (.loop p) s = .next (s.raises p ⟨vLOOP, 0x32, 2, 0⟩ c')) ∧
      (c'.pr.ldepth < 4 → n = 0 → e < 2 ^ 24 → i.next < e → exec (.loop p) s = .next (s.retires p (c'.finish i.next (some e) 2)) ∧
        (s.stands p (c'.finish i.next (some e) 2) → ∃ t, exec (.loop p) s = .next t ∧ (t.proc p).pc.toNat = e)) ∧
      (c'.pr.ldepth < 4 → 0 < n → n < 2 ^ 24 → e < 2 ^ 24 → i.next < e →
        exec (.loop p) s = .next (s.retires p (({ c' with pr := { c'.pr with
          ls := c'.pr.ls.set c'.pr.ldepth (a24 i.next), le := c'.pr.le.set c'.pr.ldepth (a24 e),
          lc := c'.pr.lc.set c'.pr.ldepth (a24 n), lx := c'.pr.lx.set c'.pr.ldepth 0,
          sw := swSet c'.pr.sw 19 17 (c'.pr.ldepth + 1) } } : Cx).finish i.next none 2)) ∧
        ∀ u, u = ({ c' with pr := { c'.pr with
          ls := c'.pr.ls.set c'.pr.ldepth (a24 i.next), le := c'.pr.le.set c'.pr.ldepth (a24 e),
          lc := c'.pr.lc.set c'.pr.ldepth (a24 n), lx := c'.pr.lx.set c'.pr.ldepth 0,
          sw := swSet c'.pr.sw 19 17 (c'.pr.ldepth + 1) } } : Cx).finish i.next none 2 →
          s.stands p u → i.next < 2 ^ 24 → c'.pr.ldepth < c'.pr.le.length → c'.pr.ldepth < c'.pr.lc.length →
          ∃ t, exec (.loop p) s = .next t ∧ (t.proc p).ldepth = c'.pr.ldepth + 1 ∧
            (t.proc p).lc.getD c'.pr.ldepth 0 = a24 n ∧ (t.proc p).pc = a24 i.next)) ∧
    (∀ (p : Nat) (s : State) (i : Dec) (c : Cx), s.Decodes p 0o006 (dNone 1) i c →
      (c.pr.ldepth = 0 → exec (.lpop p) s = .next (s.retires p (c.finish i.next none 1)) ∧
        (s.stands p (c.finish i.next none 1) → ∃ t, exec (.lpop p) s = .next t ∧ (t.proc p).pc = a24 i.next ∧
          (t.proc p).ldepth = 0)) ∧
      (0 < c.pr.ldepth → exec (.lpop p) s = .next (s.retires p (({ c with pr := { c.pr with
        lc := c.pr.lc.set (c.pr.ldepth - 1) 0, lx := c.pr.lx.set (c.pr.ldepth - 1) 0,
        sw := swSet c.pr.sw 19 17 (c.pr.ldepth - 1) } } : Cx).finish i.next none 1))) ∧
      ∀ u, c.pr.ldepth = 1 → u = ({ c with pr := { c.pr with
        lc := c.pr.lc.set 0 0, lx := c.pr.lx.set 0 0, sw := swSet c.pr.sw 19 17 0 } } : Cx).finish i.next none 1 → s.stands p u →
        ∃ t, exec (.lpop p) s = .next t ∧ (t.proc p).ldepth = 0 ∧ (t.proc p).pc = a24 i.next) ∧
    (∀ (p : Nat) (s : State) (i : Dec) (c : Cx), s.Decodes p 0o001 (dNone 0) i c →
      exec (.nop p) s = .next (s.retires p (c.finish i.next none 0)) ∧
      (c.pr.ldepth = 0 → s.stands p (c.finish i.next none 0) → ∃ t, exec (.nop p) s = .next t ∧ (t.proc p).pc = a24 i.next ∧
        SameMem c.s t ∧ SameRegs [] c.s t ∧ SameProcs [p] c.s t)) ∧
    (∀ (p : Nat) (s : State) (i : Dec) (c : Cx), s.Decodes p 0o024 (dNone 1) i c →
      exec (.wait p) s = .next (s.retires p ((c.finish i.next none 1).setProc c.p
        { (c.finish i.next none 1).proc c.p with run := .wait })) ∧
      (c.pr.ldepth = 0 → s.stands p ((c.finish i.next none 1).setProc c.p { (c.finish i.next none 1).proc c.p with run := .wait }) →
        ∃ t, exec (.wait p) s = .next t ∧ (t.proc p).run = .wait ∧ (t.proc p).pc = a24 i.next ∧ SameMem c.s t ∧
          SameRegs [] c.s t)) ∧
    ∀ (k : Nat) (pr : Proc) (next d : Nat), pr.ldepth = d + 1 → (pr.le.getD d 0).toNat = next → 1 < (pr.lc.getD d 0).toNat →
      d < pr.lc.length → d < pr.lx.length →
      (Proc.endCheck (k + 1) pr next).2 = (pr.ls.getD d 0).toNat ∧
      ((Proc.endCheck (k + 1) pr next).1.lc.getD d 0).toNat = (pr.lc.getD d 0).toNat - 1 ∧
      (Proc.endCheck (k + 1) pr next).1.lx.getD d 0 = a24 ((pr.lx.getD d 0).toNat + 1)

/-- PUSH stores A at SP − 1 and leaves SP there; POP writes the word at SP to C after SP has been raised; ENTER pushes
FP, sets FP to the new SP and SP to FP − A; LEAVE restores SP from FP and FP from the word it pops. A push at SP = 0
and a pop at the last address raise EA_RANGE. (R107, R146, R149) -/
def Obligations.StackRows : Prop :=
  (∀ (p : Nat) (s : State) (i : Dec) (c c1 c2 : Cx) (o : Opnds) (v : Nat),
      s.Decodes p 0o040 (dA 1) i c → c.ReadsA (dA 1) i o v c1 →
      (c1.pr.spv = 0 → exec (.push p) s = .next (s.raises p ⟨vADDRESS, 0x21, 0, 2 ^ 36 - 1⟩ c1)) ∧
      (c1.pr.spv ≠ 0 → c1.write (c1.pr.spv - 1) v 0 = .ok () c2 →
        exec (.push p) s = .next (s.retires p ((c2.setSp (c1.pr.spv - 1)).finish i.next none 1)) ∧
        (c2.pr.ldepth = 0 → c2.pr.priv < c2.pr.sp.length → s.stands p ((c2.setSp (c1.pr.spv - 1)).finish i.next none 1) →
          ∃ t, exec (.push p) s = .next t ∧ (t.proc p).spv = c1.pr.spv - 1 ∧ (t.proc p).pc = a24 i.next))) ∧
    (∀ (p : Nat) (s : State) (i : Dec) (c c1 c2 c3 : Cx) (o : Opnds) (v : Nat),
      s.Decodes p 0o041 (dC 1) i c → c.phase1 (dC 1) i = .ok o c1 →
      (c1.pr.spv + 1 = 2 ^ 24 → exec (.pop p) s = .next (s.raises p ⟨vADDRESS, 0x21, 0, 2 ^ 24⟩ c1)) ∧
      (c1.pr.spv + 1 ≠ 2 ^ 24 → c1.read c1.pr.spv 0 = .ok v c2 → (c2.setSp (c2.pr.spv + 1)).put o.c .w v 3 = .ok () c3 →
        exec (.pop p) s = .next (s.retires p
          ((if o.c = .spr 2 then { c3 with tset := false } else c3).finish i.next none 1)) ∧
          (o.c ≠ .spr 2 → c3.pr.ldepth = 0 → s.stands p (c3.finish i.next none 1) →
            ∃ t, exec (.pop p) s = .next t ∧ (t.proc p).spv = c3.pr.spv ∧ (t.proc p).pc = a24 i.next))) ∧
    (∀ (p : Nat) (s : State) (i : Dec) (c c1 c2 : Cx) (o : Opnds) (v sp : Nat),
      s.Decodes p 0o042 (dA 2) i c → c.ReadsA (dA 2) i o v c1 →
      (2 ^ 24 ≤ v → exec (.enter p) s = .next (s.raises p ⟨vADDRESS, 0x23, 1, v⟩ c1)) ∧
      (v < 2 ^ 24 → c1.push c1.pr.fp.toNat = .ok sp c2 → v ≤ sp →
        exec (.enter p) s = .next (s.retires p
          ((({ c2 with pr := { c2.pr with fp := a24 sp } } : Cx).setSp (sp - v)).finish i.next none 2)) ∧
        (c2.pr.ldepth = 0 → c2.pr.priv < c2.pr.sp.length →
          s.stands p ((({ c2 with pr := { c2.pr with fp := a24 sp } } : Cx).setSp (sp - v)).finish i.next none 2) →
          ∃ t, exec (.enter p) s = .next t ∧ (t.proc p).fp = a24 sp ∧ (t.proc p).spv = (sp - v) % 2 ^ 24 ∧
            (t.proc p).pc = a24 i.next))) ∧
    (∀ (p : Nat) (s : State) (i : Dec) (c c1 : Cx) (v : Nat), s.Decodes p 0o043 (dNone 2) i c →
      c.pop c.pr.fp.toNat = .ok v c1 →
      (2 ^ 24 ≤ v → exec (.leave p) s = .next (s.raises p ⟨vADDRESS, 0x23, 0, v⟩ c1)) ∧
      (v < 2 ^ 24 → exec (.leave p) s = .next (s.retires p
        ((({ c1 with pr := { c1.pr with fp := a24 v } } : Cx).setSp (c.pr.fp.toNat + 1)).finish i.next none 2)) ∧
        (c1.pr.ldepth = 0 → c1.pr.priv < c1.pr.sp.length →
          s.stands p ((({ c1 with pr := { c1.pr with fp := a24 v } } : Cx).setSp (c.pr.fp.toNat + 1)).finish i.next none 2) →
          ∃ t, exec (.leave p) s = .next t ∧ (t.proc p).fp = a24 v ∧ (t.proc p).spv = (c.pr.fp.toNat + 1) % 2 ^ 24 ∧
            (t.proc p).pc = a24 i.next))) ∧
    ∀ (c : Cx) (v : Nat), c.pr.priv < c.pr.sp.length → v < 2 ^ 24 → (c.setSp v).pr.spv = v

/-- RETX and RETG: EMPTY at depth 0; else KIND where the top block is not of a kind they return through; else PRIV where
its HPRIV is not the current privilege state; else VALUE where a restored value is refused; else the registers are
restored from the block. GATE on an engine: 0 to 62 in the Station world enters the Trust gate, 128 to 135 in Trust
supervisor drops where the entry is valid and raises INVALID where not, and a number allowed at no level of the
world raises NUMBER; on the Capo a number beyond CAPO_GATES raises NUMBER. (R197, R198, R199, R201, R202, R203) -/
def Obligations.GateAndReturnRows : Prop :=
  (∀ (p : Nat) (s : State) (i : Dec) (c : Cx) (rx : Bool) (row : Instr) (code : Nat),
      (rx = true ∧ row = .retx p ∧ code = 0o022 ∨ rx = false ∧ row = .retg p ∧ code = 0o021) →
      s.Decodes p code (dNone 0) i c →
      (c.pr.depth.getD (c.pr.world c.p) 0 = 0 → exec row s = .next (s.raises p ⟨vRETURN, 0x78, 0, 0⟩ c)) ∧
      (c.pr.depth.getD (c.pr.world c.p) 0 ≠ 0 → ∀ b c1,
        c.readBlock c.pr.priv ((c.pr.tsb.getD (c.pr.world c.p) 0).toNat + 24) 24 = .ok b c1 →
        ((if rx then 2 ≤ b.getD 22 0 / 2 ^ 34 else b.getD 22 0 / 2 ^ 34 ≠ 2) →
          exec row s = .next (s.raises p ⟨vRETURN, 0x79, 0, 0⟩ c1)) ∧
        (¬ (if rx then 2 ≤ b.getD 22 0 / 2 ^ 34 else b.getD 22 0 / 2 ^ 34 ≠ 2) →
          (b.getD 22 0 / 2 ^ 32 % 4 ≠ c1.pr.priv → exec row s = .next (s.raises p ⟨vRETURN, 0x7A, 0, 0⟩ c1)) ∧
          (b.getD 22 0 / 2 ^ 32 % 4 = c1.pr.priv →
            (blockRefused c1.p c1.pr.priv b true = true → exec row s = .next (s.raises p ⟨vRETURN, 0x7B, 0, 0⟩ c1)) ∧
            (blockRefused c1.p c1.pr.priv b true = false →
              exec row s = .next (s.retires p (c1.doReturn (c.pr.world c.p) b (!rx) rx)) ∧
              (s.stands p (c1.doReturn (c.pr.world c.p) b (!rx) rx) → ∃ t, exec row s = .next t ∧
                (t.proc p).pc = a24 (b.getD 0 0) ∧ (t.proc p).fp = a24 (b.getD 3 0) ∧ (t.proc p).tb = a24 (b.getD 4 0))))))) ∧
    (∀ (p : Nat) (s : State) (i : Dec) (c c1 : Cx) (o : Opnds) (g : Nat), p < 32 → c1.p = p →
      s.Decodes p 0o020 (dA 0) i c → c.ReadsA (dA 0) i o g c1 →
      (c1.pr.priv < 2 → g ≤ 62 → exec (.gate p) s = .next (s.retires p (c1.storeAll.enter
        (if c1.tset then c1.storeAll.pr.setBit 30 true else c1.storeAll.pr)
        ⟨2, none, 3, 1, none, i.next, 0, 0, g, c1.first, c1.s.get (FE_TGATE_ADDR p)⟩).2) ∧
        ∀ u, c1.storeAll.enter (if c1.tset then c1.storeAll.pr.setBit 30 true else c1.storeAll.pr)
          ⟨2, none, 3, 1, none, i.next, 0, 0, g, c1.first, c1.s.get (FE_TGATE_ADDR p)⟩ = (true, u) → s.stands p u →
          ∃ t, exec (.gate p) s = .next t ∧ (t.proc p).priv = 3 ∧ (t.proc p).pc = a24 (c1.s.get (FE_TGATE_ADDR p))) ∧
      (c1.pr.priv = 3 → 128 ≤ g → g ≤ 135 →
        (c1.s.on (FE_SENTRY_V p (g - 128)) = false → exec (.gate p) s = .next (s.raises p ⟨vGATE, 0x71, 0, 0⟩ c1)) ∧
        (c1.s.on (FE_SENTRY_V p (g - 128)) = true → exec (.gate p) s = .next (s.retires p (c1.storeAll.enter
        (if c1.tset then c1.storeAll.pr.setBit 30 true else c1.storeAll.pr)
          ⟨3, none, c1.s.get (FE_SENTRY_LEVEL p (g - 128)), 1, none, i.next, 0, 0, g, c1.first,
            c1.s.get (FE_SENTRY_ADDR p (g - 128))⟩).2))) ∧
      (c1.pr.priv < 2 → 128 ≤ g → exec (.gate p) s = .next (s.raises p ⟨vGATE, 0x70, 0, 0⟩ c1)) ∧
      (c1.pr.priv = 1 → 64 ≤ g → g ≤ 127 → exec (.gate p) s = .next (s.raises p ⟨vGATE, 0x75, 0, 0⟩ c1))) ∧
    ∀ (s : State) (i : Dec) (c c1 : Cx) (o : Opnds) (g : Nat), c1.p = 32 → s.Decodes 32 0o020 (dA 0) i c →
      c.ReadsA (dA 0) i o g c1 → c1.s.get CAPO_GATES_COUNT ≤ g →
      exec (.gate 32) s = .next (s.raises 32 ⟨vGATE, 0x70, 0, 0⟩ c1)

/-- An entry of a vector made on a chain with room: TSB goes down by 24, the chain's depth up by one, PC is the
handler's address, SW holds PRIV = HPRIV, the IPL, LDEPTH 0 and every flag and enable clear. Where fewer than 24
words lie between TSL and TSB the entry is refused: a Fret engine abandons its tick with cause STACK, the Capo stops
and its source CAPO_STACK is raised. A synchronous exception of an engine goes to the supervisor of the interrupted
world, on the Capo to ring 0. (R130, R187, R188, R190, R192, R194) -/
def Obligations.EntrySavesTheBlockAndStartsTheHandler : Prop :=
  (∀ (c : Cx) (pr : Proc) (e : Entry) (t : State), c.enter pr e = (true, t) → e.chain < pr.tsb.length → e.chain < pr.depth.length →
      e.hpriv < 4 → e.ipl.getD pr.ipl < 16 →
      ((t.proc c.p).tsb.getD e.chain 0).toNat = (pr.tsb.getD e.chain 0).toNat - 24 ∧
      (t.proc c.p).depth.getD e.chain 0 = pr.depth.getD e.chain 0 + 1 ∧
      (t.proc c.p).sw.toNat = e.hpriv + 2 ^ 20 * e.ipl.getD pr.ipl ∧ (t.proc c.p).run = .running ∧
      (e.vec = none → (t.proc c.p).pc = a24 e.target)) ∧
    (∀ (c : Cx) (pr : Proc) (e : Entry), ((pr.tsb.getD e.chain 0).toNat : Int) - 24 < ((pr.tsl.getD e.chain 0).toNat : Int) →
      c.enter pr e = (false, c.entryRefused pr e false)) ∧
    (∀ n priv, n < 32 → priv < 4 → excHpriv n priv = 2 * (priv / 2) + 1) ∧ (∀ priv, excHpriv 32 priv = 0) ∧
    ∀ (c : Cx) (x : Exc), c.takeExc x = (({ c with pr := c.s.proc c.p, writes := [] } : Cx).enter (c.s.proc c.p)
      ⟨0, some x.vector, excHpriv c.p (c.s.proc c.p).priv, worldOf c.p (excHpriv c.p (c.s.proc c.p).priv), none,
        (c.s.proc c.p).pc.toNat, x.detail, x.spec, x.info, c.first, 0⟩).2

/-- OGET of n octets (at most 4) yields their big-endian number with N clear and Z from the value; OPUT stores the n low
octets of A at the octet view of C; BERLEN yields octets used and length by Table 4-10. (R161, R162, R163) -/
def Obligations.OctetRows : Prop :=
  (∀ (p : Nat) (s : State) (i : Dec) (c c1 c2 c3 : Cx) (o : Opnds) (n v : Nat),
      s.Decodes p 0o500 ⟨some .o, some .w, some .w, false, 1⟩ i c → c.phase1 ⟨some .o, some .w, some .w, false, 1⟩ i = .ok o c1 →
      c1.getOpt o.b (some .w) 2 = .ok n c2 → c2.octets o.a 0 0 (min n 4) = .ok v c3 →
      ∀ t c4, c3.aluEnd ⟨some .o, some .w, some .w, false, 1⟩ o ⟨v, some false, some (decide (v = 0)), none, none, false⟩ i.next = .ok t c4 →
      exec (.oget p) s = .next (s.retires p t) ∧
      (c3.pr.ldepth = 0 → o.c ≠ .spr 1 → o.c ≠ .spr 2 → s.stands p t → ∃ u, exec (.oget p) s = .next u ∧ (u.proc p).pc = a24 i.next)) ∧
    (∀ (p : Nat) (s : State) (i : Dec) (c c1 c2 c3 c4 : Cx) (o : Opnds) (a n b k : Nat),
      s.Decodes p 0o501 ⟨some .w, some .w, some .o, false, 1⟩ i c → c.phase1 ⟨some .w, some .w, some .o, false, 1⟩ i = .ok o c1 →
      c1.getOpt o.a (some .w) 1 = .ok a c2 → c2.getOpt o.b (some .w) 2 = .ok n c3 → o.c = .oct b k →
      c3.putOctets b k a (min n 4) 0 (min n 4) = .ok () c4 →
      exec (.oput p) s = .next (s.retires p (c4.finish i.next none 1)) ∧
      (c4.pr.ldepth = 0 → s.stands p (c4.finish i.next none 1) → ∃ u, exec (.oput p) s = .next u ∧ (u.proc p).pc = a24 i.next)) ∧
    (∀ (p : Nat) (s : State) (i : Dec) (c c1 c2 c3 c4 : Cx) (o : Opnds) (a n : Nat),
      s.Decodes p 0o501 ⟨some .w, some .w, some .o, false, 1⟩ i c → c.phase1 ⟨some .w, some .w, some .o, false, 1⟩ i = .ok o c1 →
      c1.getOpt o.a (some .w) 1 = .ok a c2 → c2.getOpt o.b (some .w) 2 = .ok n c3 → (∀ b k, o.c ≠ .oct b k) → o.c ≠ .spr 2 →
      c3.put o.c .w (octetsWord a (min n 4) (min n 4)) 3 = .ok () c4 →
      exec (.oput p) s = .next (s.retires p (c4.finish i.next none 1))) ∧
    (∀ (p : Nat) (s : State) (i : Dec) (c c1 c2 c3 : Cx) (o : Opnds) (x rest : Nat),
      s.Decodes p 0o502 ⟨some .o, none, some .w, false, 3⟩ i c → c.phase1 ⟨some .o, none, some .w, false, 3⟩ i = .ok o c1 →
      c1.octets o.a 0 0 1 = .ok x c2 →
      (if berUsed x = 1 then (.ok 0 c2 : Res Nat) else c2.octets o.a 0 1 (berUsed x - 1)) = .ok rest c3 →
      ∀ r, r = berLen (fun k => if k = 0 then x else rest / 2 ^ (8 * (berUsed x - 1 - k)) % 256) →
      ∀ t c4, c3.aluEnd ⟨some .o, none, some .w, false, 3⟩ o
        ⟨2 ^ 24 * r.1 + r.2.1, some false, some (decide (r.2.1 = 0)), some r.2.2, none, false⟩ i.next = .ok t c4 →
      exec (.berlen p) s = .next (s.retires p t) ∧
      (c3.pr.ldepth = 0 → o.c ≠ .spr 1 → o.c ≠ .spr 2 → s.stands p t →
        ∃ u, exec (.berlen p) s = .next u ∧ (u.proc p).pc = a24 i.next)) ∧
    ∀ o : Nat → Nat, (o 0 = 0x81 → berLen o = (2, o 1, false)) ∧ (o 0 = 0x82 → berLen o = (3, 256 * o 1 + o 2, false)) ∧
      (o 0 = 0x83 → berLen o = (4, 65536 * o 1 + 256 * o 2 + o 3, false)) ∧
      ((o 0 = 0x80 ∨ 0x84 ≤ o 0) → berLen o = (1, 0, true))

/-- TWAIT completes parked with nothing staged, GOSUB, JOBPUT, VERDICT and EVPUT with one more output staged, SVPULL
with the cut copied, TLEFT with the cycles left, TABANDON with the tick abandoned. TWAIT, where no engine of a lower
number executes, commits what the engine has staged, in order, and parks it with nothing staged. GOSUB, JOBPUT,
VERDICT and EVPUT whose operands pass their checks append one output to the staged list; at 512 staged outputs they
stage nothing and count in FE_OUTDROP. SVPULL of a cut without a set writes two zero words and sets Z, of one with a
set it writes the header, the tick and the channels and clears Z; TLEFT yields W less the cycles since the edge;
TABANDON abandons the tick with its own cause. (R35, R36, R40, R164, R166, R170, R172, R173, R174, R175, R176) -/
def Obligations.TickInstructionRows : Prop :=
  (∀ (p : Nat) (s : State) (i : Dec) (c : Cx), s.Decodes p 0o600 (dNone 3) i c →
      (∀ n, n < p → s.canStep n = false) → ∀ u,
      u = (c.finish i.next none (3 + 2 * c.pr.staged.length)).commitTick c.p c.pr.staged c.pr.priv →
      exec (.twait p) s = .next (s.retires p u) ∧
      (s.stands p u → ∃ t, exec (.twait p) s = .next t ∧ (t.proc p).staged = [] ∧
        (t.proc p).run = .parked ∧ (t.proc p).twaited = true ∧ (t.proc p).abandons = 0)) ∧
    (∀ (p : Nat) (s : State) (i : Dec) (c c1 : Cx) (o : Opnds), s.Decodes p 0o601 (dC 1) i c → c.phase1 (dC 1) i = .ok o c1 →
      ∀ t c2, c1.aluEnd (dC 1) o (outNZ 36 (ofInt 36 ((c1.s.get TICK_WORK_W : Int) -
        (((c1.s.procStart c1.p + c1.cost : Nat) : Int) - c1.s.time.edge))) (some false) none) i.next = .ok t c2 →
      exec (.tleft p) s = .next (s.retires p t) ∧ (s.stands p t → exec (.tleft p) s = .next t)) ∧
    (∀ (p : Nat) (s : State) (i : Dec) (c c' : Cx) (o : Opnds) (a b : Nat), s.Decodes p 0o605 (dStage 4) i c →
      c.ReadsStage (dStage 4) i o a b c' → ∀ t c2,
      c'.stage (dStage 4) o (.verdict (a % 2 ^ 24) (b % 256)) i.next = .ok t c2 → exec (.verdict p) s = .next (s.retires p t) ∧
      (c'.pr.staged.length < 512 → s.stands p t → ∃ u, exec (.verdict p) s = .next u ∧
        (u.proc p).staged = c'.pr.staged ++ [.verdict (a % 2 ^ 24) (b % 256)])) ∧
    (∀ (p : Nat) (s : State) (i : Dec) (c c' c2 : Cx) (o : Opnds) (a b : Nat) (ws : List Nat), s.Decodes p 0o606 (dStage 6) i c →
      c.ReadsStage (dStage 6) i o a b c' → b < 2 ^ 24 → c'.readWords b 8 = .ok ws c2 → ∀ t c3,
      c2.stage (dStage 6) o (.evput (a % 2 ^ 16) (blockBytes ws) c2.trust) i.next = .ok t c3 →
      exec (.evput p) s = .next (s.retires p t) ∧
      (c2.pr.staged.length < 512 → s.stands p t → ∃ u, exec (.evput p) s = .next u ∧
        (u.proc p).staged = c2.pr.staged ++ [.evput (a % 2 ^ 16) (blockBytes ws) c2.trust])) ∧
    (∀ (p : Nat) (s : State) (i : Dec) (c c' c2 : Cx) (o : Opnds) (a b : Nat) (ws : List Nat), s.Decodes p 0o604 (dStage 6) i c →
      c.ReadsStage (dStage 6) i o a b c' → a < 1032 → c'.s.ringOwner a = midOf c'.p c'.pr.priv → b < 2 ^ 24 →
      c'.readWords b 16 = .ok ws c2 → ∀ t c3, c2.stage (dStage 6) o (.jobput a (blockBytes ws) c2.trust) i.next = .ok t c3 →
      exec (.jobput p) s = .next (s.retires p t) ∧
      (c2.pr.staged.length < 512 → s.stands p t → ∃ u, exec (.jobput p) s = .next u ∧
        (u.proc p).staged = c2.pr.staged ++ [.jobput a (blockBytes ws) c2.trust])) ∧
    (∀ (p : Nat) (s : State) (i : Dec) (c c' c2 c3 : Cx) (o : Opnds) (a b : Nat) (ws fs : List Nat), s.Decodes p 0o603 (dStage 8) i c →
      c.ReadsStage (dStage 8) i o a b c' → a < 2 ^ 21 → c'.s.reaches c'.p c'.trust a = true → b < 0x10000 →
      c'.readWords b 1 = .ok ws c2 → 0 < ws.getD 0 0 % 2 ^ 11 → ws.getD 0 0 % 2 ^ 11 ≤ 1400 →
      b + 1 + ceilDiv (ws.getD 0 0 % 2 ^ 11) 4 ≤ 0x10000 →
      c2.readWords (b + 1) (ceilDiv (ws.getD 0 0 % 2 ^ 11) 4) = .ok fs c3 → ∀ t c4,
      c3.stage (dStage 8) o (.gosub a ((fs.flatMap viewOctets).take (ws.getD 0 0 % 2 ^ 11))) i.next = .ok t c4 →
      exec (.gosub p) s = .next (s.retires p t) ∧
      (c3.pr.staged.length < 512 → s.stands p t → ∃ u, exec (.gosub p) s = .next u ∧
        (u.proc p).staged = c3.pr.staged ++ [.gosub a ((fs.flatMap viewOctets).take (ws.getD 0 0 % 2 ^ 11))])) ∧
    (∀ (p : Nat) (s : State) (i : Dec) (c c' c2 : Cx) (o : Opnds) (a b w : Nat), s.Decodes p 0o602 (dBinN 12) i c →
      c.ReadsAB (dBinN 12) i o a b c' → a < 2 ^ 21 → c'.s.reaches c'.p c'.trust a = true → o.c.wordEa = some w →
      (∀ j, j < 2 + c'.s.pullCount a b → sampleMem (w + j) = true) →
      c'.s.cutSet a (decide (b % 2 = 1)) (c'.s.procStart c'.p + c'.cost) = none →
      c'.putWords w [0, 0] = .ok () c2 →
      exec (.svpull p) s = .next (s.retires p
        (({ c2 with pr := c2.pr.setBit 34 true } : Cx).finish i.next none (12 + c'.s.pullCount a b))) ∧
      (c2.pr.ldepth = 0 → s.stands p (({ c2 with pr := c2.pr.setBit 34 true } : Cx).finish i.next none (12 + c'.s.pullCount a b)) →
        ∃ t, exec (.svpull p) s = .next t ∧ (t.proc p).pc = a24 i.next ∧ swGet (t.proc p).sw 34 34 = 1)) ∧
    (∀ (p : Nat) (s : State) (i : Dec) (c c' c2 : Cx) (o : Opnds) (a b w : Nat) (x : SampleSet), s.Decodes p 0o602 (dBinN 12) i c →
      c.ReadsAB (dBinN 12) i o a b c' → a < 2 ^ 21 → c'.s.reaches c'.p c'.trust a = true → o.c.wordEa = some w →
      (∀ j, j < 2 + c'.s.pullCount a b → sampleMem (w + j) = true) →
      c'.s.cutSet a (decide (b % 2 = 1)) (c'.s.procStart c'.p + c'.cost) = some x →
      c'.putWords w ([2 ^ 16 * c'.s.pullCount a b + x.smpCnt % 2 ^ 16, x.tick] ++ (List.range (c'.s.pullCount a b)).map
        (fun j => channelWord (decide (b / 2 % 2 = 1)) (x.chans.getD j (0, 0)))) = .ok () c2 →
      exec (.svpull p) s = .next (s.retires p
        (({ c2 with pr := c2.pr.setBit 34 false } : Cx).finish i.next none (12 + c'.s.pullCount a b))) ∧
      (c2.pr.ldepth = 0 → s.stands p (({ c2 with pr := c2.pr.setBit 34 false } : Cx).finish i.next none (12 + c'.s.pullCount a b)) →
        ∃ t, exec (.svpull p) s = .next t ∧ (t.proc p).pc = a24 i.next ∧ swGet (t.proc p).sw 34 34 = 0)) ∧
    (∀ (p : Nat) (s : State) (i : Dec) (c : Cx), s.Decodes p 0o607 (dNone 1) i c →
      exec (.tabandon p) s = .next (s.retires p (c.s.feAbandon c.p .tabandon)) ∧
      (p < 32 → s.stands p (c.s.feAbandon c.p .tabandon) → ∃ t, exec (.tabandon p) s = .next t ∧ (t.proc p).staged = [] ∧
        ((t.proc p).run = .parked ∨ (t.proc p).run = .held) ∧ (t.proc p).twaited = false)) ∧
    ∀ (c : Cx) (d : OpDesc) (o : Opnds) (x : Staged) (next : Nat),
      (c.pr.staged.length < 512 →
        c.stage d o x next = ({ c with pr := { c.pr with staged := c.pr.staged ++ [x] } } : Cx).stageStatus d o stOK false next) ∧
      (512 ≤ c.pr.staged.length → ∀ t c', c.stage d o x next = .ok t c' → ∃ u : State, t = u.inc (FE_OUTDROP_COUNT c.p))

/-- When a rate r from 1,000 to 96,000 takes effect, TICK_CYCLES holds N = floor(1,500,000,000 / r) and TICK_WORK holds
W = N − G with G = ceil(N / 50), which is at least 2 % of N. It takes effect at a write of TICK_RATE while RUN = 0,
and at the edges that make a pending rate take effect. (R28) -/
def Obligations.TickRateValues : Prop :=
  (∀ (s : State) (r : Nat), 1000 ≤ r → r ≤ 96000 →
      (s.rateInForce r).get TICK_CYCLES_N = 1500000000 / r ∧
      (s.rateInForce r).get TICK_WORK_W = 1500000000 / r - (1500000000 / r + 49) / 50 ∧
      2 * (1500000000 / r) ≤ 100 * ((s.rateInForce r).get TICK_CYCLES_N - (s.rateInForce r).get TICK_WORK_W) ∧
      (s.rateInForce r).time.rate = r) ∧
    (∀ (s : State) (v : Word32), s.on TIME_CTL_RUN = false → 1000 ≤ wordField v 16 0 → wordField v 16 0 ≤ 96000 →
      exec (.tickRateWrite v) s = .next ((s.regStore TICK_RATE v).rateInForce (wordField v 16 0))) ∧
    (∀ s : State, s.on TICK_RATE_PENDING = true → s.ratePending = s.rateInForce (s.get TICK_RATE_RATE)) ∧
    ∀ s : State, s.startTick 0 = s.ratePending.startTick 0

/-- A rate in range written while RUN = 1 is held with PENDING = 1; one out of range is refused, leaves RATE as it was
and changes no rate. TIME_SEC sets the seconds of module time while RUN = 0 and nothing while RUN = 1.
TIME_SRC_WRITE with another SRC leaves the timebase in FREERUN with no slew; TICK_RUN_SET starts the ticks;
TICK_RUN_CLEAR leaves a stop pending for the next edge and HELD following HOLD; a zeroize asked for runs at once.
FE_CTL takes HOLD and, while RUN = 0, HELD follows at once. A set-up register of an engine that is not held is not
written while RUN = 1: CFGREJ is set; otherwise FE_TENTRY takes its address. (R20, R23, R25, R26, R182, R183) -/
def Obligations.TickRateAndTimeWrites : Prop :=
  (∀ (s : State) (v : Word32), s.on TIME_CTL_RUN = true → 1000 ≤ wordField v 16 0 → wordField v 16 0 ≤ 96000 →
      ∃ t, exec (.tickRateWrite v) s = .next t ∧ t = (s.regStore TICK_RATE v).put TICK_RATE_PENDING 1 ∧
        t.get TICK_RATE_PENDING = 1 ∧ t.get TICK_RATE_RATE = wordField v 16 0 ∧ t.time = s.time) ∧
    (∀ (s : State) (v : Word32), (wordField v 16 0 < 1000 ∨ 96000 < wordField v 16 0) →
      exec (.tickRateWrite v) s = .next (s.regStore TICK_RATE v) ∧ (s.regEffect TICK_RATE v).refused = true ∧
      wordField (s.regEffect TICK_RATE v).val 16 0 = s.get TICK_RATE_RATE) ∧
    (∀ (s : State) (v : Word32) (hi : Bool), s.on TIME_CTL_RUN = true → exec (.timeSecWrite hi v) s = .next s) ∧
    (∀ (s : State) (v : Word32), s.on TIME_CTL_RUN = false → ∃ t, exec (.timeSecWrite false v) s = .next t ∧
      t.taiSec = 2 ^ 32 * (s.taiSec / 2 ^ 32) + v.toNat ∧ t.taiNs = s.taiNs ∧ t.time.secWritten = true) ∧
    (∀ (s : State) (v : Word32), s.on TIME_CTL_RUN = false → ∃ t, exec (.timeSecWrite true v) s = .next t ∧
      t.taiSec = 2 ^ 32 * (v.toNat % 2 ^ 16) + s.taiSec % 2 ^ 32 ∧ t.taiNs = s.taiNs ∧ t.time.secWritten = true) ∧
    (∀ (s : State) (v : Word32), exec (.timeSrcWrite v) s = .next (s.timeCtlWrite v).settle ∧
      exec (.tickRunSet v) s = .next (s.timeCtlWrite (v ||| 1)).settle ∧
      exec (.tickRunClear v) s = .next (s.timeCtlWrite (v &&& 0xFFFFFFFE)).settle) ∧
    (∀ (s : State) (v : Word32), s.on TIME_CTL_RUN = false → wordField v 0 0 = 0 → wordField v 3 2 ≤ 2 →
      wordField v 3 2 ≠ s.get TIME_CTL_SRC → s.flt.zeroizeDue = false → ∃ t, exec (.timeSrcWrite v) s = .next t ∧
        t.get TIME_CTL_SRC = wordField v 3 2 ∧ t.get TIME_STATE_STATE = tbFreerun ∧ t.time.slew = 0 ∧
        t.time.everLocked = false ∧ SameRegs [TIME_CTL, TIME_STATE, TIME_OFFSET] s t ∧ SameMem s t) ∧
    (∀ (s : State) (v : Word32), s.on TIME_CTL_RUN = false → wordField v 3 2 = s.get TIME_CTL_SRC → s.get TIME_CTL_SRC ≤ 2 →
      s.flt.zeroizeDue = false → ∃ t, exec (.tickRunSet v) s = .next t ∧ t.on TIME_CTL_RUN = true ∧ t.time.ticking = true ∧
        t.get TIME_CTL_SRC = s.get TIME_CTL_SRC ∧ SameRegs [TIME_CTL] s t ∧ SameMem s t) ∧
    (∀ (s : State) (v : Word32), s.on TIME_CTL_RUN = true → wordField v 3 2 = s.get TIME_CTL_SRC → s.get TIME_CTL_SRC ≤ 2 →
      ∃ t, exec (.tickRunClear v) s = .next t ∧ t.on TIME_CTL_RUN = false ∧ t.time.stopPend = s.time.ticking ∧
        ∀ n, n < 32 → t.get (FE_CTL_HELD n) = t.get (FE_CTL_HOLD n)) ∧
    (∀ (s : State) (n : Nat) (v : Word32), n < 32 → (s.on TIME_CTL_RUN = false ∨ s.on (FE_CTL_HELD n) = true) →
      ∃ t, exec (.feConfigWrite n 8 v) s = .next t ∧ t.get (FE_TENTRY_ADDR n) = wordField v 23 0 ∧
        SameRegs [FE_TENTRY n] s t ∧ SameMem s t) ∧
    (∀ (s : State) (n : Nat) (v : Word32), n < 32 → ∃ t, exec (.feCtlWrite n v) s = .next t ∧
      t.get (FE_CTL_HOLD n) = wordField v (FE_CTL_HOLD n).hi (FE_CTL_HOLD n).lo ∧ SameMem s t ∧ SameProcs [n] s t ∧
      SameRegs [FE_CTL n] s t ∧ (s.on TIME_CTL_RUN = false → t.get (FE_CTL_HELD n) = t.get (FE_CTL_HOLD n))) ∧
    ∀ (s : State) (n r : Nat) (v : Word32), n < 32 → feGuarded r = true →
      exec (.feConfigWrite n r v) s = .next (s.feConfigWrite (FE_CTL n + r) v) ∧
      (s.on TIME_CTL_RUN = true → s.on (FE_CTL_HELD n) = false → s.feConfigWrite (FE_CTL n + r) v = s.put (FE_STATUS_CFGREJ n) 1)

/-- While ticks run and the logic runs TICK_EDGE answers the state at the edge cycle with the tick ended and the next
started, or, at a stop edge, the engines parked. The edge cycle is the first at which module time is at or after the
next point of the grid. TICK_INDEX takes the number of the tick; TICK_COUNT reads 0 in the first tick and counts on
otherwise. FE_B starts at tick + d cycles; an engine that starts has the values of its tick entry. (R24, R26, R27,
R32, R41, R181) -/
def Obligations.TickEdgeRow : Prop :=
  (∀ s : State, s.time.ticking = true → s.logicUp = true → exec .tickEdge s = .next
      (if (s.passTo s.edgeCycle).endTick.time.stopPend then (s.passTo s.edgeCycle).endTick.stopEdge
       else (s.passTo s.edgeCycle).endTick.startTick (s.edgeIndex % s.time.rate)).settle) ∧
    (∀ s : State, 0 < s.time.rate → 0 < s.perCycle → s.clock ≤ s.edgeCycle ∧
      thirdsPerSec * s.edgeIndex ≤ s.time.rate * (s.time.modTime % thirdsPerSec + (s.edgeCycle - s.clock) * s.perCycle) ∧
      ∀ k, k < s.edgeCycle - s.clock →
        s.time.rate * (s.time.modTime % thirdsPerSec + k * s.perCycle) < thirdsPerSec * s.edgeIndex) ∧
    (∀ (s : State) (n : Nat), n < 96000 → (s.tickCounters n).get TICK_INDEX_N = n ∧
      (s.tickCounters n).get TICK_COUNT_LO_COUNT + 2 ^ 32 * (s.tickCounters n).get TICK_COUNT_HI_COUNT =
        if s.time.firstTick then 0 else (s.get TICK_COUNT_LO_COUNT + 2 ^ 32 * s.get TICK_COUNT_HI_COUNT + 1) % 2 ^ 48) ∧
    (∀ s : State, s.data.feBWaits = true → exec .feBStart s =
      .next (({ s.passTo (s.time.edge + s.get REL_STATUS_D) with
        data := { (s.passTo (s.time.edge + s.get REL_STATUS_D)).data with feBWaits := false } } : State).engineStart
          ((s.passTo (s.time.edge + s.get REL_STATUS_D)).get REL_CTL_FE_B))) ∧
    (∀ s : State, s.time.ticking = true → s.logicUp = true → s.time.stopPend = false → 0 < s.time.rate → s.time.rate ≤ 96000 →
      ∃ t, exec .tickEdge s = .next t ∧ t.time.inTick = true ∧ t.get TICK_INDEX_N = s.edgeIndex % s.time.rate ∧
        s.edgeCycle ≤ t.time.edge ∧ t.time.edge = t.clock) ∧
    (∀ (s : State) (n : Nat), s.data.feBWaits = true → n = s.get REL_CTL_FE_B → ∃ t, exec .feBStart s = .next t ∧
      t.data.feBWaits = false ∧ t.clock = max s.clock (s.time.edge + s.get REL_STATUS_D) ∧ (t.proc n).run = .running ∧
      (t.proc n).pc = a24 (s.get (FE_TENTRY_ADDR n)) ∧ (t.proc n).staged = [] ∧ SameMem s t ∧ SameProcs [n] s t) ∧
    ∀ (s : State) (n : Nat), n < 32 → (s.tickEntryProc n).pc = a24 (s.get (FE_TENTRY_ADDR n)) ∧ (s.tickEntryProc n).sw = 3

/-- At a boundary the deliverable source of highest priority is entered with its ACTIVE bit set. A source is deliverable
only if it is pending, enabled, aimed at the processor and above its threshold and IPL. The end of a hold-off takes
the group off the list. At tick + W an engine that runs or waits takes BUDGET once per tick, a delivery that
succeeds counted in FE_BUDGETX. An abandon discards what is staged, records the PC and the cause, counts, and leaves
the engine parked, or held, at its tick entry. (R38, R39, R42, R131, R205, R206, R207, R208) -/
def Obligations.AbandonAndInterrupts : Prop :=
  (∀ (s : State) (p i : Nat) (t : State), s.logicUp = true → p ≤ 32 → s.budgetDue p = false → (s.proc p).halted = false →
      s.irqChoice p = some i → (s.cx p).enter (s.proc p) (s.irqEntry p i) = (true, t) →
      exec (.interruptEntry p) s = .next (((s.irqDelivered p i t).put (INTC_SRC_ACTIVE i) 1).debugCatch p) ∧
      (t.lcs.haltReq = [] → t.lcs.stepReq = [] → t.lcs.breaks = [] → ∃ u, exec (.interruptEntry p) s = .next u ∧
        u.on (INTC_SRC_ACTIVE i) = true ∧ (u.proc p).pc = (t.proc p).pc ∧ (u.proc p).run = .running)) ∧
    (∀ (s : State) (p i : Nat), s.irqChoice p = some i → s.irqDeliverable i p = true ∧ i ∈ s.irqSources ∧
      ∀ j, j ∈ s.irqSources → s.irqDeliverable j p = true → s.get (INTC_SRC_PRIO j) < s.get (INTC_SRC_PRIO i) ∨
        (s.get (INTC_SRC_PRIO j) = s.get (INTC_SRC_PRIO i) ∧ i ≤ j)) ∧
    (∀ (s : State) (p i : Nat), s.irqDeliverable i p = true → s.irqPending i = true ∧ s.on (INTC_SRC_EN i) = true ∧
      s.get (INTC_SRC_TARGET i) = p ∧ 0 < s.get (INTC_SRC_PRIO i) ∧
      s.get (INTC_THRESH_THRESH p) < s.get (INTC_SRC_PRIO i) ∧ (s.proc p).ipl < s.get (INTC_SRC_PRIO i)) ∧
    (∀ (s : State) (g c : Nat), tget s.holdoffs g = some c → ∃ t, exec (.intcHoldoffExpiry g) s = .next t ∧
      tget t.holdoffs g = none ∧ (∀ k, k ≠ g → tget t.holdoffs k = tget s.holdoffs k) ∧ c ≤ t.clock ∧ SameRegs [] s t ∧ SameMem s t) ∧
    (∀ (s : State) (n : Nat), n < 32 → s.time.inTick = true → (s.proc n).budgetGiven = false →
      ((s.proc n).run = .running ∨ (s.proc n).run = .wait) → (s.proc n).halted = false →
      ∀ s1 b u, s1 = (s.passTo (s.time.edge + s.get TICK_WORK_W)).setProc n { s.proc n with budgetGiven := true } →
        (s1.cx n).enter (s1.proc n) ⟨0, some vBUDGET, (s.proc n).priv, worldOf n (s.proc n).priv, none, (s.proc n).pc.toNat, 0x80,
          0, 0, 0, 0⟩ = (b, u) →
        (b = false → exec (.budgetExceeded n) s = .next (u.debugCatch n)) ∧
        (b = true → exec (.budgetExceeded n) s = .next ((u.inc (FE_BUDGETX_COUNT n)).debugCatch n) ∧
          (u.lcs.haltReq = [] → u.lcs.stepReq = [] → u.lcs.breaks = [] → ∃ t, exec (.budgetExceeded n) s = .next t ∧
            t.get (FE_BUDGETX_COUNT n) = (s.inc (FE_BUDGETX_COUNT n)).get (FE_BUDGETX_COUNT n) ∧
            (t.proc n).budgetGiven = true ∧ (t.proc n).pc = (u.proc n).pc ∧ (t.proc n).run = .running ∧
            t.clock = max s.clock (s.time.edge + s.get TICK_WORK_W)))) ∧
    ∀ (s : State) (n : Nat) (cause : AbandonCause), n < 32 →
      ((s.feAbandon n cause).proc n).staged = [] ∧ (((s.feAbandon n cause).proc n).run = .parked ∨ ((s.feAbandon n cause).proc n).run = .held) ∧
      ((s.feAbandon n cause).proc n).twaited = false

/-- A lost source takes LOCKED to HOLDOVER after 300 s locked and to HOLDOVER_EXPIRED before, LOCKING to
HOLDOVER_EXPIRED once locked before and to FREERUN otherwise; slewing stops. 30 s in HOLDOVER end in
HOLDOVER_EXPIRED. An edge of the selected polarity more than 100 ms from a second boundary is only counted; a nearer
one steers where PPS_IN is selected. OUT_WIDTH × 10 µs is the pulse width. Operating time is mirrored every 60 s.
While RUN = 1 the slew stays within TIME_SLEWMAX. (How long a source may be silent is log entry 15.) (R21, R22, R46,
R47, R48, R50, R51) -/
def Obligations.TimebaseRows : Prop :=
  (∀ s : State, s.get TIME_STATE_STATE = tbLocked → s.get TIME_CTL_SRC ≠ srcFree → ∃ t, exec .sourceLost s = .next t ∧
      t.time.slew = 0 ∧ t.clock = max s.clock (s.time.lastSrc + s.lossCycles) ∧
      t.get TIME_STATE_STATE = (if 300 * cyclesPerSec ≤ t.clock - s.time.lockedAt then tbHoldover else tbExpired) ∧
      SameRegs [TIME_STATE] s t ∧ SameMem s t) ∧
    (∀ s : State, s.get TIME_STATE_STATE = tbLocking → s.get TIME_CTL_SRC ≠ srcFree → ∃ t, exec .sourceLost s = .next t ∧
      t.time.slew = 0 ∧ t.get TIME_STATE_STATE = (if s.time.everLocked then tbExpired else tbFreerun) ∧
      (s.time.everLocked = true → t.time.freq = s.time.freqLock) ∧ SameRegs [TIME_STATE] s t ∧ SameMem s t) ∧
    (∀ s : State, s.get TIME_STATE_STATE = tbHoldover → ∃ t, exec .holdoverExpiry s = .next t ∧
      t.get TIME_STATE_STATE = tbExpired ∧ t.get TIME_STATE_TAI_VALID = 0 ∧
      t.clock = max s.clock (s.time.holdAt + 30 * cyclesPerSec) ∧ SameRegs [TIME_STATE] s t ∧ SameMem s t) ∧
    (∀ (s : State) (falling : Bool), s.on PPS_CTL_IN_EDGE = falling →
      (100000000 * thirdsPerNs < s.ppsOffset.natAbs → exec (.ppsInEdge falling) s = .next (s.inc PPS_CTL_IN_REJECT)) ∧
      (s.ppsOffset.natAbs ≤ 100000000 * thirdsPerNs → exec (.ppsInEdge falling) s =
        .next (if s.get TIME_CTL_SRC = srcPps then s.servo s.ppsOffset else s)) ∧
      (100000000 * thirdsPerNs < s.ppsOffset.natAbs → ∃ t, exec (.ppsInEdge falling) s = .next t ∧
        t.get PPS_CTL_IN_REJECT = (s.inc PPS_CTL_IN_REJECT).get PPS_CTL_IN_REJECT ∧ t.time = s.time ∧ SameMem s t) ∧
      (s.ppsOffset.natAbs ≤ 100000000 * thirdsPerNs → s.get TIME_CTL_SRC = srcPps → s.on TIME_CTL_RUN = false →
        0 ≤ (s.time.modTime : Int) + s.ppsOffset → s.get TIME_STATE_STATE = tbFreerun → ∃ t, exec (.ppsInEdge falling) s = .next t ∧
        (t.time.modTime : Int) = s.time.modTime + s.ppsOffset ∧ t.time.lastSrc = s.clock ∧ t.get TIME_STATE_STATE = tbLocking ∧
        SameRegs [TIME_STATE, TIME_OFFSET] s t ∧ SameMem s t)) ∧
    (∀ s : State, s.on PPS_CTL_OUT_EN = true → (s.taiOk = true ∨ s.on PPS_CTL_OUT_ALWAYS = true) →
      ∃ t, exec .ppsOutPulse s = .next t ∧ t.clock = max s.clock s.secondCycle ∧
        t.time.ppsEnd = some (t.clock + 15000 * s.get PPS_CTL_OUT_WIDTH) ∧ SameRegs [] s t ∧ SameMem s t) ∧
    (∀ s : State, ∃ t, exec .optimeMirror s = .next t ∧ t.time.opMirror = t.time.opTime ∧
      t.clock = max s.clock (s.time.opMirrorAt + 60 * cyclesPerSec) ∧ SameRegs [] s t ∧ SameMem s t) ∧
    ∀ (s : State) (d : Int), (s.on TIME_CTL_RUN = true → (s.servoPhase d).time.modTime = s.time.modTime ∧
        (s.servoPhase d).time.slew.natAbs ≤ 2 * s.get TIME_SLEWMAX_PPM) ∧
      (s.on TIME_CTL_RUN = false → 0 ≤ (s.time.modTime : Int) + d →
        ((s.servoPhase d).time.modTime : Int) = s.time.modTime + d ∧ (s.servoPhase d).time.slew = 0)

/-- PTP_MESSAGE_RX, PTP_DEMOTE_EXPIRY, PTP_SYNC_TX and PDELAY_REQ_TX complete: malformed messages are counted, out-of-
range ones demote their partner, demoted partners are not used. On a PTP port that is up: a malformed message counts
in PTP_MALFORMED; a message of a demoted partner changes nothing; a correction, path delay or domain out of range
demotes the partner, which is counted and raises PTP_DEMOTE; other messages have their use. The end of a demotion
takes the oldest off the list. Sync and peer-delay request are sent on the ports that run PTP; their octets are free
values. (R217, R218, R219) -/
def Obligations.PtpRows : Prop :=
  (∀ (s : State) (ident port : Nat) (m : PtpMsg), s.ptpPorts.contains port = true → s.on (PORT_CTL_EN port) = true →
      s.on (PORT_STATUS_LINK port) = true →
      exec (.ptpMessageRx ident port .malformed) s = .next (s.inc PTP_MALFORMED_COUNT) ∧
      ((∀ u, (⟨ident, port⟩, u) ∉ s.data.demoted) → s.get TIME_CTL_SRC = srcPtp → s.data.master = some ⟨ident, port⟩ →
        port = s.get TIME_CTL_PTP_PORT → s.get PTP_CTL_TYPE ≠ ptTC → ∀ c o, s.badCorrection c = false →
        ∃ t, exec (.ptpMessageRx ident port (.sync true c o)) s = .next t ∧ t.time.lastSrc = s.clock ∧ SameRegs [] s t ∧ SameMem s t) ∧
      ((∀ u, (⟨ident, port⟩, u) ∉ s.data.demoted) → s.calm SRC_PTP_DEMOTE → ∀ c o two, s.badCorrection c = true →
        ∃ t, exec (.ptpMessageRx ident port (.sync two c o)) s = .next t ∧ SameMem s t ∧
          t.get PTP_DEMOTED_COUNT = (s.inc PTP_DEMOTED_COUNT).get PTP_DEMOTED_COUNT ∧
          (⟨ident, port⟩, s.clock + cyclesPerSec * s.get PTP_DEMOTE_S_S) ∈ t.data.demoted) ∧
      (m ≠ .malformed → (∃ u, (⟨ident, port⟩, u) ∈ s.data.demoted) → exec (.ptpMessageRx ident port m) s = .next s) ∧
      ((∀ u, (⟨ident, port⟩, u) ∉ s.data.demoted) → exec (.ptpMessageRx ident port m) s = .next (s.ptpUse ⟨ident, port⟩ m))) ∧
    (∀ (s : State) (q : Partner) (c o : Int) (two : Bool), (c < 0 ∨ (s.get PTP_CORRMAX_NS : Int) < c) →
      s.ptpUse q (.sync two c o) = s.ptpDemote q ∧ s.ptpUse q (.followUp c o) = s.ptpDemote q) ∧
    (∀ (s : State) (q : Partner) (m : Int), ((s.get PTP_PDELAYMAX_NS : Int) < m → s.ptpUse q (.pdelay m) = s.ptpDemote q) ∧
      (0 ≤ m → m ≤ s.get PTP_PDELAYMAX_NS → s.ptpUse q (.pdelay m) = s)) ∧
    (∀ (s : State) (e : Partner × Nat) (rest : List (Partner × Nat)), s.data.demoted = e :: rest →
      ∃ t, exec .ptpDemoteExpiry s = .next t ∧ t.data.demoted = rest ∧ t.clock = max s.clock e.2 ∧ SameRegs [] s t ∧ SameMem s t) ∧
    (∀ (s : State) (n : Nat), n < 4 → s.masterPorts.contains n = true → s.on (PORT_CTL_EN n) = true → s.on (PORT_STATUS_LINK n) = true →
      ∃ t f, exec (.ptpSyncTx n) s = .next t ∧ tget t.data.sent n = some (f, none) ∧ SameRegs [(PORT_TX_FRAMES_COUNT n).off] s t ∧ SameMem s t) ∧
    ∀ (s : State) (n : Nat), n < 4 → s.ptpPorts.contains n = true → s.on (PORT_CTL_EN n) = true → s.on (PORT_STATUS_LINK n) = true →
      ∃ t f, exec (.pdelayReqTx n) s = .next t ∧ tget t.data.sent n = some (f, none) ∧ SameRegs [(PORT_TX_FRAMES_COUNT n).off] s t ∧ SameMem s t

/-- A link change sets PORT_STATUS.LINK and toggles the request line; a link is up only where its partner is heard, the
sideband inputs are clear and the port is enabled; a write of PORT_CTL takes the link down. A frame on a port that
is up is refused, in order, for want of buffer room, for its size outside 64 to 1,536 octets, for its FCS, each
counted and nothing kept; else it is counted and taken. A write of PAIR_CTL takes both links down. A supervision
timeout marks the pair lost, a supervision frame goes out on both ports every 2,000 ms, the oldest duplicate entry
of a pair goes after 400 ms. (R210, R211, R212, R213, R215, R216, R259) -/
def Obligations.PortRows : Prop :=
  (∀ (s : State) (n : Nat) (l : LinkSense), n < 4 → l.up = true → sfpClear l.pins = true → s.on (PORT_CTL_EN n) = true →
      s.on (PORT_STATUS_LINK n) = false →
      ∃ t, exec (.portLinkChange n l) s = .next t ∧ t.on (PORT_STATUS_LINK n) = true ∧ tget t.data.sfp n = some l.pins ∧
        t.on (INTC_SRC_LEVEL (104 + n)) = !(s.on (INTC_SRC_LEVEL (104 + n))) ∧ SameMem s t ∧
        SameRegs [PORT_STATUS n, INTC_SRC (104 + n)] s t) ∧
    (∀ (s : State) (n : Nat) (l : LinkSense), n < 4 → (l.up = false ∨ sfpClear l.pins = false ∨ s.on (PORT_CTL_EN n) = false) →
      s.on (PORT_STATUS_LINK n) = true → s.calm (SRC_PORT_LINK n) →
      ∃ t, exec (.portLinkChange n l) s = .next t ∧ t.on (PORT_STATUS_LINK n) = false ∧ tget t.data.sfp n = some l.pins ∧
        t.on (INTC_SRC_LEVEL (104 + n)) = !(s.on (INTC_SRC_LEVEL (104 + n))) ∧ SameMem s t) ∧
    (∀ (s : State) (n : Nat) (v : Word32), n < 4 → exec (.portCtlWrite n v) s = .next (s.portCtlWrite n v) ∧
      (wordField v 1 0 ≤ 2 → wordField v 7 6 ≤ 2 → (wordField v 7 6 = 2 → wordField v 1 0 = 0) → s.calm (SRC_PORT_LINK n) →
        ∃ t, exec (.portCtlWrite n v) s = .next t ∧ t.get (PORT_CTL_MODE n) = wordField v 1 0 ∧
          t.get (PORT_CTL_FEC n) = wordField v 7 6 ∧ t.get (PORT_STATUS_MODE n) = wordField v 1 0 ∧
          t.on (PORT_STATUS_LINK n) = false ∧ SameMem s t)) ∧
    (∀ (s : State) (n : Nat) (f : WireFrame), n < 4 → s.on (PORT_CTL_EN n) = true → s.on (PORT_STATUS_LINK n) = true →
      (s.bufRoom f.octets.length = false → exec (.portFrameRx n f) s = .next (s.inc (PORT_RX_NOBUF_COUNT n))) ∧
      (s.bufRoom f.octets.length = true → (f.wireLen < 64 ∨ 1536 < f.wireLen) →
        exec (.portFrameRx n f) s = .next (s.inc (PORT_RX_SIZE_COUNT n))) ∧
      (s.bufRoom f.octets.length = true → 64 ≤ f.wireLen → f.wireLen ≤ 1536 → f.fcsOk = false →
        exec (.portFrameRx n f) s = .next (s.inc (PORT_RX_FCSERR_COUNT n))) ∧
      (s.bufRoom f.octets.length = true → 64 ≤ f.wireLen → f.wireLen ≤ 1536 → f.fcsOk = true →
        exec (.portFrameRx n f) s = .next ((s.inc64 (PORT_RX_FRAMES_LO n) (PORT_RX_FRAMES_HI n) 1).portTake n f) ∧
        (s.get (PAIR_CTL_MODE (n / 2)) = pmNONE → f.view.red = none → s.dupHas (s.dupKey n f.octets f.view) = false →
          ∃ t g, exec (.portFrameRx n f) s = .next t ∧ g ∈ t.data.frames ∧ g.src = n ∧ g.octets = f.octets ∧ g.view = f.view ∧
            g.stage = .received ∧ SameMem s t))) ∧
    (∀ (s : State) (k : Nat) (v : Word32), k < 2 → exec (.pairCtlWrite k v) s = .next (s.pairCtlWrite k v) ∧
      (wordField v 1 0 ≤ 2 → s.calm (SRC_PORT_LINK (2 * k)) → s.calm (SRC_PORT_LINK (2 * k + 1)) →
        ∃ t, exec (.pairCtlWrite k v) s = .next t ∧ t.get (PAIR_CTL_MODE k) = wordField v 1 0 ∧
          t.on (PORT_STATUS_LINK (2 * k)) = false ∧ t.on (PORT_STATUS_LINK (2 * k + 1)) = false ∧ SameMem s t)) ∧
    (∀ (s : State) (k : Nat), k < 2 → s.get (PAIR_CTL_MODE k) ≠ pmNONE → (tget s.data.pairRx k).isSome = true →
      ∃ t, exec (.pairSupvTimeout k) s = .next t ∧ k ∈ t.data.supvLost ∧ t.on (INTC_SRC_LEVEL 115) = true ∧
        SameRegs [INTC_SRC 115] s t ∧ SameMem s t) ∧
    (∀ (s : State) (k : Nat), k < 2 → s.get (PAIR_CTL_MODE k) ≠ pmNONE → ∃ t, exec (.prpSupervisionTx k) s = .next t ∧
      t.clock = max s.clock (tgetD s.data.pairTx k 0 + 2000 * cyclesPerMs) ∧ tget t.data.pairTx k = some t.clock ∧
      tgetD t.data.pairSeq k 0 = (tgetD s.data.pairSeq k 0 + 1) % 65536 ∧ SameMem s t ∧
      SameRegs [(PORT_TX_FRAMES_COUNT (2 * k)).off, (PORT_TX_FRAMES_COUNT (2 * k + 1)).off] s t) ∧
    ∀ (s : State) (k : Nat) (d : DupEntry), s.data.dups.find? (fun d => decide (d.pair = k)) = some d →
      ∃ t, exec (.dupEntryForget k) s = .next t ∧ t.data.dups = s.data.dups.erase d ∧
        t.clock = max s.clock (d.at_ + 400 * cyclesPerMs) ∧ SameRegs [] s t ∧ SameMem s t

/-- For every highest value, window and modulus: if the window function accepts a value, then with the highest value and
window it leaves the same value is REPLAY, and so is every value more than 63 behind the highest. Acceptance by the
replay step of an SV entry that has started records the value. (R242, R243, R246) -/
def Obligations.ReplayWindowNeverAcceptsTwice : Prop :=
  (∀ (hi win x m hi' win' : Nat), 2 ≤ m → m ≤ 2 ^ 32 → hi < m → x < m → win < 2 ^ 64 →
      window hi win x m = some (hi', win') →
      hi' < m ∧ win' < 2 ^ 64 ∧ window hi' win' x m = none ∧
      ∀ y, y < m → ceilDiv m 2 ≤ fwd m y hi' → 63 < m - fwd m y hi' → window hi' win' y m = none) ∧
    (∀ (hi win x m : Nat), 0 < fwd m x hi → fwd m x hi < ceilDiv m 2 → ∃ w, window hi win x m = some (x, w)) ∧
    ∀ (e e' : TableEntry) (v : MsgView), 16 ≤ e.length → eon e eSTARTED = true → eget e eTYPE = tyRSV → v.seqNo < 2 ^ 32 →
      sequenceStep e v = some e' → sequenceStep e' v = none

/-- FRAME_CLASSIFY classifies the earliest received frame. HOT_CACHE_FILL gives a frame that missed its entry, drops it
where the entry is no longer valid. BOW_VERIFY drops a frame of a deleted entry, fails a malformed one and one
without the extension, and checks the rest on the lane. REPLAY_STEP acts on the earliest frame of its entry. A
failed known-answer test isolates its lane, raises its source and its request line. (R221, R224, R226, R227, R236,
R237, R238, R241, R242, R248) -/
def Obligations.PathRows : Prop :=
  (∀ (s : State) (f : Frame), s.data.frames.find? (fun g => decide (g.stage = .received)) = some f →
      exec .frameClassify s = .next (s.classify f) ∧
      (s.classOf f.octets f.view = .frag → ∃ t, exec .frameClassify s = .next t ∧
        t.get CLASS_FRAG_COUNT = (s.inc CLASS_FRAG_COUNT).get CLASS_FRAG_COUNT ∧
        t.data.frames = s.data.frames.filter (fun g => decide (g.id ≠ f.id)) ∧ SameMem s t) ∧
      (∀ c i, s.classOf f.octets f.view = c → (c = .goose ∨ c = .sv ∨ c = .rgoose ∨ c = .rsv) →
        viewKeyed f.view (c.type?.getD 0) = true → s.findEntry (s.frameKey (c.type?.getD 0) f.octets f.view) = some i →
        s.hotWay i = none → ∃ t g, exec .frameClassify s = .next t ∧ g ∈ t.data.frames ∧ g.id = f.id ∧ g.stage = .fill i ∧
          SameMem s t ∧ SameRegs [ASSOC_MISS_LO, ASSOC_MISS_HI] s t)) ∧
    (∀ (s : State) (id i : Nat) (f : Frame) (env : FabEnv), (s.disturb env).data.frames.find? (fun g => decide (g.id = id)) = some f →
      f.stage = .fill i →
      ((s.disturb env).entryValid i = true → exec (.hotCacheFill id env) s = .next ((s.disturb env).fillFor f i) ∧
        ∀ w s1 img s2, (s.disturb env).hotWay i = none → (s.disturb env).wayFor i = some (w, s1) →
          s1.dramRead (entryAddr i) 128 = (some img, s2) →
          ∃ t, exec (.hotCacheFill id env) s = .next t ∧ (t.hotWay i).isSome = true) ∧
      ((s.disturb env).entryValid i = false → exec (.hotCacheFill id env) s = .next ((s.disturb env).frameDrop id))) ∧
    (∀ (s : State) (id lane i : Nat) (f : Frame), s.data.frames.find? (fun g => decide (g.id = id)) = some f → f.stage = .matched i →
      s.laneUp lane = true →
      (s.entryValid i = false → exec (.bowVerify id lane) s = .next (s.frameDrop id)) ∧
      ∀ u, s.entryValid i = true → s.entryRead i = (true, u) →
      (frameMalformed (u.entry i) f.view = true → exec (.bowVerify id lane) s = .next (u.frameFail f i stMALFORMED 0)) ∧
      (frameMalformed (u.entry i) f.view = false → f.view.ext = none →
        exec (.bowVerify id lane) s = .next (u.frameFail f i stNO_TAG 0)) ∧
      (frameMalformed (u.entry i) f.view = false → ∀ x, f.view.ext = some x →
        exec (.bowVerify id lane) s = .next (u.laneCheck f i lane x).settle ∧
        ∀ slot epoch b v, x.tag.length = eget (u.entry i) eTAGLEN → selectKey (u.entry i) x.keyId = some (slot, epoch, b) →
          u.laneKey slot epoch (eget (u.entry i) eALG) useVERIFY = true → u.pegHere slot = true → u.pegUse slot = (true, v) →
          Config.cryptoOk cyFrameTag [natToBytes 1 (eget (u.entry i) eALG), (u.peg slot).key, x.body, x.tag] = true →
          ∃ t g, exec (.bowVerify id lane) s = .next t ∧ g ∈ t.data.frames ∧ g.id = id ∧ g.stage = .verified i epoch b)) ∧
    (∀ (s : State) (f : Frame) (i lane : Nat) (x : ExtView), (x.tag.length ≠ eget (s.entry i) eTAGLEN →
        s.laneCheck f i lane x = s.frameFail f i stTAG_LENGTH 0) ∧
      (x.tag.length = eget (s.entry i) eTAGLEN → selectKey (s.entry i) x.keyId = none →
        s.laneCheck f i lane x = s.frameFail f i stKEY_ABSENT 0)) ∧
    (∀ (s : State) (id i epoch : Nat) (b : Bool) (f : Frame), s.data.frames.find? (fun g => decide (g.id = id)) = some f →
      f.stage = .verified i epoch b →
      (s.data.frames.find? (fun g => decide (g.stage.entry? = some i))).map (fun g => g.id) = some id →
      (s.entryValid i = false → exec (.replayStep id) s = .next (s.frameDrop id)) ∧
      (s.entryValid i = true → ∀ u, s.entryRead i = (true, u) → exec (.replayStep id) s = .next (u.replayFrame f i epoch b)) ∧
      ∃ t, exec (.replayStep id) s = .next t ∧ ∀ g, g ∈ t.data.frames → g.id ≠ id) ∧
    ∀ (s : State) (lane : Nat), lane < 8 → bitOf (s.get BOW_LANE_STATUS_ISOLATED) lane = false →
      (∃ t, exec (.bowKatRun lane true) s = .next t ∧ SameRegs [] s t ∧ SameMem s t ∧ SRC_BOW_KAT lane ∉ t.flt.inReset) ∧
      exec (.bowKatRun lane false) s = .next (((({ s with flt := { s.flt with
          inReset := s.flt.inReset.filter (· ≠ SRC_BOW_KAT lane) } } : State).put BOW_LANE_STATUS_ISOLATED
        (s.get BOW_LANE_STATUS_ISOLATED ||| 2 ^ lane)).setIrq 114).raise (SRC_BOW_KAT lane) lane)

/-- ASSOC_INSERT, ASSOC_FIND, ASSOC_READ, ASSOC_UPDATE, ASSOC_DELETE, ASSOC_RESETSEQ, ASSOC_CLRCNT, ASSOC_CMD_UNASSIGNED
and SUPERVISION_SWEEP complete with their answers. With no command under way each of the seven commands carries out
its operation: INSERT of a matching entry ends DUPLICATE with its index, of an image with a refused field BAD_PARAM
with the word, without a place TABLE_FULL, else OK with the index; FIND answers OK with the index, or NO_ASSOC;
READ, UPDATE, RESETSEQ and CLRCNT of an entry that can be brought into the hot cache end OK (UPDATE also BAD_PARAM),
DELETE of a valid one OK with the count one less, and all of them NO_ASSOC for an invalid one; RESETSEQ zeroes words
6 to 8, CLRCNT words 9 to 14. An unassigned OP ends BAD_OPCODE. Ending clears BUSY, sets STATUS and WORD and raises
the command-done source. A sweep lasts until SUPSWEEP ms after the last and checks the entries of the hot cache. (An
entry whose line delivers a data error ends NO_ASSOC by log entry 122, the model's choice.) (R226, R229, R230, R231,
R232, R233, R234, R235) -/
def Obligations.AssocRows : Prop :=
  (∀ (s : State) (op : Nat), op < 16 → (op = 0 ∨ 8 ≤ op) → s.on ASSOC_CMD_RESULT_BUSY = false →
      ∃ t, exec (.assocCmdUnassigned op) s = .next t ∧ t = s.assocEnd stBAD_OPCODE 0 ∧
        t.get ASSOC_CMD_RESULT_STATUS = stBAD_OPCODE ∧ t.get (INTC_SRC_LEVEL 109) = 1 ∧
        SameRegs [ASSOC_CMD_RESULT, INTC_SRC 109] s t ∧ SameMem s t) ∧
    (∀ (s : State) (c : Instr), s.on ASSOC_CMD_RESULT_BUSY = false → s.entryValid (s.get ASSOC_CMD_INDEX_INDEX) = false →
      c ∈ [Instr.assocRead, .assocUpdate, .assocDelete, .assocResetseq, .assocClrcnt] → ∃ t, exec c s = .next t ∧
        t.get ASSOC_CMD_RESULT_STATUS = stNO_ASSOC ∧ SameRegs [ASSOC_CMD_RESULT, INTC_SRC 109] s t ∧ SameMem s t) ∧
    (∀ s : State, s.on ASSOC_CMD_RESULT_BUSY = false → ∃ t, exec .assocFind s = .next t ∧
      SameRegs [ASSOC_CMD_INDEX, ASSOC_CMD_RESULT, INTC_SRC 109] s t ∧ SameMem s t ∧ t.get (INTC_SRC_LEVEL 109) = 1 ∧
      (∀ i, s.findEntry (s.stageKey s.stageImage) = some i →
        t.get ASSOC_CMD_RESULT_STATUS = stOK ∧ t.get ASSOC_CMD_INDEX_INDEX = i % 2 ^ 20) ∧
      (s.findEntry (s.stageKey s.stageImage) = none →
        t.get ASSOC_CMD_RESULT_STATUS = stNO_ASSOC ∧ t.get ASSOC_CMD_INDEX_INDEX = s.get ASSOC_CMD_INDEX_INDEX)) ∧
    (∀ (s : State) (b : Option Nat), s.on ASSOC_CMD_RESULT_BUSY = false →
      b = s.imageBad s.stageImage (eon s.stageImage ePIN && s.pinFull (s.mix (s.stageKey s.stageImage)).2.2) →
      ∃ t, exec .assocInsert s = .next t ∧ t.get ASSOC_CMD_RESULT_BUSY = 0 ∧ t.get (INTC_SRC_LEVEL 109) = 1 ∧
        (∀ w, b = some w → t.get ASSOC_CMD_RESULT_STATUS = stBAD_PARAM ∧ t.get ASSOC_CMD_RESULT_WORD = w % 16 ∧
          SameRegs [ASSOC_CMD_RESULT, INTC_SRC 109] s t ∧ SameMem s t) ∧
        (∀ i, b = none → s.findEntry (s.stageKey s.stageImage) = some i →
          t.get ASSOC_CMD_RESULT_STATUS = stDUPLICATE ∧ t.get ASSOC_CMD_INDEX_INDEX = i % 2 ^ 20 ∧ SameMem s t) ∧
        (∀ s1, b = none → s.findEntry (s.stageKey s.stageImage) = none → s.placeEntry (s.stageKey s.stageImage) = (none, s1) →
          t = s1.assocEnd stTABLE_FULL 0 ∧ t.get ASSOC_CMD_RESULT_STATUS = stTABLE_FULL) ∧
        (∀ i s1, b = none → s.findEntry (s.stageKey s.stageImage) = none → s.placeEntry (s.stageKey s.stageImage) = (some i, s1) →
          t.get ASSOC_CMD_RESULT_STATUS = stOK ∧ t.get ASSOC_CMD_INDEX_INDEX = i % 2 ^ 20)) ∧
    (∀ (s u : State) (i : Nat), s.on ASSOC_CMD_RESULT_BUSY = false → i = s.get ASSOC_CMD_INDEX_INDEX → s.entryValid i = true →
      s.bring i = (true, u) →
      (∃ t, exec .assocRead s = .next t ∧ t = (u.stagePut 0 (u.entry i)).assocEnd stOK 0 ∧
        t.get ASSOC_CMD_RESULT_STATUS = stOK ∧ t.stageImage = u.entry i) ∧
      (∃ t, exec .assocResetseq s = .next t ∧ t.get ASSOC_CMD_RESULT_STATUS = stOK ∧
        t = (u.setEntry i ((((u.entry i).set 6 0).set 7 0).set 8 0)).assocEnd stOK 0) ∧
      (∃ t, exec .assocClrcnt s = .next t ∧ t.get ASSOC_CMD_RESULT_STATUS = stOK ∧
        t = (u.setEntry i ((u.entry i).take 9 ++ [0, 0, 0, 0, 0, 0] ++ (u.entry i).drop 15)).assocEnd stOK 0) ∧
      ∃ t, exec .assocUpdate s = .next t ∧ t = u.assocUpdate i ∧
        (t.get ASSOC_CMD_RESULT_STATUS = stOK ∨ t.get ASSOC_CMD_RESULT_STATUS = stBAD_PARAM)) ∧
    (∀ (s : State) (i : Nat), s.on ASSOC_CMD_RESULT_BUSY = false → i = s.get ASSOC_CMD_INDEX_INDEX → s.entryValid i = true →
      ∃ t, exec .assocDelete s = .next t ∧ t.get ASSOC_CMD_RESULT_STATUS = stOK ∧ t = s.assocDelete i ∧
        t.get ASSOC_COUNT_COUNT = s.get ASSOC_COUNT_COUNT - 1) ∧
    (∀ (s u : State) (i : Nat) (op : Nat), s.on ASSOC_CMD_RESULT_BUSY = false → i = s.get ASSOC_CMD_INDEX_INDEX →
      s.entryValid i = true → s.bring i = (false, u) → (op = 3 ∨ op = 4 ∨ op = 6 ∨ op = 7) →
      s.assocGo op = u.assocEnd stNO_ASSOC 0) ∧
    (∀ (s : State) (st w : Nat), st < 256 → w < 16 → (s.assocEnd st w).get ASSOC_CMD_RESULT_STATUS = st ∧
      (s.assocEnd st w).get ASSOC_CMD_RESULT_WORD = w ∧ (s.assocEnd st w).get ASSOC_CMD_RESULT_BUSY = 0 ∧
      (s.assocEnd st w).get (INTC_SRC_LEVEL 109) = 1 ∧ SameRegs [ASSOC_CMD_RESULT, INTC_SRC 109] s (s.assocEnd st w) ∧
      SameMem s (s.assocEnd st w)) ∧
    (∀ s : State, ∃ t, exec .supervisionSweep s = .next t ∧
      t.clock = max s.clock (s.data.supAt + s.get ASSOC_CTL_SUPSWEEP * 1500000) ∧ t.data.supAt = t.clock) ∧
    (∀ (s : State) (i : Nat), s.hotWay i = none → eon (s.entry i) eV = true → eget (s.entry i) eROLE = rlSUBSCRIBE →
      eon (s.entry i) eSTARTED = true → eon (s.entry i) eLOST = false → s.expired (s.entry i) = true → i < 2 ^ 20 →
      (s.supCheck i).get ASSOC_SUPLOST_IDX_INDEX = i ∧ (s.supCheck i).get (INTC_SRC_LEVEL 110) = 1) ∧
    ∀ (a : Nat) (f g : EFld) (e : TableEntry), e.length = 16 → f.word < 16 → f.lo ≤ f.hi → f.hi < 64 →
      eget (eput e f a) f = a % 2 ^ (f.hi + 1 - f.lo) ∧ (g.word ≠ f.word → eget (eput e f a) g = eget e g)

/-- A held frame that has seen HOLD_TICKS edges leaves its slot by HOLD_DEFAULT. A PENDING request listed MAXTICKS times
ends TIMEOUT: its slot is free and the timeout counted. A bad control word raises the alarm and locks release. A
RELEASING request, or one of a HOLD = 0 entry, is signed and sent on a lane in service: with a key in place and not
spent, its slot is free and it counts as released. Two RELEASE verdicts make a request RELEASING, two DENY end it
INTERLOCK_DENY, any other pair TREMOLO_MISMATCH. REL_CTL is not written while RUN = 1 unless its engines are held,
and never with FE_A equal to FE_B. (R250, R251, R317, R318, R319, R322, R323) -/
def Obligations.ReleaseRows : Prop :=
  (∀ (s : State) (k : Nat) (h : Held), tget s.data.held k = some h → s.get ASSOC_CTL_HOLD_TICKS ≤ h.edges →
      tget (s.heldFree k).data.held k = none ∧
      ∃ t, exec (.holdExpiry k) s = .next t ∧ tget t.data.held k = none ∧
        t = (if (s.heldFree k).entryValid h.entry then (s.heldFree k).holdDefault h.deliv else s.heldFree k)) ∧
    (∀ (s : State) (k lane w : Nat) (r : RelReq), tget s.data.rel k = some r → r.badWord = some w →
      (∃ t, exec (.requestTimeout k) s = .next t ∧ t = s.relAlarm k w ∧ t.on REL_STATUS_LOCKED = true) ∧
      ∃ t, exec (.releaseSignSend k lane) s = .next t ∧ t = s.relAlarm k w ∧ t.on REL_STATUS_LOCKED = true) ∧
    (∀ (s : State) (k : Nat) (r : RelReq), tget s.data.rel k = some r → r.badWord = none → r.stateW = cwPENDING →
      r.hold = true → s.get REL_CTL_MAXTICKS ≤ r.presented → ∃ t, exec (.requestTimeout k) s = .next t ∧
        t = s.relEnd k stTIMEOUT 0 ∧ tget t.data.rel k = none ∧
        t.get REL_TIMEOUT_COUNT = (s.inc REL_TIMEOUT_COUNT).get REL_TIMEOUT_COUNT) ∧
    (∀ (s : State) (k lane : Nat) (r : RelReq), tget s.data.rel k = some r → r.badWord = none → s.laneUp lane = true →
      (r.stateW = cwRELEASING ∨ (r.hold = false ∧ r.stateW = cwPENDING)) →
      exec (.releaseSignSend k lane) s = .next (s.signSend k lane r).settle) ∧
    (∀ (s u : State) (k lane slot epoch : Nat) (r : RelReq), tget s.data.rel k = some r → r.badWord = none →
      s.laneUp lane = true → ((r.stateW = cwRELEASING ∧ r.va = cwRELEASE ∧ r.vb = cwRELEASE) ∨
        (r.hold = false ∧ r.stateW = cwPENDING)) →
      s.entryValid r.assoc = true → eget (s.entry r.assoc) eROLE = rlPUBLISH →
      currentKey (s.entry r.assoc) = some (slot, epoch) → s.laneKey slot epoch (eget (s.entry r.assoc) eALG) useSIGN = true →
      s.pegHere slot = true → s.pegUse slot = (true, u) → s.flt.zeroizeDue = false →
      ∃ t, exec (.releaseSignSend k lane) s = .next t ∧ tget t.data.rel k = none ∧
        t.get REL_RELEASED_COUNT = (s.inc REL_RELEASED_COUNT).get REL_RELEASED_COUNT) ∧
    (∀ (s : State) (k : Nat) (r : RelReq),
      (r.va = cwRELEASE → r.vb = cwRELEASE → s.relDecide k r = s.relWords k cwRELEASING r.va r.vb) ∧
      (r.va = cwDENY → r.vb = cwDENY → s.relDecide k r = s.relEnd k stINTERLOCK_DENY 0) ∧
      (¬ (r.va = cwRELEASE ∧ r.vb = cwRELEASE) → ¬ (r.va = cwDENY ∧ r.vb = cwDENY) →
        s.relDecide k r = (s.relEnd k stTREMOLO_MISMATCH 0).raise SRC_TREMOLO 0)) ∧
    ∀ (s : State) (v : Word32),
      (s.on TIME_CTL_RUN = true → ([s.get REL_CTL_FE_A, s.get REL_CTL_FE_B, wordField v 4 0, wordField v 12 8].all
          fun n => s.on (FE_CTL_HELD n)) = false → ∃ t, exec (.relCtlWrite v) s = .next t ∧ t.on REL_STATUS_CFGREJ = true ∧
        SameRegs [REL_STATUS] s t ∧ SameMem s t) ∧
      (s.on TIME_CTL_RUN = false → wordField v 4 0 ≠ wordField v 12 8 → wordField v 19 16 ≠ 0 → ∃ t, exec (.relCtlWrite v) s = .next t ∧
        t.get REL_CTL_FE_A = wordField v 4 0 ∧ t.get REL_CTL_FE_B = wordField v 12 8 ∧ SameRegs [REL_CTL] s t ∧ SameMem s t) ∧
      (s.on TIME_CTL_RUN = false → wordField v 4 0 = wordField v 12 8 →
        exec (.relCtlWrite v) s = .next ((s.regStore REL_CTL (wordSet (wordSet v 4 0 (s.get REL_CTL_FE_A)) 12 8
          (s.get REL_CTL_FE_B))).raise (cfgSource REL_CTL) 0))

/-- Whatever the state: if a request of a HOLD = 1 entry does not hold RELEASING in its state word and RELEASE in both
verdict words, then RELEASE_SIGN_SEND for its slot on any lane leaves what was last sent on every port as it was.
(R313, R317, R319) -/
def Obligations.NoReleaseWithoutBothVerdicts : Prop :=
  ∀ (s t : State) (k lane : Nat) (r : RelReq), tget s.data.rel k = some r → r.hold = true →
    ¬ (r.stateW = cwRELEASING ∧ r.va = cwRELEASE ∧ r.vb = cwRELEASE) →
    exec (.releaseSignSend k lane) s = .next t → ∀ n, tget t.data.sent n = tget s.data.sent n

/-- Where memory requests pass, a doorbell at offset 0 of a running queue that is neither backward nor beyond the queue
posts PROD; a backward one stops the queue with DB_BACK, one beyond its size with DB_RANGE; one to a queue that is
not enabled, stopped or unowned, or of another width or offset, is ignored and counted. The next posted slot is
held. The arbiter's queue delivers its first item into the held slot: with room for it, CONS moves on, the item
leaves and the host holds its octets. A fetched submission moves nextFetch and stands in the queue; a finished one
completes. A failed host read stops its queue: STOPPED, the error, nothing waiting. QUEUE_CFG enables a queue with
its counters 0, or changes no SIZE, DIR or VEC of one that runs. (A 64-bit doorbell is two of 32 bits by log entry
117, the model's choice.) (R271, R273, R274, R275, R277, R278, R282, R285, R286, R287, R300, R608) -/
def Obligations.QueueRows : Prop :=
  (∀ (s : State) (q v : Nat), q < queueCount → v < 2 ^ 32 → s.hostLink = true →
      ((s.on (QUEUE_CFG_EN q) = false ∨ s.on (QUEUE_STATUS_STOPPED q) = true ∨ (s.queueOwner q).isNone = true) →
        exec (.doorbellWrite q 0 .w32 v) s = .next (s.inc BRIDGE_DBIGN_COUNT)) ∧
      (s.on (QUEUE_CFG_EN q) = true → s.on (QUEUE_STATUS_STOPPED q) = false → (s.queueOwner q).isNone = false →
        (2 ^ 31 ≤ cdiff v (s.get (QUEUE_PROD_COUNT q)) → exec (.doorbellWrite q 0 .w32 v) s = .next (s.queueStop q qeDbBack)) ∧
        (cdiff v (s.get (QUEUE_PROD_COUNT q)) < 2 ^ 31 → s.get (QUEUE_CFG_SIZE q) < cdiff v (s.get (QUEUE_CONS_COUNT q)) →
          exec (.doorbellWrite q 0 .w32 v) s = .next (s.queueStop q qeDbRange)) ∧
        (cdiff v (s.get (QUEUE_PROD_COUNT q)) < 2 ^ 31 → cdiff v (s.get (QUEUE_CONS_COUNT q)) ≤ s.get (QUEUE_CFG_SIZE q) →
          ∃ t, exec (.doorbellWrite q 0 .w32 v) s = .next t ∧ t.get (QUEUE_PROD_COUNT q) = v ∧ SameMem s t ∧
            SameRegs [QUEUE_PROD q, INTC_SRC 113] s t))) ∧
    (∀ (s : State) (q off v : Nat) (w : Width), q < queueCount → s.hostLink = true →
      (w = .w8 ∨ w = .w16 ∨ (w = .w32 ∧ off ≠ 0)) → exec (.doorbellWrite q off w v) s = .next (s.inc BRIDGE_DBIGN_COUNT)) ∧
    (∀ (s : State) (q : Nat), q < queueCount → s.on (QUEUE_CFG_EN q) = true → s.on (QUEUE_STATUS_STOPPED q) = false →
      s.on (QUEUE_CFG_DIR q) = false → (s.queueOwner q).isSome = true → (s.queue q).slot = none → s.hostLink = true →
      s.get (QUEUE_PROD_COUNT q) ≠ s.get (QUEUE_CONS_COUNT q) →
      ∃ t a l, exec (.deliverySlotFetch q) s = .next t ∧ (t.queue q).slot = some (a, l) ∧
        a = bytesToNat ((s.hostRead (s.queueSlot q (s.get (QUEUE_CONS_COUNT q))) 16).take 8) ∧
        (t.queue q).items = (s.queue q).items ∧ SameRegs [] s t ∧ SameMem s t) ∧
    (∀ (s s1 : State) (q addr len : Nat) (i : Item) (o : Bytes) (rest : List Item), s.takeTurn false = some (q, s1) →
      (s1.queue q).items = i :: rest → (s1.queue q).slot = some (addr, len) →
      (addr % 64 = 0 → i.octets = some o → o.length ≤ len → q < queueCount → ∃ t, exec .queueDeliver s = .next t ∧
        t.get (QUEUE_CONS_COUNT q) = (s.get (QUEUE_CONS_COUNT q) + 1) % 2 ^ 32 ∧ (t.queue q).items = rest ∧
        (t.queue q).slot = none) ∧
      exec .queueDeliver s = .next (s1.deliverItem q i addr len)) ∧
    (∀ (s s1 : State) (q w1 : Nat) (b : Bytes), s.takeTurn true = some (q, s1) →
      b = s1.hostRead (s1.queueSlot q (s1.queue q).nextFetch) 32 → w1 = bytesToNat ((b.drop 8).take 8) →
      exec .submissionFetch s = .next ((s1.setQueue q { (s1.queue q) with
        nextFetch := cmod ((s1.queue q).nextFetch + 1),
        subs := (s1.queue q).subs ++ [⟨(s1.queue q).nextFetch, bytesToNat ((b.drop 16).take 8), false, .working⟩] }).subRun q
          (s1.queue q).nextFetch (bytesToNat ((b.drop 0).take 8)) w1).settle ∧
      (3 ≤ w1 / 2 ^ 12 % 16 → s.flt.zeroizeDue = false → ∃ t, exec .submissionFetch s = .next t ∧
        (t.queue q).nextFetch = cmod ((s1.queue q).nextFetch + 1) ∧ SameMem s t ∧
        ∃ x, x ∈ (t.queue q).subs ∧ x.count = (s1.queue q).nextFetch ∧
          ∃ l sec ns tick, x.stage = .done stBAD_PARAM none 0 l sec ns tick)) ∧
    (∀ (s : State) (q st epoch len sec ns tick n ck : Nat) (b : Bool) (assoc : Option Nat) (rest : List Sub), q < queueCount →
      s.hostLink = true → (s.queue q).subs = ⟨n, ck, b, .done st assoc epoch len sec ns tick⟩ :: rest →
      ∃ t, exec (.submissionComplete q) s = .next t ∧
        t = (s.setQueue q { (s.queue q) with subs := rest }).complete q ck sec ns tick assoc 4 st epoch len ∧
        t.get (QUEUE_CONS_COUNT q) = (s.get (QUEUE_CONS_COUNT q) + 1) % 2 ^ 32 ∧ (t.queue q).subs = rest) ∧
    (∀ (s : State) (q : Nat) (timeout : Bool), q < queueCount → s.on (QUEUE_CFG_EN q) = true → s.on (QUEUE_STATUS_STOPPED q) = false →
      exec (.hostReadError q timeout) s = .next (s.queueStop q (if timeout then qeHostTimeout else qeHostAbort)) ∧
      (s.calm SRC_EVREC_LOST → ∃ t, exec (.hostReadError q timeout) s = .next t ∧ t.on (QUEUE_STATUS_STOPPED q) = true ∧
        t.get (QUEUE_STATUS_ERR q) = (if timeout then 4 else 3) ∧ (t.queue q).items = [] ∧ (t.queue q).slot = none ∧
        (t.queue q).subs = [] ∧ t.get (INTC_SRC_LEVEL 385) = 1)) ∧
    (∀ (s : State) (q a sec ns tick src st epoch len : Nat) (assoc : Option Nat), q < queueCount →
      (s.complete q a sec ns tick assoc src st epoch len).get (QUEUE_CONS_COUNT q) = (s.get (QUEUE_CONS_COUNT q) + 1) % 2 ^ 32) ∧
    (∀ (s : State) (q : Nat) (v : Word32), q < queueCount → exec (.queueCfgWrite q v) s = .next (s.queueCfgWrite q v)) ∧
    (∀ (s : State) (q : Nat) (v : Word32), q < queueCount → s.on (QUEUE_CFG_EN q) = true → wordField v 31 31 = 1 → ∃ t,
      exec (.queueCfgWrite q v) s = .next t ∧ t.get (QUEUE_CFG_SIZE q) = s.get (QUEUE_CFG_SIZE q) ∧
        t.get (QUEUE_CFG_DIR q) = s.get (QUEUE_CFG_DIR q) ∧ t.get (QUEUE_CFG_VEC q) = s.get (QUEUE_CFG_VEC q) ∧
        t.get (QUEUE_PROD_COUNT q) = s.get (QUEUE_PROD_COUNT q) ∧ t.get (QUEUE_CONS_COUNT q) = s.get (QUEUE_CONS_COUNT q)) ∧
    ∀ (s : State) (q : Nat) (v : Word32), q < queueCount → s.on (QUEUE_CFG_EN q) = false → wordField v 31 31 = 1 →
      sizeOk (wordField v 16 0) = true → wordField v 29 29 = 0 → ∃ t, exec (.queueCfgWrite q v) s = .next t ∧
        t.on (QUEUE_CFG_EN q) = true ∧ t.get (QUEUE_CFG_SIZE q) = wordField v 16 0 ∧ t.get (QUEUE_PROD_COUNT q) = 0 ∧
        t.get (QUEUE_CONS_COUNT q) = 0 ∧ t.on (QUEUE_STATUS_STOPPED q) = false ∧ (t.queue q).items = [] ∧ SameMem s t

/-- BRIDGE_LINK_UP, BRIDGE_LINK_DOWN, FN_SPLIT_WRITE, VF_ENABLE_WRITE, FUNCTION_LEVEL_RESET, FLR_COMPLETE, MSIX_FIRE,
MSIX_UNMASK, GATING_RECOMPUTE, DOE_REQUEST and IDE_INSECURE complete with their effects. A trained link sets UP,
GEN, WIDTH, FLIT and LINKADD; a lost one clears them and disables every queue. A split of groups that is free, in
range and of a function without an enabled queue is stored. VF Enable captures the vector counts in force. A
function-level reset disables the function's queues and sets FLR; its completion clears FLR and sets its bit in
FLR_DONE. A due vector fires and leaves the list, its message sent where it is not masked. Unmasking clears MASK.
GATING_RECOMPUTE puts the level of R291. A DOE request is answered; GO of IDE_KM, in a session whose handshake has
ended, makes a stream Secure with the key of the slot named for it; an insecure stream leaves Secure. (The order in
which the responder takes SPDM requests is log entry 125, PRESUMED.) (R265, R266, R267, R268, R269, R290, R291,
R298, R299, R300) -/
def Obligations.BridgeRows : Prop :=
  (∀ (s : State) (gen width : Nat), s.pwr.perstLow = false → 1 ≤ gen → gen ≤ 6 → (width = 1 ∨ width = 2 ∨ width = 4 ∨ width = 8) →
      ∃ u, exec (.bridgeLinkUp gen width) s = .next (State.gateChange u) ∧ u.get BRIDGE_LINK_UP = 1 ∧ u.get BRIDGE_LINK_GEN = gen ∧
        u.get BRIDGE_LINK_WIDTH = width ∧ u.on BRIDGE_LINK_FLIT = decide (gen = 6) ∧
        SameRegs [BRIDGE_LINK, INTC_SRC 384] s u ∧ SameMem s u) ∧
    (∀ s : State, s.on BRIDGE_LINK_UP = true → exec .bridgeLinkDown s = .next s.linkDown) ∧
    (∀ s : State, s.on BRIDGE_LINK_UP = true → s.calm SRC_BRIDGE_LINK → ∃ t, exec .bridgeLinkDown s = .next t ∧
      t.get BRIDGE_LINK_UP = 0 ∧ t.get BRIDGE_LINK_GEN = 0 ∧ t.get BRIDGE_LINK_WIDTH = 0 ∧
      ∀ q, q ∈ s.enabledQueues → t.on (QUEUE_CFG_EN q) = false ∧ (t.queue q).items = []) ∧
    (∀ (s : State) (f : Nat) (vec : Bool) (v : Word32), f < 64 → exec (.fnSplitWrite f vec v) s = .next (s.fnSplitWrite f vec v)) ∧
    (∀ (s : State) (f : Nat) (v : Word32), f < 64 → (f = 0 ∨ s.data.vfEnable = false) → s.fnBusy f = false →
      wordField v 9 0 + (wordField v 25 16 + 1024 * wordField v 26 26) ≤ 1024 →
      (∀ k, k < 64 → k ≠ f → rangesMeet (wordField v 9 0) (wordField v 25 16 + 1024 * wordField v 26 26)
        (s.fnGroups k).1 (s.fnGroups k).2 = false) → ∃ t, exec (.fnSplitWrite f false v) s = .next t ∧
        t = s.regStore (FN_QG f) v ∧ SameMem s t) ∧
    (∀ (s : State) (on : Bool), ∃ t, exec (.vfEnableWrite on) s = .next t ∧ t.data.vfEnable = on ∧ SameRegs [] s t ∧ SameMem s t ∧
      (on = true → s.data.vfEnable = false → ∀ k, 1 ≤ k → k ≤ 63 → (k, s.get (FN_VEC_VEC_COUNT k)) ∈ t.data.vfVecs)) ∧
    (∀ (s : State) (f : Nat), f < 64 → ∃ u, exec (.functionLevelReset f) s = .next (State.gateChange u) ∧ u.get (FN_CTL_FLR f) = 1 ∧ SameMem s u) ∧
    (∀ (s : State) (f : Nat), f < 64 → s.on (FN_CTL_FLR f) = true → ∃ t, exec (.flrComplete f) s = .next t ∧
      t.get (FN_CTL_FLR f) = 0 ∧ t.get BRIDGE_FLR_DONE_MASK = s.get BRIDGE_FLR_DONE_MASK ||| 2 ^ (f % 32) ∧
      t.get (INTC_SRC_LEVEL 387) = 1 ∧ SameMem s t ∧ SameRegs [(FN_CTL_FLR f).off, BRIDGE_FLR_DONE_MASK.off, INTC_SRC 387] s t) ∧
    (∀ (s : State) (v : Nat) (l : List (Nat × Nat)), tget s.data.due v = some l → v < 2048 → ∃ t,
      exec (.msixFire v) s = .next t ∧ tget t.data.due v = none ∧ t.clock = max s.clock (s.fireAt l) ∧ SameMem s t ∧
      SameRegs [(MSIX_PBA_PEND (v / 32)).off] s t ∧
      (s.on (MSIX_VCTL_MASK v) = false → s.hostLink = true → SameRegs [] s t ∧
        tget t.data.msix v = some (tgetD s.data.msix v 0 + 1)) ∧
      (s.on (MSIX_VCTL_MASK v) = true → bitOf (t.get (MSIX_PBA_PEND (v / 32))) (v % 32) = true)) ∧
    (∀ (s : State) (v : Nat), v < 2048 → exec (.msixUnmask v) s = .next (s.unmask v) ∧
      (bitOf (s.get (MSIX_PBA_PEND (v / 32))) (v % 32) = false → ∃ t, exec (.msixUnmask v) s = .next t ∧
        t = s.put (MSIX_VCTL_MASK v) 0 ∧ t.on (MSIX_VCTL_MASK v) = false ∧ SameMem s t)) ∧
    (∀ s : State, ∃ t, exec .gatingRecompute s = .next t ∧ t.get BRIDGE_GATE_LEVEL = s.gateLevel ∧
      t.get BRIDGE_GATE_SMIN = s.smin.getD 0xFFFFFF % 2 ^ 24 ∧ SameMem s t ∧
      (s.pstate = .p0 ∨ s.pstate = .p1 → t.pstate = if s.gateLevel = 2 then .p1 else .p0)) ∧
    (∀ (s : State) (m : Bytes), ∃ t, exec (.doeRequest (.discovery m)) s = .next t ∧ t.data.doe = Config.crypto cySpdm [m] 0 ∧
      SameRegs [] s t ∧ SameMem s t) ∧
    (∀ (s : State) (code : Nat) (m : Bytes), s.get LIFE_BOOT_STAGE = stRUNNING → ∃ t u, exec (.doeRequest (.spdm code m)) s = .next t ∧
      u = s.free.2 ∧ t = u.spdmAnswer m code (s.data.spdm.clear code (s.free.1 % 2 ^ 32)) ∧
      (code = 0x84 → t.data.spdm = ⟨1, none⟩) ∧ SameRegs [] s t ∧ SameMem s t) ∧
    (∀ (s : State) (stream slot : Nat) (used : Option Nat) (id gen : Nat), s.get LIFE_BOOT_STAGE = stRUNNING → stream < 5 →
      s.data.spdm.session = some (id, true, gen) → tget s.data.ide stream = some (slot, used) → s.bridgeKey slot = true →
      ∃ t, exec (.doeRequest (.ideGo id stream)) s = .next t ∧ bitOf (t.get BRIDGE_IDE_SECURE) stream = true ∧
        SameRegs [BRIDGE_IDE_SECURE.off] s t ∧ SameMem s t) ∧
    ∀ (s : State) (stream : Nat), stream < 5 → bitOf (s.get BRIDGE_IDE_SECURE) stream = true → s.on BRIDGE_IDE_REQUIRE = false →
      s.flt.zeroizeDue = false → ∃ t, exec (.ideInsecure stream) s = .next t ∧ bitOf (t.get BRIDGE_IDE_SECURE) stream = false ∧
        t.get (INTC_SRC_LEVEL 386) = 1 ∧ SameRegs [BRIDGE_IDE_SECURE.off, INTC_SRC 386] s t ∧ SameMem s t

/-- MLKEM_KEYGEN, MLKEM_ENCAPS, MLKEM_DECAPS, MLDSA_KEYGEN, MLDSA_SIGN, MLDSA_VERIFY, SLHDSA_KEYGEN, SLHDSA_SIGN,
SLHDSA_VERIFY, LMS_KEYGEN, LMS_SIGN, LMS_VERIFY, LMS_INFO, MCE_ENCAPS, MCE_DECAPS, HQC_KEYGEN, HQC_ENCAPS,
HQC_DECAPS, EC_KEYGEN, ECDSA_SIGN, ECDH, X25519_KEYGEN, X25519, ED25519_KEYGEN, ED25519_SIGN, ED25519_VERIFY,
PUBEXPORT and RANDOM complete: each ends its job with its result, or ABORTED on a data error. For every operation of
Table 9-6: where the cell runs a job of that operation which waits for no index and no vault write and whose draws
fit its entropy bound, reading its inputs gives the job's result; an input that cannot be read, or a data error in
the cell, ends it ABORTED with detail MEMORY. In each case the job leaves the cell and a completion for its slot
waits. A verification ends OK or VERIFY_FAIL. A job's end takes it off the cell, which clears, and its completion
waits. (R326, R329, R347, R348, R350, R352, R365) -/
def Obligations.JobRows : Prop :=
  (∀ (r : (Nat → Nat → JobErr → Instr) × Nat) (s s2 s3 : State) (n used : Nat) (j : Job) (o : OpSpec) (a b : Bytes), r ∈ jobRows →
      tget s.jobs.jobs n = some j → opSpec r.2 = some o → jOp j.words = r.2 → s.get (CELL_STATUS_STATE n) = 1 → j.waitsIndex = false →
      used ≤ tgetD s.jobs.fill n 0 → s.endWaits j.words o = false → entropyOk j.words j.order (j.drew + used) true = true →
      (s.cellDraw n used).bufRead (jobMid j.ring n) (jAddr j.words 2) (jLen j.words 2) = (some a, s2) →
      s2.bufRead (jobMid j.ring n) (jAddr j.words 5) (jLen j.words 5) = (some b, s3) →
      ∃ t, exec (r.1 n used .none) s = .next t ∧ t = s3.jobResult n j o a b ∧ tget t.jobs.jobs n = none ∧
        ∃ c, c ∈ t.jobs.ending ∧ c.ring = j.ring ∧ c.count = j.count ∧ c.ran = true ∧ c.cell = n) ∧
    (∀ (r : (Nat → Nat → JobErr → Instr) × Nat) (s : State) (n used : Nat) (err : JobErr) (j : Job) (o : OpSpec), r ∈ jobRows →
      tget s.jobs.jobs n = some j → opSpec r.2 = some o → jOp j.words = r.2 → s.get (CELL_STATUS_STATE n) = 1 → j.waitsIndex = false →
      used ≤ tgetD s.jobs.fill n 0 → s.endWaits j.words o = false → err ≠ .none →
      entropyOk j.words j.order (j.drew + used) false = true →
      s.calm (SRC_SRAM_UE 5) →
      ∃ t, exec (r.1 n used err) s = .next t ∧ t = (s.cellDraw n used).jobMemFail n err ∧ tget t.jobs.jobs n = none ∧
        ∃ c, c ∈ t.jobs.ending ∧ c.ring = j.ring ∧ c.count = j.count ∧ c.status = stABORTED ∧ c.detail = dtMEMORY) ∧
    (∀ r : (Nat → Nat → JobErr → Instr) × Nat, r ∈ jobRows → (opSpec r.2).isSome = true) ∧
    (∀ (s : State) (n op : Nat) (j : Job) (o : OpSpec) (a b : Bytes), opSpec op = some o → jOp j.words = op →
      (op = 0x0A ∨ op = 0x12 ∨ op = 0x1A ∨ op = 0x38) →
      s.jobResult n j o a b = if Config.cryptoOk cyJobOk (jobInputs j a b) then s.jobDone n j stOK 0 0 0
        else s.jobDone n j stVERIFY_FAIL 0 0 0) ∧
    ∀ (s : State) (n st det l res : Nat) (j : Job), n < 16 → j.ring < 1024 → s.get (CELL_STATUS_STATE n) ≠ 5 →
      tget (s.jobDone n j st det l res).jobs.jobs n = none ∧ (s.jobDone n j st det l res).get (CELL_STATUS_STATE n) = 2 ∧
      ⟨j.ring, j.count, st, det, j.order, n, true, l, res, jIrq j.words, some j⟩ ∈ (s.jobDone n j st det l res).jobs.ending

/-- If the checks of R352 let a job through whose operation has a secret output and whose DEST does not send it to the
key store, then the ring's SECOUT is 1; if they let one through that sends it there, the secret is 32 bytes and the
slot takes it from the ring's owner. Every buffer of a job let through lies in the ring's data window. (R349, R352,
R389) -/
def Obligations.SecretsLeaveOnlyWhereAllowed : Prop :=
  ∀ (s : State) (r : Nat) (w : List Nat) (o : OpSpec), opSpec (jOp w) = some o → s.jobCheck r w = none →
    (o.secret = true → jDest w = false → s.on (rgSECOUT r) = true) ∧
    (o.secret = true → jDest w = true → secretLen o.scheme (jPset w) = 32 ∧ s.pegAccepts (jPeg w) (s.ringOwner r) = true) ∧
    s.inWindow r (jAddr w 2) (jLen w 2) = true ∧ s.inWindow r (jAddr w 5) (jLen w 5) = true ∧
    s.inWindow r (jAddr w 8) (jLen w 8) = true ∧ jMask w ≠ 3

/-- CELL_DISPATCH, JOB_COMPLETION, JR_PROD_WRITE, RING_ABORT, JR_CFG_WRITE, JOB_TIMEOUT, CELL_CLEAR_DONE, CELL_KAT_RUN,
CELL_OFFLINE_WRITE, ENTROPY_REFILL and ENTROPY_WAIT_TIMEOUT complete with their effects. An idle cell takes the head
of the ring whose turn it is: a slot that cannot be read stops the ring, a refused job ends with its status, the
rest start and the cell is BUSY. A completion is written and leaves the list. JR_PROD by the owner posts, or stops
the ring with DB_BACK or DB_RANGE; by another master it is ignored and counted. An abort ends with EN = 0. A running
ring's configuration is not written and sets CFGREJ; one that is placed where its owner may be starts with its
counts 0. A time limit ends its job with TIMEOUT. A cell that has cleared is IDLE or OFFLINE and its memory reads
zero. A passed test lets the cell clear, a failed one isolates it, on a BUSY cell it falls due. CELL_CTL takes
OFFLINE. A refill gives the cell whose turn it is 64 bytes. The end of the wait for entropy ends every head that
needs it. (R326, R327, R333, R334, R336, R338, R339, R340, R351, R354, R362, R364) -/
def Obligations.CellAndRingRows : Prop :=
  (∀ (s s2 : State) (n r count : Nat) (w : List Nat), n < 16 → s.get (CELL_STATUS_STATE n) = 0 → s.jobs.katDue.contains n = false →
      s.noDispatch = false → s.ringChoice n = some r → s.ringHead r = some count →
      (({ s with jobs := { s.jobs with lastRing := tset s.jobs.lastRing (s.get (rgPRIO r)) r } } : State).fetchSlot (0x50 + n) r count =
        (none, s2) → exec (.cellDispatch n false) s = .next (s2.ringStop r 3)) ∧
      (({ s with jobs := { s.jobs with lastRing := tset s.jobs.lastRing (s.get (rgPRIO r)) r } } : State).fetchSlot (0x50 + n) r count =
        (some w, s2) →
        (∀ st det l, (s2.ringPop r).jobCheck r w = some (st, det, l) → ∃ t, exec (.cellDispatch n false) s = .next t ∧
          t = (s2.ringPop r).jobEnding ⟨r, count, st, det, 0, n, true, l, 0, jIrq w, some (jobOf r count w s.clock)⟩) ∧
        ((s2.ringPop r).jobCheck r w = none → (needsEntropy w && (s2.ringPop r).entropyGone) = false →
          ∀ o, opSpec (jOp w) = some o → exec (.cellDispatch n false) s = .next ((s2.ringPop r).jobStart n r count w o) ∧
            (jOp w ≠ 0x19 → ∃ t j, exec (.cellDispatch n false) s = .next t ∧ tget t.jobs.jobs n = some j ∧ j.ring = r ∧
              j.count = count ∧ j.words = w ∧ t.get (CELL_STATUS_STATE n) = 1 ∧ t.get (CELL_STATUS_RING n) = r)))) ∧
    (∀ (s : State) (r count : Nat) (c : Compl),
      s.jobs.ending.find? (fun c => decide (c.ring = r) && ((decide (1024 ≤ r) || s.on (rgSERIAL r)) || decide (c.count = count))) = some c →
      c.count = count → ∃ t, exec (.jobCompletion r count) s = .next t ∧ c ∉ t.jobs.ending ∧
        t = ({ s with jobs := { s.jobs with ending := s.jobs.ending.filter (fun d => decide (d ≠ c)) } } : State).writeCompletion c ∧
        (c.irq = true → r < 1032 → t.on (rgIRQPEND r) = true)) ∧
    (∀ (s : State) (mid r : Nat) (v : Word32), r < 1032 →
      ((mid ≠ s.ringOwner r ∨ s.ringOwner r < 0x40) → exec (.jrProdWrite mid r v) s = .next (s.inc SOUND_PRODIGN_COUNT)) ∧
      (mid = s.ringOwner r → 0x40 ≤ s.ringOwner r → s.on (rgEN r) = true →
        (2 ^ 31 ≤ cdiff v.toNat (s.get (rgPROD r)) → exec (.jrProdWrite mid r v) s = .next (s.ringStop r 2)) ∧
        (cdiff v.toNat (s.get (rgPROD r)) < 2 ^ 31 → s.ringSize r < cdiff v.toNat (s.get (rgCONS r)) →
          exec (.jrProdWrite mid r v) s = .next (s.ringStop r 1)) ∧
        (cdiff v.toNat (s.get (rgPROD r)) < 2 ^ 31 → cdiff v.toNat (s.get (rgCONS r)) ≤ s.ringSize r →
          ∃ t, exec (.jrProdWrite mid r v) s = .next t ∧ t.get (rgPROD r) = v.toNat ∧ SameMem s t ∧ SameRegs [(rgPROD r).off] s t))) ∧
    (∀ (s : State) (r : Nat), r < 1032 → s.on (rgEN r) = true → ∃ t, exec (.ringAbort r) s = .next t ∧ t = s.ringAbort r ∧
      t.get (rgEN r) = 0) ∧
    (∀ (s : State) (mid r off : Nat) (v : Word32), r < 1032 → ringGuarded off = true →
      exec (.jrCfgWrite mid r off v) s = .next (s.ringCfgWrite mid r off v) ∧
      (s.on (rgEN r) = true → off ≠ 0x08 → ∃ t, exec (.jrCfgWrite mid r off v) s = .next t ∧ t = s.put (rgCFGREJ r) 1 ∧
        t.on (rgCFGREJ r) = true)) ∧
    (∀ (s : State) (mid r : Nat) (v v1 : Word32), r < 1032 → s.on (rgEN r) = false → wordField v 31 31 = 1 →
      v1 = (if mid = 0x40 then v else wordSet v 29 29 (s.get (rgSECOUT r))) →
      (s.regStore (ringBase r + 8) (wordSet v1 31 31 0)).ringPlaced r = true → ∃ t, exec (.jrCfgWrite mid r 8 v) s = .next t ∧
        t.on (rgEN r) = true ∧ t.get (rgPROD r) = 0 ∧ t.get (rgCONS r) = 0 ∧ t.on (rgSTOPPED r) = false ∧ t.ringHead r = none ∧
        t.get (rgLOG2SIZE r) = wordField v 19 16 ∧ SameMem s t) ∧
    (∀ (s : State) (r count n : Nat) (j : Job), r < 1032 → s.get (rgTIMEOUT r) ≠ 0 → tget s.jobs.jobs n = some j →
      (s.ringJobs r).find? (fun e => decide (e.2.count = count)) = some (n, j) → ∃ t,
      exec (.jobTimeout r count) s = .next t ∧ t = (s.passTo (j.at_ + cyclesPerMs * s.get (rgTIMEOUT r))).cellEnd n stTIMEOUT 0 ∧
        t.clock = max s.clock (j.at_ + cyclesPerMs * s.get (rgTIMEOUT r)) ∧ tget t.jobs.jobs n = none ∧
        ∃ c, c ∈ t.jobs.ending ∧ c.ring = r ∧ c.count = count ∧ c.status = stTIMEOUT) ∧
    (∀ (s : State) (n : Nat), n < 16 → s.get (CELL_STATUS_STATE n) = 2 → ∃ u, exec (.cellClearDone n) s = .next (State.keyRetry u) ∧
      u.get (CELL_STATUS_STATE n) = (if s.on (CELL_CTL_OFFLINE n) then 4 else 0) ∧
      ∀ a, 0x7000000 + 0x40000 * n ≤ a → a < 0x7000000 + 0x40000 * n + 0x40000 → cellRead u.mem.cells a = 0) ∧
    (∀ (s : State) (n : Nat), n < 16 → (s.get (CELL_STATUS_STATE n) = 1 ∨ s.get (CELL_STATUS_STATE n) = 2) → ∀ pass,
      ∃ t, exec (.cellKatRun n pass) s = .next t ∧ n ∈ t.jobs.katDue ∧ SameRegs [] s t ∧ SameMem s t) ∧
    (∀ (s : State) (n : Nat), n < 16 → (s.get (CELL_STATUS_STATE n) = 0 ∨ s.get (CELL_STATUS_STATE n) = 3) →
      (∃ t, exec (.cellKatRun n true) s = .next t ∧ t.get (CELL_STATUS_STATE n) = 2 ∧ t.get (CELL_KAT_FAIL n) = 0 ∧ SameMem s t ∧
        SRC_SOUND_KAT n ∉ t.flt.inReset ∧ SameRegs [(CELL_STATUS_STATE n).off, (CELL_KAT_RUNS n).off] s t) ∧
      (s.calm (SRC_SOUND_KAT n) → ∃ t, exec (.cellKatRun n false) s = .next t ∧ t.get (CELL_STATUS_STATE n) = 5 ∧
        bitOf (t.get SOUND_STATUS_ISOLATED) n = true ∧ t.get (CELL_KAT_FAIL n) = 1 ∧ t.get (INTC_SRC_LEVEL (128 + n)) = 1)) ∧
    (∀ (s : State) (n : Nat) (v : Word32), n < 16 → exec (.cellOfflineWrite n v) s = .next (s.cellCtlWrite n v)) ∧
    (∀ (s : State) (n : Nat) (v : Word32), n < 16 → s.get (CELL_STATUS_STATE n) = 0 → wordField v (CELL_CTL_OFFLINE n).hi (CELL_CTL_OFFLINE n).lo = 1 →
      ∃ t, exec (.cellOfflineWrite n v) s = .next t ∧ t.on (CELL_CTL_OFFLINE n) = true ∧ t.get (CELL_STATUS_STATE n) = 4 ∧ SameMem s t ∧
        SameRegs [CELL_CTL n, (CELL_STATUS_STATE n).off] s t) ∧
    (∀ (s : State) (n : Nat), s.jobs.grants ≠ 0 → tget s.jobs.jobs n = none → (s.cellDraw n 0).cellTurn = some n →
      ∃ t, exec (.entropyRefill n 0 0) s = .next t ∧ tgetD t.jobs.fill n 0 = tgetD s.jobs.fill n 0 + 64 ∧
        t.jobs.grants = s.jobs.grants - 1 ∧ t.jobs.turn = n ∧ SameMem s t) ∧
    ∀ s : State, s.delivStopped = true → ∃ t, exec .entropyWaitTimeout s = .next t ∧ t = s.soundWaitEnd ∧
      t.rosin.timedOut = true ∧ t.clock = max s.clock s.waitEnds

/-- ECDSA_VERIFY, POINT_VALIDATE, RSA_PKCS1, RSA_PSS, RSA_PUBLIC, LOAD_CURVE, CLEAR_CURVE, VE_OP_UNASSIGNED,
VE_COMMAND_END, VE_TIMEOUT, VE_ABORT, VE_OWNER_WRITE and VE_KAT_RUN complete with their effects. VE_CMD by the owner
with GO = 1 and the row's OP starts the command: BUSY is set and it has a result or, a LOAD_CURVE, waits for its
bases; by another master it is ignored and counted; on a BUSY engine REJ is set. The end writes the output, STATUS
and DETAIL, clears BUSY, sets DONE and counts. An abort or time limit makes a result that is not decided ABORTED or
TIMEOUT. Only Capo ring 0 writes VE_OWNER, on an engine not BUSY. A passed test ends a reset of the engine, a failed
one isolates it. (R372, R374, R378, R380, R381, R382, R383) -/
def Obligations.VerificationEngineRows : Prop :=
  (∀ (r : (Nat → Nat → Word32 → Instr) × Nat) (s : State) (e mid : Nat) (v : Word32), r ∈ veRows → e < 4 → wordField v 31 31 = 1 →
      vcOp v = r.2 →
      (mid ≠ s.get (VE_OWNER_MID e) → exec (r.1 e mid v) s = .next (s.inc VE_IGN_COUNT)) ∧
      (mid = s.get (VE_OWNER_MID e) → s.on (VE_STATUS_BUSY e) = true → exec (r.1 e mid v) s = .next (s.put (VE_STATUS_REJ e) 1)) ∧
      (mid = s.get (VE_OWNER_MID e) → s.on (VE_STATUS_BUSY e) = false →
        exec (r.1 e mid v) s = .next ((if vcHash v = 3 then s.raise SRC_VE_CFG 0 else s).veStart e v)) ∧
      (mid = s.get (VE_OWNER_MID e) → s.on (VE_STATUS_BUSY e) = false → vcHash v ≠ 3 →
        ∃ t c, exec (r.1 e mid v) s = .next t ∧ t.on (VE_STATUS_BUSY e) = true ∧ t.veCmd e = some c ∧ c.word = v ∧ c.at_ = s.clock ∧
          (r.2 ≠ 8 → c.result.isSome = true))) ∧
    (∀ (s : State) (e mid : Nat) (v : Word32), e < 4 → wordField v 31 31 = 1 → veAssigned (vcOp v) = false → vcHash v ≠ 3 →
      mid = s.get (VE_OWNER_MID e) → s.on (VE_STATUS_BUSY e) = false →
      ∃ t c, exec (.veOpUnassigned e mid v) s = .next t ∧ t.veCmd e = some c ∧ c.result = some (stBAD_OPCODE, 0, [])) ∧
    (∀ (s : State) (e st det : Nat) (out : Bytes) (c : VeCmd), e < 4 → s.veCmd e = some c → c.result = some (st, det, out) →
      (s.veHeld c = false ∨ st = stABORTED) → st < 256 → det < 256 →
      ∃ t, exec (.veCommandEnd e) s = .next t ∧ t.veCmd e = none ∧ t.on (VE_STATUS_BUSY e) = false ∧ t.on (VE_STATUS_DONE e) = true ∧
        (t.get (VE_STATUS_STATUS e) = st ∨ t.get (VE_STATUS_STATUS e) = stABORTED)) ∧
    (∀ (s : State) (e : Nat) (c : VeCmd), s.veCmd e = some c → c.decided = false → s.get (VE_TIMEOUT_MS e) ≠ 0 →
      ∃ t, exec (.veTimeout e) s = .next t ∧ t.veCmd e = some { c with result := some (stTIMEOUT, 0, []), decided := true } ∧
        t.clock = max s.clock (c.at_ + cyclesPerMs * s.get (VE_TIMEOUT_MS e)) ∧ SameRegs [] s t ∧ SameMem s t) ∧
    (∀ (s : State) (e mid : Nat) (c : VeCmd), e < 4 → s.veCmd e = some c →
      (mid ≠ s.get (VE_OWNER_MID e) → exec (.veAbort e mid) s = .next (s.inc VE_IGN_COUNT)) ∧
      (mid = s.get (VE_OWNER_MID e) → c.decided = true → exec (.veAbort e mid) s = .next s) ∧
      (mid = s.get (VE_OWNER_MID e) → c.decided = false → ∃ t, exec (.veAbort e mid) s = .next t ∧
        t.veCmd e = some { c with result := some (stABORTED, 0, []), decided := true } ∧ SameRegs [] s t ∧ SameMem s t)) ∧
    (∀ (s : State) (mid e off : Nat) (v : Word32), e < 4 → (off = 0 ∨ off = 0x28 ∨ off = 0x2C ∨ off = 0x30 ∨ off = 0x34) →
      exec (.veOwnerWrite mid e off v) s = .next (s.veOwnerWrite mid e off v) ∧
      ((mid ≠ 0x40 ∨ s.on (VE_STATUS_BUSY e) = true) → s.veOwnerWrite mid e off v = s.put (VE_STATUS_REJ e) 1)) ∧
    (∀ (s : State) (e : Nat) (v : Word32), e < 4 → s.on (VE_STATUS_BUSY e) = false →
      ((0x40 ≤ wordField v 7 0 ∧ wordField v 7 0 ≤ 0x43) ∨ wordField v 7 0 = 0x80) → ∃ t, exec (.veOwnerWrite 0x40 e 0 v) s = .next t ∧
        t.get (VE_OWNER_MID e) = wordField v 7 0 ∧ SameRegs [VE_OWNER e] s t ∧ SameMem s t) ∧
    ∀ (s s1 : State) (e : Nat), e < 4 → s.on (VE_STATUS_BUSY e) = false →
      s1 = (s.passTo (s.katDueAt (SRC_VE_KAT e) 60)).katRun (SRC_VE_KAT e) →
      (∃ t, exec (.veKatRun e true) s = .next t ∧ t = s1 ∧ SRC_VE_KAT e ∉ t.flt.inReset ∧ SameRegs [] s t ∧ SameMem s t) ∧
      exec (.veKatRun e false) s = .next (((s1.put (VE_STATUS_ISOLATED e) 1).setIrq (260 + e)).raise (SRC_VE_KAT e) e) ∧
      (s.calm (SRC_VE_KAT e) → ∃ t, exec (.veKatRun e false) s = .next t ∧ t.on (VE_STATUS_ISOLATED e) = true ∧
        t.get (INTC_SRC_LEVEL (260 + e)) = 1)

/-- DIGEST, HMAC, KMAC, MEMCMP, DIGEST_OP_UNASSIGNED and DIG_KAT_RUN complete: a core takes the earliest job of its ring
and runs it; an unassigned OP ends BAD_OPCODE. An idle core of an enabled ring that is not stopped takes the head of
the ring where its OP is the row's: a slot that cannot be read stops the ring; else the job runs to its end, unless
it waits for its key: the core is BUSY and its completion waits. MEMCMP of equal buffers ends OK, of different ones
VERIFY_FAIL. A passed test leaves the core idle, one that fails isolates it. (R384, R385, R387, R390, R394, R395) -/
def Obligations.DigestRows : Prop :=
  (∀ (r : (Nat → Bool → Instr) × Nat) (s s1 : State) (k count : Nat) (w : List Nat) (err : Bool), r ∈ digRows → k < 8 →
      s.get (CORE_STATUS_STATE k) = 0 → s.on (rgEN (1024 + k)) = true → s.on (rgSTOPPED (1024 + k)) = false → s.noDispatch = false →
      s.ringHead (1024 + k) = some count → jOp (s.peekSlot (1024 + k) count) = r.2 →
      (s.fetchSlot (0x60 + k) (1024 + k) count = (none, s1) → exec (r.1 k err) s = .next (s1.ringStop (1024 + k) 3)) ∧
      (s.fetchSlot (0x60 + k) (1024 + k) count = (some w, s1) → jOp w = r.2 →
        exec (r.1 k err) s = .next ((((s1.ringPop (1024 + k)).digRun k count w err).map State.settle).getD s) ∧
        ∀ u, (s1.ringPop (1024 + k)).digRun k count w err = some u → u.flt.zeroizeDue = false →
          ∃ t c, exec (r.1 k err) s = .next t ∧ t = u ∧ t.get (CORE_STATUS_STATE k) = 1 ∧ c ∈ t.jobs.ending ∧ c.ring = 1024 + k ∧
            c.count = count ∧ c.ran = true ∧ c.cell = k)) ∧
    (∀ (s s1 : State) (k count : Nat) (w : List Nat), k < 8 →
      s.get (CORE_STATUS_STATE k) = 0 → s.on (rgEN (1024 + k)) = true → s.on (rgSTOPPED (1024 + k)) = false → s.noDispatch = false →
      s.ringHead (1024 + k) = some count → digOpAssigned (jOp (s.peekSlot (1024 + k) count)) = false →
      s.fetchSlot (0x60 + k) (1024 + k) count = (some w, s1) → digOpAssigned (jOp w) = false → ∃ t c,
      exec (.digestOpUnassigned k) s = .next t ∧ t = (s1.ringPop (1024 + k)).digDone k count w stBAD_OPCODE 0 0 ∧
        c ∈ t.jobs.ending ∧ c.ring = 1024 + k ∧ c.count = count ∧ c.status = stBAD_OPCODE) ∧
    (∀ (s : State) (k count : Nat) (w : List Nat) (a b : Bytes), jOp w = doMEMCMP →
      s.digResult k count w a b = s.digDone k count w (if a = b then stOK else stVERIFY_FAIL) 0 0) ∧
    ∀ (s s1 : State) (k : Nat), k < 8 → (s.get (CORE_STATUS_STATE k) = 0 ∨ s.get (CORE_STATUS_STATE k) = 3) →
      s1 = (if s.get (CORE_STATUS_STATE k) = 3 then s else s.passTo (s.katDueAt (SRC_DIG_KAT k) 60)).katRun (SRC_DIG_KAT k) →
      (∃ t, exec (.digKatRun k true) s = .next t ∧ t.get (CORE_STATUS_STATE k) = 0 ∧ SRC_DIG_KAT k ∉ t.flt.inReset ∧ SameMem s t ∧
        SameRegs [(CORE_STATUS_STATE k).off] s t) ∧
      exec (.digKatRun k false) s = .next ((((s1.put (CORE_STATUS_STATE k) 5).put DIG_STATUS_ISOLATED
          (s1.get DIG_STATUS_ISOLATED ||| 2 ^ k)).setIrq (273 + k)).raise (SRC_DIG_KAT k) k) ∧
      (s.calm (SRC_DIG_KAT k) → ∃ t, exec (.digKatRun k false) s = .next t ∧ t.get (CORE_STATUS_STATE k) = 5 ∧
        bitOf (t.get DIG_STATUS_ISOLATED) k = true ∧ t.get (INTC_SRC_LEVEL (273 + k)) = 1)

/-- APT_WINDOW_END, HEALTH_WINDOW_END, TRIM_LIMIT, STARTUP_WINDOW_END, CONDITIONER_BLOCK, ENTROPY_GRANT, ROSIN_PULL_GO,
ROSIN_PULL_READ and ROSIN_WAIT_TIMEOUT complete with their effects. A window of the continuous tests without a
failure passes whole to its bank's conditioner, one with a failure is discarded and counts one failure. A health
window puts BIAS and CORR; beyond its limits it counts one failure. A cell trim at its end counts one, once in a
window. A passed start-up window is conditioned, a second failed one retires the bank. A conditioner adds 64 bytes
for the oldest 128-byte window. A key that waits is drawn first; a grant to port 3 takes 64 bytes off the reserve.
The pull port hands out its words once each. The wait timeout ends what waits. (The limits of a window are those in
force when it began.) (R398, R399, R401, R402, R404, R407, R408, R410, R412, R413, R415) -/
def Obligations.RosinRows : Prop :=
  (∀ (s : State) (b : Nat) (bits : List Bool), b < 64 → s.rosinRuns = true → s.get (BANK_STATUS_STATE b) = 0 → bits.length = 1024 →
      (rctRun ((s.limits wkApt b).getD 0 0) bits (tgetD s.rosin.run b (false, 0)) false).1 = false →
      aptFails ((s.limits wkApt b).getD 1 0) bits = false →
      ∃ t, exec (.aptWindowEnd b bits) s = .next t ∧ SameRegs [] s t ∧ SameMem s t ∧
        tgetD t.rosin.cond (b / 16) [] = tgetD s.rosin.cond (b / 16) [] ++ [packBits 128 bits]) ∧
    (∀ (s : State) (b : Nat) (bits : List Bool), b < 64 → s.rosinRuns = true → s.get (BANK_STATUS_STATE b) = 0 → bits.length = 1024 →
      ((rctRun ((s.limits wkApt b).getD 0 0) bits (tgetD s.rosin.run b (false, 0)) false).1 = true ∨
        aptFails ((s.limits wkApt b).getD 1 0) bits = true) →
      ∃ u why, exec (.aptWindowEnd b bits) s = .next (State.settle (State.bankFail u b why)) ∧ u.rosin.cond = s.rosin.cond ∧
        (why = bfRct ∨ why = bfApt) ∧ ((State.bankFail u b why).flt.zeroizeDue = false → ∃ t, exec (.aptWindowEnd b bits) s = .next t ∧
          t.get (BANK_STATUS_LASTFAIL b) = why)) ∧
    (∀ (s : State) (b : Nat) (bits : List Bool), b < 64 → s.rosinRuns = true → s.get (BANK_STATUS_STATE b) = 0 → bits.length = 65536 →
      ∃ u, u.rd (BANK_BIAS b) = signed32 (biasOf bits) ∧ u.get (BANK_STATUS_TRIMLIM b) = 0 ∧ SameMem s u ∧
        exec (.healthWindowEnd b bits) s = .next
          (if s.on (BANK_STATUS_TRIMLIM b) then u
           else if (s.limits wkHealth b).getD 0 0 < (biasOf bits).natAbs then (u.bankFail b bfBias).settle
           else if (List.range 8).any (fun k => decide ((s.limits wkHealth b).getD 1 0 < (corrOf (k + 1) bits).natAbs)) then
             (u.bankFail b bfCorr).settle
           else u) ∧
        ((biasOf bits).natAbs ≤ (s.limits wkHealth b).getD 0 0 →
          (∀ k, k < 8 → (corrOf (k + 1) bits).natAbs ≤ (s.limits wkHealth b).getD 1 0) → ∃ t,
            exec (.healthWindowEnd b bits) s = .next t ∧ t.rd (BANK_BIAS b) = signed32 (biasOf bits) ∧
              (∀ k, k < 8 → t.rd (BANK_CORR b k) = signed32 (corrOf (k + 1) bits)) ∧ t.rosin.fails = s.rosin.fails)) ∧
    (∀ (s u : State) (b : Nat), b < 64 → s.rosinRuns = true → s.get (BANK_STATUS_STATE b) = 0 → s.on (BANK_STATUS_TRIMLIM b) = false →
      u = (s.put (BANK_STATUS_TRIMLIM b) 1).bankFail b bfTrim → exec (.trimLimit b) s = .next u.settle ∧
        (u.flt.zeroizeDue = false → ∃ t, exec (.trimLimit b) s = .next t ∧ t.get (BANK_STATUS_LASTFAIL b) = bfTrim ∧
          t.on (BANK_STATUS_TRIMLIM b) = true)) ∧
    (∀ (s s1 : State) (b : Nat) (bits : List Bool) (lim : List Nat) (bad : Bool), b < 64 → s.rosinRuns = true →
      s.get (BANK_STATUS_STATE b) = 1 → bits.length = 8192 → lim = s.limits wkStart b →
      (s.limitsNext wkStart b).runOn b (lim.getD 1 0) bits = (bad, s1) →
      (bad = false → startupOk lim bits = true → exec (.startupWindowEnd b bits) s = .next
        (((({ s1 with rosin := { s1.rosin with passed := b :: s1.rosin.passed.filter (· ≠ b) } } : State).condFeed b (windowsOf 8 bits)).put
          (BANK_STATUS_STATE b) 0).rosinReady).settle) ∧
      ((bad = true ∨ startupOk lim bits = false) → s.rosin.failedOnce.contains b = false → ∃ t, exec (.startupWindowEnd b bits) s = .next t ∧
        b ∈ t.rosin.failedOnce ∧ t.get (BANK_STATUS_LASTFAIL b) = bfStartup ∧ SameMem s t ∧ SameRegs [(BANK_STATUS_LASTFAIL b).off] s t) ∧
      ((bad = true ∨ startupOk lim bits = false) → s.rosin.failedOnce.contains b = true → exec (.startupWindowEnd b bits) s = .next
        ((((s1.put (BANK_STATUS_LASTFAIL b) bfStartup).bankRetire b).minBanks rcMinbanks).rosinReady).settle)) ∧
    (∀ (s : State) (c : Nat) (w : Bytes) (ws : List Bytes), c < 4 → s.rosinRuns = true → s.on (ROSIN_COND_ISOLATED c) = false →
      s.rosin.reserve.length < 65536 → tgetD s.rosin.cond c [] = w :: ws → exec (.conditionerBlock c) s = .next
        ((({ s with rosin := { s.rosin with cond := tset s.rosin.cond c ws } } : State).putReserve
          (s.rosin.reserve ++ Config.crypto cySha3_512 [w] 64)).rosinReady).settle ∧
        (s.get ROSIN_STATE_STATE = roReady → s.flt.zeroizeDue = false → ∃ t, exec (.conditionerBlock c) s = .next t ∧
          t.rosin.reserve = s.rosin.reserve ++ Config.crypto cySha3_512 [w] 64 ∧ tgetD t.rosin.cond c [] = ws ∧ SameMem s t ∧
          SameRegs [ROSIN_STATE_RESERVE.off] s t)) ∧
    (∀ (s : State), s.get ROSIN_STATE_STATE = roReady → s.rosin.keyload ≠ [] → ∃ t, exec (.entropyGrant 0) s = .next t ∧ t = s.keyloadDraw.bootReady) ∧
    (∀ (s : State) (left : Nat), s.get ROSIN_STATE_STATE = roReady → s.rosin.keyload = [] → s.portTurn = some (3, left) →
      ∃ t, exec (.entropyGrant 3) s = .next t ∧ t.rosin.reserve = s.rosin.reserve.drop 64 ∧ t.jobs.grants = s.jobs.grants + 1 ∧
        t.rosin.left = left ∧ SameMem s t) ∧
    (∀ (s : State) (mid k : Nat), k < 16 → (mid = 0x40 ∨ mid = 0x41) → ∃ t, exec (.rosinPullRead mid k) s = .next t ∧
      t.rd (ROSIN_PULL k) = 0 ∧ k ∈ t.rosin.pullRead ∧ SameMem s t ∧ (s.pullRead mid k).1 = s.rd (ROSIN_PULL k)) ∧
    (∀ (s : State) (mid k : Nat), k < 16 → mid ≠ 0x40 → mid ≠ 0x41 → exec (.rosinPullRead mid k) s = .next s ∧ (s.pullRead mid k).1 = 0) ∧
    (∀ (s : State) (mid : Nat), (mid = 0x40 ∨ mid = 0x41) → s.on ROSIN_PULL_CTL_PENDING = false → s.entropyGone = false →
      ∃ t, exec (.rosinPullGo mid) s = .next t ∧ t.on ROSIN_PULL_CTL_PENDING = true ∧ t.on ROSIN_PULL_CTL_VALID = false ∧
        t.get ROSIN_PULL_CTL_STATUS = stOK ∧ SameMem s t) ∧
    ∀ s : State, s.delivStopped = true → s.on ROSIN_PULL_CTL_PENDING = true → ∃ t, exec .rosinWaitTimeout s = .next t ∧
      t.on ROSIN_PULL_CTL_PENDING = false ∧ t.get ROSIN_PULL_CTL_STATUS = stENTROPY_UNAVAILABLE ∧ t.rosin.timedOut = true ∧
      t.clock = max s.clock s.waitEnds

/-- RESERVE_PEG, IMPORT_GKE, ERASE_PEG, INFO_PEG, LOWER_LIMIT, DERIVE, RESERVE_PRIV, IMPORT_PRIV, DESTROY_PRIV,
INFO_PRIV, REKEY_ROOT, KEY_CMD_UNASSIGNED, KEY_CMD_TIMEOUT, VAULT_COPY and PEG_BLOB_LOAD complete with their status
and what they do to the slots. A GO while BUSY is ignored. Otherwise a master that may not run the command gets
NOT_PERMITTED, an unassigned OP BAD_OPCODE; an accepted command runs by its own rules: it ends with status and
detail, BUSY 0, or waits with BUSY 1. RESERVE_PEG of a FREE slot with a fitting key makes it RESERVED with the
staged fields, ERASE_PEG makes a slot FREE, installing makes it ACTIVE, counted 0 and resident, REKEY_ROOT makes a
root key present. A waiting command ends TIMEOUT. A good vault copy sets VAULT_READY. A good blob makes its slot
resident; a bad one makes it FAULTED and raises KEY_BLOB. (R421, R426, R427, R429, R430, R436, R442, R449, R451) -/
def Obligations.KeyCommandRows : Prop :=
  (∀ (s : State) (i : Instr) (mid op : Nat), keyRow i = some (mid, op) →
      (s.on KEY_CMD_RESULT_BUSY = true → exec i s = .next s) ∧
      (s.on KEY_CMD_RESULT_BUSY = false → keyMay mid op = false →
        ∃ t, exec i s = .next t ∧ t.on KEY_CMD_RESULT_BUSY = false ∧ t.get KEY_CMD_RESULT_STATUS = stNOT_PERMITTED ∧
          t.key.pegs = s.key.pegs ∧ t.key.privs = s.key.privs ∧ SameMem s t ∧ SameRegs [KEY_CMD_RESULT, INTC_SRC 464] s t) ∧
      (s.on KEY_CMD_RESULT_BUSY = false → keyMay mid op = true → s.on KEY_STATE_ZEROIZED = false → s.life ≠ lcRetired →
        (∀ st det u, s.keyBegin.keyRun (s.keyStaged mid op) = .fin st det u → u.flt.zeroizeDue = false → st < 256 → det < 256 →
          ∃ t, exec i s = .next t ∧ t.on KEY_CMD_RESULT_BUSY = false ∧ t.get KEY_CMD_RESULT_STATUS = st ∧
            t.get KEY_CMD_RESULT_DETAIL = det ∧ t.get (INTC_SRC_LEVEL 464) = 1 ∧ t.key.waiting = none ∧
            t.key.pegs = u.key.pegs ∧ t.key.privs = u.key.privs ∧ SameMem u t ∧ SameRegs [KEY_CMD_RESULT, INTC_SRC 464] u t) ∧
        (s.keyBegin.keyRun (s.keyStaged mid op) = .wait →
          ∃ t, exec i s = .next t ∧ t.on KEY_CMD_RESULT_BUSY = true ∧ t.key.waiting = some (s.keyStaged mid op) ∧
            t.key.pegs = s.key.pegs ∧ t.key.privs = s.key.privs ∧ SameMem s t ∧ SameRegs [KEY_CMD_RESULT, INTC_SRC 464] s t))) ∧
    (∀ (s : State) (mid op : Nat), op < 16 → keyOpAssigned op = false → s.on KEY_CMD_RESULT_BUSY = false →
      ∃ t, exec (.keyCmdUnassigned mid op) s = .next t ∧ t.on KEY_CMD_RESULT_BUSY = false ∧
        t.get KEY_CMD_RESULT_STATUS = stBAD_OPCODE ∧ t.key.pegs = s.key.pegs ∧ t.key.privs = s.key.privs ∧ SameMem s t ∧
        SameRegs [KEY_CMD_RESULT, INTC_SRC 464] s t) ∧
    (∀ (s : State) (c : KeyCmd), c.slot < 262096 → c.op = 1 → (s.peg c.slot).st = .free → c.attr / 2 ^ 28 < kaBRIDGE →
      useFits (c.attr / 2 ^ 28) (c.attr / 2 ^ 16 % 64) = true → bitOf (c.attr / 2 ^ 16 % 64) usePICK = false →
      bitOf c.attr 27 = false → c.limit = 0 →
      ∃ u, s.keyRun c = .fin stOK 0 u ∧ u.peg c.slot = { Peg.free with
        st := .reserved, kalg := c.attr / 2 ^ 28, use := c.attr / 2 ^ 16 % 64, users := c.users, epoch := c.attr % 2 ^ 14 } ∧
        (∀ j, j ≠ c.slot → u.peg j = s.peg j) ∧ SameMem s u ∧ SameRegs [KEY_PEG_ACTIVE, KEY_PEG_PINNED] s u) ∧
    (∀ (s : State) (c : KeyCmd), c.op = 3 →
      ∃ u, s.keyRun c = .fin stOK 0 u ∧ u.peg c.slot = Peg.free ∧ (∀ j, j ≠ c.slot → u.peg j = s.peg j) ∧ SameMem s u ∧
        SameRegs [KEY_PEG_ACTIVE, KEY_PEG_PINNED] s u) ∧
    (∀ (s : State) (i : Nat) (key : Bytes), ((s.pegInstall i key).peg i).st = .active ∧ ((s.pegInstall i key).peg i).count = 0 ∧
      ((s.pegInstall i key).peg i).key = key ∧ ((s.pegInstall i key).peg i).resident = true) ∧
    (∀ (s : State) (c : KeyCmd), c.op = 15 → s.get KEY_STATE_ROOT = 0 → s.life ≠ lcDebug → s.life ≠ lcRetired →
      (s.life = lcSealed → s.on CER_AUTHWIN_AUTH = true) → s.entropyGone = false → s.canDraw 2 = true → s.vaultHeld = false →
      ∃ u, s.keyRun c = .fin stOK 0 u ∧ u.get KEY_STATE_ROOT = 1 ∧ u.get KEY_STATE_ZEROIZED = 0 ∧ u.key.rootKey.isSome = true) ∧
    (∀ (s : State) (c : KeyCmd), s.key.waiting = some c →
      ∃ t, exec .keyCmdTimeout s = .next t ∧ t.key.waiting = none ∧ t.on KEY_CMD_RESULT_BUSY = false ∧
        t.get KEY_CMD_RESULT_STATUS = stTIMEOUT ∧ t.clock = max s.clock (c.at_ + cyclesPerMs * s.get KEY_CTL_TIMEOUT_MS) ∧
        t.key.pegs = s.key.pegs ∧ SameMem s t ∧ SameRegs [KEY_CMD_RESULT, INTC_SRC 464] s t) ∧
    (∀ s : State, s.get ROSIN_STATE_STATE = roReady → s.on KEY_STATE_VAULT_READY = false →
      exec (.vaultCopy []) s = .next (s.put KEY_STATE_VAULT_READY 1).lmsBoot.keyRetry) ∧
    (∀ s : State, s.get ROSIN_STATE_STATE = roReady → s.on KEY_STATE_VAULT_READY = false → s.key.waiting = none →
      (∀ i, (s.priv i).scheme ≠ scLMS) → ∃ t, exec (.vaultCopy []) s = .next t ∧ t.on KEY_STATE_VAULT_READY = true ∧
        t.key.privs = s.key.privs ∧ SameMem s t ∧ SameRegs [KEY_STATE_VAULT_READY.off] s t) ∧
    (∀ (s u s1 s2 : State) (i : Nat) (env : FabEnv) (b : Option Bytes), u = s.disturb env → (u.peg i).resident = false →
      ((u.peg i).st = .active ∨ (u.peg i).st = .spent) → u.pegRoom = true → s1 = u.inc64 KEY_PEG_MISS_LO KEY_PEG_MISS_HI 1 →
      s1.dramRead (blobAddr i) 64 = (b, s2) →
      (b = some (s2.pegBlob i (u.peg i)) →
        ∃ w, exec (.pegBlobLoad i env) s = .next (State.keyRetry w) ∧ (w.peg i).resident = true ∧ (w.peg i).key = (u.peg i).key ∧
          (w.peg i).st = (u.peg i).st ∧ (w.peg i).count = (u.peg i).count ∧
          (w.key.waiting = none → ∃ t, exec (.pegBlobLoad i env) s = .next t ∧ (t.peg i).resident = true)) ∧
      (b ≠ some (s2.pegBlob i (u.peg i)) → exec (.pegBlobLoad i env) s = .next ((((s2.setPeg i
        { u.peg i with st := .faulted }).keyFaultSlot false i).raise SRC_KEY_BLOB 0)).keyRetry))

/-- From Capo ring 0 or 1, with the key store idle, not zeroized and the module not Retired, for a slot that is ACTIVE
or SPENT: a limit above the current one ends with BAD_PARAM and every slot stays; one not above it ends OK, the
slot's limit is the new one, and the slot is SPENT if the new limit is at or below its count. Every other slot,
every other register and all of memory stay. (R428) -/
def Obligations.LowerLimitRule : Prop :=
  ∀ (s : State) (mid i m : Nat), (mid = 0x40 ∨ mid = 0x41) → s.on KEY_CMD_RESULT_BUSY = false → s.on KEY_STATE_ZEROIZED = false →
    s.life ≠ lcRetired → s.flt.zeroizeDue = false → i = s.get KEY_CMD_SLOT_SLOT → m = s.get64 KEY_CMD_LIMIT_LO KEY_CMD_LIMIT_HI →
    ((s.peg i).st = .active ∨ (s.peg i).st = .spent) →
    ∃ t, exec (.lowerLimit mid) s = .next t ∧ t.on KEY_CMD_RESULT_BUSY = false ∧ SameMem s t ∧
      SameRegs [KEY_CMD_RESULT, INTC_SRC 464, KEY_PEG_ACTIVE, KEY_PEG_PINNED] s t ∧ t.key.privs = s.key.privs ∧
      ((s.peg i).limit < m → t.get KEY_CMD_RESULT_STATUS = stBAD_PARAM ∧ t.key.pegs = s.key.pegs) ∧
      (m ≤ (s.peg i).limit → t.get KEY_CMD_RESULT_STATUS = stOK ∧ (t.peg i).limit = m ∧ (t.peg i).count = (s.peg i).count ∧
        (t.peg i).key = (s.peg i).key ∧ (m ≤ (s.peg i).count → (t.peg i).st = .spent) ∧
        ((s.peg i).count < m → (t.peg i).st = (s.peg i).st) ∧ ∀ j, j ≠ i → t.peg j = s.peg j)

/-- Only Capo ring 0 starts or aborts a ceremony, by the rows of CER_CTL. A start with 2 ≤ K ≤ N and no ceremony running
begins one of the staged kind. A share of another identity or one already taken is refused with BAD_PARAM; a good
one is kept and sets its bit of GOT. The last distinct card of an AUTHORISE sets AUTH. A confirmation of SHARE_OUT
sets its bit. A timeout or an abort ends the ceremony FAILED and erases its shares. The end of the window clears
AUTH. A zeroize erases root key, Peg slots and the ceremony and sets ZEROIZED. (R443, R445, R446, R447, R448, R449,
R451) -/
def Obligations.CeremonyRows : Prop :=
  (∀ (s : State) (mid : Nat) (v : Word32), (wordField v 31 31 = 1 →
        (wordField v 29 28 = ckIn → exec (.shareIn mid v) s = .next (s.cerCtlWrite mid v)) ∧
        (wordField v 29 28 = ckOut → exec (.shareOut mid v) s = .next (s.cerCtlWrite mid v)) ∧
        (wordField v 29 28 = ckAuth → exec (.authorise mid v) s = .next (s.cerCtlWrite mid v))) ∧
      (wordField v 30 30 = 1 → exec (.cerAbort mid v) s = .next (s.cerCtlWrite mid v)) ∧
      (mid ≠ 0x40 → s.cerCtlWrite mid v = s.regStore CER_CTL v)) ∧
    (∀ (s s1 : State) (v : Word32), s1 = s.regStore CER_CTL v → wordField v 31 31 = 1 → wordField v 30 30 = 0 →
      s1.get CER_STATE_STATE = 0 → 2 ≤ s1.get CER_CTL_K → s1.get CER_CTL_K ≤ s1.get CER_CTL_N → s1.on CER_CTL_SECLEN64 = false →
      s1.accepted CER_CTL_KIND v = wordField v 29 28 →
      (wordField v 29 28 = ckIn → ∃ t c, exec (.shareIn 0x40 v) s = .next t ∧ t.key.cer = some c ∧ c.kind = s1.get CER_CTL_KIND ∧
        c.k = s1.get CER_CTL_K ∧ c.n = s1.get CER_CTL_N ∧ c.shares = [] ∧ c.startedAt = s1.clock) ∧
      (wordField v 29 28 = ckAuth → ∃ t c, exec (.authorise 0x40 v) s = .next t ∧ t.key.cer = some c ∧ c.kind = s1.get CER_CTL_KIND ∧
        c.k = s1.get CER_CTL_K ∧ c.n = s1.get CER_CTL_N ∧ c.shares = [] ∧ c.startedAt = s1.clock) ∧
      (wordField v 29 28 = ckOut → s1.entropyGone = false → ∃ t c, exec (.shareOut 0x40 v) s = .next t ∧ t.key.cer = some c ∧
        c.kind = s1.get CER_CTL_KIND ∧ c.k = s1.get CER_CTL_K ∧ c.n = s1.get CER_CTL_N ∧ c.shares = [] ∧ c.startedAt = s1.clock)) ∧
    (∀ (s : State) (c : Ceremony) (v : Word32), s.key.cer = some c → wordField v 31 31 = 0 → wordField v 30 30 = 1 →
      s.calm (cfgSource CER_CTL) → ∃ t, exec (.cerAbort 0x40 v) s = .next t ∧ t.key.cer = none ∧ t.get CER_STATE_STATE = 4 ∧
        t.get CER_STATE_LASTSTATUS = stABORTED ∧ SameMem s t) ∧
    (∀ s : State, s.get CER_STATE_STATE ≠ 1 → s.get CER_STATE_STATE ≠ 2 → 2 ≤ s.get CER_CTL_K → s.get CER_CTL_K ≤ s.get CER_CTL_N →
      (s.on CER_CTL_SECLEN64 = true → s.get CER_CTL_KIND = ckAuth ∨ (s.peg (s.get CER_TARGET_SLOT)).kalg = kaSECRET) →
      (s.get CER_CTL_KIND = ckOut → s.entropyGone = false) →
      ∃ c, s.cerStart.key.cer = some c ∧ c.kind = s.get CER_CTL_KIND ∧ c.k = s.get CER_CTL_K ∧ c.n = s.get CER_CTL_N ∧
        c.target = s.get CER_TARGET_SLOT ∧ c.startedAt = s.clock ∧ c.shares = [] ∧ s.cerStart.get CER_STATE_GOT = 0 ∧
        s.cerStart.get CER_STATE_STATE = (if s.get CER_CTL_KIND = ckOut then 2 else 1)) ∧
    (∀ (s : State) (c : Ceremony), s.key.cer = some c → ∃ u, s.cerAbort = u ∧ u.key.cer = none ∧ u.get CER_STATE_STATE = 4 ∧
      u.get CER_STATE_LASTSTATUS = stABORTED ∧ SameMem s u ∧ SameRegs [CER_STATE, INTC_SRC 466] s u) ∧
    (∀ (s : State) (c : Ceremony) (index : Nat) (id bs chk : Bytes) (x k n len : Nat), s.key.cer = some c → c.kind = ckIn →
      s.on CARD_STATUS_SESSION = true → s.on CARD_STATUS_PINOK = true →
      ((id ≠ c.id ∨ k ≠ c.k ∨ n ≠ c.n ∨ len ≠ c.seclen ∨ x < 1 ∨ c.n < x ∨
          c.shares.any (fun t => decide (t.x = x)) = true) →
        ∃ t, exec (.cerStep 0x40 index (.share id x k n len bs chk)) s = .next t ∧ t.get CER_STATE_LASTSTATUS = stBAD_PARAM ∧
          t.key = s.key ∧ SameMem s t ∧ SameRegs [CER_STATE, INTC_SRC 466] s t) ∧
      (id = c.id → k = c.k → n = c.n → len = c.seclen → 1 ≤ x → x ≤ c.n → c.n ≤ 8 →
          c.shares.any (fun t => decide (t.x = x)) = false → c.shares.length + 1 < c.k →
        ∃ t, exec (.cerStep 0x40 index (.share id x k n len bs chk)) s = .next t ∧ t.get CER_STATE_LASTSTATUS = stOK ∧
          t.key.cer = some { c with shares := c.shares ++ [⟨id, x, k, n, len, bs, chk⟩] } ∧
          t.get CER_STATE_GOT = (s.get CER_STATE_GOT ||| 2 ^ (x - 1)) ∧ SameMem s t ∧ SameRegs [CER_STATE, INTC_SRC 466] s t)) ∧
    (∀ (s : State) (c : Ceremony) (index card : Nat), s.key.cer = some c → c.kind = ckAuth → s.on CARD_STATUS_SESSION = true →
      s.on CARD_STATUS_PINOK = true → c.shares.any (fun t => decide (t.x = card)) = false → c.k ≤ c.shares.length + 1 →
      ∃ t, exec (.cerStep 0x40 index (.present card)) s = .next t ∧ t.on CER_AUTHWIN_AUTH = true ∧ t.key.cer = none ∧
        t.get CER_STATE_STATE = 3 ∧ t.key.authUntil = s.clock + cyclesPerSec * s.get CER_AUTHWIN_S ∧ SameMem s t) ∧
    (∀ (s : State) (c : Ceremony) (index : Nat), s.key.cer = some c → c.kind = ckOut → c.secret ≠ [] →
      s.on CARD_STATUS_SESSION = true → s.on CARD_STATUS_PINOK = true → 1 ≤ index → index ≤ c.n → c.n ≤ 8 →
      (s.get CER_STATE_GOT ||| 2 ^ (index - 1)) ≠ 2 ^ c.n - 1 →
      ∃ t, exec (.cerStep 0x40 index .confirmed) s = .next t ∧ t.get CER_STATE_GOT = (s.get CER_STATE_GOT ||| 2 ^ (index - 1)) ∧
        t.key = s.key ∧ SameMem s t ∧ SameRegs [CER_STATE, INTC_SRC 466] s t) ∧
    (∀ (s : State) (c : Ceremony), s.key.cer = some c → ∃ t, exec .cerTimeout s = .next t ∧ t.key.cer = none ∧
      t.get CER_STATE_STATE = 4 ∧ t.get CER_STATE_LASTSTATUS = stTIMEOUT ∧ t.key.pegs = s.key.pegs ∧
      t.clock = max s.clock (c.startedAt + cyclesPerSec * s.get CER_TIMEOUT_S) ∧ SameMem s t ∧ SameRegs [CER_STATE, INTC_SRC 466] s t) ∧
    (∀ s : State, s.on CER_AUTHWIN_AUTH = true → ∃ t, exec .authwinExpiry s = .next t ∧ t.on CER_AUTHWIN_AUTH = false ∧
      t.clock = max s.clock s.key.authUntil ∧ SameMem s t ∧ SameRegs [CER_AUTHWIN] s t) ∧
    ∀ s : State, s.keyZeroize.key.pegs = [] ∧ s.keyZeroize.key.rootKey = none ∧ s.keyZeroize.key.cer = none ∧
      s.keyZeroize.key.waiting = none ∧ s.keyZeroize.get KEY_STATE_ROOT = 0 ∧ s.keyZeroize.on KEY_STATE_ZEROIZED = true ∧
      ∀ i, s.keyZeroize.privSt i = .lost

/-- CASE_READ, CASE_PROGRAM, CASE_ERASE, READ_TUNING, BLOCKINFO, RELOCATE, CASE_CMD_UNASSIGNED, CASE_PLANE_DISPATCH,
CASE_DIE_OP_DONE, READ_CACHE_FILL, CASE_REFRESH, REFRESH_AGE_FLAG and CASE_GEN_WRITE complete with their effects. A
GO while BUSY is ignored; a command that a check of R461 refuses ends with its status and detail and nothing is
queued; an accepted one waits for its plane, READ_TUNING and BLOCKINFO end at once. A plane takes its next
operation, an erase leaves its intent, a suspended erase resumes. An erase that ends well leaves the block erased
and counted, a program leaves its bytes in the cells and the next unit behind them, a read delivers. A cache fill
brings its page in. A flagged block under its grant is relocated. A block past its age is flagged. A word of
CASE_GEN is written only before sealing and without overlap. (R459, R460, R461, R462, R463, R464, R465, R466, R467,
R472, R474) -/
def Obligations.CaseRows : Prop :=
  (∀ (s : State) (i : Instr) (mid op : Nat), caseRow i = some (mid, op) →
      (s.on CASE_CMD_RESULT_BUSY = true → exec i s = .next s) ∧
      (s.on CASE_CMD_RESULT_BUSY = false →
        (∀ st det, s.caseBegin.caseRefuse mid op = some (st, det) → det ≠ dtXIP → st < 256 → det < 256 →
          ∃ t, exec i s = .next t ∧ t.on CASE_CMD_RESULT_BUSY = false ∧ t.get CASE_CMD_RESULT_STATUS = st ∧
            t.get CASE_CMD_RESULT_DETAIL = det ∧ t.die.waiting = s.die.waiting ∧ t.die.cells = s.die.cells ∧ SameMem s t ∧
            SameRegs [CASE_CMD_RESULT, INTC_SRC 320] s t) ∧
        (s.caseBegin.caseRefuse mid op = none →
          (∀ bs o, s.caseStaged op bs = some o → op ≠ coPROGRAM →
            ∃ t, exec i s = .next t ∧ t.on CASE_CMD_RESULT_BUSY = true ∧ t.die.waiting = s.die.waiting ++ [o] ∧
              t.die.cmd = some (mid, s.addr40 CASE_CMD_BUF_LO) ∧ t.die.cells = s.die.cells ∧ SameMem s t ∧
              SameRegs [CASE_CMD_RESULT, INTC_SRC 320] s t) ∧
          (∀ s1 s2 b, op = coPROGRAM →
            s1 = { s.caseBegin with die := { s.caseBegin.die with cmd := some (mid, s.addr40 CASE_CMD_BUF_LO) } } →
            State.keyRead s1 (s.addr40 CASE_CMD_BUF_LO) (s.get CASE_CMD_LEN_LEN) = (b, s2) →
            (∀ bs o, b = some bs → s.caseStaged op bs = some o → ∃ t, exec i s = .next t ∧ t = s2.dieQueue o ∧
              t.die.waiting = s.die.waiting ++ [o]) ∧
            (b = none → ∃ t, exec i s = .next t ∧ t = s2.caseEnd stABORTED dtMEMORY ∧ t.on CASE_CMD_RESULT_BUSY = false ∧
              t.get CASE_CMD_RESULT_STATUS = stABORTED ∧ t.get CASE_CMD_RESULT_DETAIL = dtMEMORY ∧ t.die.waiting = s.die.waiting)) ∧
          (op = coTUNING → ∃ u : State, exec i s = .next ((u.keyWrite (s.addr40 CASE_CMD_BUF_LO)
            (tuningRow.take (s.get CASE_CMD_LEN_LEN))).caseEnd stOK 0) ∧ SameMem s u ∧
            SameRegs [CASE_CMD_RESULT, INTC_SRC 320] s u ∧ ∃ t, exec i s = .next t ∧ t.on CASE_CMD_RESULT_BUSY = false ∧
              t.get CASE_CMD_RESULT_STATUS = stOK) ∧
          (op = coINFO → ∃ t, exec i s = .next t ∧ t.on CASE_CMD_RESULT_BUSY = false ∧ t.get CASE_CMD_RESULT_STATUS = stOK ∧
            t.get (CASE_INFO_WORD 0) = (s.blk (s.get CASE_CMD_ADDR_BLOCK)).erases % 2 ^ 32 ∧
            t.get (CASE_INFO_WORD 1) = (s.blk (s.get CASE_CMD_ADDR_BLOCK)).retry % 2 ^ 32 ∧ SameMem s t)))) ∧
    (∀ (s : State) (mid op : Nat), op < 16 → (op = 0 ∨ 7 ≤ op) → s.on CASE_CMD_RESULT_BUSY = false →
      ∃ t, exec (.caseCmdUnassigned mid op) s = .next t ∧ t.on CASE_CMD_RESULT_BUSY = false ∧
        t.get CASE_CMD_RESULT_STATUS = stBAD_OPCODE ∧ t.die.waiting = s.die.waiting ∧ SameMem s t ∧
        SameRegs [CASE_CMD_RESULT, INTC_SRC 320] s t) ∧
    (∀ (s : State) (plane : Nat), plane < 4 → tget s.die.running plane = none → s.flt.zeroizeDue = false →
      (∀ o, tget s.die.asleep plane = none → s.dieChoice plane = some o →
        ((∃ n, o.work = .read n) ∨ o.work = .erase) →
        ∃ t, exec (.casePlaneDispatch plane) s = .next t ∧ tget t.die.running plane = some o ∧
          t.die.waiting = dropOp o s.die.waiting ∧ (o.work = .erase → (t.blk o.block).intent = true) ∧
          t.die.cells = s.die.cells ∧ SameMem s t ∧ SameRegs [] s t) ∧
      (∀ e, tget s.die.asleep plane = some e → (s.dieChoice plane).any (fun o => decide (o.cls = 0)) = false →
        s.on CASE_STATUS_SUSPENDED = false →
        ∃ t, exec (.casePlaneDispatch plane) s = .next t ∧ tget t.die.running plane = some e ∧ tget t.die.asleep plane = none ∧
          SameMem s t ∧ SameRegs [] s t)) ∧
    (∀ (s : State) (plane : Nat) (o e : DieOp), plane < 4 → tget s.die.running plane = some e → e.work = .erase →
      s.dieChoice plane = some o → o.cls = 0 → (∃ n, o.work = .read n) → s.flt.zeroizeDue = false →
      ∃ t, exec (.casePlaneDispatch plane) s = .next t ∧ tget t.die.running plane = some o ∧ tget t.die.asleep plane = some e ∧
        t.get CASE_ERASE_SUSP_COUNT = (s.inc CASE_ERASE_SUSP_COUNT).get CASE_ERASE_SUSP_COUNT ∧ SameMem s t) ∧
    (∀ (s : State) (plane step corr resends : Nat) (o : DieOp), tget s.die.running plane = some o → s.flt.zeroizeDue = false →
      (o.work = .erase → ∃ t, exec (.caseDieOpDone plane (.ok step corr) resends) s = .next t ∧
        tget t.die.running plane = none ∧ t.on CASE_CMD_RESULT_BUSY = false ∧ t.get CASE_CMD_RESULT_STATUS = stOK ∧
        t.blk o.block = { CaseBlk.empty with erases := (s.blk o.block).erases + 1 } ∧
        (∀ page n, page < 128 → n ≤ 4096 → t.pageRead o.block page n = List.replicate n 0xFF) ∧ SameMem s t) ∧
      (∀ u bs z, o.work = .program u bs → s.caseZone o.block = some z → resends < 4 →
        ∃ t, exec (.caseDieOpDone plane (.ok step corr) resends) s = .next t ∧ tget t.die.running plane = none ∧
          t.on CASE_CMD_RESULT_BUSY = false ∧ t.get CASE_CMD_RESULT_STATUS = stOK ∧
          (t.blk o.block).next = nextUnit z o.page u bs.length ∧ SameMem s t ∧
          (∀ i, i < bs.length → tgetD t.die.cells (dieAddr o.block (4096 * o.page + u * z.unit_) + i) 0xFF = bs.getD i 0) ∧
          ∀ a, a < dieAddr o.block (4096 * o.page + u * z.unit_) ∨ dieAddr o.block (4096 * o.page + u * z.unit_) + bs.length ≤ a →
            tgetD t.die.cells a 0xFF = tgetD s.die.cells a 0xFF) ∧
      (∀ n, o.work = .read n → resends < 4 → ∃ u : State, exec (.caseDieOpDone plane (.ok step corr) resends) s =
          .next (State.settle (u.caseReadEnd o.block o.page n (min step 7) (min corr 72))) ∧ u.die.cmd = s.die.cmd ∧
        u.die.cells = s.die.cells ∧ SameMem s u ∧ SameRegs [CASE_RESEND] s u) ∧
      (∀ n, o.work = .read n → 4 ≤ resends → ∃ u : State, exec (.caseDieOpDone plane (.ok step corr) resends) s =
          .next (State.settle (u.caseEnd stABORTED dtMEMORY)) ∧ u.die.cells = s.die.cells)) ∧
    (∀ (s : State) (page step corr resends stall : Nat), page < 2048 → resends < 4 → s.flt.zeroizeDue = false →
      ∃ t, exec (.readCacheFill page (.ok step corr) resends stall) s = .next t ∧ t.die.cache.getLast? = some page ∧
        page ∉ t.die.badPages ∧ t.die.cells = s.die.cells ∧ SameMem s t) ∧
    (∀ (s : State) (block : Nat), 0 < s.ledHolds laREFRESH → s.led.block = some block → (s.blk block).flagged = true →
      s.die.waiting.contains ⟨4, block, 0, .relocate false⟩ = false → tget s.die.running (block % 4) ≠ some ⟨4, block, 0, .relocate false⟩ →
      ∃ t, exec (.caseRefresh block) s = .next t ∧ t.die.waiting = s.die.waiting ++ [⟨4, block, 0, .relocate false⟩] ∧
        SameMem s t ∧ SameRegs [] s t) ∧
    (∀ (s : State) (block : Nat), block < 512 → (s.blk block).next ≠ 0 → (s.blk block).flagged = false →
      (s.blk block).since + 86400000 * s.get CASE_REFRESH_CFG_DAYS < s.time.opTime →
      ∃ t, exec (.refreshAgeFlag block) s = .next t ∧ (t.blk block).flagged = true ∧ (∀ b, b ≠ block → t.blk b = s.blk b) ∧ SameMem s t) ∧
    ∀ (s : State) (k word : Nat) (v : Word32), k < 8 → word < 3 →
      (s.slOpen = false → exec (.caseGenWrite k word v) s = .next s) ∧
      (s.slOpen = true → s.genOverlap k (if word = 0 then v else s.rd (CASE_GEN_RANGE k)) = true →
        exec (.caseGenWrite k word v) s = .next (s.raise SRC_CASE_CFG 0)) ∧
      (s.slOpen = true → word = 2 → s.on (CASE_GEN_RANGE_EN k) = false →
        ∃ t, exec (.caseGenWrite k word v) s = .next t ∧ t = s.regStore (CASE_GEN_RINGS k) v ∧ SameMem s t ∧ t.die = s.die)

/-- While the buffer holds fewer than 240 records, a record enters at its end with the next sequence number and the mark
of a loss before it; from 240 on it is dropped, counted and LOST is noted, but a security or fatal record enters up
to 256. The 192nd starts a flush. A flush takes the records that stood in the buffer when it started and puts them,
in order, at the write point of the ring. FLUSH, an aged record and the Capo's EVREC_PUT act as their rows say. An
authorised clear consumes the authorisation, empties the buffer and zeroes the loss count; another is refused with
NOT_PERMITTED and leaves the ring. The window reads the record with its sequence number. (R477, R478, R479, R480,
R481, R483, R484) -/
def Obligations.EventRecorderRows : Prop :=
  (∀ (s : State) (source code status : Nat) (payload : Bytes), s.ev.buf.length < 240 → s.flt.zeroizeDue = false →
      ∃ t r, exec (.eventRecordEnter source code status payload) s = .next t ∧ t.ev.buf = s.ev.buf ++ [(r, s.clock)] ∧
        r.source = source % 512 ∧ r.code = code % 65536 ∧ r.status = status % 256 ∧ r.seq = s.ev.nextSeq ∧ r.pad = false ∧
        r.lostBefore = s.ev.lostPend ∧ r.payload = payload32 payload ∧ r.stamp = s.stamp ∧ t.ev.lostPend = false ∧
        t.get EVREC_STATUS_FILL = s.ev.buf.length + 1 ∧ t.ev.ring = s.ev.ring ∧ SameMem s t ∧
        (192 ≤ s.ev.buf.length + 1 → t.ev.flushN.isSome = true) ∧
        SameRegs [EVREC_STATUS, EVREC_NEWEST, EVREC_OLDEST] s t) ∧
    (∀ (s : State) (source code status : Nat) (payload : Bytes), 240 ≤ s.ev.buf.length →
      ∃ u, exec (.eventRecordEnter source code status payload) s = .next (State.settle u) ∧ u.ev.buf = s.ev.buf ∧
        u.ev.lostPend = true ∧ u.get EVREC_LOST_COUNT = (s.inc EVREC_LOST_COUNT).get EVREC_LOST_COUNT ∧ SameMem s u) ∧
    (∀ (s : State) (source code status origin : Nat) (pl : Bytes) (flush : Bool), s.ev.buf.length < 256 →
      (s.evPut source code status origin pl true flush).ev.buf.length = s.ev.buf.length + 1) ∧
    (∀ (s : State) (n : Nat), s.ev.flushN = some n → n ≤ 256 → s.ev.wp < ringRecs →
      ∃ t, exec .evrecFlush s = .next t ∧ t.ev.buf = s.ev.buf.drop n ∧
        (∀ i, i < n → i < s.ev.buf.length → tget t.ev.ring ((s.ev.wp + i) % ringRecs) = (s.ev.buf[i]?).map Prod.fst) ∧
        t.pick.copyReq = true ∧ (s.ev.again = false → t.ev.flushN = none ∧ t.on EVREC_STATUS_FLUSHING = false) ∧
        (s.ev.again = true → t.ev.flushN = some (s.ev.buf.length - n) ∧ t.ev.again = false)) ∧
    (∀ (s : State) (v : Word32), wordField v 31 31 = 1 → ∃ t, exec (.evrecFlushWrite v) s = .next t ∧
      t = (s.regStore EVREC_CTL v).flushStart ∧ t.ev.flushN.isSome = true) ∧
    (∀ s : State, (s.ev.flushN = none → s.flushStart.ev.flushN = some s.ev.buf.length ∧ s.flushStart.on EVREC_STATUS_FLUSHING = true) ∧
      (s.ev.flushN.isSome = true → s.flushStart.ev.again = true ∧ s.flushStart.ev.flushN = s.ev.flushN)) ∧
    (∀ (s : State) (e : EvRec × Nat) (rest : List (EvRec × Nat)), s.ev.buf = e :: rest →
      ∃ t, exec .evrecMaxageExpiry s = .next t ∧ t.ev.flushN.isSome = true ∧ t.ev.buf = s.ev.buf ∧
        t.clock = max s.clock (e.2 + cyclesPerSec * s.get EVREC_CTL_MAXAGE) ∧ SameMem s t ∧ SameRegs [EVREC_STATUS] s t) ∧
    (∀ (s : State) (mid : Nat) (v : Word32), wordField v 31 31 = 1 → 0x40 ≤ mid → mid ≤ 0x43 → s.ev.buf.length < 240 →
      s.flt.zeroizeDue = false → ∃ t r, exec (.evrecPut mid v) s = .next t ∧ t.ev.buf = s.ev.buf ++ [(r, s.clock)] ∧
        r.source = srcCapo (mid - 0x40) ∧ r.code = wordField v 15 0 ∧ r.origin = mid ∧
        r.payload = payload32 (s.regBytes (EVREC_PUT 0) 8) ∧ SameMem s t) ∧
    (∀ s : State, s.on CER_AUTHWIN_AUTH = true → ∃ t, exec (.evrecClear 0x41) s = .next t ∧ t.on CER_AUTHWIN_AUTH = false ∧
      t.ev.buf = [] ∧ t.get EVREC_LOST_COUNT = 0 ∧ t.get EVREC_STATUS_CLRSTATUS = stOK ∧ t.get (INTC_SRC_LEVEL 325) = 1 ∧
      t.ev.oldestFloor = some (t.get EVREC_NEWEST_SEQ) ∧ SameMem s t) ∧
    (∀ (s : State) (mid : Nat), (mid ≠ 0x41 ∨ s.on CER_AUTHWIN_AUTH = false) → ∃ u, exec (.evrecClear mid) s = .next (State.settle u) ∧
      u.get EVREC_STATUS_CLRSTATUS = stNOT_PERMITTED ∧ u.ev.ring = s.ev.ring ∧ u.on CER_AUTHWIN_AUTH = s.on CER_AUTHWIN_AUTH ∧ SameMem s u) ∧
    ∀ (s : State) (mid i : Nat), i < 65536 → ∃ t, exec (.evrecWindowRead mid i) s = .next t ∧
      t.mem.reply = [⟨0x30400000 + 64 * i, 64, true, false, s.windowRecord (evReader mid) i⟩] ∧ SameMem s t ∧ SameRegs [] s t

/-- Ring 1 requests and releases EPOCH_ROLL, ring 0 FIRMWARE_COMMIT, no other master does. The ledger grants only a
waiting request that meets no conflict; the grant counts one more held and leaves the list; a release counts one
less. A request that waits too long is noted and requests LEDGER_WAIT. The table scrub, the DRAM scrub, an LMS
reservation and the self-test of the array do their work where the ledger lets them in, and release it. (R366, R416,
R485, R486, R487) -/
def Obligations.LedgerRows : Prop :=
  (∀ (s : State) (mid a : Nat),
      ((a = laROLL ∧ mid = 0x41) ∨ (a = laCOMMIT ∧ mid = 0x40 ∧ s.led.waiting.any (fun r => decide (r.act = laCOMMIT ∧ r.block = 0)) = false) →
        ∃ t, exec (.ledgerRequest mid a) s = .next t ∧ t.led.waiting = s.led.waiting ++ [⟨a, s.clock, 0, false⟩] ∧ SameMem s t ∧
          SameRegs [LEDGER_STATUS] s t) ∧
      ((a = laROLL ∧ mid = 0x41) ∨ (a = laCOMMIT ∧ mid = 0x40) → 0 < s.ledHolds a →
        ∃ t, exec (.ledgerRelease mid a) s = .next t ∧ t.ledHolds a = s.ledHolds a - 1 ∧ t.led.waiting = s.led.waiting ∧ SameMem s t ∧
          SameRegs [LEDGER_STATUS, LEDGER_ACT a] s t) ∧
      (¬ ((a = laROLL ∧ mid = 0x41) ∨ (a = laCOMMIT ∧ mid = 0x40)) →
        exec (.ledgerRequest mid a) s = .next s ∧ exec (.ledgerRelease mid a) s = .next s)) ∧
    (∀ (s : State) (r : LedReq), s.ledNext = some r → r ∈ s.led.waiting ∧ s.ledConflict r = false ∧
      (r.act = laREFRESH → ∀ q, q ∈ s.led.waiting → q.act = laLMS → s.ledConflict q = true)) ∧
    (∀ (s : State) (r : LedReq), s.ledNext = some r → r.act < 7 → ∃ t, exec .ledgerGrant s = .next t ∧
      t.led.waiting = removeFirst r s.led.waiting ∧ t.ledHolds r.act = (s.ledHolds r.act + 1) % 2 ^ 16 ∧
      (∀ b, b < 7 → b ≠ r.act → t.ledHolds b = s.ledHolds b) ∧ SameMem s t ∧
      SameRegs [LEDGER_STATUS, LEDGER_ACT r.act, LEDGER_RUNS r.act, LEDGER_MAXSEEN r.act, INTC_SRC 327] s t) ∧
    (∀ (s : State) (r : LedReq), s.led.waiting.find? (fun r => !r.noted) = some r → ∃ u, exec .ledgerMaxwait s = .next (State.settle u) ∧
      u.led.waiting = s.led.waiting.map (fun q => if q = r then { q with noted := true } else q) ∧ u.get (INTC_SRC_LEVEL 326) = 1 ∧
      u.clock = max s.clock (r.since + cyclesPerMs * s.get (LEDGER_CFG_MAXWAIT r.act)) ∧ SameMem s u) ∧
    (∀ (s s2 : State) (b : Bool), (s.passTo (s.ledDue laTABLE)).ledEnter laTABLE 0 = (b, s2) →
      (b = false → ∃ t, exec .tableScrub s = .next t ∧ t = s2 ∧ t.clock = max s.clock (s.ledDue laTABLE)) ∧
      (b = true → ∀ u, u = s2.tableEntries.foldl (fun t i => t.scrubEntry i) s2 →
        exec .tableScrub s = .next ((u.ledRan laTABLE).ledRelease laTABLE).settle ∧
        (u.flt.zeroizeDue = false → ∃ t, exec .tableScrub s = .next t ∧ t.ledHolds laTABLE = u.ledHolds laTABLE - 1 ∧
          tget t.led.lastRun laTABLE = some u.clock))) ∧
    (∀ (s : State) (i : Nat), (s.inRollRange i = true ∨ eon (s.entry i) eV = false) → s.scrubEntry i = s) ∧
    (∀ (s s2 : State) (env : FabEnv) (b : Bool), ((s.disturb env).passTo (s.ledDue laDRAM)).ledEnter laDRAM 0 = (b, s2) →
      (b = false → ∃ t, exec (.dramScrub env) s = .next t ∧ t = s2 ∧ t.clock = max s.clock (s.ledDue laDRAM)) ∧
      (b = true → s2.ledHolds laTABLE = 0 → ∀ u,
        u = (List.range 69632).foldl (fun t p => t.guardRewrite p) (s2.scrubLines dramBase) →
        exec (.dramScrub env) s = .next ((u.ledRan laDRAM).ledRelease laDRAM).settle ∧
        (u.flt.zeroizeDue = false → ∃ t, exec (.dramScrub env) s = .next t ∧ t.ledHolds laDRAM = u.ledHolds laDRAM - 1 ∧
          tget t.led.lastRun laDRAM = some u.clock))) ∧
    (∀ (s s1 : State) (slot : Nat), slot < 4096 → (s.priv slot).st = .active → (s.priv slot).scheme = scLMS → (s.priv slot).reserving = true →
      s.ledEnter laLMS 0 = (true, s1) → s1.vaultHeld = false → exec (.lmsReserve slot) s =
        .next (((List.range 16).foldl (fun t n => t.lmsResume slot n) ((s1.setPriv slot { s.priv slot with
          rh := min ((s.priv slot).rh + s1.get SOUND_LMS_RES_BLOCK) (2 ^ lmsHeight (s.priv slot).pset),
          reserving := false }).ledRelease laLMS)).lmsLow slot).settle ∧
        (s.jobs.jobs = [] → s.flt.zeroizeDue = false → ∃ t, exec (.lmsReserve slot) s = .next t ∧
          (t.priv slot).rh = min ((s.priv slot).rh + s1.get SOUND_LMS_RES_BLOCK) (2 ^ lmsHeight (s.priv slot).pset) ∧
          (t.priv slot).qn = (s.priv slot).qn)) ∧
    ∀ (s s2 : State) (b : Bool), s.get ROSIN_STATE_STATE = roReady → s.get ROSIN_PST_PERIOD ≠ 0 →
      (s.passTo (s.rosin.pstAt + cyclesPerSec * s.get ROSIN_PST_PERIOD)).ledEnter laPST 0 = (b, s2) →
      (b = false → ∃ t, exec (.rosinPst [] []) s = .next t ∧ t = s2 ∧
        t.clock = max s.clock (s.rosin.pstAt + cyclesPerSec * s.get ROSIN_PST_PERIOD)) ∧
      (b = true → s.flt.zeroizeDue = false → ∃ t, exec (.rosinPst [] []) s = .next t ∧ t.rosin.pstAt = t.clock ∧ t.rosin.run = [] ∧
        t.rosin.reserve = s.rosin.reserve ∧ t.ledHolds laPST = s2.ledHolds laPST - 1 ∧
        (∀ c, c < 4 → t.get (ROSIN_COND_KATRUNS c) = (s.get (ROSIN_COND_KATRUNS c) + 1) % (ROSIN_COND_KATRUNS c).max.succ) ∧ SameMem s t)

/-- An event of an enabled quantity (of a loop's detector A: a frame of which 4 or more places are wrong) counts once:
one that completes the count confirms the quantity, which latches, sets sticky flag 2q and becomes LAST, and with
action ALARM raises the alarm, whose zeroize follows; one that meets the other detector's within the pair window
counts no second time; while latched it only counts. A window without an event re-arms. A lone event sets flag 2q +
1 and counts a disagreement. A test that every detector answers clears DETFAIL. The log takes the oldest entry into
the next unit. The flags are cleared only by ring 0 with an authorisation. An injected confirmation sets no flag and
writes no entry unless FORCEFULL is 1. In P3 Watch a cycle without an event starts the count again. (R491, R492,
R493, R494, R495, R496, R498, R499, R501, R502, R503, R512) -/
def Obligations.TamperRows : Prop :=
  (∀ (s : State) (q reading : Nat) (detB : Bool) (frame : List Bool), q < 24 → s.on (TSRC_CFG_EN q) = true → s.pstate ≠ .p3 →
      (8 ≤ q ∨ detB = true ∨ 4 ≤ (mismatches (s.loopDriven q) frame).length) →
      ∃ u, exec (.tamperDetection q detB reading frame) s = .next (State.settle u) ∧ u.on TAMPER_STATUS_EVENT = true ∧
        u.get (TSRC_READING_VALUE q) = reading % 65536 ∧ SameMem s u ∧
        (s.on (TSRC_STATUS_LATCHED q) = true → u.get (TSRC_EVENTS_COUNT q) = (s.inc (TSRC_EVENTS_COUNT q)).get (TSRC_EVENTS_COUNT q) ∧
          u.sticky = s.sticky ∧ u.tamp.log = s.tamp.log ∧ u.tamp.evid = s.tamp.evid ∧ u.flt = s.flt) ∧
        (s.on (TSRC_STATUS_LATCHED q) = false → s.lone q detB = true → s.inWin q < s.needs q →
          u.on (TSRC_STATUS_LATCHED q) = false ∧ u.sticky = s.sticky ∧ u.flt = s.flt ∧ (u.qty q).events.length = s.inWin q) ∧
        (s.on (TSRC_STATUS_LATCHED q) = false → s.lone q detB = true → s.needs q ≤ s.inWin q →
          (∀ e, e ∈ (s.qty q).events → e.2.2 = false) →
          u.on (TSRC_STATUS_LATCHED q) = true ∧ bitOf u.sticky (2 * q) = true ∧ u.get TAMPER_STATUS_LAST = q ∧
          (s.get (TSRC_CFG_ACTION q) = 2 → u.on TAMPER_STATUS_ALARMED = true ∧
            (s.pstate = .p0 ∨ s.pstate = .p1 → u.flt.zeroizeDue = true) ∧
            (s.pstate = .p2 → u.key.rootKey = none ∧ u.pwr.alarmReset = true))) ∧
        (s.on (TSRC_STATUS_LATCHED q) = false → s.lone q detB = false →
          u.on (TSRC_STATUS_LATCHED q) = false ∧ (u.qty q).events.length = (s.qty q).events.length ∧ u.sticky = s.sticky ∧ u.flt = s.flt)) ∧
    (∀ (s : State) (q reading : Nat) (frame : List Bool), q < 8 → s.on (TSRC_CFG_EN q) = true → s.pstate ≠ .p3 →
      (mismatches (s.loopDriven q) frame).length < 4 → s.flt.zeroizeDue = false →
      ∃ t, exec (.tamperDetection q false reading frame) s = .next t ∧ t.get (TSRC_READING_VALUE q) = reading % 65536 ∧
        t.get (TSRC_STATUS_A q) = 0 ∧ t.qty q = s.qty q ∧ t.sticky = s.sticky ∧ SameMem s t) ∧
    (∀ (s : State) (q n det extra : Nat), q < 24 → s.on FAULT_CTL_FORCEFULL = false →
      (s.confirm q n det extra true).sticky = s.sticky ∧ (s.confirm q n det extra true).tamp.log = s.tamp.log ∧
      (s.confirm q n det extra true).tamp.evid = s.tamp.evid ∧ (s.confirm q n det extra true).on (TSRC_STATUS_LATCHED q) = true) ∧
    (∀ (s : State) (q : Nat) (v : Word32), q < 24 → exec (.tamperForce q v) s = .next (s.forceWrite q v) ∧
      (wordField v 0 0 = 1 → wordField v 1 1 = 0 →
        s.forceWrite q v = (s.tamperEvent q false (s.get (TSRC_READING_VALUE q)) 0 true).settle ∧
        (s.on (TSRC_CFG_EN q) = true → s.pstate ≠ .p3 →
          (s.tamperEvent q false (s.get (TSRC_READING_VALUE q)) 0 true).flt.zeroizeDue = false →
          ∃ t, exec (.tamperForce q v) s = .next t ∧ t.on TAMPER_STATUS_EVENT = true ∧ t.get (TSRC_STATUS_A q) = 1))) ∧
    (∀ (s : State) (q : Nat), q < 24 → s.on (TSRC_STATUS_LATCHED q) = true → ∃ t, exec (.tamperRearm q) s = .next t ∧
      t.on (TSRC_STATUS_LATCHED q) = false ∧ (t.qty q).events = [] ∧ t.get (TSRC_STATUS_INWIN q) = 0 ∧
      t.clock = max s.clock ((s.qty q).lastEv + cyclesPerUs * s.get (TSRC_WINDOW_US q)) ∧ SameMem s t ∧
      SameRegs [TSRC_STATUS q] s t) ∧
    (∀ (s : State) (q : Nat) (detB : Bool) (l : Bool × Nat × Bool), q < 24 →
      (s.qty q).lone.find? (fun l => decide (l.1 = detB)) = some l →
      ∃ u, exec (.pairDisagreement q detB) s = .next (if s.logicOn then State.settle u else u) ∧ bitOf u.sticky (2 * q + 1) = true ∧
        u.get (TSRC_DISAGREES_COUNT q) = (s.inc (TSRC_DISAGREES_COUNT q)).get (TSRC_DISAGREES_COUNT q) ∧ SameMem s u) ∧
    (∀ s : State, s.logicOn = true → s.flt.zeroizeDue = false → ∃ t, exec (.detectorBist ⟨[], []⟩) s = .next t ∧
      (∀ q, q < 24 → s.on (TSRC_CFG_EN q) = true → t.on (TSRC_STATUS_DETFAIL q) = false) ∧ SameMem s t) ∧
    (∀ (s : State) (q det : Nat), q < 24 → s.on (TSRC_CFG_EN q) = true → det % 4 ≠ 0 →
      bitOf (s.bistQty q det).sticky (2 * q + 1) = true ∧ (s.bistQty q det).on (TSRC_STATUS_DETFAIL q) = true) ∧
    (∀ (s : State) (e : Bytes) (es : List Bytes), s.logicOn = true → e.length = 28 → s.get TAMPER_LOGCOUNT_COUNT < 65536 →
      (s.tamp.evid = e :: es ∨ (s.tamp.evid = [] ∧ s.tamp.log = e :: es)) → ∀ n, n = s.get TAMPER_LOGCOUNT_COUNT →
      ∃ u, exec .tamperLogAppend s = .next (State.settle u) ∧ u.get TAMPER_LOGCOUNT_COUNT = n + 1 ∧ SameMem s u ∧
        (if s.tamp.evid = [] then u.tamp.log = es else u.tamp.evid = es ∧ u.tamp.log = s.tamp.log) ∧
        ∀ i, i < 28 → tgetD u.die.cells (dieAddr (10 + n / 16384) (n % 16384 * 32) + i) 0xFF = e.getD i 0) ∧
    (∀ (s : State) (mid : Nat),
      (mid = 0x40 → s.on CER_AUTHWIN_AUTH = true → ∃ u, exec (.tamperStickyClr mid) s = .next (State.settle u) ∧ u.sticky = 0 ∧
        u.on CER_AUTHWIN_AUTH = false ∧ u.get TAMPER_STICKY_CLR_CLRSTATUS = stOK ∧ SameMem s u) ∧
      ((mid ≠ 0x40 ∨ s.on CER_AUTHWIN_AUTH = false) → ∃ u, exec (.tamperStickyClr mid) s = .next (State.settle u) ∧ u.sticky = s.sticky ∧
        u.on CER_AUTHWIN_AUTH = s.on CER_AUTHWIN_AUTH ∧ u.get TAMPER_STICKY_CLR_CLRSTATUS = stNOT_PERMITTED ∧ SameMem s u)) ∧
    (∀ s : State, s.pstate = .p3 → ∃ t, exec (.watchCycle []) s = .next t ∧ t.clock = s.clock + cyclesPerMs * s.get PWR_WATCH_PERIOD ∧
      SameMem s t ∧ ∀ q, q < 24 → s.on (TSRC_CFG_EN q) = true → s.on (TSRC_CFG_P3 q) = true →
        (t.qty q).watch = 0 ∧ t.on (TSRC_STATUS_LATCHED q) = false) ∧
    ∀ (s : State) (q det : Nat), q < 24 → det % 4 ≠ 0 → s.on (TSRC_STATUS_LATCHED q) = false →
      s.get (TSRC_CFG_P3COUNT q) ≤ (s.qty q).watch + 1 →
      (s.watchQty q det).on (TSRC_STATUS_LATCHED q) = true ∧ bitOf (s.watchQty q det).sticky (2 * q) = true

/-- FAULT_RECORD_CLOSE, FAULT_FORCE, FAULTN_PULSE_END, FAULT_NCTL_RELEASE, WDOG_CAPO_KICK, WDOG_MOD_KICK,
WDOG_CAPO_WARN, WDOG_CAPO_EXPIRY, WDOG_MODULE_WARN and WDOG_MODULE_EXPIRY complete with their effects. A source
raised with no record open opens one, a source raised while one is open merges into it, and both count RAISED. The
record closes into the next FAULT_LOG entry and the event recorder. A forced raise takes neither RESET nor ZEROIZE
unless FORCEFULL is 1. At the end of the pulse FAULT_N is released unless it is held; ring 0 releases it, never
before the pulse ends. A kick is 0x5A5A then 0xA5A5 by ring 0; any other value, order or writer reloads nothing and
counts BADKICK. Warnings come at half, expiries at the whole of the time-out; the module watchdog latches its
expiry, drives FAULT_N and asks for the reset. (R507, R508, R511, R514, R515, R517, R518, R519, R520) -/
def Obligations.FaultAndWatchdogRows : Prop :=
  (∀ (s : State) (src info : Nat) (forced : Bool), src < 320 →
      (s.raiseCore src info forced).get (FAULT_SRC_RAISED src) = (s.inc (FAULT_SRC_RAISED src)).get (FAULT_SRC_RAISED src) ∧
      (s.flt.open_ = none → ∃ r, (s.raiseCore src info forced).flt.open_ = some r ∧ r.source = src ∧ r.info = info ∧ r.forced = forced ∧
        r.merges = 0 ∧ r.openedAt = s.clock) ∧
      (∀ r, s.flt.open_ = some r → ∃ r', (s.raiseCore src info forced).flt.open_ = some r' ∧ r'.source = r.source ∧
        r'.merges = satAt 255 (r.merges + 1) ∧ r'.cls = max r.cls (faultClass src) ∧ r'.info = r.info) ∧
      (forced = true → s.on FAULT_CTL_FORCEFULL = false → (s.raiseCore src info forced).resetPend = s.resetPend ∧
        (s.raiseCore src info forced).flt.zeroizeDue = s.flt.zeroizeDue)) ∧
    (∀ (s : State) (r : FaultRec) (res : SelfTest), s.flt.open_ = some r → r.cls < 4 → s.ev.buf.length < 240 → s.flt.logNext < 16 →
      s.flt.zeroizeDue = false → ∃ t e, exec (.faultRecordClose res) s = .next t ∧ t.flt.open_ = none ∧ t.on FAULT_OPEN_OPEN = false ∧
        t.get FAULT_LOGIDX_NEWEST = s.flt.logNext ∧ t.ev.buf = s.ev.buf ++ [(e, s.clock)] ∧ e.source = r.cls ∧
        e.code = 0x1000 + r.source ∧ SameMem s t ∧
        t.regBytes (FAULT_LOG s.flt.logNext 0) 8 = r.bytes (if hasSelfTest r.source then
          (match res with | .pass => 1 | .fail => 2 | .incomplete => 3) else 0)) ∧
    (∀ (s : State) (k j : Nat), k < 10 → j < 32 →
      ∃ t, exec (.faultForce k (BitVec.ofNat 32 (2 ^ j))) s = .next t ∧ t = s.raiseForced (32 * k + j) ∧
        ((s.flt.zeroizeDue = false ∧ s.on FAULT_CTL_FORCEFULL = false) →
          t.get (FAULT_SRC_RAISED (32 * k + j)) = (s.inc (FAULT_SRC_RAISED (32 * k + j))).get (FAULT_SRC_RAISED (32 * k + j)))) ∧
    (∀ (s : State) (c : Nat), s.flt.pulseEnd = some c → ∃ t, exec .faultnPulseEnd s = .next t ∧ t.flt.pulseEnd = none ∧
      t.clock = max s.clock c ∧ SameMem s t ∧ SameRegs [FAULT_NCTL] s t ∧
      (s.flt.relHeld = true ∨ (s.on FAULT_CTL_HOLD = false ∧ s.flt.bootHold = false) → t.on FAULT_NCTL_ASSERTED = false) ∧
      (s.flt.relHeld = false → s.on FAULT_CTL_HOLD = true ∨ s.flt.bootHold = true →
        t.get FAULT_NCTL_ASSERTED = s.get FAULT_NCTL_ASSERTED)) ∧
    (∀ s : State, s.on FAULT_NCTL_ASSERTED = true → ∃ t, exec (.faultNctlRelease 0x40) s = .next t ∧ SameMem s t ∧
      SameRegs [FAULT_NCTL] s t ∧ (s.flt.pulseEnd = none → t.on FAULT_NCTL_ASSERTED = false ∧ t.flt.bootHold = false) ∧
      (s.flt.pulseEnd.isSome = true → t.on FAULT_NCTL_ASSERTED = true ∧ t.flt.relHeld = true)) ∧
    (∀ (s : State) (mid : Nat), mid ≠ 0x40 → exec (.faultNctlRelease mid) s = .next s) ∧
    (∀ (s : State) (v : Word32), wordField v 15 0 = 0xA5A5 → s.wdog.capoKey = true →
      ∃ t, exec (.wdogCapoKick 0x40 v) s = .next t ∧ t.wdog.capoAt = s.clock ∧ t.wdog.capoKey = false ∧
        t.get (INTC_SRC_LEVEL 64) = 0 ∧ SameRegs [INTC_SRC 64] s t ∧ SameMem s t) ∧
    (∀ (s : State) (v : Word32), wordField v 15 0 = 0x5A5A → s.wdog.capoKey = false →
      ∃ t, exec (.wdogCapoKick 0x40 v) s = .next t ∧ t.wdog = { s.wdog with capoKey := true } ∧ SameRegs [] s t ∧ SameMem s t) ∧
    (∀ (s : State) (mid : Nat) (v : Word32), (mid ≠ 0x40 ∨ (wordField v 15 0 ≠ 0x5A5A ∧ (wordField v 15 0 ≠ 0xA5A5 ∨ s.wdog.capoKey = false))) →
      ∃ t, exec (.wdogCapoKick mid v) s = .next t ∧ t.wdog = { s.wdog with capoKey := false } ∧ SameMem s t ∧
        t.get WDOG_CAPO_STATUS_BADKICK = (s.inc WDOG_CAPO_STATUS_BADKICK).get WDOG_CAPO_STATUS_BADKICK ∧ SameRegs [WDOG_CAPO_STATUS] s t) ∧
    (∀ (s : State) (v : Word32), wordField v 15 0 = 0xA5A5 → s.wdog.modKey = true →
      ∃ t, exec (.wdogModKick 0x40 v) s = .next t ∧ t.wdog.modAt = s.clock ∧ t.wdog.modKey = false ∧
        t.wdog.modTimeout = s.get WDOG_MOD_CTL_TIMEOUT ∧ SameRegs [INTC_SRC 65] s t ∧ SameMem s t) ∧
    (∀ (s : State) (mid : Nat) (v : Word32), (mid ≠ 0x40 ∨ (wordField v 15 0 ≠ 0x5A5A ∧ (wordField v 15 0 ≠ 0xA5A5 ∨ s.wdog.modKey = false))) →
      ∃ t, exec (.wdogModKick mid v) s = .next t ∧ t.wdog = { s.wdog with modKey := false } ∧ SameMem s t ∧
        t.get WDOG_MOD_STATUS_BADKICK = (s.inc WDOG_MOD_STATUS_BADKICK).get WDOG_MOD_STATUS_BADKICK ∧ SameRegs [WDOG_MOD_STATUS] s t) ∧
    (∀ s : State, s.capoCounts = true →
      (∃ t, exec .wdogCapoWarn s = .next t ∧ t.get (INTC_SRC_LEVEL 64) = 1 ∧ SameRegs [INTC_SRC 64] s t ∧ SameMem s t ∧
        t.clock = max s.clock (s.wdog.capoAt + cyclesPerMs * s.get WDOG_CAPO_CTL_TIMEOUT / 2)) ∧
      (s.resetPend = none → exec .wdogCapoExpiry s = .next ((s.passTo (s.wdog.capoAt +
        cyclesPerMs * s.get WDOG_CAPO_CTL_TIMEOUT)).raise SRC_WDOG_CAPO (s.proc 32).pc.toNat) ∧
        (s.calm SRC_WDOG_CAPO → ∃ t, exec .wdogCapoExpiry s = .next t ∧
          t.get (FAULT_SRC_RAISED SRC_WDOG_CAPO) = (s.inc (FAULT_SRC_RAISED SRC_WDOG_CAPO)).get (FAULT_SRC_RAISED SRC_WDOG_CAPO) ∧
          t.flt.open_.isSome = true ∧ t.clock = max s.clock (s.wdog.capoAt + cyclesPerMs * s.get WDOG_CAPO_CTL_TIMEOUT)))) ∧
    ∀ s : State, s.modCounts = true →
      (∃ t, exec .wdogModuleWarn s = .next t ∧ t.get (INTC_SRC_LEVEL 65) = 1 ∧ SameRegs [INTC_SRC 65] s t ∧ SameMem s t ∧
        t.clock = max s.clock (s.wdog.modAt + cyclesPerMs * s.wdog.modTimeout / 2)) ∧
      ∃ t, exec .wdogModuleExpiry s = .next t ∧ t.on WDOG_MOD_STATUS_LASTEXP = true ∧ t.on FAULT_NCTL_ASSERTED = true ∧
        t.resetPend = some .wdog ∧ t.wdog = s.wdog

/-- MIRROR_COPY, MIRROR_DEFER_END, EXTERNAL_FIELD_ON, FIELD_LOSS, REQA, WUPA, ANTICOLLISION, SELECT, HLTA, RATS,
TAG_SELECT_AID, READ_MIRROR, READ_HEADER, TAG_SESSION, TAG_DATA, WRITE_VISIT, ANSWER, FINISH, DATA, ABORT,
PICK_SESS_GO, PICK_SESS_ABORT, SESSION_STEP_TIMEOUT, SESSION_LIFETIME_EXPIRY, CAP_SENSE, DETUNING_PING, BADGE_POLL
and BADGE_REFUSE complete with their effects. A whole mirror copy leaves a valid target slot, and whatever the
supply does, the newest valid slot stays valid. A field is detected and lost. REQA, WUPA, anticollision, SELECT,
HLTA and RATS move the tag as Table 16-3 says, any other frame sends it back. The application is selected, reads
records and the header. An ANSWER that passes every check keys the session, a valid FINISH opens it, a valid DATA
message is delivered and counted, one whose tag fails closes it; ABORT, time-outs and the lifetime end it. A visit
written in P3 is a valid entry of kind UNVERIFIED, once in a field. The reader wakes on a change, serves the
resolved badges in order, and refuses the badge of a failed session. (R482, R556, R559, R560, R561, R564, R565,
R567, R568, R569, R572, R574) -/
def Obligations.PickguardRows : Prop :=
  (∀ (s : State) (resends : Nat), s.pick.copyReq = true → s.pstate ≠ .p3 → s.on PICK_MIRROR_DEFERRED = false →
      (s.mirrorHeld = true → ∃ t, exec (.mirrorCopy resends .whole none) s = .next t ∧ t.on PICK_MIRROR_DEFERRED = true ∧
        t.pick.deferAt = s.clock ∧ t.pick.words = s.pick.words ∧ SameRegs [PICK_MIRROR] s t ∧ SameMem s t) ∧
      (s.mirrorHeld = false → resends < 4 → ∃ t, exec (.mirrorCopy resends .whole none) s = .next t ∧
        t.mirrorValid s.mirrorTarget = true ∧ t.pick.copyReq = false ∧ t.on PICK_MIRROR_BUSY = false ∧
        t.get (INTC_SRC_LEVEL 482) = 1 ∧ SameMem s t)) ∧
    (∀ (s : State) (torn : Torn) (j : Nat), s.mirrorSlot = some j → (s.mirrorRun torn none).mirrorValid j = true) ∧
    (∀ s : State, s.on PICK_MIRROR_DEFERRED = true → exec .mirrorDeferEnd s = .next
      ((if s.mirrorHeld then s.passTo (s.pick.deferAt + 5 * cyclesPerSec) else s).mirrorCopy 0 .whole none) ∧
      ∃ t, exec .mirrorDeferEnd s = .next t ∧ t.mirrorValid s.mirrorTarget = true ∧ t.on PICK_MIRROR_DEFERRED = false ∧
        t.pick.copyReq = false ∧ SameMem s t) ∧
    (∀ s : State, s.pick.fdet = false → s.pick.rdrField = false → ∃ t, exec .externalFieldOn s = .next t ∧ t.pick.fdet = true ∧
      t.pick.fieldAt = s.clock ∧ t.pick.uid.head? = some 8 ∧ t.pick.visitUsed = false ∧ SameMem s t ∧
      (s.pstate ≠ .p3 → t.on PICK_STATUS_FIELD = true ∧ t.get PICK_STATUS_TAGSTATE = tgIDLE ∧ t.get (INTC_SRC_LEVEL 480) = 1)) ∧
    (∀ s : State, s.pick.fdet = true → ∃ t, exec .fieldLoss s = .next t ∧ t.pick.fdet = false ∧ t.pick.uid = [] ∧
      t.pick.isoDep = false ∧ t.on PICK_STATUS_FIELD = false ∧ t.get PICK_STATUS_TAGSTATE = tgIDLE ∧
      t.clock = s.clock + cyclesPerMs ∧ SameMem s t) ∧
    (∀ s : State, s.tagHears = true →
      (s.get PICK_STATUS_TAGSTATE = tgIDLE → ∃ t, exec .reqa s = .next t ∧ t.get PICK_STATUS_TAGSTATE = tgREADY ∧
        t.pick.answer = atqa ∧ SameRegs [PICK_STATUS] s t ∧ SameMem s t) ∧
      (s.get PICK_STATUS_TAGSTATE = tgIDLE ∨ s.get PICK_STATUS_TAGSTATE = tgHALTED → ∃ t, exec .wupa s = .next t ∧
        t.get PICK_STATUS_TAGSTATE = tgREADY ∧ t.pick.answer = atqa ∧ SameRegs [PICK_STATUS] s t ∧ SameMem s t) ∧
      (s.get PICK_STATUS_TAGSTATE = tgREADY → (∀ known value, known ≤ 32 →
          value % 2 ^ known = bytesToNat (s.pick.uid ++ [uidBcc s.pick.uid]) % 2 ^ known → ∃ t, exec (.anticollision known value) s = .next t ∧
          t.get PICK_STATUS_TAGSTATE = tgREADY ∧ t.pick.answer = (s.pick.uid ++ [uidBcc s.pick.uid]).drop (known / 8) ∧
          SameRegs [PICK_STATUS] s t ∧ SameMem s t) ∧
        ∃ t, exec (.select s.pick.uid) s = .next t ∧ t.get PICK_STATUS_TAGSTATE = tgACTIVE ∧ t.pick.answer = sak ∧
          SameRegs [PICK_STATUS] s t ∧ SameMem s t) ∧
      (s.get PICK_STATUS_TAGSTATE = tgACTIVE → (∃ t, exec .hlta s = .next t ∧ t.get PICK_STATUS_TAGSTATE = tgHALTED ∧
          t.pick.isoDep = false ∧ SameRegs [PICK_STATUS] s t ∧ SameMem s t) ∧
        (s.pick.isoDep = false → ∃ t, exec .rats s = .next t ∧ t.pick.isoDep = true ∧ t.pick.answer = s.ats ∧
          t.get PICK_STATUS_TAGSTATE = tgACTIVE ∧ SameRegs [PICK_STATUS] s t ∧ SameMem s t)) ∧
      (s.get PICK_STATUS_TAGSTATE ≠ tgIDLE → exec .reqa s = .next s.tagOther ∧ s.tagOther.get PICK_STATUS_TAGSTATE =
        (if s.get PICK_STATUS_TAGSTATE = tgHALTED then tgHALTED else tgIDLE))) ∧
    (∀ s : State, s.tagHears = true → s.pick.isoDep = true →
      (∃ t, exec (.tagSelectAid 4 tagAid) s = .next t ∧ t.pick.app = true ∧ t.pick.answer = [0x90, 0x00] ∧ SameRegs [] s t ∧ SameMem s t) ∧
      (s.pick.app = true → (∀ first k, first < 256 → s.mirrorSlot = some k → first < s.mirrorCount k →
          ∃ t, exec (.readMirror first) s = .next t ∧ t.pick.reading = some k ∧ SameRegs [] s t ∧ SameMem s t ∧
            t.pick.answer = wordsBytes (s.pickWords (mirrorBody k + first * 16) (min 4 (s.mirrorCount k - first) * 16)) ++ [0x90, 0x00]) ∧
        (∀ k, s.mirrorSlot = some k → ∃ t, exec .readHeader s = .next t ∧ SameRegs [] s t ∧ SameMem s t ∧ t.pick.answer =
          natToBytes 4 (s.mirrorSeq k) ++ natToBytes 4 (s.mirrorCount k) ++ natToBytes 4 (s.newestVisit.getD 0) ++ [0x90, 0x00]) ∧
        (s.pickOn = true → s.pick.sess = none → ∃ t, exec (.tagSession []) s = .next t ∧
          t = s.tagHello.2.respond s.tagHello.1 0x9000 ∧ s.tagHello.1.take 4 = [1, 1, 0, 0] ∧ t.pick.sess.isSome = true ∧
          t.get PICK_SESS_STATE = 1) ∧
        (∀ m u v req plain x, s.get PICK_SESS_STATE = 4 → s.sessReader = false → s.pick.sess.isSome = true → s.pickOn = true →
          s.sessData m = (some req, u) → u.tagRequest req = (.inl plain, v) → v.pick.sess = some x →
          ∃ t, exec (.tagData m) s = .next t ∧ t = ((v.setSess (x.sealMsg plain).2).pickMsg (x.sealMsg plain).1).respond
            (x.sealMsg plain).1 0x9000 ∧ t.pick.message = (x.sealMsg plain).1 ∧ t.pick.sess = some (x.sealMsg plain).2) ∧
        (∀ body, body.length = 48 → s.pstate = .p3 → s.pick.visitUsed = false → ∃ t, exec (.writeVisit body true .whole) s = .next t ∧
          t.pick.visitUsed = true ∧ t.pick.answer = [0x90, 0x00] ∧ SameMem s t ∧
          ∃ e k, e < 64 ∧ k < 2 ∧ t.visitValid e k = true ∧ (t.pickWord (visitAt e k + 1)).toNat / 2 ^ 24 = 3))) ∧
    (∀ (s : State) (x : PickSess) (m : Bytes), s.pickOn = true → s.pick.sess = some x →
      (∀ hello u, s.get PICK_SESS_STATE = 1 → s.pegRoom = true → s.free.2.answerCheck x m (anyFailure s.free.1) = none →
        s.free.2.pickHello = (some hello, u) → ∃ t, exec (.answer m) s = .next t ∧ t = u.sessKeyed x hello m ∧
          t.get PICK_SESS_STATE = 3 ∧ t.pick.message.take 4 = [3, 1, 0, 0]) ∧
      (∀ st, s.get PICK_SESS_STATE = 1 → s.pegRoom = true → st < 256 → s.free.2.answerCheck x m (anyFailure s.free.1) = some st →
        ∃ t, exec (.answer m) s = .next t ∧ t.pick.sess = none ∧ t.get PICK_SESS_STATE = 5 ∧ t.get PICK_STATUS_LASTSTATUS = st ∧ SameMem s t) ∧
      (s.get PICK_SESS_STATE = 3 → m = [4, 1, 0, 0] ++ kmac256 x.kmac x.t custConfirmP 32 →
        ∃ t, exec (.finish m) s = .next t ∧ t.get PICK_SESS_STATE = 4 ∧ t.get PICK_STATUS_LASTSTATUS = stOK ∧ SameMem s t ∧
          t.pick.sess = some { x with stepAt := s.clock }) ∧
      (s.get PICK_SESS_STATE = 4 → (∀ bs, x.openMsg m = .plain bs → ∃ t, exec (.data m) s = .next t ∧ t.pick.message = bs ∧
          t.pick.sess = some { x with ctrIn := x.ctrIn + 1 } ∧ SameRegs [] s t ∧ SameMem s t) ∧
        (x.openMsg m = .tag → ∃ t, exec (.data m) s = .next t ∧ t.pick.sess = none ∧ t.get PICK_SESS_STATE = 5 ∧
          t.get PICK_STATUS_LASTSTATUS = stVERIFY_FAIL ∧ SameMem s t))) ∧
    (∀ (s : State) (x : PickSess), s.pick.sess = some x →
      (∀ st, ∃ t, exec (.abort st) s = .next t ∧ t.pick.sess = none ∧ t.get PICK_SESS_STATE = 5 ∧
        t.get PICK_STATUS_LASTSTATUS = st % 256 ∧ SameMem s t) ∧
      (∃ t, exec .pickSessAbort s = .next t ∧ t.pick.sess = none ∧ t.get PICK_SESS_STATE = 5 ∧
        t.get PICK_STATUS_LASTSTATUS = stABORTED ∧ SameMem s t) ∧
      (∃ t, exec .pickSessGo s = .next t ∧ t.get PICK_STATUS_LASTSTATUS = stBUSY ∧ t.pick = s.pick ∧ SameRegs [PICK_STATUS] s t) ∧
      (s.get PICK_SESS_STATE = 1 ∨ s.get PICK_SESS_STATE = 3 → ∃ t, exec .sessionStepTimeout s = .next t ∧ t.pick.sess = none ∧
        t.get PICK_SESS_STATE = 5 ∧ t.get PICK_STATUS_LASTSTATUS = stTIMEOUT ∧ SameMem s t ∧
        t.clock = max s.clock (x.stepAt + cyclesPerMs * s.get PICK_SESSTMO_STEPMS)) ∧
      ∃ t, exec .sessionLifetimeExpiry s = .next t ∧ t.pick.sess = none ∧ t.get PICK_SESS_STATE = 5 ∧
        t.get PICK_STATUS_LASTSTATUS = stTIMEOUT ∧ SameMem s t ∧ t.clock = max s.clock (x.startAt + cyclesPerSec * s.get PICK_SESSTMO_MAXS)) ∧
    (∀ s : State, s.pick.sess = none → s.pickOn = true → s.pick.rdrField = true → s.pick.badges ≠ [] → s.pick.failed = none →
      ∃ t, exec .pickSessGo s = .next t ∧ t.get PICK_SESS_STATE = 1 ∧ t.get PICK_STATUS_MODE = 3 ∧ t.sessReader = true ∧
        (t.priv 4090).st = .reserved ∧ SameMem s t) ∧
    (∀ (s : State) (delta : Nat), s.readerWaits = true → s.get PICK_WAIT_CAPTHRESH < delta →
      ∃ t, exec (.capSense delta) s = .next t ∧ t.get PICK_STATUS_MODE = 2 ∧ SameRegs [PICK_STATUS] s t ∧ SameMem s t ∧
        t.clock = s.clock + cyclesPerMs * s.get PICK_WAIT_CAPPERIOD) ∧
    (∀ (s : State) (shift : Bool), s.readerWaits = true → s.on PICK_CTL_PING_EN = true →
      ∃ t, exec (.detuningPing shift) s = .next t ∧ t.get PICK_STATUS_MODE = (if shift then 2 else 1) ∧ SameRegs [PICK_STATUS] s t ∧
        SameMem s t ∧ t.clock = s.clock + 250 * cyclesPerMs) ∧
    (∀ (s : State) (missed : Nat) (uids : List Bytes) (u : Bytes) (rest : List Bytes), s.pickOn = true → s.on PICK_CTL_RDR_EN = true →
      s.get PICK_STATUS_MODE = 2 → s.pick.rdrField = false → s.pwr.shed = false → s.pick.fdet = false → u.length ≤ 12 → missed < s.get PICK_RDR_POLLS →
      (((uids.filter (fun u => decide (u.length = 4 ∨ u.length = 7 ∨ u.length = 10) &&
        !((s.pass (s.get PICK_RDR_GUARD * (cyclesPerMs / 10))).inBackoff u))).foldr uidInsert []).take (s.get PICK_RDR_MAXTAGS)) = u :: rest →
      ∃ t, exec (.badgePoll false ⟨missed, uids⟩) s = .next t ∧ t.pick.rdrField = true ∧ t.pick.badges = u :: rest ∧
        t.get PICK_STATUS_MODE = 2 ∧ t.get PICK_UIDLEN_LEN = u.length ∧ SameMem s t) ∧
    ∀ (s : State) (st : Nat), s.pick.failed = some st → ∃ u, exec .badgeRefuse s = .next (if u.pick.rdrField then State.nextBadge u else u) ∧
      u.pick.failed = none ∧ u.get PICK_REFUSED_COUNT = (s.inc PICK_REFUSED_COUNT).get PICK_REFUSED_COUNT ∧
      ∃ e, e ∈ u.pick.backoff ∧ e.1 = s.pick.badges.headD []

/-- CARD_INSERT, ATR_RECEIVED, ATR_TIMEOUT, CARD_REMOVAL, CARD_OVERCURRENT, T1_BLOCK_ERROR, CARD_MAXWAIT_EXPIRY,
CARD_CLOCK_STOP and CARD_XFER complete with their effects. A card becomes PRESENT after 10 ms and an enabled port
activates it. An accepted answer to reset makes the port IDLE with the card's state and tries; a bad one, or none in
class A, deactivates it with its error. A removal clears PRESENT and deactivates with REMOVED. The third block error
without a resynchronisation deactivates with PROTOCOL. A transfer that takes too long ends ABORTED. The clock stops
where the card allows it. Only ring 0 starts a transfer, and none while one runs; shares do not pass here; an
accepted one is BUSY until the answer ends it with its status word. (R575, R576, R578, R579, R580, R581, R582, R583) -/
def Obligations.CardRows : Prop :=
  (∀ s : State, s.cardOn = true → s.on CARD_STATUS_PRESENT = false → ∃ t, exec .cardInsert s = .next t ∧
      t.on CARD_STATUS_PRESENT = true ∧ t.get (INTC_SRC_LEVEL 484) = 1 ∧ t.clock = s.clock + 10 * cyclesPerMs ∧ SameMem s t ∧
      (s.on CARD_CTL_EN = true → t.get CARD_STATUS_STATE = cdACTIVATING ∧ t.get CARD_STATUS_ERR = 0 ∧
        t.get CARD_STATUS_CLASSUSED = (if s.get CARD_CTL_CLASS = 1 then 0 else 1))) ∧
    (∀ (s : State) (atr : Bytes) (pps : PpsEnd), s.get CARD_STATUS_STATE = cdACTIVATING → s.cardOn = true → atr.length ≤ 32 →
      (atrOk (atr.map BitVec.toNat) = true → pps ≠ .twice → ∃ t, exec (.atrReceived atr pps) s = .next t ∧
        t.get CARD_STATUS_STATE = cdIDLE ∧ t.get CARD_ATRLEN_LEN = atr.length ∧
        t.get CARD_STATUS_TRIES = (atrParse (atr.map BitVec.toNat)).hist.getD 5 0 % 16 ∧
        t.get CARD_STATUS_CARDSTATE = (atrParse (atr.map BitVec.toNat)).hist.getD 6 0 % 8 ∧ SameMem s t) ∧
      (atrOk (atr.map BitVec.toNat) = false → ∃ t, exec (.atrReceived atr pps) s = .next t ∧ t.get CARD_STATUS_STATE = cdOFF ∧
        t.get CARD_STATUS_ERR = ceBAD_ATR ∧ SameMem s t)) ∧
    (∀ s : State, s.get CARD_STATUS_STATE = cdACTIVATING → s.cardOn = true →
      (s.get CARD_CTL_CLASS = 0 → s.card.triedB = false → ∃ t, exec .atrTimeout s = .next t ∧ t.get CARD_STATUS_STATE = cdACTIVATING ∧
        t.get CARD_STATUS_CLASSUSED = 0 ∧ t.card.triedB = true ∧ SameMem s t) ∧
      (s.get CARD_CTL_CLASS ≠ 0 ∨ s.card.triedB = true → ∃ t, exec .atrTimeout s = .next t ∧ t.get CARD_STATUS_STATE = cdOFF ∧
        t.get CARD_STATUS_ERR = ceNO_ATR ∧ SameMem s t)) ∧
    (∀ s : State, s.on CARD_STATUS_PRESENT = true →
      (∃ t, exec (.cardRemoval none) s = .next t ∧ t.on CARD_STATUS_PRESENT = false ∧ t.get (INTC_SRC_LEVEL 484) = 1 ∧ SameMem s t ∧
        (s.get CARD_STATUS_STATE ≠ cdOFF → t.get CARD_STATUS_STATE = cdOFF ∧ t.get CARD_STATUS_ERR = ceREMOVED ∧ t.card.sess = none ∧
          t.on CARD_STATUS_PINOK = false ∧ (s.card.xfer.isSome = true → t.get CARD_RESULT_STATUS = stABORTED))) ∧
      (∀ c i, s.key.cer = some c → c.kind = ckOut → 1 ≤ i → i ≤ c.n → s.get CARD_STATUS_STATE ≠ cdOFF →
        exec (.cardRemoval (some i)) s = .next (((s.put CARD_STATUS_PRESENT 0).setIrq 484).cerRemoved i))) ∧
    (∀ s : State, s.get CARD_STATUS_STATE ≠ cdOFF →
      exec .cardOvercurrent s = .next ((s.cardFail ceOVERCURRENT).raise SRC_CARD_POWER 0) ∧
      (s.cardFail ceOVERCURRENT).get CARD_STATUS_STATE = cdOFF ∧ (s.cardFail ceOVERCURRENT).get CARD_STATUS_ERR = ceOVERCURRENT ∧
      (s.calm SRC_CARD_POWER → ∃ t, exec .cardOvercurrent s = .next t ∧ t.get CARD_STATUS_STATE = cdOFF ∧
        t.get CARD_STATUS_ERR = ceOVERCURRENT ∧ t.get (INTC_SRC_LEVEL 486) = 1 ∧ t.flt.open_.isSome = true)) ∧
    (∀ s : State, (s.get CARD_STATUS_STATE = cdIDLE ∨ s.get CARD_STATUS_STATE = cdBUSY) →
      (s.card.t1errs < 2 → ∀ r, ∃ t, exec (.t1BlockError r) s = .next t ∧ t.card.t1errs = s.card.t1errs + 1 ∧ SameRegs [] s t ∧ SameMem s t) ∧
      (2 ≤ s.card.t1errs → (∃ t, exec (.t1BlockError true) s = .next t ∧ t.card.t1errs = 0 ∧ SameRegs [] s t ∧ SameMem s t) ∧
        exec (.t1BlockError false) s = .next (((s.cardFail cePROTOCOL).inc CARD_T1ERR_COUNT).raise SRC_CARD_PROTOCOL 0))) ∧
    (∀ (s : State) (x : Bool × Bytes × Nat), s.card.xfer = some x → ∃ t, exec .cardMaxwaitExpiry s = .next t ∧ t.card.xfer = none ∧
      t.on CARD_RESULT_BUSY = false ∧ t.get CARD_RESULT_STATUS = stABORTED ∧ t.get CARD_STATUS_STATE = cdIDLE ∧
      t.clock = max s.clock (x.2.2 + cyclesPerMs * s.get CARD_TIME_MAXWAIT) ∧ SameMem s t) ∧
    (∀ s : State, s.get CARD_STATUS_STATE = cdIDLE → s.card.clockStop = true → s.get CARD_TIME_IDLESTOP ≠ 0 → s.card.stopped = false →
      ∃ t, exec .cardClockStop s = .next t ∧ t.card.stopped = true ∧ SameRegs [] s t ∧ SameMem s t ∧
        t.clock = max s.clock (s.card.lastAt + cyclesPerMs * s.get CARD_TIME_IDLESTOP)) ∧
    (∀ (s : State) (mid : Nat) (sealed : Bool) (ans : Option (Nat × Bytes)), (mid ≠ 0x40 ∨ s.on CARD_RESULT_BUSY = true) →
      exec (.cardXfer mid sealed ans) s = .next s) ∧
    (∀ (s u : State) (sealed : Bool) (apdu : Bytes), s.on CARD_RESULT_BUSY = false → s.get CARD_STATUS_STATE = cdIDLE →
      s.cardBufOk (s.addr40 CARD_BUF_LO) (s.get CARD_CMDLEN_LEN) = true →
      s.keyRead (s.addr40 CARD_BUF_LO) (s.get CARD_CMDLEN_LEN) = (some apdu, u) →
      ((apduOp apdu = 0x8014 ∨ apduOp apdu = 0x8016) → ∀ ans, ∃ t, exec (.cardXfer 0x40 sealed ans) s = .next t ∧
        t.get CARD_RESULT_STATUS = stNOT_PERMITTED ∧ t.on CARD_RESULT_BUSY = false ∧ SameMem u t) ∧
      (apduOp apdu ≠ 0x8014 → apduOp apdu ≠ 0x8016 → (sealed = true → u.card.sess.isSome = true) →
        (apduOp apdu = 0x8012 → u.pickKeyOk (u.get CARD_SESS_SLOT) = true) →
        (∃ t, exec (.cardXfer 0x40 sealed none) s = .next t ∧ t.card.xfer = some (sealed, apdu, u.clock) ∧
          t.get CARD_STATUS_STATE = cdBUSY ∧ t.on CARD_RESULT_BUSY = true ∧ SameMem u t ∧
          SameRegs [CARD_STATUS, CARD_RESULT, INTC_SRC 485] u t) ∧
        (apduOp apdu ≠ 0x8012 → u.card.sess = none → ∃ t, exec (.cardXfer 0x40 false (some (0x9000, []))) s = .next t ∧
          t.card.xfer = none ∧ t.get CARD_STATUS_STATE = cdIDLE ∧ t.on CARD_RESULT_BUSY = false ∧ t.get CARD_RESULT_STATUS = stOK ∧
          t.get CARD_RESULT_SW = 0x9000 ∧ SameMem u t))) ∧
    ∀ (s : State) (sw : Nat) (apdu data : Bytes), sw / 16 = 0x63C → (s.cardEffect apdu sw data).get CARD_STATUS_TRIES = sw % 16 ∧
      (sw % 16 = 0 → (s.cardEffect apdu sw data).get CARD_STATUS_CARDSTATE = csLOCKED)

/-- UNIT_GATE_WAKE, ENGINE_PRE_WAKE, SOFTWARE_RESET, RETAIN_REQUEST, RETAIN_DRAIN_EXPIRY, LINK_L12_ENTRY,
SUPPLY_WARNING, SUPPLY_SHED, SUPPLY_STOPPING, SUPPLY_RESET_LEVEL, INPUT_RESTORED, SHED_LIFT, HOLDUP_CHECK,
OVERVOLTAGE, POWER_TOTAL_LOSS, WAKE, WAKE_FAIL, WAKE_N_LOW, RST_N_LOW, PERST_N_LOW and PERST_N_RISE complete with
their effects. A gated unit wakes within its time. Ring 0 asks for a reset and for RETAIN; a refused request names
its reason, an accepted one drains, and the link's entry into L1.2 completes it: P2 with the buffer flushed and the
array OFF. A warning opens the dip, SHED sheds the load and suspends the Case operations, STOPPING stops, at 32 V
the module passes to P3 or holds a reset; a restored input ends the dip after 5 ms or asks for a reset. Without
input and cell the root key is lost. An enabled source wakes P2 into P0, after an alarm into a reset; a wake that
fails raises and resets. RST_N drives FAULT_N and asks for the reset; PERST_N takes the link down. (R291, R420,
R525, R526, R527, R529, R530, R532, R533, R534, R535, R595) -/
def Obligations.PowerRows : Prop :=
  (∀ s : State, s.logicUp = true → ∃ t, exec .unitGateWake s = .next t ∧ t.pstate = .p0 ∧ t.get PWR_STATUS_STATE = 0 ∧
      t.clock = s.clock + s.wakeCycles ∧ SameRegs [PWR_STATUS] s t ∧ SameMem s t) ∧
    (∀ (s : State) (n : Nat), n < 32 → s.pstate = .p1 → s.time.ticking = true → ∃ t, exec (.enginePreWake n) s = .next t ∧
      t.pstate = .p0 ∧ t.get PWR_STATUS_STATE = 0 ∧ t.clock = max (max s.clock (s.edgeCycle - s.wakeCycles))
        (min (max s.clock (s.edgeCycle - s.wakeCycles) + s.wakeCycles) (s.edgeCycle - 1)) ∧
      SameRegs [PWR_STATUS] s t ∧ SameMem s t) ∧
    (∀ s : State, s.resetPend = none → ∃ t, exec (.softwareReset 0x40) s = .next t ∧ t = { s with resetPend := some .software } ∧
      SameRegs [] s t ∧ SameMem s t) ∧
    (∀ (s : State) (mid : Nat), mid ≠ 0x40 → exec (.softwareReset mid) s = .next s) ∧
    (∀ (s : State) (l12 : Bool), s.pwr.retainReq = true → (s.proc 32).run = .wait → (s.proc 32).priv = 0 → s.logicUp = true →
      (s.retainRefused l12 ≠ 0 → ∃ t, exec (.retainRequest l12) s = .next t ∧ t.get PWR_STATUS_REQERR = s.retainRefused l12 ∧
        t.pwr.retainReq = false ∧ t.pwr.draining = s.pwr.draining ∧ t.get (INTC_SRC_LEVEL 83) = 1 ∧
        SameRegs [PWR_STATUS, INTC_SRC 83] s t ∧ SameMem s t) ∧
      (s.retainRefused l12 = 0 → ∃ t, exec (.retainRequest l12) s = .next t ∧ t.pwr.draining = some s.clock ∧
        t.pwr.retainReq = false ∧ t.ev.flushN.isSome = true)) ∧
    (∀ (s u : State) (c : Nat), s.pwr.draining = some c → u = s.jobs.jobs.foldl (fun t e => t.cellEnd e.1 stABORTED 0)
        (s.passTo (c + cyclesPerMs * s.get PWR_RETAIN_DRAIN)) →
      exec .retainDrainExpiry s = .next (u.ve.cmds.foldl (fun t e =>
        if e.2.result.isNone || !(t.veHeld e.2) then t.veStop e.1 stABORTED else t) u) ∧
        (s.jobs.jobs = [] → ∃ t, exec .retainDrainExpiry s = .next t ∧ t.clock = max s.clock (c + cyclesPerMs * s.get PWR_RETAIN_DRAIN) ∧
          t.pwr.draining = some c ∧ SameRegs [] s t ∧ SameMem s t)) ∧
    (∀ s : State, s.pwr.draining.isSome = true → s.jobs.jobs = [] → s.ve.cmds.all (fun e => s.veHeld e.2) = true →
      s.die.running = [] → s.die.asleep = [] → ∃ t, exec .linkL12Entry s = .next t ∧ t.pstate = .p2 ∧ t.pwr.draining = none ∧ t.ev.buf = [] ∧
        t.rosin.reserve = [] ∧ (s.get ROSIN_STATE_STATE ≠ roFailed → t.get ROSIN_STATE_STATE = roOff) ∧ t.time.opMirror = s.time.opTime ∧ SameMem s t) ∧
    (∀ (s : State) (input bank : Nat), input < 34000 → s.pstate ≠ .p3 → (s.pwr.dipAt = none ∨ s.pwr.restoredAt.isSome = true) →
      ∃ t, exec (.supplyWarning input bank) s = .next t ∧ t.pwr.dipAt = some (s.clock + 75000) ∧ t.pwr.minBank = bank ∧
        t.clock = s.clock + 75000 ∧ (s.pstate ≠ .p2 → t.get PWR_STATUS_PHASE = 1 ∧ t.get PWR_INPUT_MV = input)) ∧
    (∀ (s : State) (c bank : Nat), s.pwr.dipAt = some c → s.get PWR_STATUS_PHASE = 1 → s.pwr.restoredAt = none →
      ∃ u, exec (.supplyShed bank) s = .next (State.settle u) ∧ u.pwr.shed = true ∧ u.get PWR_STATUS_PHASE = 2 ∧
        u.on CASE_STATUS_SUSPENDED = true ∧ u.pick.rdrField = false ∧ u.clock = max s.clock (c + 20 * cyclesPerMs) ∧ SameMem s u) ∧
    (∀ s : State, s.pwr.dipAt.isSome = true → (s.get PWR_STATUS_PHASE = 1 ∨ s.get PWR_STATUS_PHASE = 2) →
      ∃ t, exec .supplyStopping s = .next t ∧ t = (s.bankAt 40000).dipStop.settle ∧ t.pwr.stopped = true ∧ t.pwr.shed = true) ∧
    (∀ s : State, s.pwr.dipAt.isSome = true → s.pstate ≠ .p3 →
      (∃ t, exec (.supplyResetLevel true) s = .next t ∧ t.pstate = .p3 ∧ t.resetPend = none) ∧
      ∃ t, exec (.supplyResetLevel false) s = .next t ∧ t.pwr.resetHeld = true ∧ t.resetPend.isSome = true) ∧
    (∀ (s : State) (input bank : Nat), s.pwr.dipAt.isSome = true → 35500 ≤ input → s.pstate ≠ .p3 →
      ∃ t, exec (.inputRestored input bank) s = .next t ∧ SameMem s t ∧ SameRegs [PWR_INPUT, PWR_BANK] s t ∧
        (s.pstate = .p2 → t.pwr.dipAt = none) ∧ (s.pstate ≠ .p2 → t.pwr.restoredAt = some s.clock)) ∧
    (∀ (s : State) (d r : Nat), s.pwr.dipAt = some d → s.pwr.restoredAt = some r →
      (s.pwr.stopped = true ∨ s.pwr.resetHeld = true → ∃ t, exec .shedLift s = .next t ∧ t.resetPend.isSome = true ∧
        t.pwr.resetHeld = false ∧ t.clock = max s.clock (r + 5 * cyclesPerMs) ∧ SameRegs [] s t ∧ SameMem s t) ∧
      (s.pwr.stopped = false → s.pwr.resetHeld = false → ∃ u, exec .shedLift s =
          .next (State.lifeRetry (State.keyRetry (State.gateChange u))) ∧ u.pwr.shed = false ∧ u.pwr.dipAt = none ∧
        u.get PWR_STATUS_PHASE = 0 ∧ u.on CASE_STATUS_SUSPENDED = false ∧
        u.get PWR_DIPS_COUNT = (s.inc PWR_DIPS_COUNT).get PWR_DIPS_COUNT)) ∧
    (∀ (s : State) (bank : Nat), s.logicUp = true → s.clock ≤ s.pwr.restoreAt + 2 * cyclesPerSec →
      (65000 ≤ bank → bank < 2 ^ 17 → ∃ t, exec (.holdupCheck bank) s = .next t ∧ t.get PWR_BANK_MV = bank ∧
        t.clock = s.pwr.restoreAt + 2 * cyclesPerSec ∧ SameRegs [PWR_BANK] s t ∧ SameMem s t) ∧
      (bank < 65000 → exec (.holdupCheck bank) s = .next
        (((s.passTo (s.pwr.restoreAt + 2 * cyclesPerSec)).put PWR_BANK_MV bank).raise SRC_PWR_HOLDUP 0) ∧
        (s.calm SRC_PWR_HOLDUP → ∃ t, exec (.holdupCheck bank) s = .next t ∧ t.get PWR_BANK_MV = bank ∧ t.flt.open_.isSome = true))) ∧
    (∀ (s : State) (input : Nat), s.logicUp = true → 75000 < input → exec (.overvoltage input) s = .next
      (((s.pass cyclesPerMs).put PWR_INPUT_MV input).raise SRC_PWR_OVERVOLT 0) ∧
      (s.calm SRC_PWR_OVERVOLT → input < 2 ^ 17 → ∃ t, exec (.overvoltage input) s = .next t ∧ t.get PWR_INPUT_MV = input ∧
        t.clock = s.clock + cyclesPerMs ∧ t.flt.open_.isSome = true ∧
        t.get (FAULT_SRC_RAISED SRC_PWR_OVERVOLT) = (s.inc (FAULT_SRC_RAISED SRC_PWR_OVERVOLT)).get (FAULT_SRC_RAISED SRC_PWR_OVERVOLT))) ∧
    (∀ s : State, ∃ t, exec .powerTotalLoss s = .next t ∧ t.pstate = .p3 ∧ t.key.rootKey = none ∧
      t.time.opTime = (s.time.opMirror + 60000) % 2 ^ 44 ∧ t.tamp.evid = []) ∧
    (∀ (s : State) (src us : Nat), s.pstate = .p2 → s.wakes src = true →
      (s.pwr.alarmReset = false → s.pwr.dipAt = none → ∃ t, exec (.wake src us) s = .next t ∧ t.pstate = .p0 ∧
        t.get PWR_WAKESRC_SRC = src ∧ t.get PWR_STATUS_STATE = 0 ∧ t.get PWR_WAKETIME_US = satAt 255 us ∧
        t.clock = max s.clock (s.wakeDue src) + 1500 * us ∧ SameMem s t ∧ ((s.proc 32).run = .wait → (t.proc 32).run = .running)) ∧
      (s.pwr.alarmReset = true → ∃ t, exec (.wake src us) s = .next t ∧ t.resetPend.isSome = true ∧ t.pstate = .p2 ∧ SameMem s t) ∧
      ∃ t, exec (.wakeFail src) s = .next t ∧ t.resetPend = some (if s.pwr.alarmReset then .tamper else .wakeFail)) ∧
    (∀ (s : State) (us : Nat), s.pstate = .p2 → s.wakes 2 = true →
      exec (.wakeNLow us) s = .next ((s.pass (100 * cyclesPerUs)).wake 2 us) ∧
      (s.pwr.alarmReset = false → s.pwr.dipAt = none → ∃ t, exec (.wakeNLow us) s = .next t ∧ t.pstate = .p0 ∧
        t.get PWR_WAKESRC_SRC = 2 ∧ t.get PWR_STATUS_STATE = 0 ∧ t.clock = s.clock + 150000 + 1500 * us ∧ SameMem s t)) ∧
    (∀ s : State, s.pstate ≠ .p3 → ∃ t, exec .rstNLow s = .next t ∧ t.pwr.rstLow = true ∧ t.on FAULT_NCTL_ASSERTED = true ∧
      t.resetPend.isSome = true ∧ t.clock = s.clock + 15000) ∧
    (∀ s : State, exec .perstNLow s = .next
        (if s.on BRIDGE_LINK_UP then State.linkDown { s with pwr := { s.pwr with perstLow := true } }
         else { s with pwr := { s.pwr with perstLow := true } }) ∧
      (s.on BRIDGE_LINK_UP = false → ∃ t, exec .perstNLow s = .next t ∧ t.pwr.perstLow = true ∧ SameRegs [] s t ∧ SameMem s t) ∧
      (s.on BRIDGE_LINK_UP = true → s.calm SRC_BRIDGE_LINK → ∃ t, exec .perstNLow s = .next t ∧ t.pwr.perstLow = true ∧
        t.get BRIDGE_LINK_UP = 0)) ∧
    ∀ s : State, ∃ t, exec .perstNRise s = .next t ∧ t = { s with pwr := { s.pwr with perstLow := false } } ∧ SameRegs [] s t ∧ SameMem s t

/-- PROVISION, SEAL, RETIRE, DEBUG_CHALLENGE, DEBUG_OPEN, DEBUG_CLOSE, COMMIT_IMAGE, CONFIRM_IMAGE, WRITE_PRESET,
LIFE_CMD_UNASSIGNED, DEBUG_EXPIRY and DEBUG_CHALLENGE_EXPIRY complete: who may give them, what each requires and
does. Only Capo ring 0 gives a lifecycle command, and none while one runs or, if it writes META, while the Case
operations are suspended, when it waits. PROVISION, SEAL, RETIRE, DEBUG_OPEN and DEBUG_CLOSE move the state only as
Table 15-9 allows and otherwise end NOT_PERMITTED with the state as it was; RETIRE leaves no key. A debug
authorisation consumes its challenge whatever comes of it. COMMIT_IMAGE writes a COMMIT only for a slot that does
not run and verifies, under the grant; CONFIRM_IMAGE confirms the running trial and never lowers MINVER;
WRITE_PRESET works before sealing only. Debug-opened and a challenge end by time. (R421, R542, R543, R546, R547,
R548) -/
def Obligations.LifecycleRows : Prop :=
  (∀ (s : State) (i : Instr) (mid : Nat) (r : LifeReq), lifeRow i = some (mid, r) →
      (mid ≠ 0x40 ∨ s.on LIFE_CMD_RESULT_BUSY = true → exec i s = .next s) ∧
      (mid = 0x40 → s.on LIFE_CMD_RESULT_BUSY = false →
        (s.on CASE_STATUS_SUSPENDED = false ∨ r.op = 4 → exec i s = .next (s.lifeBegin.lifeRun r)) ∧
        (s.on CASE_STATUS_SUSPENDED = true → r.op ≠ 4 → ∃ t, exec i s = .next t ∧ t.lcs.waiting = some r ∧
          t.on LIFE_CMD_RESULT_BUSY = true ∧ t.life = s.life ∧ SameMem s t))) ∧
    (∀ (s : State) (op : Nat), op < 16 → (op = 0 ∨ 10 ≤ op) → s.on LIFE_CMD_RESULT_BUSY = false →
      ∃ t, exec (.lifeCmdUnassigned 0x40 op) s = .next t ∧ t.on LIFE_CMD_RESULT_BUSY = false ∧
        t.get LIFE_CMD_RESULT_STATUS = stBAD_OPCODE ∧ t.life = s.life ∧ SameMem s t) ∧
    (∀ (s : State) (p : ProvData),
      (s.life = lcBlank → s.get KEY_STATE_ROOT = 1 → s.moduleKeys = true → p.chain ≠ [] → 1 ≤ p.keys.length → p.keys.length ≤ 4 →
        (s.lifeRun ⟨1, p⟩).life = lcProvisioned ∧ (s.lifeRun ⟨1, p⟩).get LIFE_CMD_RESULT_STATUS = stOK ∧
        (s.lifeRun ⟨1, p⟩).on LIFE_CMD_RESULT_BUSY = false ∧ (s.lifeRun ⟨1, p⟩).lcs.prov = p) ∧
      (s.life ≠ lcBlank ∨ s.get KEY_STATE_ROOT ≠ 1 ∨ s.moduleKeys = false ∨ p.chain = [] ∨ p.keys.length = 0 ∨ 4 < p.keys.length →
        (s.lifeRun ⟨1, p⟩).life = s.life ∧ (s.lifeRun ⟨1, p⟩).get LIFE_CMD_RESULT_STATUS = stNOT_PERMITTED ∧
        (s.lifeRun ⟨1, p⟩).lcs.prov = s.lcs.prov)) ∧
    (∀ s : State,
      (s.life = lcProvisioned → s.on CER_AUTHWIN_AUTH = true → presetOk s.lcs.preset = true → s.lcs.running.isSome = true →
        s.on LIFE_BOOT_TRIAL = false → s.lifeSeal.life = lcSealed ∧ s.lifeSeal.get LIFE_CMD_RESULT_STATUS = stOK ∧
        s.lifeSeal.on CER_AUTHWIN_AUTH = false) ∧
      (s.life ≠ lcProvisioned ∨ s.on CER_AUTHWIN_AUTH = false → s.lifeSeal.life = s.life ∧
        s.lifeSeal.get LIFE_CMD_RESULT_STATUS = stNOT_PERMITTED) ∧ s.lifeRun ⟨2, default⟩ = s.lifeSeal) ∧
    (∀ s : State,
      (s.life ≠ lcRetired → (s.life = lcBlank ∨ s.on CER_AUTHWIN_AUTH = true) → s.lifeRetire.life = lcRetired ∧
        s.lifeRetire.get LIFE_CMD_RESULT_STATUS = stOK ∧ s.lifeRetire.key.rootKey = none ∧ s.lifeRetire.key.privs = []) ∧
      (s.life = lcRetired ∨ (s.life ≠ lcBlank ∧ s.on CER_AUTHWIN_AUTH = false) → s.lifeRetire.life = s.life ∧
        s.lifeRetire.get LIFE_CMD_RESULT_STATUS = stNOT_PERMITTED) ∧ s.lifeRun ⟨3, default⟩ = s.lifeRetire) ∧
    (∀ s : State, s.lifeRun ⟨4, default⟩ = s.lifeChallenge ∧
      (s.entropyGone = false → s.canDraw 2 = true → s.lifeChallenge.lcs.chalAt = some s.clock ∧
        s.lifeChallenge.get LIFE_CMD_RESULT_STATUS = stOK ∧ s.lifeChallenge.on LIFE_CMD_RESULT_BUSY = false)) ∧
    (∀ s : State, (s.lifeRun ⟨5, default⟩).lcs.chalAt = none ∧ (s.lifeRun ⟨5, default⟩).on LIFE_CMD_RESULT_BUSY = false ∧
      (∀ b c u, s.life = lcSealed → s.lcs.chalAt = some c → s.clock ≤ c + 60 * cyclesPerSec → s.lifeBuf = (some b, u) →
        u.debugAuth b = stOK →
        (s.lifeRun ⟨5, default⟩).life = lcDebug ∧ (s.lifeRun ⟨5, default⟩).get LIFE_CMD_RESULT_STATUS = stOK ∧
        (s.lifeRun ⟨5, default⟩).lcs.dbgUntil = s.clock + cyclesPerSec * bytesToNat ((b.drop 2).take 4)) ∧
      (s.life ≠ lcSealed ∨ s.lcs.chalAt = none → (s.lifeRun ⟨5, default⟩).life = s.life ∧
        (s.lifeRun ⟨5, default⟩).get LIFE_CMD_RESULT_STATUS = stNOT_PERMITTED)) ∧
    (∀ s : State, (s.life = lcDebug → (s.lifeRun ⟨6, default⟩).life = lcSealed ∧ (s.lifeRun ⟨6, default⟩).get LIFE_CMD_RESULT_STATUS = stOK ∧
        (s.lifeRun ⟨6, default⟩).on FAULT_CTL_FORCEFULL = false ∧ (s.lifeRun ⟨6, default⟩).lcs.breaks = []) ∧
      (s.life ≠ lcDebug → (s.lifeRun ⟨6, default⟩).life = s.life ∧ (s.lifeRun ⟨6, default⟩).get LIFE_CMD_RESULT_STATUS = stNOT_PERMITTED)) ∧
    (∀ (s : State) (slot : Nat), slot = s.get LIFE_CMD_ARG_SLOT →
      (slot ≠ s.get LIFE_BOOT_SLOT → 0 < s.ledHolds laCOMMIT → s.imageSigned slot = true → s.get LIFE_MINVER_VER ≤ (s.imageOf slot).1 →
        (s.lifeRun ⟨7, default⟩).lcs.commits = s.lcs.commits ++ [⟨ckCOMMIT, slot, (s.commitSeq + 1) % 2 ^ 32, (s.imageOf slot).1,
          (s.imageOf slot).2.1, (s.imageOf slot).2.2, s.imageDigest slot⟩] ∧ (s.lifeRun ⟨7, default⟩).get LIFE_CMD_RESULT_STATUS = stOK) ∧
      (slot = s.get LIFE_BOOT_SLOT ∨ s.ledHolds laCOMMIT = 0 ∨ s.imageSigned slot = false ∨ (s.imageOf slot).1 < s.get LIFE_MINVER_VER →
        (s.lifeRun ⟨7, default⟩).lcs.commits = s.lcs.commits ∧ (s.lifeRun ⟨7, default⟩).get LIFE_CMD_RESULT_STATUS ≠ stOK)) ∧
    (∀ (s : State) (q : Nat) (c : Commit), s.lcs.running = some q → c.minver < 2 ^ 32 →
      s.lcs.commits.find? (fun c => decide (c.kind = ckCOMMIT ∧ c.seq = q)) = some c → s.on LIFE_BOOT_TRIAL = true →
      (s.lifeRun ⟨8, default⟩).lcs.commits = s.lcs.commits ++ [{ c with kind := ckCONFIRM }] ∧
      (s.lifeRun ⟨8, default⟩).get LIFE_MINVER_VER = max (s.get LIFE_MINVER_VER) c.minver ∧
      (s.lifeRun ⟨8, default⟩).on LIFE_BOOT_TRIAL = false ∧ (s.lifeRun ⟨8, default⟩).get LIFE_CMD_RESULT_STATUS = stOK) ∧
    (∀ (s u : State) (b : Bytes),
      (s.life ≤ lcProvisioned → s.get LIFE_BUF_LEN_LEN ≤ 20 + 8 * 8190 → s.lifeBuf = (some b, u) →
        (s.lifeRun ⟨9, default⟩).lcs.preset = b ∧ (s.lifeRun ⟨9, default⟩).get LIFE_CMD_RESULT_STATUS = stOK) ∧
      (lcProvisioned < s.life → (s.lifeRun ⟨9, default⟩).lcs.preset = s.lcs.preset ∧
        (s.lifeRun ⟨9, default⟩).get LIFE_CMD_RESULT_STATUS = stNOT_PERMITTED)) ∧
    (∀ s : State, s.on LIFE_CMD_RESULT_BUSY = false → s.on CASE_STATUS_SUSPENDED = false →
      (∀ chain k, s.life = lcBlank → s.get KEY_STATE_ROOT = 1 → s.moduleKeys = true → chain ≠ [] → 1 ≤ k.keys.length → k.keys.length ≤ 4 →
        ∃ t, exec (.provision 0x40 chain k) s = .next t ∧ t.life = lcProvisioned ∧ t.get LIFE_CMD_RESULT_STATUS = stOK ∧
          t.on LIFE_CMD_RESULT_BUSY = false ∧ t.lcs.prov = ⟨chain, k.keys, k.cas, k.cred⟩ ∧ SameMem s t) ∧
      (s.life = lcProvisioned → s.on CER_AUTHWIN_AUTH = true → presetOk s.lcs.preset = true → s.lcs.running.isSome = true →
        s.on LIFE_BOOT_TRIAL = false → ∃ t, exec (.seal 0x40) s = .next t ∧ t.life = lcSealed ∧ t.get LIFE_CMD_RESULT_STATUS = stOK ∧
          t.on CER_AUTHWIN_AUTH = false ∧ SameMem s t) ∧
      (s.life ≠ lcRetired → (s.life = lcBlank ∨ s.on CER_AUTHWIN_AUTH = true) → ∃ t, exec (.retire 0x40) s = .next t ∧
        t.life = lcRetired ∧ t.get LIFE_CMD_RESULT_STATUS = stOK ∧ t.key.rootKey = none ∧ t.key.privs = [] ∧ SameMem s t) ∧
      (s.entropyGone = false → s.canDraw 2 = true → ∃ t, exec (.debugChallenge 0x40) s = .next t ∧ t.lcs.chalAt = some s.clock ∧
        t.get LIFE_CMD_RESULT_STATUS = stOK ∧ t.on LIFE_CMD_RESULT_BUSY = false ∧ SameMem s t) ∧
      (∀ b c u, s.life = lcSealed → s.lcs.chalAt = some c → s.clock ≤ c + 60 * cyclesPerSec → s.lifeBegin.lifeBuf = (some b, u) →
        u.debugAuth b = stOK → ∃ t, exec (.debugOpen 0x40) s = .next t ∧ t.life = lcDebug ∧ t.lcs.chalAt = none ∧
          t.get LIFE_CMD_RESULT_STATUS = stOK ∧ t.lcs.dbgUntil = s.clock + cyclesPerSec * bytesToNat ((b.drop 2).take 4)) ∧
      (s.life = lcDebug → ∃ t, exec (.debugClose 0x40) s = .next t ∧ t.life = lcSealed ∧ t.get LIFE_CMD_RESULT_STATUS = stOK ∧
        t.on FAULT_CTL_FORCEFULL = false ∧ t.lcs.breaks = [] ∧ SameMem s t) ∧
      (∀ slot, slot = s.get LIFE_CMD_ARG_SLOT → slot ≠ s.get LIFE_BOOT_SLOT → 0 < s.ledHolds laCOMMIT → s.imageSigned slot = true →
        s.get LIFE_MINVER_VER ≤ (s.imageOf slot).1 → ∃ t, exec (.commitImage 0x40) s = .next t ∧
          t.get LIFE_CMD_RESULT_STATUS = stOK ∧ t.lcs.commits = s.lcs.commits ++ [⟨ckCOMMIT, slot, (s.commitSeq + 1) % 2 ^ 32,
            (s.imageOf slot).1, (s.imageOf slot).2.1, (s.imageOf slot).2.2, s.imageDigest slot⟩] ∧ SameMem s t) ∧
      (∀ q c, s.lcs.running = some q → c.minver < 2 ^ 32 → s.lcs.commits.find? (fun c => decide (c.kind = ckCOMMIT ∧ c.seq = q)) = some c →
        s.on LIFE_BOOT_TRIAL = true → ∃ t, exec (.confirmImage 0x40) s = .next t ∧ t.get LIFE_CMD_RESULT_STATUS = stOK ∧
          t.lcs.commits = s.lcs.commits ++ [{ c with kind := ckCONFIRM }] ∧ t.on LIFE_BOOT_TRIAL = false ∧
          t.get LIFE_MINVER_VER = max (s.get LIFE_MINVER_VER) c.minver ∧ SameMem s t) ∧
      ∀ b u, s.life ≤ lcProvisioned → s.get LIFE_BUF_LEN_LEN ≤ 20 + 8 * 8190 → s.lifeBegin.lifeBuf = (some b, u) →
        ∃ t, exec (.writePreset 0x40) s = .next t ∧ t.lcs.preset = b ∧ t.get LIFE_CMD_RESULT_STATUS = stOK ∧
          t.on LIFE_CMD_RESULT_BUSY = false) ∧
    (∀ s : State, s.life = lcDebug → ∃ t, exec .debugExpiry s = .next t ∧ t.life = lcSealed ∧ t.clock = max s.clock s.lcs.dbgUntil) ∧
    ∀ (s : State) (c : Nat), s.lcs.chalAt = some c → ∃ t, exec .debugChallengeExpiry s = .next t ∧ t.lcs.chalAt = none ∧
      t.clock = max s.clock (c + 60 * cyclesPerSec) ∧ SameRegs [] s t ∧ SameMem s t

/-- COLD_BOOT, RST_N_RISE, MODULE_RESET, DEBUG_ACCESS and DEBUG_HALT complete: a reset clears the logic and keeps what
lasts; only a verified committed image runs; a sealed module shows no processor to a debug port. A cold boot counts
the power cycle, a module reset names its cause, and both leave internal memory unlisted and host memory, operating
time and the queue as they were; while RST_N is low a cold boot waits. Whatever the commit records, the image that
the boot starts is one of those tried and passes R540 with a version not below LIFE_MINVER. In Sealed every debug
access to a processor is refused and counted; where the matrix gives it, a register read answers and a halt takes at
once. (R52, R505, R537, R540, R541, R542, R550, R551) -/
def Obligations.BootAndDebugRows : Prop :=
  (∀ (s : State) (l : List Commit) (q : Nat), s.lcs.running = none → (s.bootSlots l).lcs.running = some q →
      ∃ c, c ∈ l ∧ c.seq = q ∧ s.imageSigned c.slot = true ∧ s.imageDigest c.slot = c.digest ∧
        s.get LIFE_MINVER_VER ≤ (s.imageOf c.slot).1) ∧
    (∀ (s : State) (input bank : Nat) (env : BootEnv), s.powerEnters = true → 35500 ≤ input → s.pwr.rstLow = false →
      ∃ u : State, exec (.coldBoot input bank env) s = .next (u.boot false env) ∧ u.mem.cells = [] ∧ u.mem.host = s.mem.host ∧
        u.clock = s.clock + 10 * cyclesPerMs ∧ u.key.rootKey = s.key.rootKey ∧ u.key.pegs = [] ∧ u.pending = s.pending ∧
        u.lcs.running = none ∧ u.get PWRCYC_COUNT = (s.inc PWRCYC_COUNT).get PWRCYC_COUNT ∧
        ∃ t, exec (.coldBoot input bank env) s = .next t ∧ t.get LIFE_BOOT_STAGE = 0 ∧ t.pending = s.pending ∧
          t.clock = s.clock + 10 * cyclesPerMs ∧ t.pwr.bootWait = some (false, env)) ∧
    (∀ (s : State) (input bank : Nat) (env : BootEnv), s.powerEnters = true → 35500 ≤ input → s.pwr.rstLow = true →
      ∃ t, exec (.coldBoot input bank env) s = .next t ∧ t.pwr.coldWaits = true ∧ t.pstate = s.pstate ∧
        SameRegs [PWR_INPUT, PWR_BANK] s t ∧ SameMem s t) ∧
    (∀ (s : State) (env : BootEnv), ∀ s1, s1 = ({ s with pwr := { s.pwr with rstLow := false } } : State) →
      exec (.rstNRise env) s = .next (if s.pwr.coldWaits then s1.coldBoot env else s1) ∧
      (s.pwr.coldWaits = false → ∃ t, exec (.rstNRise env) s = .next t ∧ t.pwr.rstLow = false ∧ SameRegs [] s t ∧ SameMem s t)) ∧
    (∀ (s : State) (c : ResetCause) (env : BootEnv), s.resetPend = some c → s.pwr.rstLow = false → s.pwr.resetHeld = false →
      s.pstate ≠ .p3 → ∃ u : State, exec (.moduleReset env) s = .next (if c = .wdog then (u.boot c.holds env).wdogRecord
          else u.boot c.holds env) ∧ u.mem.cells = [] ∧ u.mem.host = s.mem.host ∧ u.clock = s.clock ∧ u.key.pegs = [] ∧
        u.time.opTime = s.time.opTime ∧ (∃ t, exec (.moduleReset env) s = .next t ∧ t.get LIFE_BOOT_STAGE = 0 ∧ t.pending = s.pending ∧
          t.clock = s.clock ∧ t.pwr.bootWait = some (c.holds, env)) ∧ u.pending = s.pending ∧ u.lcs.running = none ∧ u.get PWR_WAKESRC_CAUSE = c.code ∧
        u.on FAULT_NCTL_ASSERTED = true) ∧
    (∀ (s : State) (mid p bank n v w : Nat), (mid = 0x70 ∨ mid = 0x71) → s.logicUp = true → s.life = lcSealed → p ≤ 32 →
      ∀ op, (op = .regRead p bank n ∨ op = .regWrite p bank n v ∨ op = .resume p ∨ op = .step p ∨ op = .breakSet p w ∨
        op = .breakDel p w ∨ op = .secret) → exec (.debugAccess mid op) s = .next (s.inc DEBUG_REFUSED_COUNT) ∧
        exec (.debugHalt mid p) s = .next (s.inc DEBUG_REFUSED_COUNT)) ∧
    (∀ (s : State) (mid p bank n v : Nat), (mid = 0x70 ∨ mid = 0x71) → s.logicUp = true → p ≤ 32 →
      (s.seesNow p false = true → ∃ t, exec (.debugAccess mid (.regRead p bank n)) s = .next t ∧
        t.mem.reply = [⟨0, 5, true, false, natToBytes 5 (s.debugRegRead p (bank % 4) n)⟩] ∧ SameProcs [] s t ∧ SameMem s t) ∧
      (s.seesNow p true = true → ∃ t, exec (.debugAccess mid (.regWrite p bank 1 v)) s = .next t ∧ (t.proc p).pc = a24 v ∧
        SameProcs [p] s t ∧ SameMem s t) ∧
      (s.mayHalt p = true → s.sees p (s.proc p).priv = .full → ∃ t, exec (.debugHalt mid p) s = .next t ∧ (t.proc p).halted = true ∧
        SameProcs [p] s t ∧ SameMem s t)) ∧
    ∀ (s : State) (mid a : Nat) (op : FabOp) (env : FabEnv), (mid = 0x70 ∨ mid = 0x71) → s.logicUp = true → opLen op ≠ 0 →
      (s.seesFabric a op = false → exec (.debugAccess mid (.fabric a op env)) s = .next (s.inc DEBUG_REFUSED_COUNT)) ∧
      (s.seesFabric a op = true → exec (.debugAccess mid (.fabric a op env)) s =
        .next (((s.debugWake.disturb env).fabricAccess mid a op).debugSession mid true))
end

