-- ==== Sys2Proof/Laws/Memory.lean ====
section
/-! SUPPORT. The canonical form of tables and byte memories: what each operation on them keeps. -/

namespace Sys2Proof.Machine

theorem tableWf_iff {α : Type} [DecidableEq α] (d : α) (t : List (Nat × α)) :
    tableWf d t = true ↔ t.Pairwise (fun a b => a.1 < b.1) ∧ ∀ e ∈ t, e.2 ≠ d := by
  induction t with
  | nil => simp [tableWf]
  | cons a t ih =>
    obtain ⟨j, v⟩ := a
    cases t with
    | nil => simp [tableWf]
    | cons b t =>
      obtain ⟨k, w⟩ := b
      simp only [tableWf, Bool.and_eq_true, decide_eq_true_eq, ih]
      constructor
      · rintro ⟨⟨h1, h2⟩, h3, h4⟩
        refine ⟨List.pairwise_cons.mpr ⟨?_, h3⟩, ?_⟩
        · intro e he
          rcases List.mem_cons.mp he with h | h
          · subst h; exact h1
          · exact Nat.lt_trans h1 ((List.pairwise_cons.mp h3).1 e h)
        · intro e he
          rcases List.mem_cons.mp he with h | h
          · subst h; exact h2
          · exact h4 e h
      · rintro ⟨h1, h2⟩
        have h3 := List.pairwise_cons.mp h1
        exact ⟨⟨h3.1 _ (List.mem_cons_self ..), h2 _ (List.mem_cons_self ..)⟩, h3.2, fun e he => h2 e (List.mem_cons_of_mem _ he)⟩

theorem terase_eq_filter {α : Type} (t : List (Nat × α)) (k : Nat) : terase t k = t.filter (fun e => decide (e.1 ≠ k)) := by
  induction t with
  | nil => rfl
  | cons a t ih =>
    obtain ⟨j, v⟩ := a
    by_cases h : j = k <;> simp [terase, h, ih]

theorem tableWf_filter {α : Type} [DecidableEq α] {d : α} {t : List (Nat × α)} (p : Nat × α → Bool)
    (h : tableWf d t = true) : tableWf d (t.filter p) = true := by
  rw [tableWf_iff] at *
  exact ⟨h.1.filter p, fun e he => h.2 e (List.mem_filter.mp he).1⟩

theorem tableWf_terase {α : Type} [DecidableEq α] {d : α} {t : List (Nat × α)} (k : Nat)
    (h : tableWf d t = true) : tableWf d (terase t k) = true := by
  rw [terase_eq_filter]; exact tableWf_filter _ h

theorem mem_tinsert {α : Type} {t : List (Nat × α)} {k : Nat} {v : α} {e : Nat × α} (h : e ∈ tinsert t k v) :
    e = (k, v) ∨ e ∈ t := by
  induction t with
  | nil => simpa [tinsert] using h
  | cons a t ih =>
    obtain ⟨j, w⟩ := a
    simp only [tinsert] at h
    split at h
    · simpa using h
    · rcases List.mem_cons.mp h with h | h
      · exact .inr (by simp [h])
      · exact (ih h).imp id (List.mem_cons_of_mem _)

theorem tableWf_tinsert {α : Type} [DecidableEq α] {d : α} {t : List (Nat × α)} {k : Nat} {v : α} (hv : v ≠ d)
    (hk : ∀ e ∈ t, e.1 ≠ k) (h : tableWf d t = true) : tableWf d (tinsert t k v) = true := by
  rw [tableWf_iff] at *
  refine ⟨?_, fun e he => (mem_tinsert he).elim (fun h' => by simpa [h'] using hv) (h.2 e)⟩
  obtain ⟨h, -⟩ := h
  induction t with
  | nil => simp [tinsert]
  | cons a t ih =>
    obtain ⟨j, w⟩ := a
    have h' := List.pairwise_cons.mp h
    simp only [tinsert]
    split
    next hlt =>
      refine List.pairwise_cons.mpr ⟨?_, h⟩
      intro e he
      rcases List.mem_cons.mp he with h1 | h1
      · subst h1; exact hlt
      · exact Nat.lt_trans hlt (h'.1 e h1)
    next hlt =>
      refine List.pairwise_cons.mpr ⟨?_, ih (fun e he => hk e (List.mem_cons_of_mem _ he)) h'.2⟩
      intro e he
      rcases mem_tinsert he with h1 | h1
      · subst h1
        have := hk (j, w) (List.mem_cons_self ..)
        simp only at this ⊢
        omega
      · exact h'.1 e h1

theorem tableWf_tsetD {α : Type} [DecidableEq α] {d : α} {t : List (Nat × α)} (k : Nat) (v : α)
    (h : tableWf d t = true) : tableWf d (tsetD d t k v) = true := by
  unfold tsetD
  split
  · exact tableWf_terase k h
  · next hv =>
    refine tableWf_tinsert hv ?_ (tableWf_terase k h)
    intro e he
    rw [terase_eq_filter] at he
    simpa using (List.mem_filter.mp he).2

theorem memory_wf_cellWrite {m : List Host.Cell} (a : Nat) (b : Byte) (h : Memory.wf m = true) :
    Memory.wf (cellWrite m a b) = true := tableWf_tsetD a b h

theorem memory_wf_cellsWrite {m : List Host.Cell} (a : Nat) (bs : Bytes) (h : Memory.wf m = true) :
    Memory.wf (cellsWrite m a bs) = true := by
  induction bs generalizing m a with
  | nil => exact h
  | cons b bs ih => exact ih _ (memory_wf_cellWrite a b h)

theorem memory_wf_filter {m : List Host.Cell} (p : Host.Cell → Bool) (h : Memory.wf m = true) :
    Memory.wf (m.filter p) = true := tableWf_filter p h

end Sys2Proof.Machine
end

