-- ==== Sys2Proof/Laws/Keeps.lean ====
section
/-! SUPPORT. What every operation of the block keeps: the queue, the clock's direction and the memories' canonical form; the
rules by which it is shown of a definition's parts. -/

namespace Sys2Proof.Machine

/-- What every operation keeps. -/
structure Keeps (s t : State) : Prop where
  pending : t.pending = s.pending
  clock : s.clock ≤ t.clock
  mem : s.memOk → t.memOk

theorem Keeps.refl (s : State) : Keeps s s := ⟨rfl, Nat.le_refl _, id⟩

theorem keeps_of {s0 s t : State} (h : Keeps s0 s) (h1 : t.pending = s.pending) (h2 : s.clock ≤ t.clock)
    (h3 : s.memOk → t.memOk) : Keeps s0 t :=
  ⟨h1.trans h.pending, Nat.le_trans h.clock h2, fun x => h3 (h.mem x)⟩

theorem keeps_ite {s0 s t : State} {c : Prop} [Decidable c] (h : Keeps s0 s) (h' : Keeps s0 t) :
    Keeps s0 (if c then s else t) := by split <;> assumption

theorem keeps_foldl {α : Type} {s0 s : State} {f : State → α → State} {l : List α}
    (hf : ∀ t e, Keeps s0 t → Keeps s0 (f t e)) (h : Keeps s0 s) : Keeps s0 (l.foldl f s) := by
  induction l generalizing s with
  | nil => exact h
  | cons x xs ih => exact ih (hf s x h)

structure OutKeeps (s0 : State) (o : Out) : Prop where
  run : ∀ t, o = .next t → Keeps s0 t
theorem outKeeps_next {s0 s : State} (h : Keeps s0 s) : OutKeeps s0 (.next s) :=
  ⟨fun t ht => by cases ht; exact h⟩
theorem outKeeps_ite {s0 : State} {a b : Out} {c : Prop} [Decidable c] (h : OutKeeps s0 a) (h' : OutKeeps s0 b) :
    OutKeeps s0 (if c then a else b) := by split <;> assumption
def KeyKeeps (s0 : State) : KeyOut → Prop
  | .fin _ _ s => Keeps s0 s
  | .wait => True
structure OptKeeps (s0 : State) (o : Option State) : Prop where
  run : ∀ t, o = some t → Keeps s0 t
structure OptKeeps2 {α : Type} (s0 : State) (o : Option (α × State)) : Prop where
  run : ∀ a t, o = some (a, t) → Keeps s0 t
def ResKeeps {α : Type} (s0 : State) : Res α → Prop
  | .ok _ c => Keeps s0 c.s
  | .exc _ c => Keeps s0 c.s
def ResSKeeps (s0 : State) : Res State → Prop
  | .ok t c => Keeps s0 t ∧ Keeps s0 c.s
  | .exc _ c => Keeps s0 c.s

theorem keeps_upd {s0 s : State} {regs dual hiLatch topUnmapped topNarrow freeCtr pstate resetPend time ev flt procs key data
    jobs ve rosin die led tamp wdog pwr lcs pick card intcHeld holdoffs} (h : Keeps s0 s) :
    Keeps s0 (State.mk s.clock regs dual hiLatch topUnmapped topNarrow freeCtr pstate resetPend time s.mem ev flt procs key data
      jobs ve rosin die led tamp wdog pwr lcs pick card intcHeld holdoffs s.pending) :=
  ⟨h.pending, h.clock, h.mem⟩

theorem keeps_upd_mem {s0 s : State} {regs dual hiLatch topUnmapped topNarrow freeCtr pstate resetPend time ev flt procs key data
    jobs ve rosin die led tamp wdog pwr lcs pick card intcHeld holdoffs m32 upsets poison writebacks lines dramPoison parityNext
    crcNext hostFails hostFn versions guardQueue bootKeys guardKey guardPrev sweepAt reply} (h : Keeps s0 s) :
    Keeps s0 (State.mk s.clock regs dual hiLatch topUnmapped topNarrow freeCtr pstate resetPend time
      (MemState.mk s.mem.cells s.mem.host m32 upsets poison writebacks lines dramPoison parityNext crcNext hostFails hostFn
        versions guardQueue bootKeys guardKey guardPrev sweepAt reply) ev flt procs
      key data jobs ve rosin die led tamp wdog pwr lcs pick card intcHeld holdoffs s.pending) :=
  ⟨h.pending, h.clock, h.mem⟩

theorem keeps_upd_iff {s0 s : State} {regs dual hiLatch topUnmapped topNarrow freeCtr pstate resetPend time ev flt procs key data
    jobs ve rosin die led tamp wdog pwr lcs pick card intcHeld holdoffs} :
    Keeps s0 (State.mk s.clock regs dual hiLatch topUnmapped topNarrow freeCtr pstate resetPend time s.mem ev flt procs key data
      jobs ve rosin die led tamp wdog pwr lcs pick card intcHeld holdoffs s.pending) ↔ Keeps s0 s :=
  ⟨fun h => ⟨h.pending, h.clock, h.mem⟩, keeps_upd⟩

theorem keeps_upd_mem_iff {s0 s : State} {regs dual hiLatch topUnmapped topNarrow freeCtr pstate resetPend time ev flt procs key data
    jobs ve rosin die led tamp wdog pwr lcs pick card intcHeld holdoffs m32 upsets poison writebacks lines dramPoison parityNext
    crcNext hostFails hostFn versions guardQueue bootKeys guardKey guardPrev sweepAt reply} :
    Keeps s0 (State.mk s.clock regs dual hiLatch topUnmapped topNarrow freeCtr pstate resetPend time
      (MemState.mk s.mem.cells s.mem.host m32 upsets poison writebacks lines dramPoison parityNext crcNext hostFails hostFn
        versions guardQueue bootKeys guardKey guardPrev sweepAt reply) ev flt procs
      key data jobs ve rosin die led tamp wdog pwr lcs pick card intcHeld holdoffs s.pending) ↔ Keeps s0 s :=
  ⟨fun h => ⟨h.pending, h.clock, h.mem⟩, keeps_upd_mem⟩

theorem keyKeeps_fin {s0 s : State} {a b : Nat} (h : Keeps s0 s) : KeyKeeps s0 (.fin a b s) := h
theorem keyKeeps_wait {s0 : State} : KeyKeeps s0 .wait := trivial
theorem keyKeeps_ite {s0 : State} {a b : KeyOut} {c : Prop} [Decidable c] (h : KeyKeeps s0 a) (h' : KeyKeeps s0 b) :
    KeyKeeps s0 (if c then a else b) := by split <;> assumption
theorem keeps_key {s0 s : State} {k : KeyOut} {a b : Nat} (h : k = .fin a b s) (hk : KeyKeeps s0 k) : Keeps s0 s := by
  subst h; exact hk
theorem resKeeps_ok {α : Type} {s0 : State} {v : α} {c : Cx} (h : Keeps s0 c.s) : ResKeeps s0 (.ok v c) := h
theorem resKeeps_exc {α : Type} {s0 : State} {e : Exc} {c : Cx} (h : Keeps s0 c.s) : ResKeeps s0 (.exc e c : Res α) := h
theorem resKeeps_ite {α : Type} {s0 : State} {a b : Res α} {c : Prop} [Decidable c] (h : ResKeeps s0 a) (h' : ResKeeps s0 b) :
    ResKeeps s0 (if c then a else b) := by split <;> assumption
theorem keeps_ok {α : Type} {s0 : State} {r : Res α} {v : α} {c : Cx} (h : r = .ok v c) (hk : ResKeeps s0 r) : Keeps s0 c.s := by
  subst h; exact hk
theorem keeps_exc {α : Type} {s0 : State} {r : Res α} {e : Exc} {c : Cx} (h : r = .exc e c) (hk : ResKeeps s0 r) : Keeps s0 c.s := by
  subst h; exact hk
theorem resKeeps_andThen {α β : Type} {s0 : State} {r : Res α} {f : α → Cx → Res β} (h : ResKeeps s0 r)
    (hf : ∀ v c, Keeps s0 c.s → ResKeeps s0 (f v c)) : ResKeeps s0 (r.andThen f) := by
  cases r with
  | ok v c => exact hf v c h
  | exc e c => exact h
theorem resS_ok {s0 t : State} {c : Cx} (h : Keeps s0 t) (h' : Keeps s0 c.s) : ResSKeeps s0 (.ok t c) := ⟨h, h'⟩
theorem resS_exc {s0 : State} {e : Exc} {c : Cx} (h : Keeps s0 c.s) : ResSKeeps s0 (.exc e c) := h
theorem resS_ite {s0 : State} {a b : Res State} {c : Prop} [Decidable c] (h : ResSKeeps s0 a) (h' : ResSKeeps s0 b) :
    ResSKeeps s0 (if c then a else b) := by split <;> assumption
theorem resS_andThen {α : Type} {s0 : State} {r : Res α} {f : α → Cx → Res State} (h : ResKeeps s0 r)
    (hf : ∀ v c, Keeps s0 c.s → ResSKeeps s0 (f v c)) : ResSKeeps s0 (r.andThen f) := by
  cases r with
  | ok v c => exact hf v c h
  | exc e c => exact h
theorem resS_andThenS {s0 : State} {r : Res State} {f : State → Cx → Res State} (h : ResSKeeps s0 r)
    (hf : ∀ t c, Keeps s0 t → Keeps s0 c.s → ResSKeeps s0 (f t c)) : ResSKeeps s0 (r.andThen f) := by
  cases r with
  | ok v c => exact hf v c h.1 h.2
  | exc e c => exact h
theorem keeps_okS {s0 t : State} {r : Res State} {c : Cx} (h : r = .ok t c) (hk : ResSKeeps s0 r) : Keeps s0 t := by
  subst h; exact hk.1
theorem keeps_okS2 {s0 t : State} {r : Res State} {c : Cx} (h : r = .ok t c) (hk : ResSKeeps s0 r) : Keeps s0 c.s := by
  subst h; exact hk.2
theorem keeps_excS {s0 : State} {r : Res State} {e : Exc} {c : Cx} (h : r = .exc e c) (hk : ResSKeeps s0 r) : Keeps s0 c.s := by
  subst h; exact hk
theorem keeps_sndC {α : Type} {s0 : State} {c : Cx} {p : α × Cx} {a : α} (h : p = (a, c)) (hk : Keeps s0 p.2.s) : Keeps s0 c.s := by
  subst h; exact hk
theorem keeps_foldlC {α : Type} {s0 : State} {c : Cx} {f : Cx → α → Cx} {l : List α}
    (hf : ∀ c e, Keeps s0 c.s → Keeps s0 (f c e).s) (h : Keeps s0 c.s) : Keeps s0 (l.foldl f c).s := by
  induction l generalizing c with
  | nil => exact h
  | cons x xs ih => exact ih (hf c x h)
theorem keeps_snd {α : Type} {s0 s : State} {p : α × State} {a : α} (h : p = (a, s)) (hk : Keeps s0 p.2) : Keeps s0 s := by
  subst h; exact hk
theorem keeps_snd3 {α β : Type} {s0 s : State} {p : α × β × State} {a : α} {b : β} (h : p = (a, b, s))
    (hk : Keeps s0 p.2.2) : Keeps s0 s := by subst h; exact hk
theorem keeps_some {s0 s : State} {o : Option State} (h : o = some s) (hk : OptKeeps s0 o) : Keeps s0 s := hk.run _ h
theorem keeps_some2 {α : Type} {s0 s : State} {o : Option (α × State)} {a : α} (h : o = some (a, s)) (hk : OptKeeps2 s0 o) :
    Keeps s0 s := hk.run _ _ h
theorem keeps_next {s0 s : State} {o : Out} (h : o = .next s) (hk : OutKeeps s0 o) : Keeps s0 s := hk.run _ h
theorem optKeeps_none {s0 : State} : OptKeeps s0 none := ⟨fun _ h => by cases h⟩
theorem optKeeps_some {s0 s : State} (h : Keeps s0 s) : OptKeeps s0 (some s) := ⟨fun _ ht => by cases ht; exact h⟩
theorem optKeeps_ite {s0 : State} {a b : Option State} {c : Prop} [Decidable c] (h : OptKeeps s0 a) (h' : OptKeeps s0 b) :
    OptKeeps s0 (if c then a else b) := by split <;> assumption
theorem optKeeps2_none {α : Type} {s0 : State} : OptKeeps2 s0 (none : Option (α × State)) := ⟨fun _ _ h => by cases h⟩
theorem optKeeps2_some {α : Type} {s0 s : State} {a : α} (h : Keeps s0 s) : OptKeeps2 s0 (some (a, s)) :=
  ⟨fun _ _ ht => by cases ht; exact h⟩
theorem optKeeps2_ite {α : Type} {s0 : State} {a b : Option (α × State)} {c : Prop} [Decidable c] (h : OptKeeps2 s0 a)
    (h' : OptKeeps2 s0 b) : OptKeeps2 s0 (if c then a else b) := by split <;> assumption
theorem keeps_elim {α : Type} {s0 s : State} {f : α → State} {o : Option α} (h : Keeps s0 s) (hf : ∀ x, Keeps s0 (f x)) :
    Keeps s0 (o.elim s f) := by cases o; exact h; exact hf _
theorem optKeeps2_map {α : Type} {s0 : State} {o : Option State} {a : α} (h : OptKeeps s0 o) :
    OptKeeps2 s0 (o.map (fun t => (a, t))) := by
  cases o with
  | none => exact optKeeps2_none
  | some t => exact optKeeps2_some (h.run _ rfl)
theorem keeps_mk {α : Type} {s0 s : State} {a : α} (h : Keeps s0 s) : Keeps s0 ((a, s) : α × State).2 := h
theorem keeps_pair_ite {α : Type} {s0 : State} {a b : α × State} {c : Prop} [Decidable c] (h : Keeps s0 a.2) (h' : Keeps s0 b.2) :
    Keeps s0 (if c then a else b).2 := by split <;> assumption

end Sys2Proof.Machine
end

