-- ==== Sys2Proof/Laws/OpsKeeps.lean ====
section
/-! SUPPORT. What the definitions of Machine/Ops.lean keep, one lemma each. -/

namespace Sys2Proof.Machine

set_option linter.all false

theorem State.wr_keeps {s0 : State} (s : State) (off : Nat) (v : Word32) (h_s : Keeps s0 s) :
    Keeps s0 (State.wr s off v) := by
  unfold State.wr
  repeat' first
    | with_reducible first
        | assumption
    | simp only [↓keeps_upd_iff] | dsimp only

theorem State.put_keeps {s0 : State} (s : State) (f : Fld) (v : Nat) (h_s : Keeps s0 s) :
    Keeps s0 (State.put s f v) := by
  unfold State.put
  repeat' first
    | with_reducible first
        | assumption | apply keeps_ite
    | simp only [↓keeps_upd_iff] | (refine keeps_snd (by with_reducible assumption) ?_)
    | (refine keeps_some (by with_reducible assumption) ?_) | split | dsimp only

theorem State.inc_keeps {s0 : State} (s : State) (f : Fld) (h_s : Keeps s0 s) : Keeps s0 (State.inc s f) := by
  unfold State.inc
  repeat' first
    | with_reducible first
        | assumption | apply State.put_keeps
    | dsimp only

theorem State.incBy_keeps {s0 : State} (s : State) (f : Fld) (n : Nat) (h_s : Keeps s0 s) :
    Keeps s0 (State.incBy s f n) := by
  unfold State.incBy
  repeat' first
    | with_reducible first
        | assumption | apply State.put_keeps
    | dsimp only

theorem State.incWrap_keeps {s0 : State} (s : State) (f : Fld) (h_s : Keeps s0 s) :
    Keeps s0 (State.incWrap s f) := by
  unfold State.incWrap
  repeat' first
    | with_reducible first
        | assumption | apply State.put_keeps
    | dsimp only

theorem State.put64_keeps {s0 : State} (s : State) (lo hi v : Nat) (h_s : Keeps s0 s) :
    Keeps s0 (State.put64 s lo hi v) := by
  unfold State.put64
  repeat' first
    | with_reducible first
        | assumption | apply State.wr_keeps
    | dsimp only

theorem State.inc64_keeps {s0 : State} (s : State) (lo hi n : Nat) (h_s : Keeps s0 s) :
    Keeps s0 (State.inc64 s lo hi n) := by
  unfold State.inc64
  repeat' first
    | with_reducible first
        | assumption | apply State.put64_keeps
    | dsimp only

theorem State.putB_keeps {s0 : State} (s : State) (f : Fld) (b : Bool) (h_s : Keeps s0 s) :
    Keeps s0 (State.putB s f b) := by
  unfold State.putB
  repeat' first
    | with_reducible first
        | assumption | apply keeps_ite | apply State.put_keeps
    | split | dsimp only

theorem State.free_keeps {s0 : State} (s : State) (h_s : Keeps s0 s) : Keeps s0 (State.free s).2 := by
  unfold State.free
  repeat' first
    | with_reducible first
        | assumption
    | simp only [↓keeps_upd_iff] | dsimp only

theorem State.freeB_keeps {s0 : State} (s : State) (n : Nat) (h_s : Keeps s0 s) :
    Keeps s0 (State.freeB s n).2 := by
  unfold State.freeB
  repeat' first
    | with_reducible first
        | assumption
    | simp only [↓keeps_upd_iff] | dsimp only

theorem State.setIrq_keeps {s0 : State} (s : State) (i : Nat) (h_s : Keeps s0 s) :
    Keeps s0 (State.setIrq s i) := by
  unfold State.setIrq
  repeat' first
    | with_reducible first
        | assumption | apply State.put_keeps
    | dsimp only

theorem State.clrIrq_keeps {s0 : State} (s : State) (i : Nat) (h_s : Keeps s0 s) :
    Keeps s0 (State.clrIrq s i) := by
  unfold State.clrIrq
  repeat' first
    | with_reducible first
        | assumption | apply State.put_keeps
    | dsimp only

theorem State.irq_keeps {s0 : State} (s : State) (i : Nat) (b : Bool) (h_s : Keeps s0 s) :
    Keeps s0 (State.irq s i b) := by
  unfold State.irq
  repeat' first
    | with_reducible first
        | assumption | apply State.putB_keeps
    | dsimp only

theorem State.pass_keeps {s0 : State} (s : State) (n : Nat) (h_s : Keeps s0 s) : Keeps s0 (s.pass n) :=
  keeps_of h_s rfl (Nat.le_add_right _ _) id

theorem State.passTo_keeps {s0 : State} (s : State) (c : Nat) (h_s : Keeps s0 s) :
    Keeps s0 (State.passTo s c) := by
  unfold State.passTo
  repeat' first
    | with_reducible first
        | assumption | apply State.pass_keeps
    | dsimp only

theorem State.setProc_keeps {s0 : State} (s : State) (p : Nat) (pr : Proc) (h_s : Keeps s0 s) :
    Keeps s0 (State.setProc s p pr) := by
  unfold State.setProc
  repeat' first
    | with_reducible first
        | assumption
    | simp only [↓keeps_upd_iff] | dsimp only

theorem State.poke_keeps {s0 : State} (s : State) (a : Nat) (bs : Bytes) (h_s : Keeps s0 s) : Keeps s0 (s.poke a bs) :=
  keeps_of h_s rfl (Nat.le_refl _) fun h => ⟨memory_wf_cellsWrite a bs h.1, h.2⟩

theorem State.sramClear_keeps {s0 : State} (s : State) (lo n : Nat) (h_s : Keeps s0 s) : Keeps s0 (s.sramClear lo n) :=
  keeps_of h_s rfl (Nat.le_refl _) fun h => ⟨memory_wf_filter _ h.1, h.2⟩

theorem State.hostWrite_keeps {s0 : State} (s : State) (a : Nat) (bs : Bytes) (h_s : Keeps s0 s) : Keeps s0 (s.hostWrite a bs) :=
  keeps_of h_s rfl (Nat.le_refl _) fun h => ⟨h.1, memory_wf_cellsWrite a bs h.2⟩

end Sys2Proof.Machine
end

