-- ==== Sys2Proof/Laws/FaultsKeeps.lean ====
section
/-! SUPPORT. What the definitions of Machine/Faults.lean keep, one lemma each. -/

namespace Sys2Proof.Machine

set_option linter.all false

theorem State.flushMark_keeps {s0 : State} (s : State) (h_s : Keeps s0 s) : Keeps s0 (State.flushMark s) := by
  unfold State.flushMark
  repeat' first
    | with_reducible first
        | assumption
    | simp only [↓keeps_upd_iff] | split | dsimp only

theorem State.flushStart_keeps {s0 : State} (s : State) (h_s : Keeps s0 s) :
    Keeps s0 (State.flushStart s) := by
  unfold State.flushStart
  repeat' first
    | with_reducible first
        | assumption | apply State.flushMark_keeps | apply State.put_keeps
    | simp only [↓keeps_upd_iff] | (refine keeps_snd (by with_reducible assumption) ?_)
    | (refine keeps_some (by with_reducible assumption) ?_) | split | dsimp only

theorem State.openOrMerge_keeps {s0 : State} (s : State) (src info : Nat) (forced : Bool) (cls acts : Nat)
    (h_s : Keeps s0 s) : Keeps s0 (State.openOrMerge s src info forced cls acts) := by
  unfold State.openOrMerge
  repeat' first
    | with_reducible first
        | assumption | apply keeps_ite | apply State.put_keeps
    | simp only [↓keeps_upd_iff] | (refine keeps_snd (by with_reducible assumption) ?_)
    | (refine keeps_snd3 (by with_reducible assumption) ?_)
    | (refine keeps_some (by with_reducible assumption) ?_) | split | dsimp only

theorem State.faultN_keeps {s0 : State} (s : State) (h_s : Keeps s0 s) : Keeps s0 (State.faultN s) := by
  unfold State.faultN
  repeat' first
    | with_reducible first
        | assumption | apply State.put_keeps
    | simp only [↓keeps_upd_iff] | dsimp only

theorem State.isolate_keeps {s0 : State} (s : State) (src : Nat) (h_s : Keeps s0 s) :
    Keeps s0 (State.isolate s src) := by
  unfold State.isolate
  repeat' first
    | with_reducible first
        | assumption | apply keeps_ite | apply State.put_keeps
    | simp only [↓keeps_upd_iff] | split | dsimp only

theorem State.resetDomain_keeps {s0 : State} (s : State) (src : Nat) (h_s : Keeps s0 s) :
    Keeps s0 (State.resetDomain s src) := by
  unfold State.resetDomain
  repeat' first
    | with_reducible first
        | assumption | apply keeps_ite | apply State.put_keeps
    | simp only [↓keeps_upd_iff] | split | dsimp only

theorem State.actions_keeps {s0 : State} (s : State) (src cls acts : Nat) (h_s : Keeps s0 s) :
    Keeps s0 (State.actions s src cls acts) := by
  unfold State.actions
  repeat' first
    | with_reducible first
        | assumption | apply keeps_ite | apply State.faultN_keeps | apply State.isolate_keeps
        | apply State.put_keeps | apply State.resetDomain_keeps | apply State.setIrq_keeps
    | simp only [↓keeps_upd_iff] | split | dsimp only

theorem State.raiseCore_keeps {s0 : State} (s : State) (src info : Nat) (forced : Bool) (h_s : Keeps s0 s) :
    Keeps s0 (State.raiseCore s src info forced) := by
  unfold State.raiseCore
  repeat' first
    | with_reducible first
        | assumption | apply keeps_ite | apply State.actions_keeps | apply State.inc_keeps
        | apply State.openOrMerge_keeps
    | split | dsimp only

theorem State.evPut_keeps {s0 : State} (s : State) (source code status origin : Nat) (pl : Bytes)
    (high flush : Bool) (h_s : Keeps s0 s) :
    Keeps s0 (State.evPut s source code status origin pl high flush) := by
  unfold State.evPut
  repeat' first
    | with_reducible first
        | assumption | apply keeps_ite | apply State.flushStart_keeps | apply State.inc_keeps
        | apply State.put_keeps | apply State.raiseCore_keeps | apply State.setIrq_keeps
        | apply outKeeps_next | apply outKeeps_ite
    | simp only [↓keeps_upd_iff] | split | dsimp only

theorem State.putWords_keeps {s0 : State} (s : State) (off x0 : Nat) (x1 : Bytes) (h_s : Keeps s0 s) :
    Keeps s0 (State.putWords s off x0 x1) := by
  induction x0 generalizing s off x1 with
  | zero =>
    unfold State.putWords
    repeat' first
    | with_reducible first
        | assumption | apply State.wr_keeps
    | split | dsimp only
  | succ n ih =>
    unfold State.putWords
    repeat' first
      | with_reducible first
          | assumption | apply State.wr_keeps | apply ih
      | split | dsimp only

theorem State.faultClose_keeps {s0 : State} (s : State) (selfTest : Nat) (h_s : Keeps s0 s) :
    Keeps s0 (State.faultClose s selfTest) := by
  unfold State.faultClose
  repeat' first
    | with_reducible first
        | assumption | apply keeps_ite | apply State.evPut_keeps | apply State.inc_keeps
        | apply State.putWords_keeps | apply State.put_keeps | apply State.setIrq_keeps
    | simp only [↓keeps_upd_iff] | (refine keeps_snd (by with_reducible assumption) ?_)
    | (refine keeps_some (by with_reducible assumption) ?_) | split | dsimp only

theorem State.raiseBase_keeps {s0 : State} (s : State) (src info : Nat) (forced : Bool) (h_s : Keeps s0 s) :
    Keeps s0 (State.raiseBase s src info forced) := by
  unfold State.raiseBase
  repeat' first
    | with_reducible first
        | assumption | apply keeps_ite | apply State.faultClose_keeps | apply State.raiseCore_keeps
    | split | dsimp only

end Sys2Proof.Machine
end

