-- ==== Sys2Proof/Laws/QueueStopKeeps.lean ====
section
/-! SUPPORT. What the definitions of Machine/QueueStop.lean keep, one lemma each. -/

namespace Sys2Proof.Machine

set_option linter.all false

theorem State.evUnit_keeps {s0 : State} (s : State) (irq st : Nat) (h_s : Keeps s0 s) :
    Keeps s0 (State.evUnit s irq st) := by
  unfold State.evUnit
  repeat' first
    | with_reducible first
        | assumption | apply State.evPut_keeps | apply State.freeB_keeps | apply State.free_keeps
        | apply State.irq_keeps
    | dsimp only

theorem State.evUnitNaming_keeps {s0 : State} (s : State) (irq st : Nat) (known : Bytes) (h_s : Keeps s0 s) :
    Keeps s0 (State.evUnitNaming s irq st known) := by
  unfold State.evUnitNaming
  repeat' first
    | with_reducible first
        | assumption | apply State.evPut_keeps | apply State.freeB_keeps | apply State.free_keeps
        | apply State.irq_keeps
    | dsimp only

theorem State.evUnitFree_keeps {s0 : State} (s : State) (irq : Nat) (h_s : Keeps s0 s) :
    Keeps s0 (State.evUnitFree s irq) := by
  unfold State.evUnitFree
  repeat' first
    | with_reducible first
        | assumption | apply State.evUnit_keeps | apply State.free_keeps | apply State.irq_keeps
    | dsimp only

theorem State.setQueue_keeps {s0 : State} (s : State) (q : Nat) (x : QueueState) (h_s : Keeps s0 s) :
    Keeps s0 (State.setQueue s q x) := by
  unfold State.setQueue
  repeat' first
    | with_reducible first
        | assumption
    | simp only [↓keeps_upd_iff] | dsimp only

theorem State.kdcLine_keeps {s0 : State} (s : State) (h_s : Keeps s0 s) : Keeps s0 (State.kdcLine s) := by
  unfold State.kdcLine
  repeat' first
    | with_reducible first
        | assumption | apply State.irq_keeps
    | dsimp only

theorem State.putUnread_keeps {s0 : State} (s : State) (q n : Nat) (h_s : Keeps s0 s) :
    Keeps s0 (State.putUnread s q n) := by
  unfold State.putUnread
  repeat' first
    | with_reducible first
        | assumption | apply State.kdcLine_keeps
    | simp only [↓keeps_upd_iff] | dsimp only

theorem State.dropItems_keeps {s0 : State} (s : State) (q : Nat) (h_s : Keeps s0 s) :
    Keeps s0 (State.dropItems s q) := by
  unfold State.dropItems
  repeat' first
    | with_reducible first
        | assumption | apply State.incBy_keeps | apply State.setQueue_keeps
    | simp only [↓keeps_upd_iff] | dsimp only

theorem State.queueClear_keeps {s0 : State} (s : State) (q : Nat) (h_s : Keeps s0 s) :
    Keeps s0 (State.queueClear s q) := by
  unfold State.queueClear
  repeat' first
    | with_reducible first
        | intro _ | assumption | apply keeps_ite | apply State.dropItems_keeps | apply State.putUnread_keeps
        | apply State.setQueue_keeps
    | simp only [↓keeps_upd_iff] | (refine keeps_snd (by with_reducible assumption) ?_)
    | (refine keeps_some (by with_reducible assumption) ?_)
    | (refine keeps_some2 (by with_reducible assumption) ?_) | split | dsimp only

theorem State.queueStopBase_keeps {s0 : State} (s : State) (q err : Nat) (h_s : Keeps s0 s) :
    Keeps s0 (State.queueStopBase s q err) := by
  unfold State.queueStopBase
  repeat' first
    | with_reducible first
        | assumption | apply State.evUnit_keeps | apply State.put_keeps | apply State.queueClear_keeps
        | apply State.setIrq_keeps
    | dsimp only

theorem State.ideLeave_keeps {s0 : State} (s : State) (stream : Nat) (h_s : Keeps s0 s) :
    Keeps s0 (State.ideLeave s stream) := by
  unfold State.ideLeave
  repeat' first
    | with_reducible first
        | intro _ | assumption | apply keeps_ite | apply State.put_keeps | apply State.queueStopBase_keeps
        | apply State.raiseBase_keeps | apply State.setIrq_keeps | apply keeps_foldl
    | simp only [↓keeps_upd_iff] | split | dsimp only

end Sys2Proof.Machine
end

