-- ==== Sys2Proof/Laws/KeyBaseKeeps.lean ====
section
/-! SUPPORT. What the definitions of Machine/KeyBase.lean keep, one lemma each. -/

namespace Sys2Proof.Machine

set_option linter.all false

theorem State.pegCounts_keeps {s0 : State} (s : State) (h_s : Keeps s0 s) : Keeps s0 (State.pegCounts s) := by
  unfold State.pegCounts
  repeat' first
    | with_reducible first
        | intro _ | assumption | apply State.put_keeps
    | dsimp only

theorem State.setPeg_keeps {s0 : State} (s : State) (i : Nat) (p : Peg) (h_s : Keeps s0 s) :
    Keeps s0 (State.setPeg s i p) := by
  unfold State.setPeg
  repeat' first
    | with_reducible first
        | intro _ | assumption | apply keeps_ite | apply State.free_keeps | apply State.ideLeave_keeps
        | apply State.pegCounts_keeps | apply keeps_foldl
    | simp only [↓keeps_upd_iff] | split | dsimp only

theorem State.privCount_keeps {s0 : State} (s : State) (h_s : Keeps s0 s) : Keeps s0 (State.privCount s) := by
  unfold State.privCount
  repeat' first
    | with_reducible first
        | intro _ | assumption | apply keeps_ite | apply State.put_keeps
    | split | dsimp only

theorem State.setPriv_keeps {s0 : State} (s : State) (i : Nat) (p : Priv) (h_s : Keeps s0 s) :
    Keeps s0 (State.setPriv s i p) := by
  unfold State.setPriv
  repeat' first
    | with_reducible first
        | assumption | apply State.free_keeps | apply State.privCount_keeps
    | simp only [↓keeps_upd_iff] | dsimp only

theorem State.spentReport_keeps {s0 : State} (s : State) (i : Nat) (h_s : Keeps s0 s) :
    Keeps s0 (State.spentReport s i) := by
  unfold State.spentReport
  repeat' first
    | with_reducible first
        | assumption | apply keeps_ite | apply State.evUnit_keeps | apply State.inc_keeps
        | apply State.put_keeps | apply State.setIrq_keeps | apply State.setPeg_keeps
    | simp only [↓keeps_upd_iff] | split | dsimp only

theorem State.pegUse_keeps {s0 : State} (s : State) (i : Nat) (h_s : Keeps s0 s) :
    Keeps s0 (State.pegUse s i).2 := by
  unfold State.pegUse
  repeat' first
    | with_reducible first
        | assumption | apply keeps_ite | apply State.put_keeps | apply State.setIrq_keeps
        | apply State.setPeg_keeps | apply State.spentReport_keeps | apply keeps_pair_ite
    | simp only [↓keeps_upd_iff] | split | dsimp only

theorem State.keyEnd_keeps {s0 : State} (s : State) (st det : Nat) (h_s : Keeps s0 s) :
    Keeps s0 (State.keyEnd s st det) := by
  unfold State.keyEnd
  repeat' first
    | with_reducible first
        | assumption | apply State.put_keeps | apply State.setIrq_keeps
    | simp only [↓keeps_upd_iff] | dsimp only

theorem State.cerPut_keeps {s0 : State} (s : State) (st got incomplete last : Nat) (h_s : Keeps s0 s) :
    Keeps s0 (State.cerPut s st got incomplete last) := by
  unfold State.cerPut
  repeat' first
    | with_reducible first
        | assumption | apply State.put_keeps | apply State.setIrq_keeps
    | dsimp only

theorem State.cerFail_keeps {s0 : State} (s : State) (st : Nat) (h_s : Keeps s0 s) :
    Keeps s0 (State.cerFail s st) := by
  unfold State.cerFail
  repeat' first
    | with_reducible first
        | assumption | apply State.cerPut_keeps
    | simp only [↓keeps_upd_iff] | (refine keeps_snd (by with_reducible assumption) ?_)
    | (refine keeps_some (by with_reducible assumption) ?_) | split | dsimp only

theorem State.keyFaultSlot_keeps {s0 : State} (s : State) (priv : Bool) (i : Nat) (h_s : Keeps s0 s) :
    Keeps s0 (State.keyFaultSlot s priv i) := by
  unfold State.keyFaultSlot
  repeat' first
    | with_reducible first
        | assumption | apply State.putB_keeps | apply State.put_keeps | apply State.setIrq_keeps
    | dsimp only

theorem State.cardDone_keeps {s0 : State} (s : State) (st sw : Nat) (h_s : Keeps s0 s) :
    Keeps s0 (State.cardDone s st sw) := by
  unfold State.cardDone
  repeat' first
    | with_reducible first
        | assumption | apply State.put_keeps | apply State.setIrq_keeps
    | simp only [↓keeps_upd_iff] | dsimp only

theorem State.cardOff_keeps {s0 : State} (s : State) (h_s : Keeps s0 s) : Keeps s0 (State.cardOff s) := by
  unfold State.cardOff
  repeat' first
    | with_reducible first
        | assumption | apply keeps_ite | apply State.cardDone_keeps | apply State.put_keeps
    | simp only [↓keeps_upd_iff] | split | dsimp only

theorem State.cardErr_keeps {s0 : State} (s : State) (e : Nat) (h_s : Keeps s0 s) :
    Keeps s0 (State.cardErr s e) := by
  unfold State.cardErr
  repeat' first
    | with_reducible first
        | assumption | apply State.put_keeps | apply State.setIrq_keeps
    | dsimp only

theorem State.keyZeroize_keeps {s0 : State} (s : State) (h_s : Keeps s0 s) :
    Keeps s0 (State.keyZeroize s) := by
  unfold State.keyZeroize
  repeat' first
    | with_reducible first
        | intro _ | assumption | apply keeps_ite | apply State.cerFail_keeps | apply State.evUnit_keeps
        | apply State.ideLeave_keeps | apply State.inc_keeps | apply State.keyEnd_keeps
        | apply State.pegCounts_keeps | apply State.privCount_keeps | apply State.put_keeps
        | apply State.setIrq_keeps | apply keeps_foldl
    | simp only [↓keeps_upd_iff] | split | dsimp only

end Sys2Proof.Machine
end

