-- ==== Sys2Proof/Laws/LedgerBaseKeeps.lean ====
section
/-! SUPPORT. What the definitions of Machine/LedgerBase.lean keep, one lemma each. -/

namespace Sys2Proof.Machine

set_option linter.all false

theorem State.ledPut_keeps {s0 : State} (s : State) (h_s : Keeps s0 s) : Keeps s0 (State.ledPut s) := by
  unfold State.ledPut
  repeat' first
    | with_reducible first
        | intro _ | assumption | apply State.put_keeps
    | dsimp only

theorem State.ledRequest_keeps {s0 : State} (s : State) (a block : Nat) (h_s : Keeps s0 s) :
    Keeps s0 (State.ledRequest s a block) := by
  unfold State.ledRequest
  repeat' first
    | with_reducible first
        | intro _ | assumption | apply keeps_ite | apply State.ledPut_keeps
    | simp only [↓keeps_upd_iff] | split | dsimp only

theorem State.ledGrant_keeps {s0 : State} (s : State) (r : LedReq) (h_s : Keeps s0 s) :
    Keeps s0 (State.ledGrant s r) := by
  unfold State.ledGrant
  repeat' first
    | with_reducible first
        | assumption | apply keeps_ite | apply State.inc_keeps | apply State.ledPut_keeps
        | apply State.put_keeps | apply State.setIrq_keeps
    | simp only [↓keeps_upd_iff] | split | dsimp only

theorem State.ledRelease_keeps {s0 : State} (s : State) (a : Nat) (h_s : Keeps s0 s) :
    Keeps s0 (State.ledRelease s a) := by
  unfold State.ledRelease
  repeat' first
    | with_reducible first
        | assumption | apply keeps_ite | apply State.ledPut_keeps | apply State.put_keeps
    | simp only [↓keeps_upd_iff] | split | dsimp only

theorem State.ledEnter_keeps {s0 : State} (s : State) (a block : Nat) (h_s : Keeps s0 s) :
    Keeps s0 (State.ledEnter s a block).2 := by
  unfold State.ledEnter
  repeat' first
    | with_reducible first
        | assumption | apply keeps_ite | apply State.ledGrant_keeps | apply State.ledRequest_keeps
        | apply keeps_pair_ite
    | simp only [↓keeps_upd_iff] | (refine keeps_snd (by with_reducible assumption) ?_)
    | (refine keeps_some (by with_reducible assumption) ?_) | split | dsimp only

end Sys2Proof.Machine
end

