-- ==== Sys2Proof/Laws/JobBaseKeeps.lean ====
section
/-! SUPPORT. What the definitions of Machine/JobBase.lean keep, one lemma each. -/

namespace Sys2Proof.Machine

set_option linter.all false

theorem State.setRing_keeps {s0 : State} (s : State) (r : Nat) (x : RingState) (h_s : Keeps s0 s) :
    Keeps s0 (State.setRing s r x) := by
  unfold State.setRing
  repeat' first
    | with_reducible first
        | assumption
    | simp only [↓keeps_upd_iff] | dsimp only

theorem State.putInflight_keeps {s0 : State} (s : State) (r : Nat) (h_s : Keeps s0 s) :
    Keeps s0 (State.putInflight s r) := by
  unfold State.putInflight
  repeat' first
    | with_reducible first
        | intro _ | assumption | apply keeps_ite | apply State.put_keeps
    | split | dsimp only

theorem State.headNow_keeps {s0 : State} (s : State) (r : Nat) (h_s : Keeps s0 s) :
    Keeps s0 (State.headNow s r) := by
  unfold State.headNow
  repeat' first
    | with_reducible first
        | assumption | apply State.setRing_keeps
    | simp only [↓keeps_upd_iff] | dsimp only

theorem State.ringPop_keeps {s0 : State} (s : State) (r : Nat) (h_s : Keeps s0 s) :
    Keeps s0 (State.ringPop s r) := by
  unfold State.ringPop
  repeat' first
    | with_reducible first
        | assumption | apply State.setRing_keeps | apply outKeeps_next
    | simp only [↓keeps_upd_iff] | (refine keeps_snd (by with_reducible assumption) ?_)
    | (refine keeps_next (by with_reducible assumption) ?_) | split | dsimp only

theorem State.ringBack_keeps {s0 : State} (s : State) (r c : Nat) (h_s : Keeps s0 s) :
    Keeps s0 (State.ringBack s r c) := by
  unfold State.ringBack
  repeat' first
    | with_reducible first
        | assumption | apply State.setRing_keeps
    | simp only [↓keeps_upd_iff] | dsimp only

theorem State.jobEnding_keeps {s0 : State} (s : State) (c : Compl) (h_s : Keeps s0 s) :
    Keeps s0 (State.jobEnding s c) := by
  unfold State.jobEnding
  repeat' first
    | with_reducible first
        | assumption
    | simp only [↓keeps_upd_iff] | dsimp only

theorem State.lmsWarn_keeps {s0 : State} (s : State) (slot : Nat) (h_s : Keeps s0 s) :
    Keeps s0 (State.lmsWarn s slot) := by
  unfold State.lmsWarn
  repeat' first
    | with_reducible first
        | assumption | apply keeps_ite | apply State.put_keeps | apply State.setIrq_keeps
        | apply State.setPriv_keeps
    | simp only [↓keeps_upd_iff] | split | dsimp only

theorem State.lmsLow_keeps {s0 : State} (s : State) (slot : Nat) (h_s : Keeps s0 s) :
    Keeps s0 (State.lmsLow s slot) := by
  unfold State.lmsLow
  repeat' first
    | with_reducible first
        | assumption | apply keeps_ite | apply State.ledRequest_keeps | apply State.setPriv_keeps
    | simp only [↓keeps_upd_iff] | split | dsimp only

theorem State.lmsBoot_keeps {s0 : State} (s : State) (h_s : Keeps s0 s) : Keeps s0 (State.lmsBoot s) := by
  unfold State.lmsBoot
  repeat' first
    | with_reducible first
        | intro _ | assumption | apply State.lmsLow_keeps | apply State.lmsWarn_keeps | apply keeps_foldl
    | dsimp only

theorem State.burn_keeps {s0 : State} (s : State) (j : Job) (h_s : Keeps s0 s) :
    Keeps s0 (State.burn s j) := by
  unfold State.burn
  repeat' first
    | with_reducible first
        | assumption | apply keeps_ite | apply State.setPriv_keeps
    | simp only [↓keeps_upd_iff] | (refine keeps_some (by with_reducible assumption) ?_) | split | dsimp only

theorem State.cellClear_keeps {s0 : State} (s : State) (n : Nat) (h_s : Keeps s0 s) :
    Keeps s0 (State.cellClear s n) := by
  unfold State.cellClear
  repeat' first
    | with_reducible first
        | assumption | apply keeps_ite | apply State.put_keeps
    | split | dsimp only

theorem State.cellDrop_keeps {s0 : State} (s : State) (n r : Nat) (h_s : Keeps s0 s) :
    Keeps s0 (State.cellDrop s n r) := by
  unfold State.cellDrop
  repeat' first
    | with_reducible first
        | assumption | apply State.cellClear_keeps | apply State.putInflight_keeps
    | simp only [↓keeps_upd_iff] | dsimp only

theorem State.genUndo_keeps {s0 : State} (s : State) (j : Job) (h_s : Keeps s0 s) :
    Keeps s0 (State.genUndo s j) := by
  unfold State.genUndo
  repeat' first
    | with_reducible first
        | assumption | apply keeps_ite | apply State.setPriv_keeps
    | simp only [↓keeps_upd_iff] | split | dsimp only

theorem State.finUndo_keeps {s0 : State} (s : State) (c : Compl) (h_s : Keeps s0 s) :
    Keeps s0 (State.finUndo s c) := by
  unfold State.finUndo
  repeat' first
    | with_reducible first
        | assumption | apply keeps_ite | apply State.burn_keeps | apply State.setPeg_keeps
        | apply State.setPriv_keeps
    | simp only [↓keeps_upd_iff] | (refine keeps_snd (by with_reducible assumption) ?_)
    | (refine keeps_snd3 (by with_reducible assumption) ?_)
    | (refine keeps_some (by with_reducible assumption) ?_) | split | dsimp only

theorem State.endOver_keeps {s0 : State} (s : State) (st : Nat) (p : Compl → Bool) (h_s : Keeps s0 s) :
    Keeps s0 (State.endOver s st p) := by
  unfold State.endOver
  repeat' first
    | with_reducible first
        | intro _ | assumption | apply keeps_ite | apply State.finUndo_keeps | apply keeps_foldl
    | simp only [↓keeps_upd_iff] | split | dsimp only

theorem State.cellEnd_keeps {s0 : State} (s : State) (n st det : Nat) (h_s : Keeps s0 s) :
    Keeps s0 (State.cellEnd s n st det) := by
  unfold State.cellEnd
  repeat' first
    | with_reducible first
        | assumption | apply State.burn_keeps | apply State.cellDrop_keeps | apply State.genUndo_keeps
        | apply State.inc64_keeps | apply State.jobEnding_keeps
    | simp only [↓keeps_upd_iff] | (refine keeps_snd (by with_reducible assumption) ?_)
    | (refine keeps_snd3 (by with_reducible assumption) ?_)
    | (refine keeps_some (by with_reducible assumption) ?_) | split | dsimp only

theorem State.soundEntropyStop_keeps {s0 : State} (s : State) (h_s : Keeps s0 s) :
    Keeps s0 (State.soundEntropyStop s) := by
  unfold State.soundEntropyStop
  repeat' first
    | with_reducible first
        | intro _ | assumption | apply keeps_ite | apply State.burn_keeps | apply State.cellDrop_keeps
        | apply State.finUndo_keeps | apply State.genUndo_keeps | apply State.ringBack_keeps
        | apply keeps_foldl
    | simp only [↓keeps_upd_iff] | split | dsimp only

theorem State.soundZeroize_keeps {s0 : State} (s : State) (h_s : Keeps s0 s) :
    Keeps s0 (State.soundZeroize s) := by
  unfold State.soundZeroize
  repeat' first
    | with_reducible first
        | intro _ | assumption | apply State.cellEnd_keeps | apply State.endOver_keeps
        | apply State.inc_keeps | apply State.sramClear_keeps | apply keeps_foldl
    | simp only [↓keeps_upd_iff] | dsimp only

theorem State.digestZeroize_keeps {s0 : State} (s : State) (h_s : Keeps s0 s) :
    Keeps s0 (State.digestZeroize s) := by
  unfold State.digestZeroize
  repeat' first
    | with_reducible first
        | intro _ | assumption | apply State.endOver_keeps | apply State.free_keeps | apply State.put64_keeps
    | simp only [↓keeps_upd_iff] | dsimp only

theorem State.katRun_keeps {s0 : State} (s : State) (src : Nat) (h_s : Keeps s0 s) :
    Keeps s0 (State.katRun s src) := by
  unfold State.katRun
  repeat' first
    | with_reducible first
        | assumption
    | simp only [↓keeps_upd_iff] | dsimp only

end Sys2Proof.Machine
end

