-- ==== Sys2Proof/Laws/RosinBaseKeeps.lean ====
section
/-! SUPPORT. What the definitions of Machine/RosinBase.lean keep, one lemma each. -/

namespace Sys2Proof.Machine

set_option linter.all false

theorem State.rosinPut_keeps {s0 : State} (s : State) (st : Nat) (h_s : Keeps s0 s) :
    Keeps s0 (State.rosinPut s st) := by
  unfold State.rosinPut
  repeat' first
    | with_reducible first
        | assumption | apply keeps_ite | apply State.irq_keeps | apply State.put_keeps
    | split | dsimp only

theorem State.putReserve_keeps {s0 : State} (s : State) (bs : Bytes) (h_s : Keeps s0 s) :
    Keeps s0 (State.putReserve s bs) := by
  unfold State.putReserve
  repeat' first
    | with_reducible first
        | assumption | apply State.put_keeps
    | simp only [↓keeps_upd_iff] | dsimp only

theorem State.rosinTake_keeps {s0 : State} (s : State) (port n : Nat) (h_s : Keeps s0 s) :
    Keeps s0 (State.rosinTake s port n).2 := by
  unfold State.rosinTake
  repeat' first
    | with_reducible first
        | assumption | apply State.inc64_keeps | apply State.putReserve_keeps
    | dsimp only

theorem State.rosinRestart_keeps {s0 : State} (s : State) (h_s : Keeps s0 s) :
    Keeps s0 (State.rosinRestart s) := by
  unfold State.rosinRestart
  repeat' first
    | with_reducible first
        | intro _ | assumption | apply State.put_keeps | apply keeps_foldl
    | simp only [↓keeps_upd_iff] | dsimp only

theorem State.rosinStop_keeps {s0 : State} (s : State) (cause bank : Nat) (failed : Bool) (h_s : Keeps s0 s) :
    Keeps s0 (State.rosinStop s cause bank failed) := by
  unfold State.rosinStop
  repeat' first
    | with_reducible first
        | assumption | apply keeps_ite | apply State.evUnitFree_keeps | apply State.inc_keeps
        | apply State.putReserve_keeps | apply State.put_keeps | apply State.raiseBase_keeps
        | apply State.rosinPut_keeps | apply State.rosinRestart_keeps | apply State.soundEntropyStop_keeps
    | simp only [↓keeps_upd_iff] | split | dsimp only

theorem State.bankRetire_keeps {s0 : State} (s : State) (b : Nat) (h_s : Keeps s0 s) :
    Keeps s0 (State.bankRetire s b) := by
  unfold State.bankRetire
  repeat' first
    | with_reducible first
        | assumption | apply keeps_ite | apply State.evUnitFree_keeps | apply State.put_keeps
        | apply State.raiseBase_keeps | apply State.setIrq_keeps
    | split | dsimp only

theorem State.minBanks_keeps {s0 : State} (s : State) (cause : Nat) (h_s : Keeps s0 s) :
    Keeps s0 (State.minBanks s cause) := by
  unfold State.minBanks
  repeat' first
    | with_reducible first
        | assumption | apply keeps_ite | apply State.rosinStop_keeps
    | split | dsimp only

theorem State.condFail_keeps {s0 : State} (s : State) (c : Nat) (h_s : Keeps s0 s) :
    Keeps s0 (State.condFail s c) := by
  unfold State.condFail
  repeat' first
    | with_reducible first
        | intro _ | assumption | apply keeps_ite | apply State.bankRetire_keeps | apply State.put_keeps
        | apply State.raiseBase_keeps | apply State.rosinStop_keeps | apply keeps_foldl
    | split | dsimp only

theorem State.condKat_keeps {s0 : State} (s : State) (fails : List Nat) (c : Nat) (h_s : Keeps s0 s) :
    Keeps s0 (State.condKat s fails c) := by
  unfold State.condKat
  repeat' first
    | with_reducible first
        | assumption | apply keeps_ite | apply State.condFail_keeps | apply State.put_keeps
    | split | dsimp only

theorem State.keyLoaded_keeps {s0 : State} (s : State) (name v : Nat) (h_s : Keeps s0 s) :
    Keeps s0 (State.keyLoaded s name v) := by
  unfold State.keyLoaded
  repeat' first
    | with_reducible first
        | assumption | apply keeps_ite
    | simp only [↓keeps_upd_iff] | simp only [↓keeps_upd_mem_iff] | split | dsimp only

theorem State.keyloadDraw_keeps {s0 : State} (s : State) (h_s : Keeps s0 s) :
    Keeps s0 (State.keyloadDraw s) := by
  unfold State.keyloadDraw
  repeat' first
    | with_reducible first
        | assumption | apply keeps_ite | apply State.keyLoaded_keeps | apply State.rosinTake_keeps
    | simp only [↓keeps_upd_iff] | (refine keeps_snd (by with_reducible assumption) ?_) | split | dsimp only

end Sys2Proof.Machine
end

