-- ==== Sys2Proof/Laws/ZeroizeKeeps.lean ====
section
/-! SUPPORT. What the definitions of Machine/Zeroize.lean keep, one lemma each. -/

namespace Sys2Proof.Machine

set_option linter.all false

theorem State.readerOff_keeps {s0 : State} (s : State) (h_s : Keeps s0 s) : Keeps s0 (State.readerOff s) := by
  unfold State.readerOff
  repeat' first
    | with_reducible first
        | assumption | apply keeps_ite | apply State.put_keeps
    | simp only [↓keeps_upd_iff] | split | dsimp only

theorem State.pickEnd_keeps {s0 : State} (s : State) (st : Nat) (h_s : Keeps s0 s) :
    Keeps s0 (State.pickEnd s st) := by
  unfold State.pickEnd
  repeat' first
    | with_reducible first
        | assumption | apply State.put_keeps | apply State.setIrq_keeps
    | simp only [↓keeps_upd_iff] | dsimp only

theorem State.sessZeroize_keeps {s0 : State} (s : State) (h_s : Keeps s0 s) :
    Keeps s0 (State.sessZeroize s) := by
  unfold State.sessZeroize
  repeat' first
    | with_reducible first
        | assumption | apply keeps_ite | apply State.pickEnd_keeps | apply State.put_keeps
        | apply State.readerOff_keeps
    | simp only [↓keeps_upd_iff] | split | dsimp only

theorem State.zeroizeAll_keeps {s0 : State} (s : State) (h_s : Keeps s0 s) :
    Keeps s0 (State.zeroizeAll s) := by
  unfold State.zeroizeAll
  repeat' first
    | with_reducible first
        | intro _ | assumption | apply keeps_ite | apply State.digestZeroize_keeps
        | apply State.keyZeroize_keeps | apply State.rosinStop_keeps | apply State.sessZeroize_keeps
        | apply State.soundZeroize_keeps
    | simp only [↓keeps_upd_iff] | split | dsimp only

theorem State.settle_keeps {s0 : State} (s : State) (h_s : Keeps s0 s) : Keeps s0 (State.settle s) := by
  unfold State.settle
  repeat' first
    | with_reducible first
        | assumption | apply keeps_ite | apply State.zeroizeAll_keeps
    | split | dsimp only

theorem State.raise_keeps {s0 : State} (s : State) (src info : Nat) (h_s : Keeps s0 s) :
    Keeps s0 (State.raise s src info) := by
  unfold State.raise
  repeat' first
    | with_reducible first
        | assumption | apply State.raiseBase_keeps | apply State.settle_keeps
    | dsimp only

theorem State.forcedInfo_keeps {s0 : State} (s : State) (src : Nat) (h_s : Keeps s0 s) :
    Keeps s0 (State.forcedInfo s src).2 := by
  unfold State.forcedInfo
  repeat' first
    | with_reducible first
        | intro _ | assumption | apply keeps_ite | apply State.free_keeps | apply keeps_pair_ite
    | simp only [↓keeps_upd_iff] | (refine keeps_snd (by with_reducible assumption) ?_)
    | (refine keeps_some (by with_reducible assumption) ?_)
    | (refine keeps_key (by with_reducible assumption) ?_) | split | dsimp only

theorem State.raiseForced_keeps {s0 : State} (s : State) (src : Nat) (h_s : Keeps s0 s) :
    Keeps s0 (State.raiseForced s src) := by
  unfold State.raiseForced
  repeat' first
    | with_reducible first
        | assumption | apply State.forcedInfo_keeps | apply State.raiseBase_keeps | apply State.settle_keeps
    | dsimp only

theorem State.evEnter_keeps {s0 : State} (s : State) (source code status origin : Nat) (pl : Bytes)
    (h_s : Keeps s0 s) : Keeps s0 (State.evEnter s source code status origin pl) := by
  unfold State.evEnter
  repeat' first
    | with_reducible first
        | assumption | apply State.evPut_keeps | apply State.settle_keeps
    | dsimp only

end Sys2Proof.Machine
end

