-- ==== Sys2Proof/Laws/ProcKeeps.lean ====
section
/-! SUPPORT. What the definitions of Machine/Proc.lean keep, one lemma each. -/

namespace Sys2Proof.Machine

set_option linter.all false

theorem State.irqComplete_keeps {s0 : State} (s : State) (i : Nat) (h_s : Keeps s0 s) :
    Keeps s0 (State.irqComplete s i) := by
  unfold State.irqComplete
  repeat' first
    | with_reducible first
        | assumption | apply State.put_keeps
    | simp only [↓keeps_upd_iff] | (refine keeps_snd (by with_reducible assumption) ?_)
    | (refine keeps_some (by with_reducible assumption) ?_) | split | dsimp only

theorem State.irqTickEntry_keeps {s0 : State} (s : State) (n : Nat) (h_s : Keeps s0 s) :
    Keeps s0 (State.irqTickEntry s n) := by
  unfold State.irqTickEntry
  repeat' first
    | with_reducible first
        | intro _ | assumption | apply keeps_ite | apply State.irqComplete_keeps | apply keeps_foldl
    | split | dsimp only

theorem State.tickEntry_keeps {s0 : State} (s : State) (n : Nat) (h_s : Keeps s0 s) :
    Keeps s0 (State.tickEntry s n) := by
  unfold State.tickEntry
  repeat' first
    | with_reducible first
        | assumption | apply State.irqTickEntry_keeps | apply State.setProc_keeps
    | dsimp only

theorem State.feWatchdog_keeps {s0 : State} (s : State) (n : Nat) (h_s : Keeps s0 s) :
    Keeps s0 (State.feWatchdog s n) := by
  unfold State.feWatchdog
  repeat' first
    | with_reducible first
        | assumption | apply keeps_ite | apply State.put_keeps | apply State.setIrq_keeps
        | apply State.setProc_keeps
    | simp only [↓keeps_upd_iff] | split | dsimp only

theorem State.holdNow_keeps {s0 : State} (s : State) (n : Nat) (h_s : Keeps s0 s) :
    Keeps s0 (State.holdNow s n) := by
  unfold State.holdNow
  repeat' first
    | with_reducible first
        | assumption | apply keeps_ite | apply State.putB_keeps | apply State.setProc_keeps
    | simp only [↓keeps_upd_iff] | split | dsimp only

theorem State.feAbandon_keeps {s0 : State} (s : State) (n : Nat) (cause : AbandonCause) (h_s : Keeps s0 s) :
    Keeps s0 (State.feAbandon s n cause) := by
  unfold State.feAbandon
  repeat' first
    | with_reducible first
        | assumption | apply State.evEnter_keeps | apply State.feWatchdog_keeps | apply State.holdNow_keeps
        | apply State.inc_keeps | apply State.put_keeps | apply State.raise_keeps | apply State.setProc_keeps
        | apply State.tickEntry_keeps
    | simp only [↓keeps_upd_iff] | dsimp only

end Sys2Proof.Machine
end

