-- ==== Sys2Proof/Laws/NutKeeps.lean ====
section
/-! SUPPORT. What the definitions of Machine/Nut.lean keep, one lemma each. -/

namespace Sys2Proof.Machine

set_option linter.all false

theorem State.nutDeny_keeps {s0 : State} (s : State) (mid a len : Nat) (write fetch : Bool)
    (h_s : Keeps s0 s) : Keeps s0 (State.nutDeny s mid a len write fetch) := by
  unfold State.nutDeny
  repeat' first
    | with_reducible first
        | assumption | apply State.inc_keeps | apply State.putB_keeps | apply State.put_keeps
        | apply State.raise_keeps
    | dsimp only

theorem State.copyMasks_keeps {s0 : State} (s : State) (n x0 : Nat) (h_s : Keeps s0 s) :
    Keeps s0 (State.copyMasks s n x0) := by
  induction x0 generalizing s n with
  | zero =>
    unfold State.copyMasks
    repeat' first
    | with_reducible first
        | assumption | apply State.wr_keeps
    | split | dsimp only
  | succ n ih =>
    unfold State.copyMasks
    repeat' first
      | with_reducible first
          | assumption | apply State.wr_keeps | apply ih
      | split | dsimp only

theorem State.nutStore_keeps {s0 : State} (s : State) (n : Nat) (h_s : Keeps s0 s) :
    Keeps s0 (State.nutStore s n) := by
  unfold State.nutStore
  repeat' first
    | with_reducible first
        | assumption | apply State.copyMasks_keeps | apply State.put_keeps | apply State.wr_keeps
    | dsimp only

theorem State.nutCommit_keeps {s0 : State} (s : State) (n : Nat) (h_s : Keeps s0 s) :
    Keeps s0 (State.nutCommit s n) := by
  unfold State.nutCommit
  repeat' first
    | with_reducible first
        | assumption | apply keeps_ite | apply State.nutStore_keeps | apply State.put_keeps
        | apply State.raise_keeps
    | simp only [↓keeps_upd_iff] | (refine keeps_snd (by with_reducible assumption) ?_)
    | (refine keeps_some (by with_reducible assumption) ?_) | split | dsimp only

end Sys2Proof.Machine
end

