-- ==== Sys2Proof/Laws/MemoryKeeps.lean ====
section
/-! SUPPORT. What the definitions of Machine/Memory.lean keep, one lemma each. -/

namespace Sys2Proof.Machine

set_option linter.all false

theorem State.sramCe_keeps {s0 : State} (s : State) (p a : Nat) (h_s : Keeps s0 s) :
    Keeps s0 (State.sramCe s p a) := by
  unfold State.sramCe
  repeat' first
    | with_reducible first
        | assumption | apply keeps_ite | apply State.inc_keeps | apply State.raise_keeps
    | simp only [↓keeps_upd_iff] | simp only [↓keeps_upd_mem_iff] | split | dsimp only

theorem State.sramUe_keeps {s0 : State} (s : State) (p a : Nat) (h_s : Keeps s0 s) :
    Keeps s0 (State.sramUe s p a) := by
  unfold State.sramUe
  repeat' first
    | with_reducible first
        | assumption | apply keeps_ite | apply State.inc_keeps | apply State.put_keeps
        | apply State.raise_keeps
    | simp only [↓keeps_upd_iff] | simp only [↓keeps_upd_mem_iff] | split | dsimp only

theorem State.sramUpset_keeps {s0 : State} (s : State) (a : Nat) (hard : Bool) (h_s : Keeps s0 s) :
    Keeps s0 (State.sramUpset s a hard) := by
  unfold State.sramUpset
  repeat' first
    | with_reducible first
        | assumption | apply keeps_ite
    | simp only [↓keeps_upd_iff] | simp only [↓keeps_upd_mem_iff] | split | dsimp only

theorem State.sramStored_keeps {s0 : State} (s : State) (a n : Nat) (h_s : Keeps s0 s) :
    Keeps s0 (State.sramStored s a n) := by
  unfold State.sramStored
  repeat' first
    | with_reducible first
        | intro _ | assumption
    | simp only [↓keeps_upd_iff] | simp only [↓keeps_upd_mem_iff] | split | dsimp only

theorem State.sramRead_keeps {s0 : State} (s : State) (a n : Nat) (h_s : Keeps s0 s) :
    Keeps s0 (State.sramRead s a n).2 := by
  unfold State.sramRead
  repeat' first
    | with_reducible first
        | intro _ | assumption | apply keeps_ite | apply State.sramCe_keeps | apply State.sramUe_keeps
        | apply keeps_foldl | apply keeps_pair_ite
    | split | dsimp only

theorem execSramWriteback_keeps {s0 : State} (a : Nat) (s : State) (h_s : Keeps s0 s) :
    OutKeeps s0 (execSramWriteback a s) := by
  unfold execSramWriteback
  repeat' first
    | with_reducible first
        | intro _ | assumption | apply keeps_ite | apply outKeeps_next | apply outKeeps_ite
    | simp only [↓keeps_upd_iff] | simp only [↓keeps_upd_mem_iff] | split | dsimp only

theorem execScrubRead_keeps {s0 : State} (p a : Nat) (ecc : Ecc) (s : State) (h_s : Keeps s0 s) :
    OutKeeps s0 (execScrubRead p a ecc s) := by
  unfold execScrubRead
  repeat' first
    | with_reducible first
        | assumption | apply keeps_ite | apply State.sramCe_keeps | apply State.sramRead_keeps
        | apply State.sramUe_keeps | apply State.sramUpset_keeps | apply outKeeps_next | apply outKeeps_ite
    | simp only [↓keeps_upd_iff] | (refine keeps_snd (by with_reducible assumption) ?_)
    | (refine keeps_some (by with_reducible assumption) ?_)
    | (refine keeps_next (by with_reducible assumption) ?_) | split | dsimp only

theorem State.dramFailAddr_keeps {s0 : State} (s : State) (l : Nat) (h_s : Keeps s0 s) :
    Keeps s0 (State.dramFailAddr s l) := by
  unfold State.dramFailAddr
  repeat' first
    | with_reducible first
        | assumption | apply State.put_keeps
    | dsimp only

theorem State.putDramPoison_keeps {s0 : State} (s : State) (l : List Nat) (h_s : Keeps s0 s) :
    Keeps s0 (State.putDramPoison s l) := by
  unfold State.putDramPoison
  repeat' first
    | with_reducible first
        | assumption | apply State.put_keeps
    | simp only [↓keeps_upd_iff] | simp only [↓keeps_upd_mem_iff] | dsimp only

theorem State.dramBurst_keeps {s0 : State} (s : State) (k : Nat) (h_s : Keeps s0 s) :
    Keeps s0 (State.dramBurst s k) := by
  unfold State.dramBurst
  repeat' first
    | with_reducible first
        | assumption | apply State.incBy_keeps
    | dsimp only

theorem State.dramCrcFail_keeps {s0 : State} (s : State) (l : Nat) (write : Bool) (h_s : Keeps s0 s) :
    Keeps s0 (State.dramCrcFail s l write) := by
  unfold State.dramCrcFail
  repeat' first
    | with_reducible first
        | assumption | apply keeps_ite | apply State.dramFailAddr_keeps | apply State.inc_keeps
        | apply State.putDramPoison_keeps | apply State.raise_keeps
    | split | dsimp only

theorem State.dramTagFail_keeps {s0 : State} (s : State) (l : Nat) (h_s : Keeps s0 s) :
    Keeps s0 (State.dramTagFail s l) := by
  unfold State.dramTagFail
  repeat' first
    | with_reducible first
        | assumption | apply State.dramFailAddr_keeps | apply State.inc_keeps | apply State.raise_keeps
    | dsimp only

theorem State.dramLink_keeps {s0 : State} (s : State) (l : Nat) (write : Bool) (h_s : Keeps s0 s) :
    Keeps s0 (State.dramLink s l write).2 := by
  unfold State.dramLink
  repeat' first
    | with_reducible first
        | assumption | apply keeps_ite | apply State.dramBurst_keeps | apply State.dramCrcFail_keeps
        | apply keeps_pair_ite
    | simp only [↓keeps_upd_iff] | simp only [↓keeps_upd_mem_iff] | split | dsimp only

theorem State.dramInitStart_keeps {s0 : State} (s : State) (h_s : Keeps s0 s) : Keeps s0 (State.dramInitStart s) := by
  unfold State.dramInitStart
  apply State.put_keeps
  apply State.putDramPoison_keeps
  exact keeps_of h_s rfl (Nat.le_refl _) fun x => ⟨memory_wf_filter _ x.1, x.2⟩

theorem execDramInitComplete_keeps {s0 : State} (s : State) (h_s : Keeps s0 s) :
    OutKeeps s0 (execDramInitComplete s) := by
  unfold execDramInitComplete
  repeat' first
    | with_reducible first
        | assumption | apply State.put_keeps | apply outKeeps_next
    | dsimp only

theorem State.guardEnqueue_keeps {s0 : State} (s : State) (p : Nat) (h_s : Keeps s0 s) :
    Keeps s0 (State.guardEnqueue s p) := by
  unfold State.guardEnqueue
  repeat' first
    | with_reducible first
        | assumption | apply keeps_ite
    | simp only [↓keeps_upd_iff] | simp only [↓keeps_upd_mem_iff] | split | dsimp only

theorem State.guardSweep_keeps {s0 : State} (s : State) (h_s : Keeps s0 s) :
    Keeps s0 (State.guardSweep s) := by
  unfold State.guardSweep
  repeat' first
    | with_reducible first
        | assumption | apply State.putB_keeps | apply State.put_keeps | apply State.rosinTake_keeps
    | simp only [↓keeps_upd_iff] | simp only [↓keeps_upd_mem_iff] | dsimp only

theorem State.putVersion_keeps {s0 : State} (s : State) (p n : Nat) (h_s : Keeps s0 s) :
    Keeps s0 (State.putVersion s p n) := by
  unfold State.putVersion
  repeat' first
    | with_reducible first
        | assumption
    | simp only [↓keeps_upd_iff] | simp only [↓keeps_upd_mem_iff] | dsimp only

theorem State.guardWriteback_keeps {s0 : State} (s : State) (h_s : Keeps s0 s) :
    Keeps s0 (State.guardWriteback s) := by
  unfold State.guardWriteback
  repeat' first
    | with_reducible first
        | assumption | apply keeps_ite | apply State.guardSweep_keeps | apply State.inc_keeps
        | apply State.putVersion_keeps
    | simp only [↓keeps_upd_iff] | simp only [↓keeps_upd_mem_iff]
    | (refine keeps_snd (by with_reducible assumption) ?_) | split | dsimp only

theorem execGuardWriteback_keeps {s0 : State} (s : State) (h_s : Keeps s0 s) :
    OutKeeps s0 (execGuardWriteback s) := by
  unfold execGuardWriteback
  repeat' first
    | with_reducible first
        | assumption | apply State.guardWriteback_keeps | apply outKeeps_next
    | dsimp only

theorem execGuardSweepComplete_keeps {s0 : State} (s : State) (h_s : Keeps s0 s) :
    OutKeeps s0 (execGuardSweepComplete s) := by
  unfold execGuardSweepComplete
  repeat' first
    | with_reducible first
        | intro _ | assumption | apply keeps_ite | apply State.passTo_keeps | apply State.put_keeps
        | apply outKeeps_next | apply outKeeps_ite
    | simp only [↓keeps_upd_iff] | simp only [↓keeps_upd_mem_iff] | split | dsimp only

theorem State.dramRead_keeps {s0 : State} (s : State) (a n : Nat) (h_s : Keeps s0 s) :
    Keeps s0 (State.dramRead s a n).2 := by
  unfold State.dramRead
  repeat' first
    | with_reducible first
        | intro _ | assumption | apply keeps_ite | apply State.dramLink_keeps | apply State.dramTagFail_keeps
        | apply keeps_pair_ite
    | simp only [↓keeps_upd_iff] | (refine keeps_snd (by with_reducible assumption) ?_)
    | (refine keeps_some (by with_reducible assumption) ?_)
    | (refine keeps_some2 (by with_reducible assumption) ?_)
    | (refine keeps_key (by with_reducible assumption) ?_) | split | dsimp only

theorem State.dramStored_keeps {s0 : State} (s : State) (a n : Nat) (h_s : Keeps s0 s) :
    Keeps s0 (State.dramStored s a n) := by
  unfold State.dramStored
  repeat' first
    | with_reducible first
        | intro _ | assumption | apply keeps_ite | apply State.putDramPoison_keeps
    | simp only [↓keeps_upd_iff] | simp only [↓keeps_upd_mem_iff] | split | dsimp only

theorem State.guardTouch_keeps {s0 : State} (s : State) (a n : Nat) (h_s : Keeps s0 s) :
    Keeps s0 (State.guardTouch s a n) := by
  unfold State.guardTouch
  repeat' first
    | with_reducible first
        | intro _ | assumption | apply keeps_ite | apply State.guardEnqueue_keeps
        | apply State.guardWriteback_keeps | apply keeps_foldl
    | split | dsimp only

theorem State.dramWrite_keeps {s0 : State} (s : State) (a : Nat) (bs : Bytes) (h_s : Keeps s0 s) :
    Keeps s0 (State.dramWrite s a bs) := by
  unfold State.dramWrite
  repeat' first
    | with_reducible first
        | assumption | apply keeps_ite | apply State.dramLink_keeps | apply State.dramStored_keeps
        | apply State.guardTouch_keeps | apply State.poke_keeps
    | split | dsimp only

theorem State.memRead_keeps {s0 : State} (s : State) (a n : Nat) (h_s : Keeps s0 s) :
    Keeps s0 (State.memRead s a n).2 := by
  unfold State.memRead
  repeat' first
    | with_reducible first
        | assumption | apply keeps_ite | apply State.dramRead_keeps | apply State.sramRead_keeps
        | apply keeps_pair_ite
    | split | dsimp only

theorem State.memStore_keeps {s0 : State} (s : State) (a : Nat) (bs : Bytes) (h_s : Keeps s0 s) :
    Keeps s0 (State.memStore s a bs) := by
  unfold State.memStore
  repeat' first
    | with_reducible first
        | assumption | apply keeps_ite | apply State.dramWrite_keeps | apply State.poke_keeps
        | apply State.sramStored_keeps
    | split | dsimp only

theorem State.transfer_keeps {s0 : State} (s : State) (a : Nat) (h_s : Keeps s0 s) :
    Keeps s0 (State.transfer s a).2 := by
  unfold State.transfer
  repeat' first
    | with_reducible first
        | assumption | apply keeps_ite | apply State.inc_keeps | apply State.raise_keeps
        | apply keeps_pair_ite
    | simp only [↓keeps_upd_iff] | simp only [↓keeps_upd_mem_iff] | split | dsimp only

theorem State.disturb_keeps {s0 : State} (s : State) (d : FabEnv) (h_s : Keeps s0 s) :
    Keeps s0 (State.disturb s d) := by
  unfold State.disturb
  repeat' first
    | with_reducible first
        | assumption | apply keeps_ite | apply State.sramUpset_keeps
    | simp only [↓keeps_upd_iff] | simp only [↓keeps_upd_mem_iff]
    | (refine keeps_snd (by with_reducible assumption) ?_)
    | (refine keeps_some (by with_reducible assumption) ?_) | split | dsimp only

theorem State.nutCommitWrite_keeps {s0 : State} (s : State) (v : Word32) (h_s : Keeps s0 s) :
    Keeps s0 (State.nutCommitWrite s v) := by
  unfold State.nutCommitWrite
  repeat' first
    | with_reducible first
        | assumption | apply keeps_ite | apply State.nutCommit_keeps
    | split | dsimp only

theorem execNutCommit_keeps {s0 : State} (region : Nat) (s : State) (h_s : Keeps s0 s) :
    OutKeeps s0 (execNutCommit region s) := by
  unfold execNutCommit
  repeat' first
    | with_reducible first
        | assumption | apply State.nutCommit_keeps | apply outKeeps_next
    | dsimp only

end Sys2Proof.Machine
end

