-- ==== Sys2Proof/Laws/RegsKeeps.lean ====
section
/-! SUPPORT. What the definitions of Machine/Regs.lean keep, one lemma each. -/

namespace Sys2Proof.Machine

set_option linter.all false

theorem State.regStore_keeps {s0 : State} (s : State) (off : Nat) (v : Word32) (h_s : Keeps s0 s) :
    Keeps s0 (State.regStore s off v) := by
  unfold State.regStore
  repeat' first
    | with_reducible first
        | assumption | apply keeps_ite | apply State.raise_keeps | apply State.wr_keeps
    | split | dsimp only

theorem State.storeBut_keeps {s0 : State} (s : State) (off : Nat) (v : Word32) (bad : List (Fld × Bool))
    (h_s : Keeps s0 s) : Keeps s0 (State.storeBut s off v bad) := by
  unfold State.storeBut
  repeat' first
    | with_reducible first
        | intro _ | assumption | apply keeps_ite | apply State.raise_keeps | apply State.regStore_keeps
        | apply keeps_foldl
    | split | dsimp only

end Sys2Proof.Machine
end

