-- ==== Sys2Proof/Laws/TimebaseKeeps.lean ====
section
/-! SUPPORT. What the definitions of Machine/Timebase.lean keep, one lemma each. -/

namespace Sys2Proof.Machine

set_option linter.all false

theorem State.taiUpdate_keeps {s0 : State} (s : State) (h_s : Keeps s0 s) : Keeps s0 (State.taiUpdate s) := by
  unfold State.taiUpdate
  repeat' first
    | with_reducible first
        | assumption | apply State.putB_keeps
    | dsimp only

theorem State.tbEnter_keeps {s0 : State} (s : State) (st : Nat) (h_s : Keeps s0 s) :
    Keeps s0 (State.tbEnter s st) := by
  unfold State.tbEnter
  repeat' first
    | with_reducible first
        | assumption | apply keeps_ite | apply State.put_keeps | apply State.taiUpdate_keeps
    | simp only [↓keeps_upd_iff] | split | dsimp only

theorem State.servoPhase_keeps {s0 : State} (s : State) (d : Int) (h_s : Keeps s0 s) :
    Keeps s0 (State.servoPhase s d) := by
  unfold State.servoPhase
  repeat' first
    | with_reducible first
        | assumption | apply keeps_ite
    | simp only [↓keeps_upd_iff] | split | dsimp only

theorem State.putOffset_keeps {s0 : State} (s : State) (ns : Int) (h_s : Keeps s0 s) :
    Keeps s0 (State.putOffset s ns) := by
  unfold State.putOffset
  repeat' first
    | with_reducible first
        | assumption | apply keeps_ite | apply State.free_keeps | apply State.put_keeps
    | split | dsimp only

theorem State.servo_keeps {s0 : State} (s : State) (d : Int) (h_s : Keeps s0 s) :
    Keeps s0 (State.servo s d) := by
  unfold State.servo
  repeat' first
    | with_reducible first
        | assumption | apply keeps_ite | apply State.putOffset_keeps | apply State.servoPhase_keeps
        | apply State.tbEnter_keeps
    | simp only [↓keeps_upd_iff] | split | dsimp only

theorem State.sourceLost_keeps {s0 : State} (s : State) (h_s : Keeps s0 s) :
    Keeps s0 (State.sourceLost s) := by
  unfold State.sourceLost
  repeat' first
    | with_reducible first
        | assumption | apply keeps_ite | apply State.tbEnter_keeps
    | simp only [↓keeps_upd_iff] | split | dsimp only

theorem execSourceLost_keeps {s0 : State} (s : State) (h_s : Keeps s0 s) :
    OutKeeps s0 (execSourceLost s) := by
  unfold execSourceLost
  repeat' first
    | with_reducible first
        | assumption | apply keeps_ite | apply State.passTo_keeps | apply State.sourceLost_keeps
        | apply outKeeps_next | apply outKeeps_ite
    | split | dsimp only

theorem execHoldoverExpiry_keeps {s0 : State} (s : State) (h_s : Keeps s0 s) :
    OutKeeps s0 (execHoldoverExpiry s) := by
  unfold execHoldoverExpiry
  repeat' first
    | with_reducible first
        | assumption | apply keeps_ite | apply State.passTo_keeps | apply State.tbEnter_keeps
        | apply outKeeps_next | apply outKeeps_ite
    | split | dsimp only

theorem execPpsInEdge_keeps {s0 : State} (falling : Bool) (s : State) (h_s : Keeps s0 s) :
    OutKeeps s0 (execPpsInEdge falling s) := by
  unfold execPpsInEdge
  repeat' first
    | with_reducible first
        | assumption | apply keeps_ite | apply State.inc_keeps | apply State.servo_keeps
        | apply outKeeps_next | apply outKeeps_ite
    | split | dsimp only

theorem execPpsOutPulse_keeps {s0 : State} (s : State) (h_s : Keeps s0 s) :
    OutKeeps s0 (execPpsOutPulse s) := by
  unfold execPpsOutPulse
  repeat' first
    | with_reducible first
        | assumption | apply keeps_ite | apply State.passTo_keeps | apply outKeeps_next | apply outKeeps_ite
    | simp only [↓keeps_upd_iff] | split | dsimp only

theorem State.mirrorOpTime_keeps {s0 : State} (s : State) (h_s : Keeps s0 s) :
    Keeps s0 (State.mirrorOpTime s) := by
  unfold State.mirrorOpTime
  repeat' first
    | with_reducible first
        | assumption
    | simp only [↓keeps_upd_iff] | dsimp only

theorem execOptimeMirror_keeps {s0 : State} (s : State) (h_s : Keeps s0 s) :
    OutKeeps s0 (execOptimeMirror s) := by
  unfold execOptimeMirror
  repeat' first
    | with_reducible first
        | assumption | apply State.mirrorOpTime_keeps | apply State.passTo_keeps | apply outKeeps_next
    | dsimp only

theorem State.rateInForce_keeps {s0 : State} (s : State) (r : Nat) (h_s : Keeps s0 s) :
    Keeps s0 (State.rateInForce s r) := by
  unfold State.rateInForce
  repeat' first
    | with_reducible first
        | assumption | apply State.put_keeps
    | simp only [↓keeps_upd_iff] | dsimp only

theorem State.ratePending_keeps {s0 : State} (s : State) (h_s : Keeps s0 s) :
    Keeps s0 (State.ratePending s) := by
  unfold State.ratePending
  repeat' first
    | with_reducible first
        | assumption | apply keeps_ite | apply State.rateInForce_keeps
    | split | dsimp only

theorem State.tickRateWrite_keeps {s0 : State} (s : State) (v : Word32) (h_s : Keeps s0 s) :
    Keeps s0 (State.tickRateWrite s v) := by
  unfold State.tickRateWrite
  repeat' first
    | with_reducible first
        | assumption | apply keeps_ite | apply State.put_keeps | apply State.rateInForce_keeps
        | apply State.regStore_keeps
    | split | dsimp only

theorem execTickRateWrite_keeps {s0 : State} (v : Word32) (s : State) (h_s : Keeps s0 s) :
    OutKeeps s0 (execTickRateWrite v s) := by
  unfold execTickRateWrite
  repeat' first
    | with_reducible first
        | assumption | apply State.tickRateWrite_keeps | apply outKeeps_next
    | dsimp only

theorem State.timeSecWrite_keeps {s0 : State} (s : State) (hi : Bool) (v : Word32) (h_s : Keeps s0 s) :
    Keeps s0 (State.timeSecWrite s hi v) := by
  unfold State.timeSecWrite
  repeat' first
    | with_reducible first
        | assumption | apply keeps_ite | apply State.taiUpdate_keeps
    | simp only [↓keeps_upd_iff] | split | dsimp only

theorem execTimeSecWrite_keeps {s0 : State} (hi : Bool) (v : Word32) (s : State) (h_s : Keeps s0 s) :
    OutKeeps s0 (execTimeSecWrite hi v s) := by
  unfold execTimeSecWrite
  repeat' first
    | with_reducible first
        | assumption | apply State.timeSecWrite_keeps | apply outKeeps_next
    | dsimp only

theorem State.srcChanged_keeps {s0 : State} (s : State) (h_s : Keeps s0 s) :
    Keeps s0 (State.srcChanged s) := by
  unfold State.srcChanged
  repeat' first
    | with_reducible first
        | assumption | apply keeps_ite | apply State.put_keeps | apply State.tbEnter_keeps
    | simp only [↓keeps_upd_iff] | split | dsimp only

theorem State.timeCtlBase_keeps {s0 : State} (s : State) (v : Word32) (h_s : Keeps s0 s) :
    Keeps s0 (State.timeCtlBase s v) := by
  unfold State.timeCtlBase
  repeat' first
    | with_reducible first
        | assumption | apply keeps_ite | apply State.regStore_keeps | apply State.srcChanged_keeps
    | simp only [↓keeps_upd_iff] | split | dsimp only

end Sys2Proof.Machine
end

