-- ==== Sys2Proof/Laws/DmaKeeps.lean ====
section
/-! SUPPORT. What the definitions of Machine/Dma.lean keep, one lemma each. -/

namespace Sys2Proof.Machine

set_option linter.all false

theorem State.asFn_keeps {s0 : State} (s : State) (a : Nat) (h_s : Keeps s0 s) :
    Keeps s0 (State.asFn s a) := by
  unfold State.asFn
  repeat' first
    | with_reducible first
        | assumption
    | simp only [↓keeps_upd_iff] | simp only [↓keeps_upd_mem_iff] | dsimp only

theorem State.hostFetch_keeps {s0 : State} (s : State) (a n : Nat) (h_s : Keeps s0 s) :
    Keeps s0 (State.hostFetch s a n).2 := by
  unfold State.hostFetch
  repeat' first
    | with_reducible first
        | assumption | apply keeps_ite | apply State.asFn_keeps | apply keeps_pair_ite
    | simp only [↓keeps_upd_iff] | simp only [↓keeps_upd_mem_iff] | split | dsimp only

theorem State.hostStore_keeps {s0 : State} (s : State) (a : Nat) (bs : Bytes) (h_s : Keeps s0 s) :
    Keeps s0 (State.hostStore s a bs).2 := by
  unfold State.hostStore
  repeat' first
    | with_reducible first
        | intro _ | assumption | apply keeps_ite | apply State.asFn_keeps | apply State.hostWrite_keeps
        | apply keeps_foldl | apply keeps_elim | apply keeps_pair_ite
    | split | dsimp only

theorem State.burstData_keeps {s0 : State} (s : State) (a n : Nat) (h_s : Keeps s0 s) :
    Keeps s0 (State.burstData s a n).2 := by
  unfold State.burstData
  repeat' first
    | with_reducible first
        | assumption | apply keeps_ite | apply State.hostFetch_keeps | apply State.memRead_keeps
        | apply State.transfer_keeps | apply keeps_pair_ite
    | split | dsimp only

theorem State.burstRead_keeps {s0 : State} (s : State) (mid a n : Nat) (h_s : Keeps s0 s) :
    Keeps s0 (State.burstRead s mid a n).2 := by
  unfold State.burstRead
  repeat' first
    | with_reducible first
        | assumption | apply State.burstData_keeps | apply State.nutDeny_keeps
    | simp only [↓keeps_upd_iff] | (refine keeps_snd (by with_reducible assumption) ?_)
    | (refine keeps_some (by with_reducible assumption) ?_) | split | dsimp only

theorem State.partStore_keeps {s0 : State} (s : State) (a : Nat) (bs : Bytes) (h_s : Keeps s0 s) :
    Keeps s0 (State.partStore s a bs).2 := by
  unfold State.partStore
  repeat' first
    | with_reducible first
        | assumption | apply keeps_ite | apply State.hostStore_keeps | apply State.memStore_keeps
        | apply State.transfer_keeps | apply keeps_pair_ite
    | split | dsimp only

theorem State.burstWrite_keeps {s0 : State} (s : State) (mid a : Nat) (bs : Bytes) (h_s : Keeps s0 s) :
    Keeps s0 (State.burstWrite s mid a bs).2 := by
  have h : ∀ (l : List AccPart) (r : Bool × State), Keeps s0 r.2 → Keeps s0 (l.foldl (fun (r : Bool × State) p =>
      if p.granted then
        let q := r.2.partStore p.addr ((bs.drop (p.addr - a)).take p.len)
        (r.1 && q.1, q.2)
      else r) r).2 := by
    intro l
    induction l with
    | nil => exact fun _ hr => hr
    | cons p l ih =>
      intro r hr
      exact ih _ (keeps_pair_ite (State.partStore_keeps _ _ _ hr) hr)
  unfold State.burstWrite
  dsimp only
  split
  · exact State.nutDeny_keeps _ _ _ _ _ _ (h _ (true, s) h_s)
  · exact h _ _ h_s

theorem State.burstsRead_keeps {s0 : State} (s : State) (mid a n x0 : Nat) (h_s : Keeps s0 s) :
    Keeps s0 (State.burstsRead s mid a n x0).2 := by
  induction x0 generalizing s mid a n with
  | zero =>
    unfold State.burstsRead
    repeat' first
    | with_reducible first
        | intro _ | assumption | apply keeps_ite | apply State.burstRead_keeps | apply keeps_pair_ite
    | simp only [↓keeps_upd_iff] | (refine keeps_snd (by with_reducible assumption) ?_)
    | (refine keeps_some (by with_reducible assumption) ?_) | split | dsimp only
  | succ n ih =>
    unfold State.burstsRead
    repeat' first
      | with_reducible first
          | intro _ | assumption | apply keeps_ite | apply State.burstRead_keeps | apply ih
          | apply keeps_pair_ite
      | simp only [↓keeps_upd_iff] | (refine keeps_snd (by with_reducible assumption) ?_)
      | (refine keeps_some (by with_reducible assumption) ?_) | split | dsimp only

theorem State.burstsWrite_keeps {s0 : State} (s : State) (mid a : Nat) (bs : Bytes) (x0 : Nat)
    (h_s : Keeps s0 s) : Keeps s0 (State.burstsWrite s mid a bs x0).2 := by
  induction x0 generalizing s mid a bs with
  | zero =>
    unfold State.burstsWrite
    repeat' first
    | with_reducible first
        | assumption | apply keeps_ite | apply State.burstWrite_keeps | apply keeps_pair_ite
    | split | dsimp only
  | succ n ih =>
    unfold State.burstsWrite
    repeat' first
      | with_reducible first
          | assumption | apply keeps_ite | apply State.burstWrite_keeps | apply ih | apply keeps_pair_ite
      | split | dsimp only

theorem State.dmaRead_keeps {s0 : State} (s : State) (mid a n : Nat) (h_s : Keeps s0 s) :
    Keeps s0 (State.dmaRead s mid a n).2 := by
  unfold State.dmaRead
  repeat' first
    | with_reducible first
        | assumption | apply State.burstsRead_keeps
    | dsimp only

theorem State.dmaWrite_keeps {s0 : State} (s : State) (mid a : Nat) (bs : Bytes) (h_s : Keeps s0 s) :
    Keeps s0 (State.dmaWrite s mid a bs).2 := by
  unfold State.dmaWrite
  repeat' first
    | with_reducible first
        | assumption | apply State.burstsWrite_keeps
    | dsimp only

theorem State.bufRead_keeps {s0 : State} (s : State) (mid a n : Nat) (h_s : Keeps s0 s) :
    Keeps s0 (State.bufRead s mid a n).2 := by
  unfold State.bufRead
  repeat' first
    | with_reducible first
        | assumption | apply State.dmaRead_keeps
    | dsimp only

theorem State.bufWrite_keeps {s0 : State} (s : State) (mid a : Nat) (bs : Bytes) (h_s : Keeps s0 s) :
    Keeps s0 (State.bufWrite s mid a bs).2 := by
  unfold State.bufWrite
  repeat' first
    | with_reducible first
        | assumption | apply State.dmaWrite_keeps
    | dsimp only

theorem State.keyRead_keeps {s0 : State} (s : State) (a n : Nat) (h_s : Keeps s0 s) :
    Keeps s0 (State.keyRead s a n).2 := by
  unfold State.keyRead
  repeat' first
    | with_reducible first
        | assumption | apply State.memRead_keeps
    | dsimp only

theorem State.bufStore_keeps {s0 : State} (s : State) (a : Nat) (bs : Bytes) (h_s : Keeps s0 s) :
    Keeps s0 (State.bufStore s a bs) := by
  unfold State.bufStore
  repeat' first
    | with_reducible first
        | assumption | apply State.memStore_keeps
    | dsimp only

end Sys2Proof.Machine
end

