-- ==== Sys2Proof/Laws/KeysKeeps.lean ====
section
/-! SUPPORT. What the definitions of Machine/Keys.lean keep, one lemma each. -/

namespace Sys2Proof.Machine

set_option linter.all false

theorem State.pegEvict_keeps {s0 : State} (s : State) (h_s : Keeps s0 s) : Keeps s0 (State.pegEvict s) := by
  unfold State.pegEvict
  repeat' first
    | with_reducible first
        | assumption | apply keeps_ite | apply State.memStore_keeps | apply State.setPeg_keeps
    | simp only [↓keeps_upd_iff] | (refine keeps_snd (by with_reducible assumption) ?_)
    | (refine keeps_some (by with_reducible assumption) ?_)
    | (refine keeps_some2 (by with_reducible assumption) ?_) | split | dsimp only

theorem State.pegInstall_keeps {s0 : State} (s : State) (i : Nat) (key : Bytes) (h_s : Keeps s0 s) :
    Keeps s0 (State.pegInstall s i key) := by
  unfold State.pegInstall
  repeat' first
    | with_reducible first
        | assumption | apply keeps_ite | apply State.pegEvict_keeps | apply State.setPeg_keeps
    | simp only [↓keeps_upd_iff] | split | dsimp only

theorem State.cmdReservePeg_keeps {s0 : State} (s : State) (c : KeyCmd) (h_s : Keeps s0 s) :
    KeyKeeps s0 (State.cmdReservePeg s c) := by
  unfold State.cmdReservePeg
  repeat' first
    | with_reducible first
        | assumption | apply keeps_ite | apply State.free_keeps | apply State.setPeg_keeps
        | apply keyKeeps_fin | apply keyKeeps_wait | apply keyKeeps_ite
    | simp only [↓keeps_upd_iff] | split | dsimp only

theorem State.cmdErasePeg_keeps {s0 : State} (s : State) (c : KeyCmd) (h_s : Keeps s0 s) :
    KeyKeeps s0 (State.cmdErasePeg s c) := by
  unfold State.cmdErasePeg
  repeat' first
    | with_reducible first
        | assumption | apply State.free_keeps | apply State.setPeg_keeps | apply keyKeeps_fin
        | apply keyKeeps_wait | apply keyKeeps_ite
    | dsimp only

theorem State.putInfo_keeps {s0 : State} (s : State) (i : Nat) (x0 : List Nat) (h_s : Keeps s0 s) :
    Keeps s0 (State.putInfo s i x0) := by
  induction x0 generalizing s i with
  | nil =>
    unfold State.putInfo
    repeat' first
    | with_reducible first
        | assumption | apply State.put_keeps
    | split | dsimp only
  | cons y ys ih =>
    unfold State.putInfo
    repeat' first
      | with_reducible first
          | assumption | apply State.put_keeps | apply ih
      | split | dsimp only

theorem State.cmdInfoPeg_keeps {s0 : State} (s : State) (c : KeyCmd) (h_s : Keeps s0 s) :
    KeyKeeps s0 (State.cmdInfoPeg s c) := by
  unfold State.cmdInfoPeg
  repeat' first
    | with_reducible first
        | assumption | apply keeps_ite | apply State.putInfo_keeps | apply keyKeeps_fin | apply keyKeeps_wait
        | apply keyKeeps_ite
    | split | dsimp only

theorem State.cmdLowerLimit_keeps {s0 : State} (s : State) (c : KeyCmd) (h_s : Keeps s0 s) :
    KeyKeeps s0 (State.cmdLowerLimit s c) := by
  unfold State.cmdLowerLimit
  repeat' first
    | with_reducible first
        | assumption | apply keeps_ite | apply State.setPeg_keeps | apply keyKeeps_fin | apply keyKeeps_wait
        | apply keyKeeps_ite
    | simp only [↓keeps_upd_iff] | split | dsimp only

theorem State.cmdDerive_keeps {s0 : State} (s : State) (c : KeyCmd) (h_s : Keeps s0 s) :
    KeyKeeps s0 (State.cmdDerive s c) := by
  unfold State.cmdDerive
  repeat' first
    | with_reducible first
        | assumption | apply keeps_ite | apply State.keyRead_keeps | apply State.pegInstall_keeps
        | apply State.pegUse_keeps | apply keyKeeps_fin | apply keyKeeps_wait | apply keyKeeps_ite
    | simp only [↓keeps_upd_iff] | (refine keeps_snd (by with_reducible assumption) ?_)
    | (refine keeps_some (by with_reducible assumption) ?_)
    | (refine keeps_key (by with_reducible assumption) ?_) | split | dsimp only

theorem State.cmdImportGke_keeps {s0 : State} (s : State) (c : KeyCmd) (h_s : Keeps s0 s) :
    KeyKeeps s0 (State.cmdImportGke s c) := by
  unfold State.cmdImportGke
  repeat' first
    | with_reducible first
        | assumption | apply keeps_ite | apply State.keyRead_keeps | apply State.pegInstall_keeps
        | apply keyKeeps_fin | apply keyKeeps_wait | apply keyKeeps_ite
    | simp only [↓keeps_upd_iff] | (refine keeps_snd (by with_reducible assumption) ?_)
    | (refine keeps_some (by with_reducible assumption) ?_)
    | (refine keeps_key (by with_reducible assumption) ?_) | split | dsimp only

theorem State.cmdImportPriv_keeps {s0 : State} (s : State) (c : KeyCmd) (h_s : Keeps s0 s) :
    KeyKeeps s0 (State.cmdImportPriv s c) := by
  unfold State.cmdImportPriv
  repeat' first
    | with_reducible first
        | assumption | apply keeps_ite | apply State.free_keeps | apply State.keyRead_keeps
        | apply State.pegUse_keeps | apply State.setPriv_keeps | apply keyKeeps_fin | apply keyKeeps_wait
        | apply keyKeeps_ite
    | simp only [↓keeps_upd_iff] | (refine keeps_snd (by with_reducible assumption) ?_)
    | (refine keeps_some (by with_reducible assumption) ?_)
    | (refine keeps_key (by with_reducible assumption) ?_) | split | dsimp only

theorem State.cmdReservePriv_keeps {s0 : State} (s : State) (c : KeyCmd) (h_s : Keeps s0 s) :
    KeyKeeps s0 (State.cmdReservePriv s c) := by
  unfold State.cmdReservePriv
  repeat' first
    | with_reducible first
        | assumption | apply keeps_ite | apply State.free_keeps | apply State.setPriv_keeps
        | apply keyKeeps_fin | apply keyKeeps_wait | apply keyKeeps_ite
    | simp only [↓keeps_upd_iff] | split | dsimp only

theorem State.cmdDestroyPriv_keeps {s0 : State} (s : State) (c : KeyCmd) (h_s : Keeps s0 s) :
    KeyKeeps s0 (State.cmdDestroyPriv s c) := by
  unfold State.cmdDestroyPriv
  repeat' first
    | with_reducible first
        | assumption | apply keeps_ite | apply State.free_keeps | apply State.setPriv_keeps
        | apply keyKeeps_fin | apply keyKeeps_wait | apply keyKeeps_ite
    | split | dsimp only

theorem State.cmdInfoPriv_keeps {s0 : State} (s : State) (c : KeyCmd) (h_s : Keeps s0 s) :
    KeyKeeps s0 (State.cmdInfoPriv s c) := by
  unfold State.cmdInfoPriv
  repeat' first
    | with_reducible first
        | assumption | apply keeps_ite | apply State.putInfo_keeps | apply keyKeeps_fin | apply keyKeeps_wait
        | apply keyKeeps_ite
    | split | dsimp only

theorem State.moduleReserve_keeps {s0 : State} (s : State) (h_s : Keeps s0 s) :
    Keeps s0 (State.moduleReserve s) := by
  unfold State.moduleReserve
  repeat' first
    | with_reducible first
        | intro _ | assumption | apply State.free_keeps | apply State.setPriv_keeps | apply keeps_foldl
    | simp only [↓keeps_upd_iff] | dsimp only

theorem State.cmdRekeyRoot_keeps {s0 : State} (s : State) (h_s : Keeps s0 s) :
    KeyKeeps s0 (State.cmdRekeyRoot s) := by
  unfold State.cmdRekeyRoot
  repeat' first
    | with_reducible first
        | assumption | apply keeps_ite | apply State.inc_keeps | apply State.moduleReserve_keeps
        | apply State.privCount_keeps | apply State.put_keeps | apply State.rosinTake_keeps
        | apply keyKeeps_fin | apply keyKeeps_wait | apply keyKeeps_ite
    | simp only [↓keeps_upd_iff] | split | dsimp only

theorem State.keyRun_keeps {s0 : State} (s : State) (c : KeyCmd) (h_s : Keeps s0 s) :
    KeyKeeps s0 (State.keyRun s c) := by
  unfold State.keyRun
  repeat' first
    | with_reducible first
        | assumption | apply State.cmdDerive_keeps | apply State.cmdDestroyPriv_keeps
        | apply State.cmdErasePeg_keeps | apply State.cmdImportGke_keeps | apply State.cmdImportPriv_keeps
        | apply State.cmdInfoPeg_keeps | apply State.cmdInfoPriv_keeps | apply State.cmdLowerLimit_keeps
        | apply State.cmdRekeyRoot_keeps | apply State.cmdReservePeg_keeps | apply State.cmdReservePriv_keeps
        | apply keyKeeps_fin | apply keyKeeps_wait | apply keyKeeps_ite
    | simp only [↓keeps_upd_iff] | (refine keeps_key (by with_reducible assumption) ?_) | split | dsimp only

theorem State.keyAttempt_keeps {s0 : State} (s : State) (c : KeyCmd) (h_s : Keeps s0 s) :
    Keeps s0 (State.keyAttempt s c) := by
  unfold State.keyAttempt
  repeat' first
    | with_reducible first
        | assumption | apply State.keyEnd_keeps | apply State.keyRun_keeps | apply State.settle_keeps
    | simp only [↓keeps_upd_iff] | (refine keeps_snd (by with_reducible assumption) ?_)
    | (refine keeps_some (by with_reducible assumption) ?_)
    | (refine keeps_key (by with_reducible assumption) ?_) | split | dsimp only

theorem State.keyRetry_keeps {s0 : State} (s : State) (h_s : Keeps s0 s) : Keeps s0 (State.keyRetry s) := by
  unfold State.keyRetry
  repeat' first
    | with_reducible first
        | assumption | apply State.keyAttempt_keeps
    | simp only [↓keeps_upd_iff] | (refine keeps_some (by with_reducible assumption) ?_) | split | dsimp only

theorem State.keyGo_keeps {s0 : State} (s : State) (mid op : Nat) (h_s : Keeps s0 s) :
    Keeps s0 (State.keyGo s mid op) := by
  unfold State.keyGo
  repeat' first
    | with_reducible first
        | assumption | apply keeps_ite | apply State.irq_keeps | apply State.keyAttempt_keeps
        | apply State.keyEnd_keeps | apply State.put_keeps
    | split | dsimp only

theorem execReservePeg_keeps {s0 : State} (mid : Nat) (s : State) (h_s : Keeps s0 s) :
    OutKeeps s0 (execReservePeg mid s) := by
  unfold execReservePeg
  repeat' first
    | with_reducible first
        | assumption | apply State.keyGo_keeps | apply outKeeps_next
    | dsimp only

theorem execImportGke_keeps {s0 : State} (mid : Nat) (s : State) (h_s : Keeps s0 s) :
    OutKeeps s0 (execImportGke mid s) := by
  unfold execImportGke
  repeat' first
    | with_reducible first
        | assumption | apply State.keyGo_keeps | apply outKeeps_next
    | dsimp only

theorem execErasePeg_keeps {s0 : State} (mid : Nat) (s : State) (h_s : Keeps s0 s) :
    OutKeeps s0 (execErasePeg mid s) := by
  unfold execErasePeg
  repeat' first
    | with_reducible first
        | assumption | apply State.keyGo_keeps | apply outKeeps_next
    | dsimp only

theorem execInfoPeg_keeps {s0 : State} (mid : Nat) (s : State) (h_s : Keeps s0 s) :
    OutKeeps s0 (execInfoPeg mid s) := by
  unfold execInfoPeg
  repeat' first
    | with_reducible first
        | assumption | apply State.keyGo_keeps | apply outKeeps_next
    | dsimp only

theorem execLowerLimit_keeps {s0 : State} (mid : Nat) (s : State) (h_s : Keeps s0 s) :
    OutKeeps s0 (execLowerLimit mid s) := by
  unfold execLowerLimit
  repeat' first
    | with_reducible first
        | assumption | apply State.keyGo_keeps | apply outKeeps_next
    | dsimp only

theorem execDerive_keeps {s0 : State} (mid : Nat) (s : State) (h_s : Keeps s0 s) :
    OutKeeps s0 (execDerive mid s) := by
  unfold execDerive
  repeat' first
    | with_reducible first
        | assumption | apply State.keyGo_keeps | apply outKeeps_next
    | dsimp only

theorem execReservePriv_keeps {s0 : State} (mid : Nat) (s : State) (h_s : Keeps s0 s) :
    OutKeeps s0 (execReservePriv mid s) := by
  unfold execReservePriv
  repeat' first
    | with_reducible first
        | assumption | apply State.keyGo_keeps | apply outKeeps_next
    | dsimp only

theorem execImportPriv_keeps {s0 : State} (mid : Nat) (s : State) (h_s : Keeps s0 s) :
    OutKeeps s0 (execImportPriv mid s) := by
  unfold execImportPriv
  repeat' first
    | with_reducible first
        | assumption | apply State.keyGo_keeps | apply outKeeps_next
    | dsimp only

theorem execDestroyPriv_keeps {s0 : State} (mid : Nat) (s : State) (h_s : Keeps s0 s) :
    OutKeeps s0 (execDestroyPriv mid s) := by
  unfold execDestroyPriv
  repeat' first
    | with_reducible first
        | assumption | apply State.keyGo_keeps | apply outKeeps_next
    | dsimp only

theorem execInfoPriv_keeps {s0 : State} (mid : Nat) (s : State) (h_s : Keeps s0 s) :
    OutKeeps s0 (execInfoPriv mid s) := by
  unfold execInfoPriv
  repeat' first
    | with_reducible first
        | assumption | apply State.keyGo_keeps | apply outKeeps_next
    | dsimp only

theorem execRekeyRoot_keeps {s0 : State} (mid : Nat) (s : State) (h_s : Keeps s0 s) :
    OutKeeps s0 (execRekeyRoot mid s) := by
  unfold execRekeyRoot
  repeat' first
    | with_reducible first
        | assumption | apply State.keyGo_keeps | apply outKeeps_next
    | dsimp only

theorem execKeyCmdUnassigned_keeps {s0 : State} (mid op : Nat) (s : State) (h_s : Keeps s0 s) :
    OutKeeps s0 (execKeyCmdUnassigned mid op s) := by
  unfold execKeyCmdUnassigned
  repeat' first
    | with_reducible first
        | assumption | apply keeps_ite | apply State.keyGo_keeps | apply outKeeps_next | apply outKeeps_ite
    | split | dsimp only

theorem execKeyCmdTimeout_keeps {s0 : State} (s : State) (h_s : Keeps s0 s) :
    OutKeeps s0 (execKeyCmdTimeout s) := by
  unfold execKeyCmdTimeout
  repeat' first
    | with_reducible first
        | assumption | apply State.keyEnd_keeps | apply State.passTo_keeps | apply outKeeps_next
    | simp only [↓keeps_upd_iff] | (refine keeps_snd (by with_reducible assumption) ?_)
    | (refine keeps_some (by with_reducible assumption) ?_)
    | (refine keeps_next (by with_reducible assumption) ?_) | split | dsimp only

theorem execVaultCopy_keeps {s0 : State} (bad : List Nat) (s : State) (h_s : Keeps s0 s) :
    OutKeeps s0 (execVaultCopy bad s) := by
  unfold execVaultCopy
  repeat' first
    | with_reducible first
        | intro _ | assumption | apply keeps_ite | apply State.keyFaultSlot_keeps
        | apply State.keyRetry_keeps | apply State.lmsBoot_keeps | apply State.put_keeps
        | apply State.raise_keeps | apply State.setPriv_keeps | apply keeps_foldl | apply outKeeps_next
        | apply outKeeps_ite
    | simp only [↓keeps_upd_iff] | split | dsimp only

theorem execPegBlobLoad_keeps {s0 : State} (i : Nat) (env : FabEnv) (u : State) (h_u : Keeps s0 u) :
    OutKeeps s0 (execPegBlobLoad i env u) := by
  unfold execPegBlobLoad
  repeat' first
    | with_reducible first
        | assumption | apply keeps_ite | apply State.disturb_keeps | apply State.dramRead_keeps
        | apply State.inc64_keeps | apply State.keyFaultSlot_keeps | apply State.keyRetry_keeps
        | apply State.pegEvict_keeps | apply State.raise_keeps | apply State.setPeg_keeps
        | apply outKeeps_next | apply outKeeps_ite
    | simp only [↓keeps_upd_iff] | (refine keeps_snd (by with_reducible assumption) ?_)
    | (refine keeps_some (by with_reducible assumption) ?_)
    | (refine keeps_next (by with_reducible assumption) ?_) | split | dsimp only

theorem execKeyCmdResultRead_keeps {s0 : State} (s : State) (h_s : Keeps s0 s) :
    OutKeeps s0 (execKeyCmdResultRead s) := by
  unfold execKeyCmdResultRead
  repeat' first
    | with_reducible first
        | assumption | apply State.clrIrq_keeps | apply outKeeps_next
    | dsimp only

theorem execKeyFaultSlotRead_keeps {s0 : State} (s : State) (h_s : Keeps s0 s) :
    OutKeeps s0 (execKeyFaultSlotRead s) := by
  unfold execKeyFaultSlotRead
  repeat' first
    | with_reducible first
        | assumption | apply State.clrIrq_keeps | apply outKeeps_next
    | dsimp only

theorem execCerStateRead_keeps {s0 : State} (s : State) (h_s : Keeps s0 s) :
    OutKeeps s0 (execCerStateRead s) := by
  unfold execCerStateRead
  repeat' first
    | with_reducible first
        | assumption | apply State.clrIrq_keeps | apply outKeeps_next
    | dsimp only

theorem State.cerStart_keeps {s0 : State} (s : State) (h_s : Keeps s0 s) : Keeps s0 (State.cerStart s) := by
  unfold State.cerStart
  repeat' first
    | with_reducible first
        | assumption | apply keeps_ite | apply State.cerPut_keeps | apply State.inc_keeps
        | apply State.putWords_keeps | apply State.raise_keeps | apply State.rosinTake_keeps
    | simp only [↓keeps_upd_iff] | split | dsimp only

theorem State.cerAbort_keeps {s0 : State} (s : State) (h_s : Keeps s0 s) : Keeps s0 (State.cerAbort s) := by
  unfold State.cerAbort
  repeat' first
    | with_reducible first
        | assumption | apply State.cerFail_keeps
    | dsimp only

theorem State.cerCtlWrite_keeps {s0 : State} (s : State) (mid : Nat) (v : Word32) (h_s : Keeps s0 s) :
    Keeps s0 (State.cerCtlWrite s mid v) := by
  unfold State.cerCtlWrite
  repeat' first
    | with_reducible first
        | assumption | apply keeps_ite | apply State.cerAbort_keeps | apply State.cerStart_keeps
        | apply State.regStore_keeps
    | split | dsimp only

theorem execShareIn_keeps {s0 : State} (mid : Nat) (v : Word32) (s : State) (h_s : Keeps s0 s) :
    OutKeeps s0 (execShareIn mid v s) := by
  unfold execShareIn
  repeat' first
    | with_reducible first
        | assumption | apply keeps_ite | apply State.cerCtlWrite_keeps | apply outKeeps_next
        | apply outKeeps_ite
    | split | dsimp only

theorem execShareOut_keeps {s0 : State} (mid : Nat) (v : Word32) (s : State) (h_s : Keeps s0 s) :
    OutKeeps s0 (execShareOut mid v s) := by
  unfold execShareOut
  repeat' first
    | with_reducible first
        | assumption | apply keeps_ite | apply State.cerCtlWrite_keeps | apply outKeeps_next
        | apply outKeeps_ite
    | split | dsimp only

theorem execAuthorise_keeps {s0 : State} (mid : Nat) (v : Word32) (s : State) (h_s : Keeps s0 s) :
    OutKeeps s0 (execAuthorise mid v s) := by
  unfold execAuthorise
  repeat' first
    | with_reducible first
        | assumption | apply keeps_ite | apply State.cerCtlWrite_keeps | apply outKeeps_next
        | apply outKeeps_ite
    | split | dsimp only

theorem execCerAbort_keeps {s0 : State} (mid : Nat) (v : Word32) (s : State) (h_s : Keeps s0 s) :
    OutKeeps s0 (execCerAbort mid v s) := by
  unfold execCerAbort
  repeat' first
    | with_reducible first
        | assumption | apply keeps_ite | apply State.cerCtlWrite_keeps | apply outKeeps_next
        | apply outKeeps_ite
    | split | dsimp only

theorem State.cerInstall_keeps {s0 : State} (s : State) (c : Ceremony) (secret : Bytes) (got inc_ : Nat)
    (h_s : Keeps s0 s) : Keeps s0 (State.cerInstall s c secret got inc_) := by
  unfold State.cerInstall
  repeat' first
    | with_reducible first
        | assumption | apply keeps_ite | apply State.cerPut_keeps | apply State.pegInstall_keeps
    | simp only [↓keeps_upd_iff] | split | dsimp only

theorem State.cerRefuse_keeps {s0 : State} (s : State) (st : Nat) (h_s : Keeps s0 s) :
    Keeps s0 (State.cerRefuse s st) := by
  unfold State.cerRefuse
  repeat' first
    | with_reducible first
        | assumption | apply State.cerPut_keeps
    | dsimp only

theorem State.cerShare_keeps {s0 : State} (s : State) (c : Ceremony) (sh : Share) (h_s : Keeps s0 s) :
    Keeps s0 (State.cerShare s c sh) := by
  unfold State.cerShare
  repeat' first
    | with_reducible first
        | intro _ | assumption | apply keeps_ite | apply State.cerFail_keeps | apply State.cerInstall_keeps
        | apply State.cerPut_keeps | apply State.cerRefuse_keeps
    | simp only [↓keeps_upd_iff] | split | dsimp only

theorem State.cerRemoved_keeps {s0 : State} (s : State) (i : Nat) (h_s : Keeps s0 s) :
    Keeps s0 (State.cerRemoved s i) := by
  unfold State.cerRemoved
  repeat' first
    | with_reducible first
        | assumption | apply State.cardErr_keeps | apply State.cardOff_keeps | apply State.cerPut_keeps
        | apply State.evUnit_keeps | apply State.inc_keeps | apply State.raise_keeps
    | split | dsimp only

theorem State.cerStep_keeps {s0 : State} (s : State) (mid index : Nat) (ans : CardAnswer) (h_s : Keeps s0 s) :
    Keeps s0 (State.cerStep s mid index ans) := by
  unfold State.cerStep
  repeat' first
    | with_reducible first
        | intro _ | assumption | apply keeps_ite | apply State.cerInstall_keeps | apply State.cerPut_keeps
        | apply State.cerRefuse_keeps | apply State.cerRemoved_keeps | apply State.cerShare_keeps
        | apply State.put_keeps
    | simp only [↓keeps_upd_iff] | (refine keeps_snd (by with_reducible assumption) ?_)
    | (refine keeps_snd3 (by with_reducible assumption) ?_)
    | (refine keeps_some (by with_reducible assumption) ?_) | split | dsimp only

theorem execCerStep_keeps {s0 : State} (mid index : Nat) (ans : CardAnswer) (s : State) (h_s : Keeps s0 s) :
    OutKeeps s0 (execCerStep mid index ans s) := by
  unfold execCerStep
  repeat' first
    | with_reducible first
        | assumption | apply State.cerStep_keeps | apply outKeeps_next
    | dsimp only

theorem execCerTimeout_keeps {s0 : State} (s : State) (h_s : Keeps s0 s) :
    OutKeeps s0 (execCerTimeout s) := by
  unfold execCerTimeout
  repeat' first
    | with_reducible first
        | assumption | apply State.cerFail_keeps | apply State.passTo_keeps | apply outKeeps_next
    | simp only [↓keeps_upd_iff] | (refine keeps_snd (by with_reducible assumption) ?_)
    | (refine keeps_some (by with_reducible assumption) ?_)
    | (refine keeps_next (by with_reducible assumption) ?_) | split | dsimp only

theorem execAuthwinExpiry_keeps {s0 : State} (s : State) (h_s : Keeps s0 s) :
    OutKeeps s0 (execAuthwinExpiry s) := by
  unfold execAuthwinExpiry
  repeat' first
    | with_reducible first
        | assumption | apply keeps_ite | apply State.passTo_keeps | apply State.put_keeps
        | apply outKeeps_next | apply outKeeps_ite
    | split | dsimp only

end Sys2Proof.Machine
end

