-- ==== Sys2Proof/Laws/JobsKeeps.lean ====
section
/-! SUPPORT. What the definitions of Machine/Jobs.lean keep, one lemma each. -/

namespace Sys2Proof.Machine

set_option linter.all false

theorem State.fetchSlot_keeps {s0 : State} (s : State) (mid r count : Nat) (h_s : Keeps s0 s) :
    Keeps s0 (State.fetchSlot s mid r count).2 := by
  unfold State.fetchSlot
  repeat' first
    | with_reducible first
        | assumption | apply State.bufRead_keeps
    | dsimp only

theorem State.jobLine_keeps {s0 : State} (s : State) (k : Nat) (h_s : Keeps s0 s) :
    Keeps s0 (State.jobLine s k) := by
  unfold State.jobLine
  repeat' first
    | with_reducible first
        | intro _ | assumption | apply State.irq_keeps
    | dsimp only

theorem State.ringLine_keeps {s0 : State} (s : State) (r : Nat) (h_s : Keeps s0 s) :
    Keeps s0 (State.ringLine s r) := by
  unfold State.ringLine
  repeat' first
    | with_reducible first
        | assumption | apply keeps_ite | apply State.irq_keeps | apply State.jobLine_keeps
    | split | dsimp only

theorem State.msiSend_keeps {s0 : State} (s : State) (vec : Nat) (h_s : Keeps s0 s) :
    Keeps s0 (State.msiSend s vec) := by
  unfold State.msiSend
  repeat' first
    | with_reducible first
        | assumption | apply keeps_ite | apply State.put_keeps
    | simp only [↓keeps_upd_iff] | split | dsimp only

theorem State.advance_keeps {s0 : State} (s : State) (r x0 : Nat) (h_s : Keeps s0 s) :
    Keeps s0 (State.advance s r x0) := by
  induction x0 generalizing s r with
  | zero =>
    unfold State.advance
    repeat' first
    | with_reducible first
        | assumption | apply keeps_ite | apply State.put_keeps | apply State.setRing_keeps
    | simp only [↓keeps_upd_iff] | split | dsimp only
  | succ n ih =>
    unfold State.advance
    repeat' first
      | with_reducible first
          | assumption | apply keeps_ite | apply State.put_keeps | apply State.setRing_keeps | apply ih
      | simp only [↓keeps_upd_iff] | split | dsimp only

theorem State.coreFree_keeps {s0 : State} (s : State) (r : Nat) (h_s : Keeps s0 s) :
    Keeps s0 (State.coreFree s r) := by
  unfold State.coreFree
  repeat' first
    | with_reducible first
        | assumption | apply keeps_ite | apply State.putInflight_keeps | apply State.put_keeps
    | split | dsimp only

theorem State.writeCompletion_keeps {s0 : State} (s : State) (c : Compl) (h_s : Keeps s0 s) :
    Keeps s0 (State.writeCompletion s c) := by
  unfold State.writeCompletion
  repeat' first
    | with_reducible first
        | assumption | apply keeps_ite | apply State.advance_keeps | apply State.bufWrite_keeps
        | apply State.coreFree_keeps | apply State.irq_keeps | apply State.msiSend_keeps
        | apply State.put_keeps | apply State.ringLine_keeps | apply State.setRing_keeps
    | simp only [↓keeps_upd_iff] | split | dsimp only

theorem execJobCompletion_keeps {s0 : State} (r count : Nat) (s : State) (h_s : Keeps s0 s) :
    OutKeeps s0 (execJobCompletion r count s) := by
  unfold execJobCompletion
  repeat' first
    | with_reducible first
        | intro _ | assumption | apply keeps_ite | apply State.writeCompletion_keeps | apply outKeeps_next
        | apply outKeeps_ite
    | simp only [↓keeps_upd_iff] | (refine keeps_snd (by with_reducible assumption) ?_)
    | (refine keeps_some (by with_reducible assumption) ?_)
    | (refine keeps_next (by with_reducible assumption) ?_)
    | (refine keeps_key (by with_reducible assumption) ?_) | split | dsimp only

theorem State.ringStop_keeps {s0 : State} (s : State) (r err : Nat) (h_s : Keeps s0 s) :
    Keeps s0 (State.ringStop s r err) := by
  unfold State.ringStop
  repeat' first
    | with_reducible first
        | assumption | apply keeps_ite | apply State.evUnitFree_keeps | apply State.put_keeps
        | apply State.setIrq_keeps | apply State.settle_keeps
    | split | dsimp only

theorem State.prodWrite_keeps {s0 : State} (s : State) (mid r p : Nat) (h_s : Keeps s0 s) :
    Keeps s0 (State.prodWrite s mid r p) := by
  unfold State.prodWrite
  repeat' first
    | with_reducible first
        | assumption | apply keeps_ite | apply State.headNow_keeps | apply State.inc_keeps
        | apply State.put_keeps | apply State.ringStop_keeps
    | split | dsimp only

theorem execJrProdWrite_keeps {s0 : State} (mid r : Nat) (v : Word32) (s : State) (h_s : Keeps s0 s) :
    OutKeeps s0 (execJrProdWrite mid r v s) := by
  unfold execJrProdWrite
  repeat' first
    | with_reducible first
        | assumption | apply keeps_ite | apply State.prodWrite_keeps | apply outKeeps_next
        | apply outKeeps_ite
    | split | dsimp only

theorem State.jobPost_keeps {s0 : State} (s : State) (mid r : Nat) (desc : Bytes) (h_s : Keeps s0 s) :
    Keeps s0 (State.jobPost s mid r desc) := by
  unfold State.jobPost
  repeat' first
    | with_reducible first
        | assumption | apply keeps_ite | apply State.bufStore_keeps | apply State.headNow_keeps
        | apply State.inc_keeps | apply State.put_keeps
    | split | dsimp only

theorem State.ringAbort_keeps {s0 : State} (s : State) (r : Nat) (h_s : Keeps s0 s) :
    Keeps s0 (State.ringAbort s r) := by
  unfold State.ringAbort
  repeat' first
    | with_reducible first
        | intro _ | assumption | apply State.cellEnd_keeps | apply State.endOver_keeps
        | apply State.putInflight_keeps | apply State.put_keeps | apply State.writeCompletion_keeps
        | apply keeps_foldl
    | simp only [↓keeps_upd_iff] | (refine keeps_snd (by with_reducible assumption) ?_)
    | (refine keeps_snd3 (by with_reducible assumption) ?_)
    | (refine keeps_some (by with_reducible assumption) ?_)
    | (refine keeps_key (by with_reducible assumption) ?_) | split | dsimp only

theorem execRingAbort_keeps {s0 : State} (r : Nat) (s : State) (h_s : Keeps s0 s) :
    OutKeeps s0 (execRingAbort r s) := by
  unfold execRingAbort
  repeat' first
    | with_reducible first
        | assumption | apply keeps_ite | apply State.ringAbort_keeps | apply outKeeps_next
        | apply outKeeps_ite
    | split | dsimp only

theorem State.vecStore_keeps {s0 : State} (s : State) (off : Nat) (v : Word32) (host : Bool)
    (h_s : Keeps s0 s) : Keeps s0 (State.vecStore s off v host) := by
  unfold State.vecStore
  repeat' first
    | with_reducible first
        | assumption | apply State.storeBut_keeps
    | dsimp only

theorem State.ringCfgWrite_keeps {s0 : State} (s : State) (mid r off : Nat) (v : Word32) (h_s : Keeps s0 s) :
    Keeps s0 (State.ringCfgWrite s mid r off v) := by
  unfold State.ringCfgWrite
  repeat' first
    | with_reducible first
        | assumption | apply keeps_ite | apply State.jobLine_keeps | apply State.put_keeps
        | apply State.raise_keeps | apply State.regStore_keeps | apply State.ringAbort_keeps
        | apply State.ringLine_keeps | apply State.setRing_keeps | apply State.storeBut_keeps
        | apply State.vecStore_keeps
    | split | dsimp only

theorem execJrCfgWrite_keeps {s0 : State} (mid r off : Nat) (v : Word32) (s : State) (h_s : Keeps s0 s) :
    OutKeeps s0 (execJrCfgWrite mid r off v s) := by
  unfold execJrCfgWrite
  repeat' first
    | with_reducible first
        | assumption | apply keeps_ite | apply State.ringCfgWrite_keeps | apply outKeeps_next
        | apply outKeeps_ite
    | split | dsimp only

end Sys2Proof.Machine
end

