-- ==== Sys2Proof/Laws/SoundKeeps.lean ====
section
/-! SUPPORT. What the definitions of Machine/Sound.lean keep, one lemma each. -/

namespace Sys2Proof.Machine

set_option linter.all false

theorem State.lmsTake_keeps {s0 : State} (s : State) (slot : Nat) (h_s : Keeps s0 s) :
    Keeps s0 (State.lmsTake s slot).2 := by
  unfold State.lmsTake
  repeat' first
    | with_reducible first
        | assumption | apply keeps_ite | apply State.lmsLow_keeps | apply State.lmsWarn_keeps
        | apply State.setPriv_keeps | apply keeps_pair_ite
    | simp only [↓keeps_upd_iff] | split | dsimp only

theorem State.jobStart_keeps {s0 : State} (s : State) (n r count : Nat) (w : List Nat) (o : OpSpec)
    (h_s : Keeps s0 s) : Keeps s0 (State.jobStart s n r count w o) := by
  unfold State.jobStart
  repeat' first
    | with_reducible first
        | assumption | apply keeps_ite | apply State.jobEnding_keeps | apply State.lmsTake_keeps
        | apply State.putInflight_keeps | apply State.put_keeps | apply State.setPriv_keeps
    | simp only [↓keeps_upd_iff] | split | dsimp only

theorem execCellDispatch_keeps {s0 : State} (n : Nat) (err : Bool) (s : State) (h_s : Keeps s0 s) :
    OutKeeps s0 (execCellDispatch n err s) := by
  unfold execCellDispatch
  repeat' first
    | with_reducible first
        | assumption | apply keeps_ite | apply State.fetchSlot_keeps | apply State.inc_keeps
        | apply State.jobEnding_keeps | apply State.jobStart_keeps | apply State.ringPop_keeps
        | apply State.ringStop_keeps | apply outKeeps_next | apply outKeeps_ite
    | simp only [↓keeps_upd_iff] | (refine keeps_snd (by with_reducible assumption) ?_)
    | (refine keeps_snd3 (by with_reducible assumption) ?_)
    | (refine keeps_some (by with_reducible assumption) ?_)
    | (refine keeps_some2 (by with_reducible assumption) ?_)
    | (refine keeps_next (by with_reducible assumption) ?_) | split | dsimp only

theorem State.cellDraw_keeps {s0 : State} (s : State) (n used : Nat) (h_s : Keeps s0 s) :
    Keeps s0 (State.cellDraw s n used) := by
  unfold State.cellDraw
  repeat' first
    | with_reducible first
        | assumption | apply State.inc64_keeps
    | simp only [↓keeps_upd_iff] | dsimp only

theorem State.jobDone_keeps {s0 : State} (s : State) (n : Nat) (j : Job) (st det outLen result : Nat)
    (h_s : Keeps s0 s) : Keeps s0 (State.jobDone s n j st det outLen result) := by
  unfold State.jobDone
  repeat' first
    | with_reducible first
        | assumption | apply keeps_ite | apply State.burn_keeps | apply State.cellDrop_keeps
        | apply State.inc64_keeps | apply State.jobEnding_keeps
    | split | dsimp only

theorem State.jobMemFail_keeps {s0 : State} (s : State) (n : Nat) (x0 : JobErr) (h_s : Keeps s0 s) :
    Keeps s0 (State.jobMemFail s n x0) := by
  unfold State.jobMemFail
  repeat' first
    | with_reducible first
        | assumption | apply State.cellEnd_keeps | apply State.sramUe_keeps
    | split | dsimp only

theorem State.jobOut_keeps {s0 : State} (s : State) (n : Nat) (j : Job) (bs : Bytes) (result : Nat)
    (h_s : Keeps s0 s) : Keeps s0 (State.jobOut s n j bs result) := by
  unfold State.jobOut
  repeat' first
    | with_reducible first
        | assumption | apply State.bufWrite_keeps | apply State.cellEnd_keeps | apply State.jobDone_keeps
    | simp only [↓keeps_upd_iff] | (refine keeps_snd (by with_reducible assumption) ?_) | split | dsimp only

theorem State.jobSecret_keeps {s0 : State} (s : State) (n : Nat) (j : Job) (head secret : Bytes)
    (h_s : Keeps s0 s) : Keeps s0 (State.jobSecret s n j head secret) := by
  unfold State.jobSecret
  repeat' first
    | with_reducible first
        | assumption | apply keeps_ite | apply State.jobDone_keeps | apply State.jobOut_keeps
        | apply State.pegInstall_keeps
    | split | dsimp only

theorem State.jobKeygen_keeps {s0 : State} (s : State) (n : Nat) (j : Job) (h_s : Keeps s0 s) :
    Keeps s0 (State.jobKeygen s n j) := by
  unfold State.jobKeygen
  repeat' first
    | with_reducible first
        | assumption | apply keeps_ite | apply State.freeB_keeps | apply State.jobDone_keeps
        | apply State.jobOut_keeps | apply State.lmsLow_keeps | apply State.lmsWarn_keeps
        | apply State.setPriv_keeps
    | simp only [↓keeps_upd_iff] | split | dsimp only

theorem State.jobResult_keeps {s0 : State} (s : State) (n : Nat) (j : Job) (o : OpSpec) (a b : Bytes)
    (h_s : Keeps s0 s) : Keeps s0 (State.jobResult s n j o a b) := by
  unfold State.jobResult
  repeat' first
    | with_reducible first
        | intro _ | assumption | apply keeps_ite | apply State.freeB_keeps | apply State.jobDone_keeps
        | apply State.jobKeygen_keeps | apply State.jobOut_keeps | apply State.jobSecret_keeps
    | split | dsimp only

theorem State.jobRun_keeps {s0 : State} (s : State) (op n used : Nat) (err : JobErr) (h_s : Keeps s0 s) :
    Keeps s0 (State.jobRun s op n used err) := by
  unfold State.jobRun
  repeat' first
    | with_reducible first
        | assumption | apply keeps_ite | apply State.bufRead_keeps | apply State.cellDraw_keeps
        | apply State.jobMemFail_keeps | apply State.jobResult_keeps
    | simp only [↓keeps_upd_iff] | (refine keeps_snd (by with_reducible assumption) ?_)
    | (refine keeps_some (by with_reducible assumption) ?_) | split | dsimp only

theorem execMlkemKeygen_keeps {s0 : State} (n used : Nat) (err : JobErr) (s : State) (h_s : Keeps s0 s) :
    OutKeeps s0 (execMlkemKeygen n used err s) := by
  unfold execMlkemKeygen
  repeat' first
    | with_reducible first
        | assumption | apply State.jobRun_keeps | apply outKeeps_next
    | dsimp only

theorem execMlkemEncaps_keeps {s0 : State} (n used : Nat) (err : JobErr) (s : State) (h_s : Keeps s0 s) :
    OutKeeps s0 (execMlkemEncaps n used err s) := by
  unfold execMlkemEncaps
  repeat' first
    | with_reducible first
        | assumption | apply State.jobRun_keeps | apply outKeeps_next
    | dsimp only

theorem execMlkemDecaps_keeps {s0 : State} (n used : Nat) (err : JobErr) (s : State) (h_s : Keeps s0 s) :
    OutKeeps s0 (execMlkemDecaps n used err s) := by
  unfold execMlkemDecaps
  repeat' first
    | with_reducible first
        | assumption | apply State.jobRun_keeps | apply outKeeps_next
    | dsimp only

theorem execMldsaKeygen_keeps {s0 : State} (n used : Nat) (err : JobErr) (s : State) (h_s : Keeps s0 s) :
    OutKeeps s0 (execMldsaKeygen n used err s) := by
  unfold execMldsaKeygen
  repeat' first
    | with_reducible first
        | assumption | apply State.jobRun_keeps | apply outKeeps_next
    | dsimp only

theorem execMldsaSign_keeps {s0 : State} (n used : Nat) (err : JobErr) (s : State) (h_s : Keeps s0 s) :
    OutKeeps s0 (execMldsaSign n used err s) := by
  unfold execMldsaSign
  repeat' first
    | with_reducible first
        | assumption | apply State.jobRun_keeps | apply outKeeps_next
    | dsimp only

theorem execMldsaVerify_keeps {s0 : State} (n used : Nat) (err : JobErr) (s : State) (h_s : Keeps s0 s) :
    OutKeeps s0 (execMldsaVerify n used err s) := by
  unfold execMldsaVerify
  repeat' first
    | with_reducible first
        | assumption | apply State.jobRun_keeps | apply outKeeps_next
    | dsimp only

theorem execSlhdsaKeygen_keeps {s0 : State} (n used : Nat) (err : JobErr) (s : State) (h_s : Keeps s0 s) :
    OutKeeps s0 (execSlhdsaKeygen n used err s) := by
  unfold execSlhdsaKeygen
  repeat' first
    | with_reducible first
        | assumption | apply State.jobRun_keeps | apply outKeeps_next
    | dsimp only

theorem execSlhdsaSign_keeps {s0 : State} (n used : Nat) (err : JobErr) (s : State) (h_s : Keeps s0 s) :
    OutKeeps s0 (execSlhdsaSign n used err s) := by
  unfold execSlhdsaSign
  repeat' first
    | with_reducible first
        | assumption | apply State.jobRun_keeps | apply outKeeps_next
    | dsimp only

theorem execSlhdsaVerify_keeps {s0 : State} (n used : Nat) (err : JobErr) (s : State) (h_s : Keeps s0 s) :
    OutKeeps s0 (execSlhdsaVerify n used err s) := by
  unfold execSlhdsaVerify
  repeat' first
    | with_reducible first
        | assumption | apply State.jobRun_keeps | apply outKeeps_next
    | dsimp only

theorem execLmsKeygen_keeps {s0 : State} (n used : Nat) (err : JobErr) (s : State) (h_s : Keeps s0 s) :
    OutKeeps s0 (execLmsKeygen n used err s) := by
  unfold execLmsKeygen
  repeat' first
    | with_reducible first
        | assumption | apply State.jobRun_keeps | apply outKeeps_next
    | dsimp only

theorem execLmsSign_keeps {s0 : State} (n used : Nat) (err : JobErr) (s : State) (h_s : Keeps s0 s) :
    OutKeeps s0 (execLmsSign n used err s) := by
  unfold execLmsSign
  repeat' first
    | with_reducible first
        | assumption | apply State.jobRun_keeps | apply outKeeps_next
    | dsimp only

theorem execLmsVerify_keeps {s0 : State} (n used : Nat) (err : JobErr) (s : State) (h_s : Keeps s0 s) :
    OutKeeps s0 (execLmsVerify n used err s) := by
  unfold execLmsVerify
  repeat' first
    | with_reducible first
        | assumption | apply State.jobRun_keeps | apply outKeeps_next
    | dsimp only

theorem execLmsInfo_keeps {s0 : State} (n used : Nat) (err : JobErr) (s : State) (h_s : Keeps s0 s) :
    OutKeeps s0 (execLmsInfo n used err s) := by
  unfold execLmsInfo
  repeat' first
    | with_reducible first
        | assumption | apply State.jobRun_keeps | apply outKeeps_next
    | dsimp only

theorem execMceEncaps_keeps {s0 : State} (n used : Nat) (err : JobErr) (s : State) (h_s : Keeps s0 s) :
    OutKeeps s0 (execMceEncaps n used err s) := by
  unfold execMceEncaps
  repeat' first
    | with_reducible first
        | assumption | apply State.jobRun_keeps | apply outKeeps_next
    | dsimp only

theorem execMceDecaps_keeps {s0 : State} (n used : Nat) (err : JobErr) (s : State) (h_s : Keeps s0 s) :
    OutKeeps s0 (execMceDecaps n used err s) := by
  unfold execMceDecaps
  repeat' first
    | with_reducible first
        | assumption | apply State.jobRun_keeps | apply outKeeps_next
    | dsimp only

theorem execHqcKeygen_keeps {s0 : State} (n used : Nat) (err : JobErr) (s : State) (h_s : Keeps s0 s) :
    OutKeeps s0 (execHqcKeygen n used err s) := by
  unfold execHqcKeygen
  repeat' first
    | with_reducible first
        | assumption | apply State.jobRun_keeps | apply outKeeps_next
    | dsimp only

theorem execHqcEncaps_keeps {s0 : State} (n used : Nat) (err : JobErr) (s : State) (h_s : Keeps s0 s) :
    OutKeeps s0 (execHqcEncaps n used err s) := by
  unfold execHqcEncaps
  repeat' first
    | with_reducible first
        | assumption | apply State.jobRun_keeps | apply outKeeps_next
    | dsimp only

theorem execHqcDecaps_keeps {s0 : State} (n used : Nat) (err : JobErr) (s : State) (h_s : Keeps s0 s) :
    OutKeeps s0 (execHqcDecaps n used err s) := by
  unfold execHqcDecaps
  repeat' first
    | with_reducible first
        | assumption | apply State.jobRun_keeps | apply outKeeps_next
    | dsimp only

theorem execEcKeygen_keeps {s0 : State} (n used : Nat) (err : JobErr) (s : State) (h_s : Keeps s0 s) :
    OutKeeps s0 (execEcKeygen n used err s) := by
  unfold execEcKeygen
  repeat' first
    | with_reducible first
        | assumption | apply State.jobRun_keeps | apply outKeeps_next
    | dsimp only

theorem execEcdsaSign_keeps {s0 : State} (n used : Nat) (err : JobErr) (s : State) (h_s : Keeps s0 s) :
    OutKeeps s0 (execEcdsaSign n used err s) := by
  unfold execEcdsaSign
  repeat' first
    | with_reducible first
        | assumption | apply State.jobRun_keeps | apply outKeeps_next
    | dsimp only

theorem execEcdh_keeps {s0 : State} (n used : Nat) (err : JobErr) (s : State) (h_s : Keeps s0 s) :
    OutKeeps s0 (execEcdh n used err s) := by
  unfold execEcdh
  repeat' first
    | with_reducible first
        | assumption | apply State.jobRun_keeps | apply outKeeps_next
    | dsimp only

theorem execX25519Keygen_keeps {s0 : State} (n used : Nat) (err : JobErr) (s : State) (h_s : Keeps s0 s) :
    OutKeeps s0 (execX25519Keygen n used err s) := by
  unfold execX25519Keygen
  repeat' first
    | with_reducible first
        | assumption | apply State.jobRun_keeps | apply outKeeps_next
    | dsimp only

theorem execX25519_keeps {s0 : State} (n used : Nat) (err : JobErr) (s : State) (h_s : Keeps s0 s) :
    OutKeeps s0 (execX25519 n used err s) := by
  unfold execX25519
  repeat' first
    | with_reducible first
        | assumption | apply State.jobRun_keeps | apply outKeeps_next
    | dsimp only

theorem execEd25519Keygen_keeps {s0 : State} (n used : Nat) (err : JobErr) (s : State) (h_s : Keeps s0 s) :
    OutKeeps s0 (execEd25519Keygen n used err s) := by
  unfold execEd25519Keygen
  repeat' first
    | with_reducible first
        | assumption | apply State.jobRun_keeps | apply outKeeps_next
    | dsimp only

theorem execEd25519Sign_keeps {s0 : State} (n used : Nat) (err : JobErr) (s : State) (h_s : Keeps s0 s) :
    OutKeeps s0 (execEd25519Sign n used err s) := by
  unfold execEd25519Sign
  repeat' first
    | with_reducible first
        | assumption | apply State.jobRun_keeps | apply outKeeps_next
    | dsimp only

theorem execEd25519Verify_keeps {s0 : State} (n used : Nat) (err : JobErr) (s : State) (h_s : Keeps s0 s) :
    OutKeeps s0 (execEd25519Verify n used err s) := by
  unfold execEd25519Verify
  repeat' first
    | with_reducible first
        | assumption | apply State.jobRun_keeps | apply outKeeps_next
    | dsimp only

theorem execPubexport_keeps {s0 : State} (n used : Nat) (err : JobErr) (s : State) (h_s : Keeps s0 s) :
    OutKeeps s0 (execPubexport n used err s) := by
  unfold execPubexport
  repeat' first
    | with_reducible first
        | assumption | apply State.jobRun_keeps | apply outKeeps_next
    | dsimp only

theorem execRandom_keeps {s0 : State} (n used : Nat) (err : JobErr) (s : State) (h_s : Keeps s0 s) :
    OutKeeps s0 (execRandom n used err s) := by
  unfold execRandom
  repeat' first
    | with_reducible first
        | assumption | apply State.jobRun_keeps | apply outKeeps_next
    | dsimp only

theorem execEntropyRefill_keeps {s0 : State} (n used stalled : Nat) (s : State) (h_s : Keeps s0 s) :
    OutKeeps s0 (execEntropyRefill n used stalled s) := by
  unfold execEntropyRefill
  repeat' first
    | with_reducible first
        | intro _ | assumption | apply keeps_ite | apply State.cellDraw_keeps | apply State.inc64_keeps
        | apply outKeeps_next | apply outKeeps_ite
    | simp only [↓keeps_upd_iff] | (refine keeps_snd (by with_reducible assumption) ?_)
    | (refine keeps_some (by with_reducible assumption) ?_)
    | (refine keeps_next (by with_reducible assumption) ?_) | split | dsimp only

theorem State.endStarved_keeps {s0 : State} (s : State) (r x0 : Nat) (h_s : Keeps s0 s) :
    Keeps s0 (State.endStarved s r x0) := by
  induction x0 generalizing s r with
  | zero =>
    unfold State.endStarved
    repeat' first
    | with_reducible first
        | intro _ | assumption | apply keeps_ite | apply State.inc_keeps | apply State.jobEnding_keeps
        | apply State.ringPop_keeps | apply State.setRing_keeps
    | simp only [↓keeps_upd_iff] | (refine keeps_snd (by with_reducible assumption) ?_)
    | (refine keeps_snd3 (by with_reducible assumption) ?_)
    | (refine keeps_some (by with_reducible assumption) ?_) | split | dsimp only
  | succ n ih =>
    unfold State.endStarved
    repeat' first
      | with_reducible first
          | intro _ | assumption | apply keeps_ite | apply State.inc_keeps | apply State.jobEnding_keeps
          | apply State.ringPop_keeps | apply State.setRing_keeps | apply ih
      | simp only [↓keeps_upd_iff] | (refine keeps_snd (by with_reducible assumption) ?_)
      | (refine keeps_snd3 (by with_reducible assumption) ?_)
      | (refine keeps_some (by with_reducible assumption) ?_) | split | dsimp only

theorem State.soundWaitEnd_keeps {s0 : State} (s : State) (h_s : Keeps s0 s) :
    Keeps s0 (State.soundWaitEnd s) := by
  unfold State.soundWaitEnd
  repeat' first
    | with_reducible first
        | intro _ | assumption | apply keeps_ite | apply State.endStarved_keeps | apply State.passTo_keeps
        | apply keeps_foldl
    | simp only [↓keeps_upd_iff] | split | dsimp only

theorem execEntropyWaitTimeout_keeps {s0 : State} (s : State) (h_s : Keeps s0 s) :
    OutKeeps s0 (execEntropyWaitTimeout s) := by
  unfold execEntropyWaitTimeout
  repeat' first
    | with_reducible first
        | assumption | apply keeps_ite | apply State.soundWaitEnd_keeps | apply outKeeps_next
        | apply outKeeps_ite
    | split | dsimp only

theorem execJobTimeout_keeps {s0 : State} (r count : Nat) (s : State) (h_s : Keeps s0 s) :
    OutKeeps s0 (execJobTimeout r count s) := by
  unfold execJobTimeout
  repeat' first
    | with_reducible first
        | intro _ | assumption | apply keeps_ite | apply State.cellEnd_keeps | apply State.endOver_keeps
        | apply State.jobEnding_keeps | apply State.passTo_keeps | apply State.ringPop_keeps
        | apply State.soundWaitEnd_keeps | apply outKeeps_next | apply outKeeps_ite
    | simp only [↓keeps_upd_iff] | (refine keeps_snd (by with_reducible assumption) ?_)
    | (refine keeps_snd3 (by with_reducible assumption) ?_)
    | (refine keeps_some (by with_reducible assumption) ?_)
    | (refine keeps_some2 (by with_reducible assumption) ?_)
    | (refine keeps_next (by with_reducible assumption) ?_)
    | (refine keeps_key (by with_reducible assumption) ?_) | split | dsimp only

theorem execCellClearDone_keeps {s0 : State} (n : Nat) (s : State) (h_s : Keeps s0 s) :
    OutKeeps s0 (execCellClearDone n s) := by
  unfold execCellClearDone
  repeat' first
    | with_reducible first
        | assumption | apply keeps_ite | apply State.keyRetry_keeps | apply State.put_keeps
        | apply State.sramClear_keeps | apply outKeeps_next | apply outKeeps_ite
    | split | dsimp only

theorem execCellKatRun_keeps {s0 : State} (n : Nat) (pass : Bool) (s : State) (h_s : Keeps s0 s) :
    OutKeeps s0 (execCellKatRun n pass s) := by
  unfold execCellKatRun
  repeat' first
    | with_reducible first
        | assumption | apply keeps_ite | apply State.evUnitFree_keeps | apply State.katRun_keeps
        | apply State.passTo_keeps | apply State.pass_keeps | apply State.putB_keeps | apply State.put_keeps
        | apply State.raise_keeps | apply State.setIrq_keeps | apply State.settle_keeps | apply outKeeps_next
        | apply outKeeps_ite
    | simp only [↓keeps_upd_iff] | split | dsimp only

theorem State.cellCtlWrite_keeps {s0 : State} (s : State) (n : Nat) (v : Word32) (h_s : Keeps s0 s) :
    Keeps s0 (State.cellCtlWrite s n v) := by
  unfold State.cellCtlWrite
  repeat' first
    | with_reducible first
        | assumption | apply keeps_ite | apply State.put_keeps | apply State.regStore_keeps
    | split | dsimp only

theorem execCellOfflineWrite_keeps {s0 : State} (n : Nat) (v : Word32) (s : State) (h_s : Keeps s0 s) :
    OutKeeps s0 (execCellOfflineWrite n v s) := by
  unfold execCellOfflineWrite
  repeat' first
    | with_reducible first
        | assumption | apply keeps_ite | apply State.cellCtlWrite_keeps | apply outKeeps_next
        | apply outKeeps_ite
    | split | dsimp only

theorem execCellStatusRead_keeps {s0 : State} (n : Nat) (s : State) (h_s : Keeps s0 s) :
    OutKeeps s0 (execCellStatusRead n s) := by
  unfold execCellStatusRead
  repeat' first
    | with_reducible first
        | assumption | apply keeps_ite | apply State.clrIrq_keeps | apply outKeeps_next | apply outKeeps_ite
    | split | dsimp only

theorem execSoundErrRead_keeps {s0 : State} (s : State) (h_s : Keeps s0 s) :
    OutKeeps s0 (execSoundErrRead s) := by
  unfold execSoundErrRead
  repeat' first
    | with_reducible first
        | assumption | apply State.clrIrq_keeps | apply outKeeps_next
    | dsimp only

theorem execSoundLmswarnSlotRead_keeps {s0 : State} (s : State) (h_s : Keeps s0 s) :
    OutKeeps s0 (execSoundLmswarnSlotRead s) := by
  unfold execSoundLmswarnSlotRead
  repeat' first
    | with_reducible first
        | assumption | apply State.clrIrq_keeps | apply outKeeps_next
    | dsimp only

end Sys2Proof.Machine
end

