-- ==== Sys2Proof/Laws/DigestKeeps.lean ====
section
/-! SUPPORT. What the definitions of Machine/Digest.lean keep, one lemma each. -/

namespace Sys2Proof.Machine

set_option linter.all false

theorem State.dKey_keeps {s0 : State} (s : State) (r : Nat) (w : List Nat) (state : Bytes) (h_s : Keeps s0 s) :
    Keeps s0 (State.dKey s r w state).2 := by
  unfold State.dKey
  repeat' first
    | with_reducible first
        | assumption | apply keeps_ite | apply State.free_keeps | apply State.pegUse_keeps
        | apply State.spentReport_keeps | apply keeps_pair_ite
    | simp only [↓keeps_upd_iff] | (refine keeps_snd (by with_reducible assumption) ?_)
    | (refine keeps_snd3 (by with_reducible assumption) ?_) | split | dsimp only

theorem State.digDone_keeps {s0 : State} (s : State) (k count : Nat) (w : List Nat) (st det outLen : Nat)
    (h_s : Keeps s0 s) : Keeps s0 (State.digDone s k count w st det outLen) := by
  unfold State.digDone
  repeat' first
    | with_reducible first
        | assumption | apply State.inc64_keeps | apply State.jobEnding_keeps | apply State.putInflight_keeps
        | apply State.put_keeps
    | dsimp only

theorem State.digOut_keeps {s0 : State} (s : State) (k count : Nat) (w : List Nat) (bs : Bytes)
    (h_s : Keeps s0 s) : Keeps s0 (State.digOut s k count w bs) := by
  unfold State.digOut
  repeat' first
    | with_reducible first
        | assumption | apply State.bufWrite_keeps | apply State.digDone_keeps
    | simp only [↓keeps_upd_iff] | (refine keeps_snd (by with_reducible assumption) ?_) | split | dsimp only

theorem State.digResult_keeps {s0 : State} (s : State) (k count : Nat) (w : List Nat) (a b : Bytes)
    (h_s : Keeps s0 s) : Keeps s0 (State.digResult s k count w a b) := by
  unfold State.digResult
  repeat' first
    | with_reducible first
        | assumption | apply keeps_ite | apply State.bufRead_keeps | apply State.digDone_keeps
        | apply State.digOut_keeps | apply State.inc64_keeps
    | simp only [↓keeps_upd_iff] | (refine keeps_snd (by with_reducible assumption) ?_)
    | (refine keeps_snd3 (by with_reducible assumption) ?_)
    | (refine keeps_some (by with_reducible assumption) ?_) | split | dsimp only

theorem State.digRun_keeps {s0 : State} (s : State) (k count : Nat) (w : List Nat) (err : Bool)
    (h_s : Keeps s0 s) : OptKeeps s0 (State.digRun s k count w err) := by
  unfold State.digRun
  repeat' first
    | with_reducible first
        | assumption | apply keeps_ite | apply State.bufRead_keeps | apply State.dKey_keeps
        | apply State.digDone_keeps | apply State.digResult_keeps | apply optKeeps_none | apply optKeeps_some
        | apply optKeeps_ite
    | simp only [↓keeps_upd_iff] | (refine keeps_snd (by with_reducible assumption) ?_)
    | (refine keeps_some (by with_reducible assumption) ?_)
    | (refine keeps_some2 (by with_reducible assumption) ?_) | split | dsimp only

theorem State.digTake_keeps {s0 : State} (s : State) (k : Nat) (ops : Nat → Bool) (err : Bool) (h_s : Keeps s0 s) :
    Keeps s0 (State.digTake s k ops err) := by
  unfold State.digTake
  dsimp only
  split
  · split
    · exact h_s
    · split
      · exact h_s
      · split
        · exact State.ringStop_keeps _ _ _ (keeps_snd (by assumption) (State.fetchSlot_keeps _ _ _ _ h_s))
        · rename_i w s1 heq
          have h1 : Keeps s0 (s1.ringPop (1024 + k)) :=
            State.ringPop_keeps _ _ (keeps_snd heq (State.fetchSlot_keeps _ _ _ _ h_s))
          split
          · have h2 := State.digRun_keeps (s1.ringPop (1024 + k)) k ‹Nat› w err h1
            cases h3 : State.digRun (s1.ringPop (1024 + k)) k ‹Nat› w err with
            | none => exact h_s
            | some t => exact State.settle_keeps _ (h2.run t h3)
          · exact State.digDone_keeps _ _ _ _ _ _ _ h1
  · exact h_s

theorem execDigest_keeps {s0 : State} (k : Nat) (err : Bool) (s : State) (h_s : Keeps s0 s) :
    OutKeeps s0 (execDigest k err s) := by
  unfold execDigest
  repeat' first
    | with_reducible first
        | intro _ | assumption | apply State.digTake_keeps | apply outKeeps_next
    | dsimp only

theorem execHmac_keeps {s0 : State} (k : Nat) (err : Bool) (s : State) (h_s : Keeps s0 s) :
    OutKeeps s0 (execHmac k err s) := by
  unfold execHmac
  repeat' first
    | with_reducible first
        | intro _ | assumption | apply State.digTake_keeps | apply outKeeps_next
    | dsimp only

theorem execKmac_keeps {s0 : State} (k : Nat) (err : Bool) (s : State) (h_s : Keeps s0 s) :
    OutKeeps s0 (execKmac k err s) := by
  unfold execKmac
  repeat' first
    | with_reducible first
        | intro _ | assumption | apply State.digTake_keeps | apply outKeeps_next
    | dsimp only

theorem execMemcmp_keeps {s0 : State} (k : Nat) (err : Bool) (s : State) (h_s : Keeps s0 s) :
    OutKeeps s0 (execMemcmp k err s) := by
  unfold execMemcmp
  repeat' first
    | with_reducible first
        | intro _ | assumption | apply State.digTake_keeps | apply outKeeps_next
    | dsimp only

theorem execDigestOpUnassigned_keeps {s0 : State} (k : Nat) (s : State) (h_s : Keeps s0 s) :
    OutKeeps s0 (execDigestOpUnassigned k s) := by
  unfold execDigestOpUnassigned
  repeat' first
    | with_reducible first
        | intro _ | assumption | apply State.digTake_keeps | apply outKeeps_next
    | dsimp only

theorem execDigKatRun_keeps {s0 : State} (k : Nat) (pass : Bool) (s : State) (h_s : Keeps s0 s) :
    OutKeeps s0 (execDigKatRun k pass s) := by
  unfold execDigKatRun
  repeat' first
    | with_reducible first
        | assumption | apply keeps_ite | apply State.katRun_keeps | apply State.passTo_keeps
        | apply State.pass_keeps | apply State.put_keeps | apply State.raise_keeps | apply State.setIrq_keeps
        | apply outKeeps_next | apply outKeeps_ite
    | split | dsimp only

theorem execDigErrRead_keeps {s0 : State} (s : State) (h_s : Keeps s0 s) :
    OutKeeps s0 (execDigErrRead s) := by
  unfold execDigErrRead
  repeat' first
    | with_reducible first
        | assumption | apply State.clrIrq_keeps | apply outKeeps_next
    | dsimp only

end Sys2Proof.Machine
end

