-- ==== Sys2Proof/Laws/VerifyKeeps.lean ====
section
/-! SUPPORT. What the definitions of Machine/Verify.lean keep, one lemma each. -/

namespace Sys2Proof.Machine

set_option linter.all false

theorem State.setVe_keeps {s0 : State} (s : State) (e : Nat) (c : VeCmd) (h_s : Keeps s0 s) :
    Keeps s0 (State.setVe s e c) := by
  unfold State.setVe
  repeat' first
    | with_reducible first
        | assumption
    | simp only [↓keeps_upd_iff] | dsimp only

theorem State.curveClear_keeps {s0 : State} (s : State) (k : Nat) (h_s : Keeps s0 s) :
    Keeps s0 (State.curveClear s k) := by
  unfold State.curveClear
  repeat' first
    | with_reducible first
        | assumption | apply State.put_keeps
    | simp only [↓keeps_upd_iff] | dsimp only

theorem State.veStart_keeps {s0 : State} (s : State) (e : Nat) (v : Word32) (h_s : Keeps s0 s) :
    Keeps s0 (State.veStart s e v) := by
  unfold State.veStart
  repeat' first
    | with_reducible first
        | assumption | apply keeps_ite | apply State.bufRead_keeps | apply State.curveClear_keeps
        | apply State.inc_keeps | apply State.put_keeps | apply State.setVe_keeps
    | simp only [↓keeps_upd_iff] | (refine keeps_snd (by with_reducible assumption) ?_)
    | (refine keeps_snd3 (by with_reducible assumption) ?_)
    | (refine keeps_some (by with_reducible assumption) ?_)
    | (refine keeps_some2 (by with_reducible assumption) ?_) | split | dsimp only

theorem State.veWrite_keeps {s0 : State} (s : State) (e mid : Nat) (v : Word32) (h_s : Keeps s0 s) :
    Keeps s0 (State.veWrite s e mid v) := by
  unfold State.veWrite
  repeat' first
    | with_reducible first
        | assumption | apply keeps_ite | apply State.inc_keeps | apply State.put_keeps
        | apply State.raise_keeps | apply State.veStart_keeps
    | split | dsimp only

theorem State.veRow_keeps {s0 : State} (s : State) (e mid : Nat) (v : Word32) (ok : Bool) (h_s : Keeps s0 s) :
    OutKeeps s0 (State.veRow s e mid v ok) := by
  unfold State.veRow
  repeat' first
    | with_reducible first
        | assumption | apply keeps_ite | apply State.veWrite_keeps | apply outKeeps_next | apply outKeeps_ite
    | split | dsimp only

theorem execEcdsaVerify_keeps {s0 : State} (e mid : Nat) (v : Word32) (s : State) (h_s : Keeps s0 s) :
    OutKeeps s0 (execEcdsaVerify e mid v s) := by
  unfold execEcdsaVerify
  repeat' first
    | with_reducible first
        | assumption | apply State.veRow_keeps | apply outKeeps_next
    | dsimp only

theorem execPointValidate_keeps {s0 : State} (e mid : Nat) (v : Word32) (s : State) (h_s : Keeps s0 s) :
    OutKeeps s0 (execPointValidate e mid v s) := by
  unfold execPointValidate
  repeat' first
    | with_reducible first
        | assumption | apply State.veRow_keeps | apply outKeeps_next
    | dsimp only

theorem execRsaPkcs1_keeps {s0 : State} (e mid : Nat) (v : Word32) (s : State) (h_s : Keeps s0 s) :
    OutKeeps s0 (execRsaPkcs1 e mid v s) := by
  unfold execRsaPkcs1
  repeat' first
    | with_reducible first
        | assumption | apply State.veRow_keeps | apply outKeeps_next
    | dsimp only

theorem execRsaPss_keeps {s0 : State} (e mid : Nat) (v : Word32) (s : State) (h_s : Keeps s0 s) :
    OutKeeps s0 (execRsaPss e mid v s) := by
  unfold execRsaPss
  repeat' first
    | with_reducible first
        | assumption | apply State.veRow_keeps | apply outKeeps_next
    | dsimp only

theorem execRsaPublic_keeps {s0 : State} (e mid : Nat) (v : Word32) (s : State) (h_s : Keeps s0 s) :
    OutKeeps s0 (execRsaPublic e mid v s) := by
  unfold execRsaPublic
  repeat' first
    | with_reducible first
        | assumption | apply State.veRow_keeps | apply outKeeps_next
    | dsimp only

theorem execLoadCurve_keeps {s0 : State} (e mid : Nat) (v : Word32) (s : State) (h_s : Keeps s0 s) :
    OutKeeps s0 (execLoadCurve e mid v s) := by
  unfold execLoadCurve
  repeat' first
    | with_reducible first
        | assumption | apply State.veRow_keeps | apply outKeeps_next
    | dsimp only

theorem execClearCurve_keeps {s0 : State} (e mid : Nat) (v : Word32) (s : State) (h_s : Keeps s0 s) :
    OutKeeps s0 (execClearCurve e mid v s) := by
  unfold execClearCurve
  repeat' first
    | with_reducible first
        | assumption | apply State.veRow_keeps | apply outKeeps_next
    | dsimp only

theorem execVeOpUnassigned_keeps {s0 : State} (e mid : Nat) (v : Word32) (s : State) (h_s : Keeps s0 s) :
    OutKeeps s0 (execVeOpUnassigned e mid v s) := by
  unfold execVeOpUnassigned
  repeat' first
    | with_reducible first
        | assumption | apply State.veRow_keeps | apply outKeeps_next
    | dsimp only

theorem State.veBases_keeps {s0 : State} (s : State) (e : Nat) (bases : Bytes) (h_s : Keeps s0 s) :
    Keeps s0 (State.veBases s e bases) := by
  unfold State.veBases
  repeat' first
    | with_reducible first
        | assumption | apply State.setVe_keeps
    | simp only [↓keeps_upd_iff] | (refine keeps_snd (by with_reducible assumption) ?_)
    | (refine keeps_snd3 (by with_reducible assumption) ?_)
    | (refine keeps_some (by with_reducible assumption) ?_) | split | dsimp only

theorem State.veCurveEnd_keeps {s0 : State} (s : State) (c : VeCmd) (st det : Nat) (h_s : Keeps s0 s) :
    Keeps s0 (State.veCurveEnd s c st det) := by
  unfold State.veCurveEnd
  repeat' first
    | with_reducible first
        | assumption | apply keeps_ite | apply State.free_keeps | apply State.put_keeps
    | simp only [↓keeps_upd_iff] | split | dsimp only

theorem execVeCommandEnd_keeps {s0 : State} (e : Nat) (s : State) (h_s : Keeps s0 s) :
    OutKeeps s0 (execVeCommandEnd e s) := by
  unfold execVeCommandEnd
  repeat' first
    | with_reducible first
        | assumption | apply keeps_ite | apply State.bufWrite_keeps | apply State.inc64_keeps
        | apply State.msiSend_keeps | apply State.put_keeps | apply State.setIrq_keeps
        | apply State.veCurveEnd_keeps | apply outKeeps_next | apply outKeeps_ite
    | simp only [↓keeps_upd_iff] | (refine keeps_snd (by with_reducible assumption) ?_)
    | (refine keeps_snd3 (by with_reducible assumption) ?_)
    | (refine keeps_some (by with_reducible assumption) ?_)
    | (refine keeps_some2 (by with_reducible assumption) ?_)
    | (refine keeps_next (by with_reducible assumption) ?_) | split | dsimp only

theorem State.veStop_keeps {s0 : State} (s : State) (e st : Nat) (h_s : Keeps s0 s) :
    Keeps s0 (State.veStop s e st) := by
  unfold State.veStop
  repeat' first
    | with_reducible first
        | assumption | apply keeps_ite | apply State.setVe_keeps
    | simp only [↓keeps_upd_iff] | (refine keeps_snd (by with_reducible assumption) ?_)
    | (refine keeps_snd3 (by with_reducible assumption) ?_)
    | (refine keeps_some (by with_reducible assumption) ?_)
    | (refine keeps_some2 (by with_reducible assumption) ?_) | split | dsimp only

theorem execVeTimeout_keeps {s0 : State} (e : Nat) (s : State) (h_s : Keeps s0 s) :
    OutKeeps s0 (execVeTimeout e s) := by
  unfold execVeTimeout
  repeat' first
    | with_reducible first
        | assumption | apply keeps_ite | apply State.passTo_keeps | apply State.veStop_keeps
        | apply outKeeps_next | apply outKeeps_ite
    | simp only [↓keeps_upd_iff] | (refine keeps_snd (by with_reducible assumption) ?_)
    | (refine keeps_some (by with_reducible assumption) ?_)
    | (refine keeps_next (by with_reducible assumption) ?_) | split | dsimp only

theorem State.veAbortWrite_keeps {s0 : State} (s : State) (e mid : Nat) (v : Word32) (h_s : Keeps s0 s) :
    Keeps s0 (State.veAbortWrite s e mid v) := by
  unfold State.veAbortWrite
  repeat' first
    | with_reducible first
        | assumption | apply keeps_ite | apply State.inc_keeps | apply State.veStop_keeps
    | split | dsimp only

theorem execVeAbort_keeps {s0 : State} (e mid : Nat) (s : State) (h_s : Keeps s0 s) :
    OutKeeps s0 (execVeAbort e mid s) := by
  unfold execVeAbort
  repeat' first
    | with_reducible first
        | assumption | apply keeps_ite | apply State.veAbortWrite_keeps | apply outKeeps_next
        | apply outKeeps_ite
    | split | dsimp only

theorem State.veOwnerWrite_keeps {s0 : State} (s : State) (mid e off : Nat) (v : Word32) (h_s : Keeps s0 s) :
    Keeps s0 (State.veOwnerWrite s mid e off v) := by
  unfold State.veOwnerWrite
  repeat' first
    | with_reducible first
        | assumption | apply keeps_ite | apply State.put_keeps | apply State.raise_keeps
        | apply State.regStore_keeps
    | split | dsimp only

theorem execVeOwnerWrite_keeps {s0 : State} (mid e off : Nat) (v : Word32) (s : State) (h_s : Keeps s0 s) :
    OutKeeps s0 (execVeOwnerWrite mid e off v s) := by
  unfold execVeOwnerWrite
  repeat' first
    | with_reducible first
        | assumption | apply keeps_ite | apply State.veOwnerWrite_keeps | apply outKeeps_next
        | apply outKeeps_ite
    | split | dsimp only

theorem State.veRegWrite_keeps {s0 : State} (s : State) (mid e off : Nat) (v : Word32) (h_s : Keeps s0 s) :
    Keeps s0 (State.veRegWrite s mid e off v) := by
  unfold State.veRegWrite
  repeat' first
    | with_reducible first
        | assumption | apply keeps_ite | apply State.inc_keeps | apply State.regStore_keeps
        | apply State.vecStore_keeps
    | split | dsimp only

theorem execVeKatRun_keeps {s0 : State} (e : Nat) (pass : Bool) (s : State) (h_s : Keeps s0 s) :
    OutKeeps s0 (execVeKatRun e pass s) := by
  unfold execVeKatRun
  repeat' first
    | with_reducible first
        | assumption | apply keeps_ite | apply State.katRun_keeps | apply State.passTo_keeps
        | apply State.pass_keeps | apply State.put_keeps | apply State.raise_keeps | apply State.setIrq_keeps
        | apply outKeeps_next | apply outKeeps_ite
    | split | dsimp only

end Sys2Proof.Machine
end

