-- ==== Sys2Proof/Laws/RosinKeeps.lean ====
section
/-! SUPPORT. What the definitions of Machine/Rosin.lean keep, one lemma each. -/

namespace Sys2Proof.Machine

set_option linter.all false

theorem State.rosinReady_keeps {s0 : State} (s : State) (h_s : Keeps s0 s) :
    Keeps s0 (State.rosinReady s) := by
  unfold State.rosinReady
  repeat' first
    | with_reducible first
        | intro _ | assumption | apply keeps_ite | apply State.rosinPut_keeps | apply State.rosinStop_keeps
    | simp only [↓keeps_upd_iff] | split | dsimp only

theorem State.burstStop_keeps {s0 : State} (s : State) (h_s : Keeps s0 s) : Keeps s0 (State.burstStop s) := by
  unfold State.burstStop
  repeat' first
    | with_reducible first
        | intro _ | assumption | apply State.rosinStop_keeps
    | simp only [↓keeps_upd_iff] | dsimp only

theorem State.bankFail_keeps {s0 : State} (s : State) (b why : Nat) (h_s : Keeps s0 s) :
    Keeps s0 (State.bankFail s b why) := by
  unfold State.bankFail
  repeat' first
    | with_reducible first
        | intro _ | assumption | apply keeps_ite | apply State.bankRetire_keeps | apply State.burstStop_keeps
        | apply State.inc_keeps | apply State.minBanks_keeps | apply State.put_keeps
    | simp only [↓keeps_upd_iff] | split | dsimp only

theorem State.condFeed_keeps {s0 : State} (s : State) (b : Nat) (ws : List Bytes) (h_s : Keeps s0 s) :
    Keeps s0 (State.condFeed s b ws) := by
  unfold State.condFeed
  repeat' first
    | with_reducible first
        | assumption
    | simp only [↓keeps_upd_iff] | dsimp only

theorem State.limitsHold_keeps {s0 : State} (s : State) (h_s : Keeps s0 s) :
    Keeps s0 (State.limitsHold s) := by
  unfold State.limitsHold
  repeat' first
    | with_reducible first
        | intro _ | assumption | apply keeps_foldl
    | simp only [↓keeps_upd_iff] | dsimp only

theorem State.limitsNext_keeps {s0 : State} (s : State) (kind b : Nat) (h_s : Keeps s0 s) :
    Keeps s0 (State.limitsNext s kind b) := by
  unfold State.limitsNext
  repeat' first
    | with_reducible first
        | assumption
    | simp only [↓keeps_upd_iff] | dsimp only

theorem State.runOn_keeps {s0 : State} (s : State) (b cut : Nat) (bits : List Bool) (h_s : Keeps s0 s) :
    Keeps s0 (State.runOn s b cut bits).2 := by
  unfold State.runOn
  repeat' first
    | with_reducible first
        | assumption
    | simp only [↓keeps_upd_iff] | dsimp only

theorem execStartupWindowEnd_keeps {s0 : State} (b : Nat) (bits : List Bool) (s : State) (h_s : Keeps s0 s) :
    OutKeeps s0 (execStartupWindowEnd b bits s) := by
  unfold execStartupWindowEnd
  repeat' first
    | with_reducible first
        | assumption | apply keeps_ite | apply State.bankRetire_keeps | apply State.condFeed_keeps
        | apply State.limitsNext_keeps | apply State.minBanks_keeps | apply State.put_keeps
        | apply State.rosinReady_keeps | apply State.runOn_keeps | apply State.settle_keeps
        | apply outKeeps_next | apply outKeeps_ite
    | simp only [↓keeps_upd_iff] | split | dsimp only

theorem execAptWindowEnd_keeps {s0 : State} (b : Nat) (bits : List Bool) (s : State) (h_s : Keeps s0 s) :
    OutKeeps s0 (execAptWindowEnd b bits s) := by
  unfold execAptWindowEnd
  repeat' first
    | with_reducible first
        | assumption | apply keeps_ite | apply State.bankFail_keeps | apply State.condFeed_keeps
        | apply State.limitsNext_keeps | apply State.runOn_keeps | apply State.settle_keeps
        | apply outKeeps_next | apply outKeeps_ite
    | split | dsimp only

theorem State.putCorr_keeps {s0 : State} (s : State) (b : Nat) (bits : List Bool) (h_s : Keeps s0 s) :
    Keeps s0 (State.putCorr s b bits) := by
  unfold State.putCorr
  repeat' first
    | with_reducible first
        | intro _ | assumption | apply State.wr_keeps | apply keeps_foldl
    | dsimp only

theorem execHealthWindowEnd_keeps {s0 : State} (b : Nat) (bits : List Bool) (s : State) (h_s : Keeps s0 s) :
    OutKeeps s0 (execHealthWindowEnd b bits s) := by
  unfold execHealthWindowEnd
  repeat' first
    | with_reducible first
        | intro _ | assumption | apply keeps_ite | apply State.bankFail_keeps | apply State.incWrap_keeps
        | apply State.limitsNext_keeps | apply State.putCorr_keeps | apply State.put_keeps
        | apply State.settle_keeps | apply State.wr_keeps | apply outKeeps_next | apply outKeeps_ite
    | split | dsimp only

theorem execTrimLimit_keeps {s0 : State} (b : Nat) (s : State) (h_s : Keeps s0 s) :
    OutKeeps s0 (execTrimLimit b s) := by
  unfold execTrimLimit
  repeat' first
    | with_reducible first
        | assumption | apply keeps_ite | apply State.bankFail_keeps | apply State.put_keeps
        | apply State.settle_keeps | apply outKeeps_next | apply outKeeps_ite
    | split | dsimp only

theorem execConditionerBlock_keeps {s0 : State} (c : Nat) (s : State) (h_s : Keeps s0 s) :
    OutKeeps s0 (execConditionerBlock c s) := by
  unfold execConditionerBlock
  repeat' first
    | with_reducible first
        | assumption | apply keeps_ite | apply State.putReserve_keeps | apply State.rosinReady_keeps
        | apply State.settle_keeps | apply outKeeps_next | apply outKeeps_ite
    | simp only [↓keeps_upd_iff] | (refine keeps_snd (by with_reducible assumption) ?_)
    | (refine keeps_next (by with_reducible assumption) ?_) | split | dsimp only

theorem State.pullValid_keeps {s0 : State} (s : State) (v : Bool) (h_s : Keeps s0 s) :
    Keeps s0 (State.pullValid s v) := by
  unfold State.pullValid
  repeat' first
    | with_reducible first
        | assumption | apply State.irq_keeps | apply State.putB_keeps
    | dsimp only

theorem State.pullEnd_keeps {s0 : State} (s : State) (h_s : Keeps s0 s) : Keeps s0 (State.pullEnd s) := by
  unfold State.pullEnd
  repeat' first
    | with_reducible first
        | assumption | apply State.inc_keeps | apply State.put_keeps
    | dsimp only

theorem State.lifeEnd_keeps {s0 : State} (s : State) (st : Nat) (h_s : Keeps s0 s) :
    Keeps s0 (State.lifeEnd s st) := by
  unfold State.lifeEnd
  repeat' first
    | with_reducible first
        | assumption | apply State.put_keeps | apply State.setIrq_keeps
    | simp only [↓keeps_upd_iff] | dsimp only

theorem State.lifeDraw_keeps {s0 : State} (s : State) (h_s : Keeps s0 s) : Keeps s0 (State.lifeDraw s) := by
  unfold State.lifeDraw
  repeat' first
    | with_reducible first
        | assumption | apply State.lifeEnd_keeps | apply State.putWords_keeps | apply State.rosinTake_keeps
    | simp only [↓keeps_upd_iff] | dsimp only

theorem execRosinWaitTimeout_keeps {s0 : State} (s : State) (h_s : Keeps s0 s) :
    OutKeeps s0 (execRosinWaitTimeout s) := by
  unfold execRosinWaitTimeout
  repeat' first
    | with_reducible first
        | intro _ | assumption | apply keeps_ite | apply State.cerFail_keeps | apply State.inc_keeps
        | apply State.keyEnd_keeps | apply State.lifeEnd_keeps | apply State.passTo_keeps
        | apply State.pullEnd_keeps | apply State.setVe_keeps | apply keeps_foldl | apply outKeeps_next
        | apply outKeeps_ite
    | simp only [↓keeps_upd_iff] | (refine keeps_snd (by with_reducible assumption) ?_)
    | (refine keeps_snd3 (by with_reducible assumption) ?_)
    | (refine keeps_some (by with_reducible assumption) ?_)
    | (refine keeps_some2 (by with_reducible assumption) ?_)
    | (refine keeps_next (by with_reducible assumption) ?_) | split | dsimp only

theorem State.cerDraw_keeps {s0 : State} (s : State) (h_s : Keeps s0 s) : Keeps s0 (State.cerDraw s) := by
  unfold State.cerDraw
  repeat' first
    | with_reducible first
        | assumption | apply keeps_ite | apply State.putWords_keeps | apply State.rosinTake_keeps
    | simp only [↓keeps_upd_iff] | (refine keeps_snd (by with_reducible assumption) ?_)
    | (refine keeps_some (by with_reducible assumption) ?_) | split | dsimp only

theorem State.portGrant_keeps {s0 : State} (s : State) (p : Nat) (h_s : Keeps s0 s) :
    Keeps s0 (State.portGrant s p) := by
  unfold State.portGrant
  repeat' first
    | with_reducible first
        | assumption | apply keeps_ite | apply State.cerDraw_keeps | apply State.keyRetry_keeps
        | apply State.lifeDraw_keeps | apply State.pullValid_keeps | apply State.putWords_keeps
        | apply State.put_keeps | apply State.rosinTake_keeps | apply State.veBases_keeps
    | simp only [↓keeps_upd_iff] | (refine keeps_snd (by with_reducible assumption) ?_)
    | (refine keeps_some (by with_reducible assumption) ?_)
    | (refine keeps_some2 (by with_reducible assumption) ?_) | split | dsimp only

theorem State.entropyGrant_keeps {s0 : State} (s : State) (p : Nat) (h_s : Keeps s0 s) :
    Keeps s0 (State.entropyGrant s p) := by
  unfold State.entropyGrant
  repeat' first
    | with_reducible first
        | assumption | apply keeps_ite | apply State.keyloadDraw_keeps | apply State.portGrant_keeps
    | split | dsimp only

theorem State.pullGo_keeps {s0 : State} (s : State) (mid : Nat) (h_s : Keeps s0 s) :
    Keeps s0 (State.pullGo s mid) := by
  unfold State.pullGo
  repeat' first
    | with_reducible first
        | assumption | apply keeps_ite | apply State.pullEnd_keeps | apply State.pullValid_keeps
        | apply State.put_keeps
    | split | dsimp only

theorem execRosinPullGo_keeps {s0 : State} (mid : Nat) (s : State) (h_s : Keeps s0 s) :
    OutKeeps s0 (execRosinPullGo mid s) := by
  unfold execRosinPullGo
  repeat' first
    | with_reducible first
        | assumption | apply State.pullGo_keeps | apply outKeeps_next
    | dsimp only

theorem State.pullRead_keeps {s0 : State} (s : State) (mid k : Nat) (h_s : Keeps s0 s) :
    Keeps s0 (State.pullRead s mid k).2 := by
  unfold State.pullRead
  repeat' first
    | with_reducible first
        | assumption | apply keeps_ite | apply State.pullValid_keeps | apply State.wr_keeps
        | apply keeps_pair_ite
    | simp only [↓keeps_upd_iff] | split | dsimp only

theorem execRosinPullRead_keeps {s0 : State} (mid k : Nat) (s : State) (h_s : Keeps s0 s) :
    OutKeeps s0 (execRosinPullRead mid k s) := by
  unfold execRosinPullRead
  repeat' first
    | with_reducible first
        | assumption | apply keeps_ite | apply State.pullRead_keeps | apply outKeeps_next
        | apply outKeeps_ite
    | split | dsimp only

theorem execRosinStateRead_keeps {s0 : State} (s : State) (h_s : Keeps s0 s) :
    OutKeeps s0 (execRosinStateRead s) := by
  unfold execRosinStateRead
  repeat' first
    | with_reducible first
        | assumption | apply State.clrIrq_keeps | apply outKeeps_next
    | simp only [↓keeps_upd_iff] | dsimp only

theorem execRosinRetiredLoRead_keeps {s0 : State} (s : State) (h_s : Keeps s0 s) :
    OutKeeps s0 (execRosinRetiredLoRead s) := by
  unfold execRosinRetiredLoRead
  repeat' first
    | with_reducible first
        | assumption | apply State.clrIrq_keeps | apply outKeeps_next
    | dsimp only

end Sys2Proof.Machine
end

