-- ==== Sys2Proof/Laws/QueueBaseKeeps.lean ====
section
/-! SUPPORT. What the definitions of Machine/QueueBase.lean keep, one lemma each. -/

namespace Sys2Proof.Machine

set_option linter.all false

theorem State.enqueue_keeps {s0 : State} (s : State) (q : Nat) (i : Item) (h_s : Keeps s0 s) :
    Keeps s0 (State.enqueue s q i) := by
  unfold State.enqueue
  repeat' first
    | with_reducible first
        | assumption | apply keeps_ite | apply State.inc_keeps | apply State.setQueue_keeps
    | simp only [↓keeps_upd_iff] | split | dsimp only

theorem State.statusItem_keeps {s0 : State} (s : State) (q status assoc epoch : Nat) (h_s : Keeps s0 s) :
    Keeps s0 (State.statusItem s q status assoc epoch) := by
  unfold State.statusItem
  repeat' first
    | with_reducible first
        | assumption | apply State.enqueue_keeps
    | dsimp only

theorem State.vectorDue_keeps {s0 : State} (s : State) (q : Nat) (h_s : Keeps s0 s) :
    Keeps s0 (State.vectorDue s q) := by
  unfold State.vectorDue
  repeat' first
    | with_reducible first
        | intro _ | assumption | apply keeps_ite
    | simp only [↓keeps_upd_iff] | (refine keeps_snd (by with_reducible assumption) ?_)
    | (refine keeps_some (by with_reducible assumption) ?_)
    | (refine keeps_key (by with_reducible assumption) ?_) | split | dsimp only

theorem State.complete_keeps {s0 : State} (s : State) (q word0 tsSec tsNs tick : Nat) (assoc : Option Nat)
    (src status epoch len : Nat) (h_s : Keeps s0 s) :
    Keeps s0 (State.complete s q word0 tsSec tsNs tick assoc src status epoch len) := by
  unfold State.complete
  repeat' first
    | with_reducible first
        | assumption | apply State.hostWrite_keeps | apply State.putUnread_keeps | apply State.put_keeps
        | apply State.vectorDue_keeps
    | dsimp only

theorem State.queueStop_keeps {s0 : State} (s : State) (q err : Nat) (h_s : Keeps s0 s) :
    Keeps s0 (State.queueStop s q err) := by
  unfold State.queueStop
  repeat' first
    | with_reducible first
        | assumption | apply State.queueStopBase_keeps | apply State.settle_keeps
    | dsimp only

theorem State.turnCount_keeps {s0 : State} (s : State) (q : Nat) (h_s : Keeps s0 s) :
    Keeps s0 (State.turnCount s q) := by
  unfold State.turnCount
  repeat' first
    | with_reducible first
        | assumption | apply State.put64_keeps
    | simp only [↓keeps_upd_iff] | (refine keeps_snd (by with_reducible assumption) ?_)
    | (refine keeps_some (by with_reducible assumption) ?_) | split | dsimp only

theorem State.takeTurn_keeps {s0 : State} (s : State) (submit : Bool) (h_s : Keeps s0 s) :
    OptKeeps2 s0 (State.takeTurn s submit) := by
  unfold State.takeTurn
  repeat' first
    | with_reducible first
        | assumption | apply keeps_ite | apply State.turnCount_keeps | apply optKeeps2_map
        | apply optKeeps2_none | apply optKeeps2_some | apply optKeeps2_ite
    | simp only [↓keeps_upd_iff] | (refine keeps_snd (by with_reducible assumption) ?_)
    | (refine keeps_some (by with_reducible assumption) ?_)
    | (refine keeps_some2 (by with_reducible assumption) ?_) | split | dsimp only

end Sys2Proof.Machine
end

