-- ==== Sys2Proof/Laws/AssocKeeps.lean ====
section
/-! SUPPORT. What the definitions of Machine/Assoc.lean keep, one lemma each. -/

namespace Sys2Proof.Machine

set_option linter.all false

theorem State.setEntry_keeps {s0 : State} (s : State) (i : Nat) (e : TableEntry) (h_s : Keeps s0 s) :
    Keeps s0 (State.setEntry s i e) := by
  unfold State.setEntry
  repeat' first
    | with_reducible first
        | assumption | apply State.memStore_keeps | apply State.poke_keeps | apply State.sramStored_keeps
    | simp only [↓keeps_upd_iff] | (refine keeps_snd (by with_reducible assumption) ?_)
    | (refine keeps_some (by with_reducible assumption) ?_)
    | (refine keeps_some2 (by with_reducible assumption) ?_) | split | dsimp only

theorem State.evictWay_keeps {s0 : State} (s : State) (w : Nat) (h : HotWay) (h_s : Keeps s0 s) :
    OptKeeps s0 (State.evictWay s w h) := by
  unfold State.evictWay
  repeat' first
    | with_reducible first
        | assumption | apply keeps_ite | apply State.memStore_keeps | apply optKeeps_none
        | apply optKeeps_some | apply optKeeps_ite
    | simp only [↓keeps_upd_iff] | (refine keeps_snd (by with_reducible assumption) ?_)
    | (refine keeps_some (by with_reducible assumption) ?_)
    | (refine keeps_some2 (by with_reducible assumption) ?_) | split | dsimp only

theorem State.fillWay_keeps {s0 : State} (s : State) (w i : Nat) (img : Bytes) (h_s : Keeps s0 s) :
    Keeps s0 (State.fillWay s w i img) := by
  unfold State.fillWay
  repeat' first
    | with_reducible first
        | assumption | apply State.poke_keeps | apply State.sramStored_keeps
    | simp only [↓keeps_upd_iff] | dsimp only

theorem State.wayFor_keeps {s0 : State} (s : State) (i : Nat) (h_s : Keeps s0 s) :
    OptKeeps2 s0 (State.wayFor s i) := by
  unfold State.wayFor
  repeat' first
    | with_reducible first
        | intro _ | assumption | apply State.evictWay_keeps | apply optKeeps2_map | apply optKeeps2_none
        | apply optKeeps2_some | apply optKeeps2_ite
    | simp only [↓keeps_upd_iff] | (refine keeps_snd (by with_reducible assumption) ?_)
    | (refine keeps_some (by with_reducible assumption) ?_)
    | (refine keeps_some2 (by with_reducible assumption) ?_)
    | (refine keeps_key (by with_reducible assumption) ?_) | split | dsimp only

theorem State.entryRead_keeps {s0 : State} (s : State) (i : Nat) (h_s : Keeps s0 s) :
    Keeps s0 (State.entryRead s i).2 := by
  unfold State.entryRead
  repeat' first
    | with_reducible first
        | assumption | apply State.sramRead_keeps
    | simp only [↓keeps_upd_iff] | (refine keeps_snd (by with_reducible assumption) ?_)
    | (refine keeps_some (by with_reducible assumption) ?_)
    | (refine keeps_some2 (by with_reducible assumption) ?_) | split | dsimp only

theorem State.hotUse_keeps {s0 : State} (s : State) (i : Nat) (h_s : Keeps s0 s) :
    Keeps s0 (State.hotUse s i) := by
  unfold State.hotUse
  repeat' first
    | with_reducible first
        | assumption
    | simp only [↓keeps_upd_iff] | (refine keeps_snd (by with_reducible assumption) ?_)
    | (refine keeps_some (by with_reducible assumption) ?_)
    | (refine keeps_some2 (by with_reducible assumption) ?_) | split | dsimp only

theorem State.supCheck_keeps {s0 : State} (u : State) (i : Nat) (h_u : Keeps s0 u) :
    Keeps s0 (State.supCheck u i) := by
  unfold State.supCheck
  repeat' first
    | with_reducible first
        | assumption | apply keeps_ite | apply State.entryRead_keeps | apply State.put_keeps
        | apply State.setEntry_keeps | apply State.setIrq_keeps | apply State.statusItem_keeps
    | split | dsimp only

theorem execSupervisionSweep_keeps {s0 : State} (s : State) (h_s : Keeps s0 s) :
    OutKeeps s0 (execSupervisionSweep s) := by
  unfold execSupervisionSweep
  repeat' first
    | with_reducible first
        | intro _ | assumption | apply keeps_ite | apply State.passTo_keeps | apply State.supCheck_keeps
        | apply keeps_foldl | apply outKeeps_next | apply outKeeps_ite
    | simp only [↓keeps_upd_iff] | simp only [↓keeps_upd_mem_iff]
    | (refine keeps_snd (by with_reducible assumption) ?_)
    | (refine keeps_snd3 (by with_reducible assumption) ?_)
    | (refine keeps_some (by with_reducible assumption) ?_)
    | (refine keeps_some2 (by with_reducible assumption) ?_)
    | (refine keeps_next (by with_reducible assumption) ?_)
    | (refine keeps_key (by with_reducible assumption) ?_)
    | (refine keeps_okS (by with_reducible assumption) ?_)
    | (refine keeps_okS2 (by with_reducible assumption) ?_)
    | (refine keeps_excS (by with_reducible assumption) ?_)
    | (refine keeps_ok (by with_reducible assumption) ?_)
    | (refine keeps_exc (by with_reducible assumption) ?_)
    | (refine keeps_sndC (by with_reducible assumption) ?_) | split | dsimp only

theorem State.bring_keeps {s0 : State} (s : State) (i : Nat) (h_s : Keeps s0 s) :
    Keeps s0 (State.bring s i).2 := by
  unfold State.bring
  repeat' first
    | with_reducible first
        | intro _ | assumption | apply keeps_ite | apply State.dramRead_keeps | apply State.entryRead_keeps
        | apply State.fillWay_keeps | apply State.supCheck_keeps | apply State.wayFor_keeps
        | apply keeps_pair_ite
    | simp only [↓keeps_upd_iff] | simp only [↓keeps_upd_mem_iff]
    | (refine keeps_snd (by with_reducible assumption) ?_)
    | (refine keeps_snd3 (by with_reducible assumption) ?_)
    | (refine keeps_some (by with_reducible assumption) ?_)
    | (refine keeps_some2 (by with_reducible assumption) ?_)
    | (refine keeps_next (by with_reducible assumption) ?_)
    | (refine keeps_key (by with_reducible assumption) ?_)
    | (refine keeps_okS (by with_reducible assumption) ?_)
    | (refine keeps_okS2 (by with_reducible assumption) ?_)
    | (refine keeps_excS (by with_reducible assumption) ?_)
    | (refine keeps_ok (by with_reducible assumption) ?_)
    | (refine keeps_exc (by with_reducible assumption) ?_)
    | (refine keeps_sndC (by with_reducible assumption) ?_) | split | dsimp only

theorem execAssocSuplostIdxRead_keeps {s0 : State} (s : State) (h_s : Keeps s0 s) :
    OutKeeps s0 (execAssocSuplostIdxRead s) := by
  unfold execAssocSuplostIdxRead
  repeat' first
    | with_reducible first
        | assumption | apply State.clrIrq_keeps | apply outKeeps_next
    | dsimp only

theorem State.putPins_keeps {s0 : State} (s : State) (l : List (Nat × Nat)) (h_s : Keeps s0 s) :
    Keeps s0 (State.putPins s l) := by
  unfold State.putPins
  repeat' first
    | with_reducible first
        | assumption | apply State.put_keeps
    | simp only [↓keeps_upd_iff] | dsimp only

theorem State.renameEntry_keeps {s0 : State} (s : State) (i j : Nat) (h_s : Keeps s0 s) :
    Keeps s0 (State.renameEntry s i j) := by
  unfold State.renameEntry
  repeat' first
    | with_reducible first
        | intro _ | assumption | apply keeps_ite
    | simp only [↓keeps_upd_iff] | (refine keeps_snd (by with_reducible assumption) ?_)
    | (refine keeps_some (by with_reducible assumption) ?_) | split | dsimp only

theorem State.relocate_keeps {s0 : State} (s : State) (i j : Nat) (h_s : Keeps s0 s) :
    Keeps s0 (State.relocate s i j) := by
  unfold State.relocate
  repeat' first
    | with_reducible first
        | assumption | apply State.memStore_keeps | apply State.renameEntry_keeps
    | simp only [↓keeps_upd_iff] | (refine keeps_snd (by with_reducible assumption) ?_)
    | (refine keeps_some (by with_reducible assumption) ?_)
    | (refine keeps_some2 (by with_reducible assumption) ?_) | split | dsimp only

theorem State.kickWalk_keeps {s0 : State} (s : State) (x0 x1 : Nat) (x2 x3 : List Nat) (h_s : Keeps s0 s) :
    Keeps s0 (State.kickWalk s x0 x1 x2 x3).2 := by
  induction x0 generalizing s x1 x2 x3 with
  | zero =>
    unfold State.kickWalk
    repeat' first
    | with_reducible first
        | intro _ | assumption | apply State.free_keeps
    | simp only [↓keeps_upd_iff] | (refine keeps_snd (by with_reducible assumption) ?_)
    | (refine keeps_snd3 (by with_reducible assumption) ?_)
    | (refine keeps_some (by with_reducible assumption) ?_)
    | (refine keeps_some2 (by with_reducible assumption) ?_) | split | dsimp only
  | succ n ih =>
    unfold State.kickWalk
    repeat' first
      | with_reducible first
          | intro _ | assumption | apply State.free_keeps | apply ih
      | simp only [↓keeps_upd_iff] | (refine keeps_snd (by with_reducible assumption) ?_)
      | (refine keeps_snd3 (by with_reducible assumption) ?_)
      | (refine keeps_some (by with_reducible assumption) ?_)
      | (refine keeps_some2 (by with_reducible assumption) ?_) | split | dsimp only

theorem State.relocateAll_keeps {s0 : State} (s : State) (n : Nat) (l : List Nat) (j : Nat) (h_s : Keeps s0 s) :
    Keeps s0 (State.relocateAll s n l j).2 := by
  induction n generalizing s l j with
  | zero => cases l <;> exact h_s
  | succ n ih =>
    cases l with
    | nil => exact h_s
    | cons i path => exact ih _ _ _ (State.relocate_keeps _ _ _ h_s)

theorem State.placeEntry_keeps {s0 : State} (s : State) (k : MatchKey) (h_s : Keeps s0 s) :
    Keeps s0 (State.placeEntry s k).2 := by
  unfold State.placeEntry
  repeat' first
    | with_reducible first
        | assumption | apply State.kickWalk_keeps | apply State.relocateAll_keeps
    | simp only [↓keeps_upd_iff] | (refine keeps_snd (by with_reducible assumption) ?_)
    | (refine keeps_some (by with_reducible assumption) ?_)
    | (refine keeps_some2 (by with_reducible assumption) ?_) | split | dsimp only

theorem State.assocEnd_keeps {s0 : State} (s : State) (st word : Nat) (h_s : Keeps s0 s) :
    Keeps s0 (State.assocEnd s st word) := by
  unfold State.assocEnd
  repeat' first
    | with_reducible first
        | assumption | apply State.put_keeps | apply State.setIrq_keeps
    | dsimp only

theorem State.assocInsert_keeps {s0 : State} (s : State) (h_s : Keeps s0 s) :
    Keeps s0 (State.assocInsert s) := by
  unfold State.assocInsert
  repeat' first
    | with_reducible first
        | assumption | apply keeps_ite | apply State.assocEnd_keeps | apply State.inc_keeps
        | apply State.placeEntry_keeps | apply State.putPins_keeps | apply State.put_keeps
        | apply State.setEntry_keeps
    | simp only [↓keeps_upd_iff] | (refine keeps_snd (by with_reducible assumption) ?_)
    | (refine keeps_snd3 (by with_reducible assumption) ?_)
    | (refine keeps_some (by with_reducible assumption) ?_)
    | (refine keeps_key (by with_reducible assumption) ?_) | split | dsimp only

theorem State.assocFind_keeps {s0 : State} (s : State) (h_s : Keeps s0 s) : Keeps s0 (State.assocFind s) := by
  unfold State.assocFind
  repeat' first
    | with_reducible first
        | assumption | apply State.assocEnd_keeps | apply State.put_keeps
    | simp only [↓keeps_upd_iff] | (refine keeps_snd (by with_reducible assumption) ?_)
    | (refine keeps_some (by with_reducible assumption) ?_)
    | (refine keeps_key (by with_reducible assumption) ?_) | split | dsimp only

theorem State.stagePut_keeps {s0 : State} (s : State) (j : Nat) (x0 : List Nat) (h_s : Keeps s0 s) :
    Keeps s0 (State.stagePut s j x0) := by
  induction x0 generalizing s j with
  | nil =>
    unfold State.stagePut
    repeat' first
    | with_reducible first
        | assumption | apply State.put64_keeps
    | split | dsimp only
  | cons y ys ih =>
    unfold State.stagePut
    repeat' first
      | with_reducible first
          | assumption | apply State.put64_keeps | apply ih
      | split | dsimp only

theorem State.updateTo_keeps {s0 : State} (s : State) (i set : Nat) (e e' : TableEntry) (bad : Option Nat)
    (h_s : Keeps s0 s) : Keeps s0 (State.updateTo s i set e e' bad) := by
  unfold State.updateTo
  repeat' first
    | with_reducible first
        | intro _ | assumption | apply keeps_ite | apply State.assocEnd_keeps | apply State.putPins_keeps
        | apply State.setEntry_keeps
    | simp only [↓keeps_upd_iff] | (refine keeps_snd (by with_reducible assumption) ?_)
    | (refine keeps_some (by with_reducible assumption) ?_) | split | dsimp only

theorem State.assocUpdate_keeps {s0 : State} (s : State) (i : Nat) (h_s : Keeps s0 s) :
    Keeps s0 (State.assocUpdate s i) := by
  unfold State.assocUpdate
  repeat' first
    | with_reducible first
        | assumption | apply State.updateTo_keeps
    | dsimp only

theorem State.dropWay_keeps {s0 : State} (s : State) (i : Nat) (h_s : Keeps s0 s) :
    Keeps s0 (State.dropWay s i) := by
  unfold State.dropWay
  repeat' first
    | with_reducible first
        | assumption
    | simp only [↓keeps_upd_iff] | (refine keeps_snd (by with_reducible assumption) ?_)
    | (refine keeps_some (by with_reducible assumption) ?_)
    | (refine keeps_some2 (by with_reducible assumption) ?_) | split | dsimp only

theorem State.assocDelete_keeps {s0 : State} (s : State) (i : Nat) (h_s : Keeps s0 s) :
    Keeps s0 (State.assocDelete s i) := by
  unfold State.assocDelete
  repeat' first
    | with_reducible first
        | intro _ | assumption | apply State.assocEnd_keeps | apply State.dropWay_keeps
        | apply State.putPins_keeps | apply State.put_keeps | apply State.setEntry_keeps
    | simp only [↓keeps_upd_iff] | dsimp only

theorem State.assocGo_keeps {s0 : State} (s : State) (op : Nat) (h_s : Keeps s0 s) :
    Keeps s0 (State.assocGo s op) := by
  unfold State.assocGo
  repeat' first
    | with_reducible first
        | intro _ | assumption | apply keeps_ite | apply State.assocDelete_keeps | apply State.assocEnd_keeps
        | apply State.assocFind_keeps | apply State.assocInsert_keeps | apply State.assocUpdate_keeps
        | apply State.bring_keeps | apply State.setEntry_keeps | apply State.stagePut_keeps
    | simp only [↓keeps_upd_iff] | (refine keeps_snd (by with_reducible assumption) ?_)
    | (refine keeps_snd3 (by with_reducible assumption) ?_) | split | dsimp only

theorem execAssocInsert_keeps {s0 : State} (s : State) (h_s : Keeps s0 s) :
    OutKeeps s0 (execAssocInsert s) := by
  unfold execAssocInsert
  repeat' first
    | with_reducible first
        | assumption | apply State.assocGo_keeps | apply outKeeps_next
    | dsimp only

theorem execAssocFind_keeps {s0 : State} (s : State) (h_s : Keeps s0 s) : OutKeeps s0 (execAssocFind s) := by
  unfold execAssocFind
  repeat' first
    | with_reducible first
        | assumption | apply State.assocGo_keeps | apply outKeeps_next
    | dsimp only

theorem execAssocRead_keeps {s0 : State} (s : State) (h_s : Keeps s0 s) : OutKeeps s0 (execAssocRead s) := by
  unfold execAssocRead
  repeat' first
    | with_reducible first
        | assumption | apply State.assocGo_keeps | apply outKeeps_next
    | dsimp only

theorem execAssocUpdate_keeps {s0 : State} (s : State) (h_s : Keeps s0 s) :
    OutKeeps s0 (execAssocUpdate s) := by
  unfold execAssocUpdate
  repeat' first
    | with_reducible first
        | assumption | apply State.assocGo_keeps | apply outKeeps_next
    | dsimp only

theorem execAssocDelete_keeps {s0 : State} (s : State) (h_s : Keeps s0 s) :
    OutKeeps s0 (execAssocDelete s) := by
  unfold execAssocDelete
  repeat' first
    | with_reducible first
        | assumption | apply State.assocGo_keeps | apply outKeeps_next
    | dsimp only

theorem execAssocResetseq_keeps {s0 : State} (s : State) (h_s : Keeps s0 s) :
    OutKeeps s0 (execAssocResetseq s) := by
  unfold execAssocResetseq
  repeat' first
    | with_reducible first
        | assumption | apply State.assocGo_keeps | apply outKeeps_next
    | dsimp only

theorem execAssocClrcnt_keeps {s0 : State} (s : State) (h_s : Keeps s0 s) :
    OutKeeps s0 (execAssocClrcnt s) := by
  unfold execAssocClrcnt
  repeat' first
    | with_reducible first
        | assumption | apply State.assocGo_keeps | apply outKeeps_next
    | dsimp only

theorem execAssocCmdUnassigned_keeps {s0 : State} (op : Nat) (s : State) (h_s : Keeps s0 s) :
    OutKeeps s0 (execAssocCmdUnassigned op s) := by
  unfold execAssocCmdUnassigned
  repeat' first
    | with_reducible first
        | assumption | apply keeps_ite | apply State.assocGo_keeps | apply outKeeps_next | apply outKeeps_ite
    | split | dsimp only

theorem execAssocCmdResultRead_keeps {s0 : State} (s : State) (h_s : Keeps s0 s) :
    OutKeeps s0 (execAssocCmdResultRead s) := by
  unfold execAssocCmdResultRead
  repeat' first
    | with_reducible first
        | assumption | apply keeps_ite | apply State.clrIrq_keeps | apply outKeeps_next | apply outKeeps_ite
    | split | dsimp only

end Sys2Proof.Machine
end

