-- ==== Sys2Proof/Laws/DieBaseKeeps.lean ====
section
/-! SUPPORT. What the definitions of Machine/DieBase.lean keep, one lemma each. -/

namespace Sys2Proof.Machine

set_option linter.all false

theorem State.setBlk_keeps {s0 : State} (s : State) (b : Nat) (x : CaseBlk) (h_s : Keeps s0 s) :
    Keeps s0 (State.setBlk s b x) := by
  unfold State.setBlk
  repeat' first
    | with_reducible first
        | assumption
    | simp only [↓keeps_upd_iff] | dsimp only

theorem State.blkProgram_keeps {s0 : State} (s : State) (b off next : Nat) (bs : Bytes) (h_s : Keeps s0 s) :
    Keeps s0 (State.blkProgram s b off next bs) := by
  unfold State.blkProgram
  repeat' first
    | with_reducible first
        | assumption | apply keeps_ite | apply State.setBlk_keeps | apply outKeeps_next | apply outKeeps_ite
    | simp only [↓keeps_upd_iff] | split | dsimp only

theorem State.blkErase_keeps {s0 : State} (s : State) (b : Nat) (h_s : Keeps s0 s) :
    Keeps s0 (State.blkErase s b) := by
  unfold State.blkErase
  repeat' first
    | with_reducible first
        | intro _ | assumption | apply keeps_ite | apply State.setBlk_keeps
    | simp only [↓keeps_upd_iff] | split | dsimp only

theorem State.cacheDrop_keeps {s0 : State} (s : State) (b : Nat) (h_s : Keeps s0 s) :
    Keeps s0 (State.cacheDrop s b) := by
  unfold State.cacheDrop
  repeat' first
    | with_reducible first
        | intro _ | assumption | apply keeps_ite
    | simp only [↓keeps_upd_iff] | split | dsimp only

theorem State.putSpares_keeps {s0 : State} (s : State) (l : List (Nat × Nat)) (h_s : Keeps s0 s) :
    Keeps s0 (State.putSpares s l) := by
  unfold State.putSpares
  repeat' first
    | with_reducible first
        | assumption | apply State.irq_keeps | apply State.put_keeps
    | simp only [↓keeps_upd_iff] | dsimp only

theorem State.blkSwap_keeps {s0 : State} (s : State) (b : Nat) (retire : Bool) (h_s : Keeps s0 s) :
    Keeps s0 (State.blkSwap s b retire) := by
  unfold State.blkSwap
  repeat' first
    | with_reducible first
        | assumption | apply keeps_ite | apply State.inc_keeps | apply State.putSpares_keeps
        | apply State.raiseBase_keeps | apply State.setBlk_keeps | apply outKeeps_next | apply outKeeps_ite
    | simp only [↓keeps_upd_iff] | (refine keeps_snd (by with_reducible assumption) ?_)
    | (refine keeps_some (by with_reducible assumption) ?_)
    | (refine keeps_next (by with_reducible assumption) ?_) | split | dsimp only

theorem State.blkFlag_keeps {s0 : State} (s : State) (b : Nat) (h_s : Keeps s0 s) :
    Keeps s0 (State.blkFlag s b) := by
  unfold State.blkFlag
  repeat' first
    | with_reducible first
        | assumption | apply State.ledRequest_keeps | apply State.setBlk_keeps
    | simp only [↓keeps_upd_iff] | dsimp only

theorem State.readOk_keeps {s0 : State} (s : State) (b step corr : Nat) (h_s : Keeps s0 s) :
    Keeps s0 (State.readOk s b step corr) := by
  unfold State.readOk
  repeat' first
    | with_reducible first
        | assumption | apply keeps_ite | apply State.blkFlag_keeps | apply State.setBlk_keeps
    | simp only [↓keeps_upd_iff] | split | dsimp only

theorem State.readBad_keeps {s0 : State} (s : State) (b page : Nat) (h_s : Keeps s0 s) :
    Keeps s0 (State.readBad s b page) := by
  unfold State.readBad
  repeat' first
    | with_reducible first
        | assumption | apply State.blkFlag_keeps | apply State.inc_keeps | apply State.put_keeps
        | apply State.raiseBase_keeps | apply State.setIrq_keeps
    | dsimp only

theorem State.dieLink_keeps {s0 : State} (s : State) (resends : Nat) (h_s : Keeps s0 s) :
    Keeps s0 (State.dieLink s resends).2 := by
  unfold State.dieLink
  repeat' first
    | with_reducible first
        | assumption | apply keeps_ite | apply State.incBy_keeps | apply State.raiseBase_keeps
        | apply keeps_pair_ite
    | split | dsimp only

theorem State.shieldCopy_keeps {s0 : State} (s : State) (b j : Nat) (h_s : Keeps s0 s) :
    Keeps s0 (State.shieldCopy s b j) := by
  unfold State.shieldCopy
  repeat' first
    | with_reducible first
        | assumption | apply keeps_ite | apply State.blkErase_keeps | apply State.setBlk_keeps
        | apply outKeeps_next | apply outKeeps_ite
    | simp only [↓keeps_upd_iff] | split | dsimp only

theorem State.cacheTouch_keeps {s0 : State} (s : State) (p : Nat) (h_s : Keeps s0 s) :
    Keeps s0 (State.cacheTouch s p) := by
  unfold State.cacheTouch
  repeat' first
    | with_reducible first
        | assumption | apply keeps_ite
    | simp only [↓keeps_upd_iff] | split | dsimp only

theorem State.xipPage_keeps {s0 : State} (s : State) (off n : Nat) (h_s : Keeps s0 s) :
    Keeps s0 (State.xipPage s off n).2 := by
  unfold State.xipPage
  repeat' first
    | with_reducible first
        | assumption | apply keeps_ite | apply State.cacheTouch_keeps | apply keeps_pair_ite
    | simp only [↓keeps_upd_iff] | split | dsimp only

theorem State.xipRead_keeps {s0 : State} (s : State) (off n : Nat) (h_s : Keeps s0 s) :
    Keeps s0 (State.xipRead s off n).2 := by
  unfold State.xipRead
  repeat' first
    | with_reducible first
        | intro _ | assumption | apply keeps_ite | apply State.xipPage_keeps | apply keeps_pair_ite
    | simp only [↓keeps_upd_iff] | (refine keeps_snd (by with_reducible assumption) ?_)
    | (refine keeps_some (by with_reducible assumption) ?_) | split | dsimp only

theorem State.ringWrite_keeps {s0 : State} (s : State) (x0 : List EvRec) (h_s : Keeps s0 s) :
    Keeps s0 (State.ringWrite s x0) := by
  induction x0 generalizing s with
  | nil =>
    unfold State.ringWrite
    repeat' first
    | with_reducible first
        | assumption | apply keeps_ite | apply State.blkErase_keeps | apply State.setBlk_keeps
        | apply outKeeps_next | apply outKeeps_ite
    | simp only [↓keeps_upd_iff] | split | dsimp only
  | cons y ys ih =>
    unfold State.ringWrite
    repeat' first
      | with_reducible first
          | assumption | apply keeps_ite | apply State.blkErase_keeps | apply State.setBlk_keeps | apply ih
          | apply outKeeps_next | apply outKeeps_ite
      | simp only [↓keeps_upd_iff] | split | dsimp only

theorem State.metaProgram_keeps {s0 : State} (s : State) (bs : Bytes) (h_s : Keeps s0 s) :
    Keeps s0 (State.metaProgram s bs) := by
  unfold State.metaProgram
  repeat' first
    | with_reducible first
        | intro _ | assumption | apply State.blkProgram_keeps | apply outKeeps_next
    | simp only [↓keeps_upd_iff] | (refine keeps_snd (by with_reducible assumption) ?_)
    | (refine keeps_some (by with_reducible assumption) ?_)
    | (refine keeps_next (by with_reducible assumption) ?_)
    | (refine keeps_key (by with_reducible assumption) ?_) | split | dsimp only

end Sys2Proof.Machine
end

