-- ==== Sys2Proof/Laws/TamperKeeps.lean ====
section
/-! SUPPORT. What the definitions of Machine/Tamper.lean keep, one lemma each. -/

namespace Sys2Proof.Machine

set_option linter.all false

theorem State.setQty_keeps {s0 : State} (s : State) (q : Nat) (x : TQty) (h_s : Keeps s0 s) :
    Keeps s0 (State.setQty s q x) := by
  unfold State.setQty
  repeat' first
    | with_reducible first
        | assumption
    | simp only [↓keeps_upd_iff] | dsimp only

theorem State.putSticky_keeps {s0 : State} (s : State) (v : Nat) (h_s : Keeps s0 s) :
    Keeps s0 (State.putSticky s v) := by
  unfold State.putSticky
  repeat' first
    | with_reducible first
        | assumption | apply keeps_ite | apply State.put_keeps
    | simp only [↓keeps_upd_iff] | split | dsimp only

theorem State.stickySet_keeps {s0 : State} (s : State) (i : Nat) (h_s : Keeps s0 s) :
    Keeps s0 (State.stickySet s i) := by
  unfold State.stickySet
  repeat' first
    | with_reducible first
        | assumption | apply State.putSticky_keeps | apply State.setIrq_keeps
    | split | dsimp only

theorem State.logPut_keeps {s0 : State} (s : State) (q kind det nev extra : Nat) (alarm : Bool)
    (h_s : Keeps s0 s) : Keeps s0 (State.logPut s q kind det nev extra alarm) := by
  unfold State.logPut
  repeat' first
    | with_reducible first
        | assumption | apply keeps_ite | apply State.inc_keeps | apply State.put_keeps
    | simp only [↓keeps_upd_iff] | split | dsimp only

theorem State.logProgram_keeps {s0 : State} (s : State) (e : Bytes) (h_s : Keeps s0 s) :
    Keeps s0 (State.logProgram s e) := by
  unfold State.logProgram
  repeat' first
    | with_reducible first
        | assumption | apply keeps_ite | apply State.blkProgram_keeps | apply State.inc_keeps
        | apply State.put_keeps | apply State.raiseBase_keeps | apply State.setIrq_keeps
    | simp only [↓keeps_upd_iff] | split | dsimp only

theorem execTamperLogAppend_keeps {s0 : State} (s : State) (h_s : Keeps s0 s) :
    OutKeeps s0 (execTamperLogAppend s) := by
  unfold execTamperLogAppend
  repeat' first
    | with_reducible first
        | assumption | apply keeps_ite | apply State.logProgram_keeps | apply State.put_keeps
        | apply State.settle_keeps | apply outKeeps_next | apply outKeeps_ite
    | simp only [↓keeps_upd_iff] | (refine keeps_snd (by with_reducible assumption) ?_)
    | (refine keeps_next (by with_reducible assumption) ?_) | split | dsimp only

theorem State.rootErase_keeps {s0 : State} (s : State) (h_s : Keeps s0 s) : Keeps s0 (State.rootErase s) := by
  unfold State.rootErase
  repeat' first
    | with_reducible first
        | intro _ | assumption | apply State.privCount_keeps | apply State.put_keeps
    | simp only [↓keeps_upd_iff] | dsimp only

theorem State.bootKeysErase_keeps {s0 : State} (s : State) (h_s : Keeps s0 s) :
    Keeps s0 (State.bootKeysErase s) := by
  unfold State.bootKeysErase
  repeat' first
    | with_reducible first
        | assumption
    | simp only [↓keeps_upd_iff] | simp only [↓keeps_upd_mem_iff] | dsimp only

theorem State.alarm_keeps {s0 : State} (s : State) (h_s : Keeps s0 s) : Keeps s0 (State.alarm s) := by
  unfold State.alarm
  repeat' first
    | with_reducible first
        | assumption | apply State.bootKeysErase_keeps | apply State.inc_keeps | apply State.put_keeps
        | apply State.raiseBase_keeps | apply State.rootErase_keeps
    | simp only [↓keeps_upd_iff] | (refine keeps_snd (by with_reducible assumption) ?_) | split | dsimp only

theorem State.tamperRecord_keeps {s0 : State} (s : State) (soft : Bool) (h_s : Keeps s0 s) :
    Keeps s0 (State.tamperRecord s soft) := by
  unfold State.tamperRecord
  repeat' first
    | with_reducible first
        | assumption | apply keeps_ite | apply State.evPut_keeps | apply State.freeB_keeps
        | apply State.free_keeps
    | split | dsimp only

theorem State.confirm_keeps {s0 : State} (s : State) (q nev det extra : Nat) (inj : Bool) (h_s : Keeps s0 s) :
    Keeps s0 (State.confirm s q nev det extra inj) := by
  unfold State.confirm
  repeat' first
    | with_reducible first
        | assumption | apply keeps_ite | apply State.alarm_keeps | apply State.inc_keeps
        | apply State.logPut_keeps | apply State.put_keeps | apply State.raiseBase_keeps
        | apply State.stickySet_keeps | apply State.tamperRecord_keeps
    | split | dsimp only

theorem State.tamperEvent_keeps {s0 : State} (s : State) (q : Nat) (detB : Bool) (reading extra : Nat)
    (inj : Bool) (h_s : Keeps s0 s) : Keeps s0 (State.tamperEvent s q detB reading extra inj) := by
  unfold State.tamperEvent
  repeat' first
    | with_reducible first
        | intro _ | assumption | apply keeps_ite | apply State.confirm_keeps | apply State.inc_keeps
        | apply State.put_keeps | apply State.setIrq_keeps | apply State.setQty_keeps
    | simp only [↓keeps_upd_iff] | (refine keeps_snd (by with_reducible assumption) ?_)
    | (refine keeps_snd3 (by with_reducible assumption) ?_)
    | (refine keeps_some (by with_reducible assumption) ?_)
    | (refine keeps_key (by with_reducible assumption) ?_) | split | dsimp only

theorem State.loopFrame_keeps {s0 : State} (s : State) (q reading : Nat) (frame : List Bool)
    (h_s : Keeps s0 s) : Keeps s0 (State.loopFrame s q reading frame) := by
  unfold State.loopFrame
  repeat' first
    | with_reducible first
        | assumption | apply keeps_ite | apply State.put_keeps | apply State.tamperEvent_keeps
    | split | dsimp only

theorem execTamperDetection_keeps {s0 : State} (q : Nat) (detB : Bool) (reading : Nat) (frame : List Bool)
    (s : State) (h_s : Keeps s0 s) : OutKeeps s0 (execTamperDetection q detB reading frame s) := by
  unfold execTamperDetection
  repeat' first
    | with_reducible first
        | assumption | apply keeps_ite | apply State.loopFrame_keeps | apply State.settle_keeps
        | apply State.tamperEvent_keeps | apply outKeeps_next | apply outKeeps_ite
    | split | dsimp only

theorem execTamperRearm_keeps {s0 : State} (q : Nat) (s : State) (h_s : Keeps s0 s) :
    OutKeeps s0 (execTamperRearm q s) := by
  unfold execTamperRearm
  repeat' first
    | with_reducible first
        | assumption | apply keeps_ite | apply State.passTo_keeps | apply State.put_keeps
        | apply State.setQty_keeps | apply outKeeps_next | apply outKeeps_ite
    | simp only [↓keeps_upd_iff] | split | dsimp only

theorem State.disagree_keeps {s0 : State} (s : State) (q : Nat) (detB : Bool) (h_s : Keeps s0 s) :
    Keeps s0 (State.disagree s q detB) := by
  unfold State.disagree
  repeat' first
    | with_reducible first
        | assumption | apply keeps_ite | apply State.inc_keeps | apply State.logPut_keeps
        | apply State.raiseBase_keeps | apply State.settle_keeps | apply State.stickySet_keeps
        | apply State.tamperRecord_keeps
    | split | dsimp only

theorem execPairDisagreement_keeps {s0 : State} (q : Nat) (detB : Bool) (s : State) (h_s : Keeps s0 s) :
    OutKeeps s0 (execPairDisagreement q detB s) := by
  unfold execPairDisagreement
  repeat' first
    | with_reducible first
        | intro _ | assumption | apply State.disagree_keeps | apply State.passTo_keeps
        | apply State.setQty_keeps | apply outKeeps_next
    | simp only [↓keeps_upd_iff] | (refine keeps_snd (by with_reducible assumption) ?_)
    | (refine keeps_some (by with_reducible assumption) ?_)
    | (refine keeps_next (by with_reducible assumption) ?_)
    | (refine keeps_key (by with_reducible assumption) ?_) | split | dsimp only

theorem State.detFail_keeps {s0 : State} (s : State) (q det : Nat) (h_s : Keeps s0 s) :
    Keeps s0 (State.detFail s q det) := by
  unfold State.detFail
  repeat' first
    | with_reducible first
        | assumption | apply keeps_ite | apply State.logPut_keeps | apply State.raiseBase_keeps
        | apply State.stickySet_keeps
    | split | dsimp only

theorem State.bistQty_keeps {s0 : State} (s : State) (q det : Nat) (h_s : Keeps s0 s) :
    Keeps s0 (State.bistQty s q det) := by
  unfold State.bistQty
  repeat' first
    | with_reducible first
        | assumption | apply keeps_ite | apply State.detFail_keeps | apply State.putB_keeps
    | split | dsimp only

theorem State.bistHit_keeps {s0 : State} (s : State) (q : Nat) (detB : Bool) (h_s : Keeps s0 s) :
    Keeps s0 (State.bistHit s q detB) := by
  unfold State.bistHit
  repeat' first
    | with_reducible first
        | intro _ | assumption | apply State.setQty_keeps | apply State.tamperEvent_keeps
    | simp only [↓keeps_upd_iff] | dsimp only

theorem execDetectorBist_keeps {s0 : State} (run : BistRun) (s : State) (h_s : Keeps s0 s) :
    OutKeeps s0 (execDetectorBist run s) := by
  unfold execDetectorBist
  repeat' first
    | with_reducible first
        | intro _ | assumption | apply keeps_ite | apply State.bistHit_keeps | apply State.bistQty_keeps
        | apply State.passTo_keeps | apply State.settle_keeps | apply keeps_foldl | apply outKeeps_next
        | apply outKeeps_ite
    | simp only [↓keeps_upd_iff] | split | dsimp only

theorem State.forceWrite_keeps {s0 : State} (s : State) (q : Nat) (v : Word32) (h_s : Keeps s0 s) :
    Keeps s0 (State.forceWrite s q v) := by
  unfold State.forceWrite
  repeat' first
    | with_reducible first
        | assumption | apply keeps_ite | apply State.settle_keeps | apply State.tamperEvent_keeps
    | split | dsimp only

theorem execTamperForce_keeps {s0 : State} (q : Nat) (v : Word32) (s : State) (h_s : Keeps s0 s) :
    OutKeeps s0 (execTamperForce q v s) := by
  unfold execTamperForce
  repeat' first
    | with_reducible first
        | assumption | apply keeps_ite | apply State.forceWrite_keeps | apply outKeeps_next
        | apply outKeeps_ite
    | split | dsimp only

theorem State.stickyClr_keeps {s0 : State} (s : State) (mid : Nat) (v : Word32) (h_s : Keeps s0 s) :
    Keeps s0 (State.stickyClr s mid v) := by
  unfold State.stickyClr
  repeat' first
    | with_reducible first
        | assumption | apply keeps_ite | apply State.evEnter_keeps | apply State.free_keeps
        | apply State.putSticky_keeps | apply State.put_keeps
    | split | dsimp only

theorem execTamperStickyClr_keeps {s0 : State} (mid : Nat) (s : State) (h_s : Keeps s0 s) :
    OutKeeps s0 (execTamperStickyClr mid s) := by
  unfold execTamperStickyClr
  repeat' first
    | with_reducible first
        | assumption | apply State.stickyClr_keeps | apply outKeeps_next
    | dsimp only

theorem execTamperStickyLoRead_keeps {s0 : State} (s : State) (h_s : Keeps s0 s) :
    OutKeeps s0 (execTamperStickyLoRead s) := by
  unfold execTamperStickyLoRead
  repeat' first
    | with_reducible first
        | assumption | apply State.clrIrq_keeps | apply outKeeps_next
    | dsimp only

theorem execTamperLogcountRead_keeps {s0 : State} (s : State) (h_s : Keeps s0 s) :
    OutKeeps s0 (execTamperLogcountRead s) := by
  unfold execTamperLogcountRead
  repeat' first
    | with_reducible first
        | assumption | apply State.clrIrq_keeps | apply outKeeps_next
    | dsimp only

theorem State.watchQty_keeps {s0 : State} (s : State) (q det : Nat) (h_s : Keeps s0 s) :
    Keeps s0 (State.watchQty s q det) := by
  unfold State.watchQty
  repeat' first
    | with_reducible first
        | assumption | apply keeps_ite | apply State.confirm_keeps | apply State.disagree_keeps
        | apply State.inc_keeps | apply State.put_keeps | apply State.setQty_keeps
    | simp only [↓keeps_upd_iff] | split | dsimp only

theorem execWatchCycle_keeps {s0 : State} (events : List (Nat × Nat)) (s : State) (h_s : Keeps s0 s) :
    OutKeeps s0 (execWatchCycle events s) := by
  unfold execWatchCycle
  repeat' first
    | with_reducible first
        | intro _ | assumption | apply keeps_ite | apply State.pass_keeps | apply State.watchQty_keeps
        | apply keeps_foldl | apply outKeeps_next | apply outKeeps_ite
    | split | dsimp only

end Sys2Proof.Machine
end

