-- ==== Sys2Proof/Laws/LifeKeeps.lean ====
section
/-! SUPPORT. What the definitions of Machine/Life.lean keep, one lemma each. -/

namespace Sys2Proof.Machine

set_option linter.all false

theorem State.commitPut_keeps {s0 : State} (s : State) (c : Commit) (h_s : Keeps s0 s) :
    Keeps s0 (State.commitPut s c) := by
  unfold State.commitPut
  repeat' first
    | with_reducible first
        | assumption | apply State.metaProgram_keeps
    | simp only [↓keeps_upd_iff] | dsimp only

theorem State.lifeTo_keeps {s0 : State} (s : State) (st : Nat) (h_s : Keeps s0 s) :
    Keeps s0 (State.lifeTo s st) := by
  unfold State.lifeTo
  repeat' first
    | with_reducible first
        | assumption | apply State.evUnit_keeps | apply State.put_keeps | apply State.raise_keeps
    | dsimp only

theorem State.debugRelease_keeps {s0 : State} (s : State) (h_s : Keeps s0 s) :
    Keeps s0 (State.debugRelease s) := by
  unfold State.debugRelease
  repeat' first
    | with_reducible first
        | intro _ | assumption | apply keeps_ite | apply State.put_keeps | apply State.setProc_keeps
        | apply keeps_foldl
    | simp only [↓keeps_upd_iff] | (refine keeps_snd (by with_reducible assumption) ?_)
    | (refine keeps_some (by with_reducible assumption) ?_) | split | dsimp only

theorem State.debugClose_keeps {s0 : State} (s : State) (h_s : Keeps s0 s) :
    Keeps s0 (State.debugClose s) := by
  unfold State.debugClose
  repeat' first
    | with_reducible first
        | assumption | apply State.debugRelease_keeps | apply State.lifeTo_keeps | apply State.put_keeps
    | dsimp only

theorem State.lifeProvision_keeps {s0 : State} (s : State) (p : ProvData) (h_s : Keeps s0 s) :
    Keeps s0 (State.lifeProvision s p) := by
  unfold State.lifeProvision
  repeat' first
    | with_reducible first
        | assumption | apply keeps_ite | apply State.lifeEnd_keeps | apply State.lifeTo_keeps
    | simp only [↓keeps_upd_iff] | split | dsimp only

theorem State.lifeSeal_keeps {s0 : State} (s : State) (h_s : Keeps s0 s) : Keeps s0 (State.lifeSeal s) := by
  unfold State.lifeSeal
  repeat' first
    | with_reducible first
        | assumption | apply keeps_ite | apply State.lifeEnd_keeps | apply State.lifeTo_keeps
        | apply State.put_keeps
    | split | dsimp only

theorem State.lifeRetire_keeps {s0 : State} (s : State) (h_s : Keeps s0 s) :
    Keeps s0 (State.lifeRetire s) := by
  unfold State.lifeRetire
  repeat' first
    | with_reducible first
        | assumption | apply keeps_ite | apply State.debugRelease_keeps | apply State.lifeEnd_keeps
        | apply State.lifeTo_keeps | apply State.privCount_keeps | apply State.put_keeps
        | apply State.rootErase_keeps
    | simp only [↓keeps_upd_iff] | split | dsimp only

theorem State.lifeChallenge_keeps {s0 : State} (s : State) (h_s : Keeps s0 s) :
    Keeps s0 (State.lifeChallenge s) := by
  unfold State.lifeChallenge
  repeat' first
    | with_reducible first
        | assumption | apply keeps_ite | apply State.inc_keeps | apply State.lifeDraw_keeps
        | apply State.lifeEnd_keeps
    | simp only [↓keeps_upd_iff] | split | dsimp only

theorem State.lifeBuf_keeps {s0 : State} (s : State) (h_s : Keeps s0 s) : Keeps s0 (State.lifeBuf s).2 := by
  unfold State.lifeBuf
  repeat' first
    | with_reducible first
        | assumption | apply keeps_ite | apply State.keyRead_keeps | apply keeps_pair_ite
    | split | dsimp only

theorem State.lifeDebugOpen_keeps {s0 : State} (s : State) (h_s : Keeps s0 s) :
    Keeps s0 (State.lifeDebugOpen s) := by
  unfold State.lifeDebugOpen
  repeat' first
    | with_reducible first
        | intro _ | assumption | apply keeps_ite | apply State.inc_keeps | apply State.lifeBuf_keeps
        | apply State.lifeEnd_keeps | apply State.lifeTo_keeps | apply State.put_keeps
        | apply State.raise_keeps
    | simp only [↓keeps_upd_iff] | (refine keeps_snd (by with_reducible assumption) ?_)
    | (refine keeps_some (by with_reducible assumption) ?_) | split | dsimp only

theorem State.lifeDebugClose_keeps {s0 : State} (s : State) (h_s : Keeps s0 s) :
    Keeps s0 (State.lifeDebugClose s) := by
  unfold State.lifeDebugClose
  repeat' first
    | with_reducible first
        | assumption | apply keeps_ite | apply State.debugClose_keeps | apply State.lifeEnd_keeps
    | split | dsimp only

theorem State.lifeCommit_keeps {s0 : State} (s : State) (h_s : Keeps s0 s) :
    Keeps s0 (State.lifeCommit s) := by
  unfold State.lifeCommit
  repeat' first
    | with_reducible first
        | assumption | apply keeps_ite | apply State.commitPut_keeps | apply State.lifeEnd_keeps
    | split | dsimp only

theorem State.lifeConfirm_keeps {s0 : State} (s : State) (h_s : Keeps s0 s) :
    Keeps s0 (State.lifeConfirm s) := by
  unfold State.lifeConfirm
  repeat' first
    | with_reducible first
        | intro _ | assumption | apply keeps_ite | apply State.clrIrq_keeps | apply State.commitPut_keeps
        | apply State.lifeEnd_keeps | apply State.put_keeps
    | simp only [↓keeps_upd_iff] | (refine keeps_snd (by with_reducible assumption) ?_)
    | (refine keeps_some (by with_reducible assumption) ?_)
    | (refine keeps_key (by with_reducible assumption) ?_) | split | dsimp only

theorem State.lifePreset_keeps {s0 : State} (s : State) (h_s : Keeps s0 s) :
    Keeps s0 (State.lifePreset s) := by
  unfold State.lifePreset
  repeat' first
    | with_reducible first
        | assumption | apply keeps_ite | apply State.lifeBuf_keeps | apply State.lifeEnd_keeps
    | simp only [↓keeps_upd_iff] | (refine keeps_snd (by with_reducible assumption) ?_)
    | (refine keeps_some (by with_reducible assumption) ?_) | split | dsimp only

theorem State.lifeRun_keeps {s0 : State} (s : State) (r : LifeReq) (h_s : Keeps s0 s) :
    Keeps s0 (State.lifeRun s r) := by
  unfold State.lifeRun
  repeat' first
    | with_reducible first
        | assumption | apply State.lifeChallenge_keeps | apply State.lifeCommit_keeps
        | apply State.lifeConfirm_keeps | apply State.lifeDebugClose_keeps | apply State.lifeDebugOpen_keeps
        | apply State.lifeEnd_keeps | apply State.lifePreset_keeps | apply State.lifeProvision_keeps
        | apply State.lifeRetire_keeps | apply State.lifeSeal_keeps
    | simp only [↓keeps_upd_iff] | split | dsimp only

theorem State.lifeGo_keeps {s0 : State} (s : State) (mid : Nat) (r : LifeReq) (h_s : Keeps s0 s) :
    Keeps s0 (State.lifeGo s mid r) := by
  unfold State.lifeGo
  repeat' first
    | with_reducible first
        | assumption | apply keeps_ite | apply State.clrIrq_keeps | apply State.lifeRun_keeps
        | apply State.put_keeps
    | simp only [↓keeps_upd_iff] | split | dsimp only

theorem State.lifeRetry_keeps {s0 : State} (s : State) (h_s : Keeps s0 s) : Keeps s0 (State.lifeRetry s) := by
  unfold State.lifeRetry
  repeat' first
    | with_reducible first
        | assumption | apply keeps_ite | apply State.lifeRun_keeps
    | simp only [↓keeps_upd_iff] | (refine keeps_some (by with_reducible assumption) ?_) | split | dsimp only

theorem execProvision_keeps {s0 : State} (mid : Nat) (chain : Bytes) (keys : ProvKeys) (s : State)
    (h_s : Keeps s0 s) : OutKeeps s0 (execProvision mid chain keys s) := by
  unfold execProvision
  repeat' first
    | with_reducible first
        | assumption | apply State.lifeGo_keeps | apply outKeeps_next
    | dsimp only

theorem execSeal_keeps {s0 : State} (mid : Nat) (s : State) (h_s : Keeps s0 s) :
    OutKeeps s0 (execSeal mid s) := by
  unfold execSeal
  repeat' first
    | with_reducible first
        | assumption | apply State.lifeGo_keeps | apply outKeeps_next
    | dsimp only

theorem execRetire_keeps {s0 : State} (mid : Nat) (s : State) (h_s : Keeps s0 s) :
    OutKeeps s0 (execRetire mid s) := by
  unfold execRetire
  repeat' first
    | with_reducible first
        | assumption | apply State.lifeGo_keeps | apply outKeeps_next
    | dsimp only

theorem execDebugChallenge_keeps {s0 : State} (mid : Nat) (s : State) (h_s : Keeps s0 s) :
    OutKeeps s0 (execDebugChallenge mid s) := by
  unfold execDebugChallenge
  repeat' first
    | with_reducible first
        | assumption | apply State.lifeGo_keeps | apply outKeeps_next
    | dsimp only

theorem execDebugOpen_keeps {s0 : State} (mid : Nat) (s : State) (h_s : Keeps s0 s) :
    OutKeeps s0 (execDebugOpen mid s) := by
  unfold execDebugOpen
  repeat' first
    | with_reducible first
        | assumption | apply State.lifeGo_keeps | apply outKeeps_next
    | dsimp only

theorem execDebugClose_keeps {s0 : State} (mid : Nat) (s : State) (h_s : Keeps s0 s) :
    OutKeeps s0 (execDebugClose mid s) := by
  unfold execDebugClose
  repeat' first
    | with_reducible first
        | assumption | apply State.lifeGo_keeps | apply outKeeps_next
    | dsimp only

theorem execCommitImage_keeps {s0 : State} (mid : Nat) (s : State) (h_s : Keeps s0 s) :
    OutKeeps s0 (execCommitImage mid s) := by
  unfold execCommitImage
  repeat' first
    | with_reducible first
        | assumption | apply State.lifeGo_keeps | apply outKeeps_next
    | dsimp only

theorem execConfirmImage_keeps {s0 : State} (mid : Nat) (s : State) (h_s : Keeps s0 s) :
    OutKeeps s0 (execConfirmImage mid s) := by
  unfold execConfirmImage
  repeat' first
    | with_reducible first
        | assumption | apply State.lifeGo_keeps | apply outKeeps_next
    | dsimp only

theorem execWritePreset_keeps {s0 : State} (mid : Nat) (s : State) (h_s : Keeps s0 s) :
    OutKeeps s0 (execWritePreset mid s) := by
  unfold execWritePreset
  repeat' first
    | with_reducible first
        | assumption | apply State.lifeGo_keeps | apply outKeeps_next
    | dsimp only

theorem execLifeCmdUnassigned_keeps {s0 : State} (mid op : Nat) (s : State) (h_s : Keeps s0 s) :
    OutKeeps s0 (execLifeCmdUnassigned mid op s) := by
  unfold execLifeCmdUnassigned
  repeat' first
    | with_reducible first
        | assumption | apply keeps_ite | apply State.lifeGo_keeps | apply outKeeps_next | apply outKeeps_ite
    | split | dsimp only

theorem execDebugExpiry_keeps {s0 : State} (s : State) (h_s : Keeps s0 s) :
    OutKeeps s0 (execDebugExpiry s) := by
  unfold execDebugExpiry
  repeat' first
    | with_reducible first
        | assumption | apply keeps_ite | apply State.debugClose_keeps | apply State.passTo_keeps
        | apply outKeeps_next | apply outKeeps_ite
    | split | dsimp only

theorem execDebugChallengeExpiry_keeps {s0 : State} (s : State) (h_s : Keeps s0 s) :
    OutKeeps s0 (execDebugChallengeExpiry s) := by
  unfold execDebugChallengeExpiry
  repeat' first
    | with_reducible first
        | assumption | apply State.passTo_keeps | apply outKeeps_next
    | simp only [↓keeps_upd_iff] | (refine keeps_snd (by with_reducible assumption) ?_)
    | (refine keeps_some (by with_reducible assumption) ?_)
    | (refine keeps_next (by with_reducible assumption) ?_) | split | dsimp only

end Sys2Proof.Machine
end

