-- ==== Sys2Proof/Laws/PortsKeeps.lean ====
section
/-! SUPPORT. What the definitions of Machine/Ports.lean keep, one lemma each. -/

namespace Sys2Proof.Machine

set_option linter.all false

theorem State.setLink_keeps {s0 : State} (s : State) (n : Nat) (up : Bool) (h_s : Keeps s0 s) :
    Keeps s0 (State.setLink s n up) := by
  unfold State.setLink
  repeat' first
    | with_reducible first
        | assumption | apply keeps_ite | apply State.irq_keeps | apply State.putB_keeps
        | apply State.raise_keeps
    | split | dsimp only

theorem State.portCtlWrite_keeps {s0 : State} (s : State) (n : Nat) (v : Word32) (h_s : Keeps s0 s) :
    Keeps s0 (State.portCtlWrite s n v) := by
  unfold State.portCtlWrite
  repeat' first
    | with_reducible first
        | assumption | apply keeps_ite | apply State.put_keeps | apply State.raise_keeps
        | apply State.regStore_keeps | apply State.setLink_keeps
    | split | dsimp only

theorem execPortCtlWrite_keeps {s0 : State} (n : Nat) (v : Word32) (s : State) (h_s : Keeps s0 s) :
    OutKeeps s0 (execPortCtlWrite n v s) := by
  unfold execPortCtlWrite
  repeat' first
    | with_reducible first
        | assumption | apply keeps_ite | apply State.portCtlWrite_keeps | apply outKeeps_next
        | apply outKeeps_ite
    | split | dsimp only

theorem execPortLinkChange_keeps {s0 : State} (n : Nat) (link : LinkSense) (s : State) (h_s : Keeps s0 s) :
    OutKeeps s0 (execPortLinkChange n link s) := by
  unfold execPortLinkChange
  repeat' first
    | with_reducible first
        | assumption | apply keeps_ite | apply State.setLink_keeps | apply outKeeps_next | apply outKeeps_ite
    | simp only [↓keeps_upd_iff] | split | dsimp only

theorem execPortStatusRead_keeps {s0 : State} (n : Nat) (s : State) (h_s : Keeps s0 s) :
    OutKeeps s0 (execPortStatusRead n s) := by
  unfold execPortStatusRead
  repeat' first
    | with_reducible first
        | assumption | apply keeps_ite | apply State.clrIrq_keeps | apply outKeeps_next | apply outKeeps_ite
    | split | dsimp only

theorem State.putSupvLost_keeps {s0 : State} (s : State) (l : List Nat) (h_s : Keeps s0 s) :
    Keeps s0 (State.putSupvLost s l) := by
  unfold State.putSupvLost
  repeat' first
    | with_reducible first
        | assumption | apply State.irq_keeps
    | simp only [↓keeps_upd_iff] | dsimp only

theorem State.pairCtlWrite_keeps {s0 : State} (s : State) (k : Nat) (v : Word32) (h_s : Keeps s0 s) :
    Keeps s0 (State.pairCtlWrite s k v) := by
  unfold State.pairCtlWrite
  repeat' first
    | with_reducible first
        | assumption | apply keeps_ite | apply State.putSupvLost_keeps | apply State.regStore_keeps
        | apply State.setLink_keeps
    | simp only [↓keeps_upd_iff] | split | dsimp only

theorem execPairCtlWrite_keeps {s0 : State} (k : Nat) (v : Word32) (s : State) (h_s : Keeps s0 s) :
    OutKeeps s0 (execPairCtlWrite k v s) := by
  unfold execPairCtlWrite
  repeat' first
    | with_reducible first
        | assumption | apply keeps_ite | apply State.pairCtlWrite_keeps | apply outKeeps_next
        | apply outKeeps_ite
    | split | dsimp only

theorem execPairSupvTimeout_keeps {s0 : State} (k : Nat) (s : State) (h_s : Keeps s0 s) :
    OutKeeps s0 (execPairSupvTimeout k s) := by
  unfold execPairSupvTimeout
  repeat' first
    | with_reducible first
        | assumption | apply keeps_ite | apply State.putSupvLost_keeps | apply outKeeps_next
        | apply outKeeps_ite
    | split | dsimp only

theorem State.supvHeard_keeps {s0 : State} (s : State) (k : Nat) (h_s : Keeps s0 s) :
    Keeps s0 (State.supvHeard s k) := by
  unfold State.supvHeard
  repeat' first
    | with_reducible first
        | assumption | apply State.putSupvLost_keeps
    | simp only [↓keeps_upd_iff] | dsimp only

theorem State.sendPort_keeps {s0 : State} (s : State) (n : Nat) (octets : Bytes) (seq : Option Nat)
    (h_s : Keeps s0 s) : Keeps s0 (State.sendPort s n octets seq) := by
  unfold State.sendPort
  repeat' first
    | with_reducible first
        | assumption | apply keeps_ite | apply State.inc_keeps
    | simp only [↓keeps_upd_iff] | split | dsimp only

theorem State.sendPair_keeps {s0 : State} (s : State) (k : Nat) (lo hi : Bool) (octets : Bytes)
    (h_s : Keeps s0 s) : Keeps s0 (State.sendPair s k lo hi octets) := by
  unfold State.sendPair
  repeat' first
    | with_reducible first
        | assumption | apply keeps_ite | apply State.sendPort_keeps
    | simp only [↓keeps_upd_iff] | split | dsimp only

theorem State.sendMask_keeps {s0 : State} (s : State) (mask : Nat) (octets : Bytes) (h_s : Keeps s0 s) :
    Keeps s0 (State.sendMask s mask octets) := by
  unfold State.sendMask
  repeat' first
    | with_reducible first
        | assumption | apply State.sendPair_keeps
    | dsimp only

theorem execPrpSupervisionTx_keeps {s0 : State} (k : Nat) (s : State) (h_s : Keeps s0 s) :
    OutKeeps s0 (execPrpSupervisionTx k s) := by
  unfold execPrpSupervisionTx
  repeat' first
    | with_reducible first
        | assumption | apply keeps_ite | apply State.freeB_keeps | apply State.passTo_keeps
        | apply State.sendPair_keeps | apply outKeeps_next | apply outKeeps_ite
    | simp only [↓keeps_upd_iff] | split | dsimp only

theorem State.frameTake_keeps {s0 : State} (s : State) (src : Nat) (octets : Bytes) (v : MsgView)
    (h_s : Keeps s0 s) : Keeps s0 (State.frameTake s src octets v) := by
  unfold State.frameTake
  repeat' first
    | with_reducible first
        | assumption | apply outKeeps_next
    | simp only [↓keeps_upd_iff] | dsimp only

theorem State.frameDrop_keeps {s0 : State} (s : State) (id : Nat) (h_s : Keeps s0 s) :
    Keeps s0 (State.frameDrop s id) := by
  unfold State.frameDrop
  repeat' first
    | with_reducible first
        | intro _ | assumption
    | simp only [↓keeps_upd_iff] | dsimp only

theorem State.frameStage_keeps {s0 : State} (s : State) (id : Nat) (st : FrameStage) (h_s : Keeps s0 s) :
    Keeps s0 (State.frameStage s id st) := by
  unfold State.frameStage
  repeat' first
    | with_reducible first
        | intro _ | assumption | apply keeps_ite
    | simp only [↓keeps_upd_iff] | split | dsimp only

theorem State.dupAdd_keeps {s0 : State} (s : State) (k : Option (Nat × Nat × Nat)) (h_s : Keeps s0 s) :
    Keeps s0 (State.dupAdd s k) := by
  unfold State.dupAdd
  repeat' first
    | with_reducible first
        | intro _ | assumption | apply keeps_ite
    | simp only [↓keeps_upd_iff] | (refine keeps_snd (by with_reducible assumption) ?_)
    | (refine keeps_snd3 (by with_reducible assumption) ?_)
    | (refine keeps_some (by with_reducible assumption) ?_)
    | (refine keeps_some2 (by with_reducible assumption) ?_) | split | dsimp only

theorem execDupEntryForget_keeps {s0 : State} (k : Nat) (s : State) (h_s : Keeps s0 s) :
    OutKeeps s0 (execDupEntryForget k s) := by
  unfold execDupEntryForget
  repeat' first
    | with_reducible first
        | intro _ | assumption | apply State.passTo_keeps | apply outKeeps_next
    | simp only [↓keeps_upd_iff] | (refine keeps_snd (by with_reducible assumption) ?_)
    | (refine keeps_some (by with_reducible assumption) ?_)
    | (refine keeps_next (by with_reducible assumption) ?_)
    | (refine keeps_key (by with_reducible assumption) ?_) | split | dsimp only

theorem State.portTake_keeps {s0 : State} (s : State) (n : Nat) (f : WireFrame) (h_s : Keeps s0 s) :
    Keeps s0 (State.portTake s n f) := by
  unfold State.portTake
  repeat' first
    | with_reducible first
        | assumption | apply keeps_ite | apply State.dupAdd_keeps | apply State.frameTake_keeps
        | apply State.inc_keeps | apply State.sendPort_keeps
    | simp only [↓keeps_upd_iff] | (refine keeps_snd (by with_reducible assumption) ?_)
    | (refine keeps_some (by with_reducible assumption) ?_) | split | dsimp only

theorem execPortFrameRx_keeps {s0 : State} (n : Nat) (f : WireFrame) (s : State) (h_s : Keeps s0 s) :
    OutKeeps s0 (execPortFrameRx n f s) := by
  unfold execPortFrameRx
  repeat' first
    | with_reducible first
        | assumption | apply keeps_ite | apply State.inc64_keeps | apply State.inc_keeps
        | apply State.portTake_keeps | apply outKeeps_next | apply outKeeps_ite
    | split | dsimp only

end Sys2Proof.Machine
end

