-- ==== Sys2Proof/Laws/PtpKeeps.lean ====
section
/-! SUPPORT. What the definitions of Machine/Ptp.lean keep, one lemma each. -/

namespace Sys2Proof.Machine

set_option linter.all false

theorem State.runBmca_keeps {s0 : State} (s : State) (h_s : Keeps s0 s) : Keeps s0 (State.runBmca s) := by
  unfold State.runBmca
  repeat' first
    | with_reducible first
        | assumption
    | simp only [↓keeps_upd_iff] | dsimp only

theorem State.ptpDemote_keeps {s0 : State} (s : State) (q : Partner) (h_s : Keeps s0 s) :
    Keeps s0 (State.ptpDemote s q) := by
  unfold State.ptpDemote
  repeat' first
    | with_reducible first
        | intro _ | assumption | apply keeps_ite | apply State.evUnitFree_keeps | apply State.inc_keeps
        | apply State.raise_keeps | apply State.runBmca_keeps | apply State.setIrq_keeps
    | simp only [↓keeps_upd_iff] | split | dsimp only

theorem State.ptpOffset_keeps {s0 : State} (s : State) (q : Partner) (ns : Int) (h_s : Keeps s0 s) :
    Keeps s0 (State.ptpOffset s q ns) := by
  unfold State.ptpOffset
  repeat' first
    | with_reducible first
        | assumption | apply keeps_ite | apply State.servo_keeps
    | simp only [↓keeps_upd_iff] | split | dsimp only

theorem State.ptpHeard_keeps {s0 : State} (s : State) (q : Partner) (h_s : Keeps s0 s) :
    Keeps s0 (State.ptpHeard s q) := by
  unfold State.ptpHeard
  repeat' first
    | with_reducible first
        | assumption | apply keeps_ite
    | simp only [↓keeps_upd_iff] | split | dsimp only

theorem State.ptpSend_keeps {s0 : State} (s : State) (len port : Nat) (h_s : Keeps s0 s) :
    Keeps s0 (State.ptpSend s len port) := by
  unfold State.ptpSend
  repeat' first
    | with_reducible first
        | assumption | apply State.freeB_keeps | apply State.sendPort_keeps
    | dsimp only

theorem State.ptpForward_keeps {s0 : State} (s : State) (q : Partner) (k : Nat) (h_s : Keeps s0 s) :
    Keeps s0 (State.ptpForward s q k) := by
  unfold State.ptpForward
  repeat' first
    | with_reducible first
        | intro _ | assumption | apply keeps_ite | apply State.ptpSend_keeps | apply keeps_foldl
    | split | dsimp only

theorem State.ptpUse_keeps {s0 : State} (s : State) (q : Partner) (x0 : PtpMsg) (h_s : Keeps s0 s) :
    Keeps s0 (State.ptpUse s q x0) := by
  unfold State.ptpUse
  repeat' first
    | with_reducible first
        | intro _ | assumption | apply keeps_ite | apply State.inc_keeps | apply State.ptpDemote_keeps
        | apply State.ptpForward_keeps | apply State.ptpHeard_keeps | apply State.ptpOffset_keeps
        | apply State.ptpSend_keeps | apply State.runBmca_keeps
    | simp only [↓keeps_upd_iff] | split | dsimp only

theorem State.ptpRx_keeps {s0 : State} (s : State) (ident port : Nat) (m : PtpMsg) (h_s : Keeps s0 s) :
    Keeps s0 (State.ptpRx s ident port m) := by
  unfold State.ptpRx
  repeat' first
    | with_reducible first
        | intro _ | assumption | apply keeps_ite | apply State.inc_keeps | apply State.ptpUse_keeps
    | split | dsimp only

theorem execPtpMessageRx_keeps {s0 : State} (ident port : Nat) (m : PtpMsg) (s : State) (h_s : Keeps s0 s) :
    OutKeeps s0 (execPtpMessageRx ident port m s) := by
  unfold execPtpMessageRx
  repeat' first
    | with_reducible first
        | assumption | apply State.ptpRx_keeps | apply outKeeps_next
    | dsimp only

theorem execPtpDemoteExpiry_keeps {s0 : State} (s : State) (h_s : Keeps s0 s) :
    OutKeeps s0 (execPtpDemoteExpiry s) := by
  unfold execPtpDemoteExpiry
  repeat' first
    | with_reducible first
        | assumption | apply State.passTo_keeps | apply outKeeps_next
    | simp only [↓keeps_upd_iff] | (refine keeps_next (by with_reducible assumption) ?_) | split | dsimp only

theorem execPtpSyncTx_keeps {s0 : State} (port : Nat) (s : State) (h_s : Keeps s0 s) :
    OutKeeps s0 (execPtpSyncTx port s) := by
  unfold execPtpSyncTx
  repeat' first
    | with_reducible first
        | assumption | apply keeps_ite | apply State.ptpSend_keeps | apply outKeeps_next | apply outKeeps_ite
    | split | dsimp only

theorem execPdelayReqTx_keeps {s0 : State} (port : Nat) (s : State) (h_s : Keeps s0 s) :
    OutKeeps s0 (execPdelayReqTx port s) := by
  unfold execPdelayReqTx
  repeat' first
    | with_reducible first
        | assumption | apply keeps_ite | apply State.ptpSend_keeps | apply outKeeps_next | apply outKeeps_ite
    | split | dsimp only

end Sys2Proof.Machine
end

