-- ==== Sys2Proof/Laws/PathKeeps.lean ====
section
/-! SUPPORT. What the definitions of Machine/Path.lean keep, one lemma each. -/

namespace Sys2Proof.Machine

set_option linter.all false

theorem State.lastStatus_keeps {s0 : State} (s : State) (i src st : Nat) (h_s : Keeps s0 s) :
    Keeps s0 (State.lastStatus s i src st) := by
  unfold State.lastStatus
  repeat' first
    | with_reducible first
        | assumption | apply State.setEntry_keeps
    | dsimp only

theorem State.entryCount_keeps {s0 : State} (s : State) (i : Nat) (f : EFld) (n : Nat) (h_s : Keeps s0 s) :
    Keeps s0 (State.entryCount s i f n) := by
  unfold State.entryCount
  repeat' first
    | with_reducible first
        | assumption | apply State.setEntry_keeps
    | dsimp only

theorem State.deliver_keeps {s0 : State} (s : State) (d : Deliv) (status : Nat) (accepted : Bool)
    (h_s : Keeps s0 s) : Keeps s0 (State.deliver s d status accepted) := by
  unfold State.deliver
  repeat' first
    | with_reducible first
        | assumption | apply keeps_ite | apply State.enqueue_keeps | apply State.lastStatus_keeps
        | apply State.sendMask_keeps
    | split | dsimp only

theorem State.holdDefault_keeps {s0 : State} (s : State) (d : Deliv) (h_s : Keeps s0 s) :
    Keeps s0 (State.holdDefault s d) := by
  unfold State.holdDefault
  repeat' first
    | with_reducible first
        | assumption | apply keeps_ite | apply State.deliver_keeps | apply State.entryCount_keeps
    | split | dsimp only

theorem State.heldCount_keeps {s0 : State} (s : State) (h_s : Keeps s0 s) : Keeps s0 (State.heldCount s) := by
  unfold State.heldCount
  repeat' first
    | with_reducible first
        | assumption | apply State.put_keeps
    | dsimp only

theorem State.holdFrame_keeps {s0 : State} (s : State) (d : Deliv) (status : Nat) (h_s : Keeps s0 s) : Keeps s0 (State.holdFrame s d status) := by
  unfold State.holdFrame
  generalize (List.range 1024).find? (fun k => (tget s.data.held k).isNone) = o
  cases o with
  | none => exact State.holdDefault_keeps _ _ (State.inc_keeps _ _ h_s)
  | some k =>
    apply State.heldCount_keeps
    simp only [↓keeps_upd_iff]
    exact h_s

theorem State.noMatch_keeps {s0 : State} (s : State) (f : Frame) (h_s : Keeps s0 s) :
    Keeps s0 (State.noMatch s f) := by
  unfold State.noMatch
  repeat' first
    | with_reducible first
        | assumption | apply keeps_ite | apply State.enqueue_keeps | apply State.frameDrop_keeps
        | apply State.inc_keeps
    | split | dsimp only

theorem State.frameMatched_keeps {s0 : State} (s : State) (f : Frame) (i : Nat) (h_s : Keeps s0 s) :
    Keeps s0 (State.frameMatched s f i) := by
  unfold State.frameMatched
  repeat' first
    | with_reducible first
        | assumption | apply keeps_ite | apply State.entryCount_keeps | apply State.entryRead_keeps
        | apply State.frameDrop_keeps | apply State.frameStage_keeps | apply State.hotUse_keeps
        | apply State.inc_keeps | apply State.lastStatus_keeps | apply State.noMatch_keeps
    | split | dsimp only

theorem State.classQueue_keeps {s0 : State} (s : State) (f : Frame) (q : Nat) (h_s : Keeps s0 s) :
    Keeps s0 (State.classQueue s f q) := by
  unfold State.classQueue
  repeat' first
    | with_reducible first
        | assumption | apply State.enqueue_keeps
    | dsimp only

theorem State.classify_keeps {s0 : State} (s : State) (f : Frame) (h_s : Keeps s0 s) :
    Keeps s0 (State.classify s f) := by
  unfold State.classify
  repeat' first
    | with_reducible first
        | assumption | apply keeps_ite | apply State.classQueue_keeps | apply State.frameDrop_keeps
        | apply State.frameMatched_keeps | apply State.frameStage_keeps | apply State.inc64_keeps
        | apply State.inc_keeps | apply State.noMatch_keeps | apply State.ptpRx_keeps
        | apply State.supvHeard_keeps
    | simp only [↓keeps_upd_iff] | (refine keeps_snd (by with_reducible assumption) ?_)
    | (refine keeps_some (by with_reducible assumption) ?_)
    | (refine keeps_some2 (by with_reducible assumption) ?_)
    | (refine keeps_key (by with_reducible assumption) ?_) | split | dsimp only

theorem execFrameClassify_keeps {s0 : State} (s : State) (h_s : Keeps s0 s) :
    OutKeeps s0 (execFrameClassify s) := by
  unfold execFrameClassify
  repeat' first
    | with_reducible first
        | intro _ | assumption | apply State.classify_keeps | apply outKeeps_next
    | simp only [↓keeps_upd_iff] | (refine keeps_snd (by with_reducible assumption) ?_)
    | (refine keeps_some (by with_reducible assumption) ?_)
    | (refine keeps_next (by with_reducible assumption) ?_)
    | (refine keeps_key (by with_reducible assumption) ?_) | split | dsimp only

theorem State.fillFor_keeps {s0 : State} (s : State) (f : Frame) (i : Nat) (h_s : Keeps s0 s) :
    Keeps s0 (State.fillFor s f i) := by
  unfold State.fillFor
  repeat' first
    | with_reducible first
        | intro _ | assumption | apply keeps_ite | apply State.dramRead_keeps | apply State.fillWay_keeps
        | apply State.frameMatched_keeps | apply State.noMatch_keeps | apply State.supCheck_keeps
        | apply State.wayFor_keeps
    | simp only [↓keeps_upd_iff] | simp only [↓keeps_upd_mem_iff]
    | (refine keeps_snd (by with_reducible assumption) ?_)
    | (refine keeps_snd3 (by with_reducible assumption) ?_)
    | (refine keeps_some (by with_reducible assumption) ?_)
    | (refine keeps_some2 (by with_reducible assumption) ?_)
    | (refine keeps_next (by with_reducible assumption) ?_)
    | (refine keeps_key (by with_reducible assumption) ?_)
    | (refine keeps_okS (by with_reducible assumption) ?_)
    | (refine keeps_okS2 (by with_reducible assumption) ?_)
    | (refine keeps_excS (by with_reducible assumption) ?_)
    | (refine keeps_ok (by with_reducible assumption) ?_)
    | (refine keeps_exc (by with_reducible assumption) ?_)
    | (refine keeps_sndC (by with_reducible assumption) ?_) | split | dsimp only

theorem execHotCacheFill_keeps {s0 : State} (id : Nat) (env : FabEnv) (u : State) (h_u : Keeps s0 u) :
    OutKeeps s0 (execHotCacheFill id env u) := by
  unfold execHotCacheFill
  repeat' first
    | with_reducible first
        | intro _ | assumption | apply keeps_ite | apply State.disturb_keeps | apply State.fillFor_keeps
        | apply State.frameDrop_keeps | apply outKeeps_next | apply outKeeps_ite
    | simp only [↓keeps_upd_iff] | (refine keeps_snd (by with_reducible assumption) ?_)
    | (refine keeps_some (by with_reducible assumption) ?_)
    | (refine keeps_next (by with_reducible assumption) ?_)
    | (refine keeps_key (by with_reducible assumption) ?_) | split | dsimp only

theorem State.frameFail_keeps {s0 : State} (s : State) (f : Frame) (i st epoch : Nat) (h_s : Keeps s0 s) :
    Keeps s0 (State.frameFail s f i st epoch) := by
  unfold State.frameFail
  repeat' first
    | with_reducible first
        | assumption | apply keeps_ite | apply State.deliver_keeps | apply State.entryCount_keeps
        | apply State.frameDrop_keeps | apply State.lastStatus_keeps
    | split | dsimp only

theorem State.laneCheck_keeps {s0 : State} (s : State) (f : Frame) (i lane : Nat) (x : ExtView)
    (h_s : Keeps s0 s) : Keeps s0 (State.laneCheck s f i lane x) := by
  unfold State.laneCheck
  repeat' first
    | with_reducible first
        | assumption | apply keeps_ite | apply State.frameFail_keeps | apply State.frameStage_keeps
        | apply State.inc64_keeps | apply State.pegUse_keeps
    | simp only [↓keeps_upd_iff] | (refine keeps_snd (by with_reducible assumption) ?_)
    | (refine keeps_snd3 (by with_reducible assumption) ?_)
    | (refine keeps_some (by with_reducible assumption) ?_)
    | (refine keeps_some2 (by with_reducible assumption) ?_) | split | dsimp only

theorem execBowVerify_keeps {s0 : State} (id lane : Nat) (s : State) (h_s : Keeps s0 s) :
    OutKeeps s0 (execBowVerify id lane s) := by
  unfold execBowVerify
  repeat' first
    | with_reducible first
        | intro _ | assumption | apply keeps_ite | apply State.entryRead_keeps | apply State.frameDrop_keeps
        | apply State.frameFail_keeps | apply State.laneCheck_keeps | apply State.noMatch_keeps
        | apply State.settle_keeps | apply outKeeps_next | apply outKeeps_ite
    | simp only [↓keeps_upd_iff] | (refine keeps_snd (by with_reducible assumption) ?_)
    | (refine keeps_some (by with_reducible assumption) ?_)
    | (refine keeps_next (by with_reducible assumption) ?_)
    | (refine keeps_key (by with_reducible assumption) ?_) | split | dsimp only

theorem State.sampleIn_keeps {s0 : State} (s : State) (i : Nat) (v : MsgView) (h_s : Keeps s0 s) :
    Keeps s0 (State.sampleIn s i v) := by
  unfold State.sampleIn
  repeat' first
    | with_reducible first
        | assumption | apply keeps_ite
    | simp only [↓keeps_upd_iff] | (refine keeps_snd (by with_reducible assumption) ?_)
    | (refine keeps_snd3 (by with_reducible assumption) ?_)
    | (refine keeps_some (by with_reducible assumption) ?_) | split | dsimp only

theorem State.replayFrame_keeps {s0 : State} (s : State) (f : Frame) (i epoch : Nat) (b : Bool)
    (h_s : Keeps s0 s) : Keeps s0 (State.replayFrame s f i epoch b) := by
  unfold State.replayFrame
  repeat' first
    | with_reducible first
        | assumption | apply keeps_ite | apply State.deliver_keeps | apply State.dupAdd_keeps
        | apply State.frameDrop_keeps | apply State.frameFail_keeps | apply State.holdFrame_keeps
        | apply State.inc_keeps | apply State.lastStatus_keeps | apply State.sampleIn_keeps
        | apply State.setEntry_keeps
    | simp only [↓keeps_upd_iff] | (refine keeps_snd (by with_reducible assumption) ?_) | split | dsimp only

theorem execReplayStep_keeps {s0 : State} (id : Nat) (s : State) (h_s : Keeps s0 s) :
    OutKeeps s0 (execReplayStep id s) := by
  unfold execReplayStep
  repeat' first
    | with_reducible first
        | intro _ | assumption | apply keeps_ite | apply State.entryRead_keeps | apply State.frameDrop_keeps
        | apply State.noMatch_keeps | apply State.replayFrame_keeps | apply outKeeps_next
        | apply outKeeps_ite
    | simp only [↓keeps_upd_iff] | (refine keeps_snd (by with_reducible assumption) ?_)
    | (refine keeps_some (by with_reducible assumption) ?_)
    | (refine keeps_next (by with_reducible assumption) ?_)
    | (refine keeps_key (by with_reducible assumption) ?_) | split | dsimp only

theorem execBowSpentSlotRead_keeps {s0 : State} (s : State) (h_s : Keeps s0 s) :
    OutKeeps s0 (execBowSpentSlotRead s) := by
  unfold execBowSpentSlotRead
  repeat' first
    | with_reducible first
        | assumption | apply State.clrIrq_keeps | apply outKeeps_next
    | dsimp only

theorem execBowWarnSlotRead_keeps {s0 : State} (s : State) (h_s : Keeps s0 s) :
    OutKeeps s0 (execBowWarnSlotRead s) := by
  unfold execBowWarnSlotRead
  repeat' first
    | with_reducible first
        | assumption | apply State.clrIrq_keeps | apply outKeeps_next
    | dsimp only

theorem execPtpDemotedRead_keeps {s0 : State} (s : State) (h_s : Keeps s0 s) :
    OutKeeps s0 (execPtpDemotedRead s) := by
  unfold execPtpDemotedRead
  repeat' first
    | with_reducible first
        | assumption | apply State.clrIrq_keeps | apply outKeeps_next
    | dsimp only

theorem execBowKatRun_keeps {s0 : State} (lane : Nat) (pass : Bool) (s : State) (h_s : Keeps s0 s) :
    OutKeeps s0 (execBowKatRun lane pass s) := by
  unfold execBowKatRun
  repeat' first
    | with_reducible first
        | assumption | apply keeps_ite | apply State.pass_keeps | apply State.put_keeps
        | apply State.raise_keeps | apply State.setIrq_keeps | apply outKeeps_next | apply outKeeps_ite
    | simp only [↓keeps_upd_iff] | split | dsimp only

end Sys2Proof.Machine
end

