-- ==== Sys2Proof/Laws/ReleaseKeeps.lean ====
section
/-! SUPPORT. What the definitions of Machine/Release.lean keep, one lemma each. -/

namespace Sys2Proof.Machine

set_option linter.all false

theorem State.subDone_keeps {s0 : State} (s : State) (q count status : Nat) (assoc : Option Nat)
    (epoch len : Nat) (h_s : Keeps s0 s) : Keeps s0 (State.subDone s q count status assoc epoch len) := by
  unfold State.subDone
  repeat' first
    | with_reducible first
        | intro _ | assumption | apply keeps_ite | apply State.free_keeps | apply State.setQueue_keeps
    | simp only [↓keeps_upd_iff] | split | dsimp only

theorem State.putRel_keeps {s0 : State} (s : State) (l : List (Nat × RelReq)) (h_s : Keeps s0 s) :
    Keeps s0 (State.putRel s l) := by
  unfold State.putRel
  repeat' first
    | with_reducible first
        | assumption | apply State.put_keeps
    | simp only [↓keeps_upd_iff] | dsimp only

theorem State.relRecord_keeps {s0 : State} (s : State) (r : RelReq) (st : Nat) (h_s : Keeps s0 s) :
    Keeps s0 (State.relRecord s r st) := by
  unfold State.relRecord
  repeat' first
    | with_reducible first
        | assumption | apply keeps_ite | apply State.evUnitNaming_keeps | apply State.free_keeps
    | split | dsimp only

theorem State.publishCount_keeps {s0 : State} (s : State) (i octets st : Nat) (h_s : Keeps s0 s) :
    Keeps s0 (State.publishCount s i octets st) := by
  unfold State.publishCount
  repeat' first
    | with_reducible first
        | assumption | apply keeps_ite | apply State.setEntry_keeps
    | split | dsimp only

theorem State.relFinish_keeps {s0 : State} (s : State) (r : RelReq) (st epoch : Nat) (h_s : Keeps s0 s) :
    Keeps s0 (State.relFinish s r st epoch) := by
  unfold State.relFinish
  repeat' first
    | with_reducible first
        | assumption | apply keeps_ite | apply State.inc_keeps | apply State.publishCount_keeps
        | apply State.relRecord_keeps | apply State.subDone_keeps
    | simp only [↓keeps_upd_iff] | (refine keeps_snd (by with_reducible assumption) ?_)
    | (refine keeps_some (by with_reducible assumption) ?_)
    | (refine keeps_some2 (by with_reducible assumption) ?_) | split | dsimp only

theorem State.relEnd_keeps {s0 : State} (s : State) (k st epoch : Nat) (h_s : Keeps s0 s) :
    Keeps s0 (State.relEnd s k st epoch) := by
  unfold State.relEnd
  repeat' first
    | with_reducible first
        | assumption | apply State.putRel_keeps | apply State.relFinish_keeps
    | simp only [↓keeps_upd_iff] | (refine keeps_snd (by with_reducible assumption) ?_)
    | (refine keeps_some (by with_reducible assumption) ?_) | split | dsimp only

theorem State.relAlarm_keeps {s0 : State} (s : State) (k which : Nat) (h_s : Keeps s0 s) :
    Keeps s0 (State.relAlarm s k which) := by
  unfold State.relAlarm
  repeat' first
    | with_reducible first
        | intro _ | assumption | apply State.put_keeps | apply State.raise_keeps | apply State.relEnd_keeps
        | apply keeps_foldl
    | dsimp only

theorem State.relEnter_keeps {s0 : State} (s : State) (i : Nat) (octets : Bytes) (v : MsgView)
    (host : Option (Nat × Nat)) (engine : Nat) (h_s : Keeps s0 s) :
    Keeps s0 (State.relEnter s i octets v host engine) := by
  unfold State.relEnter
  repeat' first
    | with_reducible first
        | intro _ | assumption | apply keeps_ite | apply State.putRel_keeps | apply State.relFinish_keeps
    | simp only [↓keeps_upd_iff] | (refine keeps_snd (by with_reducible assumption) ?_)
    | (refine keeps_snd3 (by with_reducible assumption) ?_)
    | (refine keeps_some (by with_reducible assumption) ?_)
    | (refine keeps_key (by with_reducible assumption) ?_) | split | dsimp only

theorem State.relWords_keeps {s0 : State} (s : State) (k st va vb : Nat) (h_s : Keeps s0 s) :
    Keeps s0 (State.relWords s k st va vb) := by
  unfold State.relWords
  repeat' first
    | with_reducible first
        | assumption | apply State.putRel_keeps
    | simp only [↓keeps_upd_iff] | (refine keeps_snd (by with_reducible assumption) ?_)
    | (refine keeps_some (by with_reducible assumption) ?_) | split | dsimp only

theorem State.relMismatch_keeps {s0 : State} (s : State) (k : Nat) (h_s : Keeps s0 s) :
    Keeps s0 (State.relMismatch s k) := by
  unfold State.relMismatch
  repeat' first
    | with_reducible first
        | assumption | apply State.raise_keeps | apply State.relEnd_keeps
    | dsimp only

theorem State.relDecide_keeps {s0 : State} (s : State) (k : Nat) (r : RelReq) (h_s : Keeps s0 s) :
    Keeps s0 (State.relDecide s k r) := by
  unfold State.relDecide
  repeat' first
    | with_reducible first
        | assumption | apply keeps_ite | apply State.relEnd_keeps | apply State.relMismatch_keeps
        | apply State.relWords_keeps
    | split | dsimp only

theorem State.heldFree_keeps {s0 : State} (s : State) (k : Nat) (h_s : Keeps s0 s) :
    Keeps s0 (State.heldFree s k) := by
  unfold State.heldFree
  repeat' first
    | with_reducible first
        | assumption | apply State.heldCount_keeps
    | simp only [↓keeps_upd_iff] | dsimp only

theorem State.heldDecide_keeps {s0 : State} (s : State) (k : Nat) (h : Held) (code : Nat) (h_s : Keeps s0 s) :
    Keeps s0 (State.heldDecide s k h code) := by
  unfold State.heldDecide
  repeat' first
    | with_reducible first
        | assumption | apply keeps_ite | apply State.deliver_keeps | apply State.entryCount_keeps
        | apply State.heldFree_keeps | apply State.lastStatus_keeps
    | split | dsimp only

theorem State.plausReport_keeps {s0 : State} (s : State) (i : Nat) (h_s : Keeps s0 s) :
    Keeps s0 (State.plausReport s i) := by
  unfold State.plausReport
  repeat' first
    | with_reducible first
        | assumption | apply keeps_ite | apply State.entryCount_keeps | apply State.inc_keeps
        | apply State.statusItem_keeps
    | simp only [↓keeps_upd_iff] | split | dsimp only

theorem State.noteVerdict_keeps {s0 : State} (s : State) (n ref : Nat) (h_s : Keeps s0 s) :
    Keeps s0 (State.noteVerdict s n ref) := by
  unfold State.noteVerdict
  repeat' first
    | with_reducible first
        | assumption
    | simp only [↓keeps_upd_iff] | dsimp only

theorem State.relVerdict_keeps {s0 : State} (s : State) (n k ref code : Nat) (h_s : Keeps s0 s) :
    Keeps s0 (State.relVerdict s n k ref code) := by
  unfold State.relVerdict
  repeat' first
    | with_reducible first
        | assumption | apply keeps_ite | apply State.inc_keeps | apply State.noteVerdict_keeps
        | apply State.putRel_keeps | apply State.relAlarm_keeps | apply State.relDecide_keeps
    | simp only [↓keeps_upd_iff] | (refine keeps_snd (by with_reducible assumption) ?_)
    | (refine keeps_some (by with_reducible assumption) ?_) | split | dsimp only

theorem State.verdictCommit_keeps {s0 : State} (s : State) (n : Nat) (trust : Bool) (ref code : Nat)
    (h_s : Keeps s0 s) : Keeps s0 (State.verdictCommit s n trust ref code) := by
  unfold State.verdictCommit
  repeat' first
    | with_reducible first
        | assumption | apply keeps_ite | apply State.heldDecide_keeps | apply State.inc_keeps
        | apply State.noteVerdict_keeps | apply State.plausReport_keeps | apply State.relVerdict_keeps
    | simp only [↓keeps_upd_iff] | (refine keeps_snd (by with_reducible assumption) ?_)
    | (refine keeps_some (by with_reducible assumption) ?_) | split | dsimp only

theorem State.relEdgeOne_keeps {s0 : State} (s : State) (k : Nat) (h_s : Keeps s0 s) :
    Keeps s0 (State.relEdgeOne s k) := by
  unfold State.relEdgeOne
  repeat' first
    | with_reducible first
        | assumption | apply keeps_ite | apply State.inc_keeps | apply State.putRel_keeps
        | apply State.relAlarm_keeps | apply State.relDecide_keeps | apply State.relMismatch_keeps
    | simp only [↓keeps_upd_iff] | (refine keeps_snd (by with_reducible assumption) ?_)
    | (refine keeps_some (by with_reducible assumption) ?_) | split | dsimp only

theorem State.relEdge_keeps {s0 : State} (s : State) (h_s : Keeps s0 s) : Keeps s0 (State.relEdge s) := by
  unfold State.relEdge
  repeat' first
    | with_reducible first
        | intro _ | assumption | apply State.relEdgeOne_keeps | apply keeps_foldl
    | dsimp only

theorem State.relScan_keeps {s0 : State} (s : State) (h_s : Keeps s0 s) : Keeps s0 (State.relScan s) := by
  unfold State.relScan
  repeat' first
    | with_reducible first
        | intro _ | assumption | apply State.relAlarm_keeps | apply keeps_foldl
    | simp only [↓keeps_upd_iff] | (refine keeps_snd (by with_reducible assumption) ?_)
    | (refine keeps_some (by with_reducible assumption) ?_) | split | dsimp only

theorem State.heldForm_keeps {s0 : State} (s : State) (h_s : Keeps s0 s) : Keeps s0 (State.heldForm s) := by
  unfold State.heldForm
  repeat' first
    | with_reducible first
        | intro _ | assumption
    | simp only [↓keeps_upd_iff] | dsimp only

theorem State.objEdge_keeps {s0 : State} (s : State) (h_s : Keeps s0 s) : Keeps s0 (State.objEdge s) := by
  unfold State.objEdge
  repeat' first
    | with_reducible first
        | assumption | apply keeps_ite
    | simp only [↓keeps_upd_iff] | split | dsimp only

theorem State.drawD_keeps {s0 : State} (u : State) (h_u : Keeps s0 u) : Keeps s0 (State.drawD u) := by
  unfold State.drawD
  repeat' first
    | with_reducible first
        | intro _ | assumption | apply keeps_ite | apply State.inc_keeps | apply State.keyloadDraw_keeps
        | apply State.put_keeps | apply State.rosinTake_keeps | apply keeps_foldl
    | simp only [↓keeps_upd_iff] | (refine keeps_snd (by with_reducible assumption) ?_) | split | dsimp only

theorem execHoldExpiry_keeps {s0 : State} (k : Nat) (s : State) (h_s : Keeps s0 s) :
    OutKeeps s0 (execHoldExpiry k s) := by
  unfold execHoldExpiry
  repeat' first
    | with_reducible first
        | assumption | apply keeps_ite | apply State.heldFree_keeps | apply State.holdDefault_keeps
        | apply outKeeps_next | apply outKeeps_ite
    | simp only [↓keeps_upd_iff] | (refine keeps_snd (by with_reducible assumption) ?_)
    | (refine keeps_some (by with_reducible assumption) ?_)
    | (refine keeps_next (by with_reducible assumption) ?_) | split | dsimp only

theorem execRequestTimeout_keeps {s0 : State} (k : Nat) (s : State) (h_s : Keeps s0 s) :
    OutKeeps s0 (execRequestTimeout k s) := by
  unfold execRequestTimeout
  repeat' first
    | with_reducible first
        | assumption | apply keeps_ite | apply State.relAlarm_keeps | apply State.relEnd_keeps
        | apply outKeeps_next | apply outKeeps_ite
    | simp only [↓keeps_upd_iff] | (refine keeps_snd (by with_reducible assumption) ?_)
    | (refine keeps_some (by with_reducible assumption) ?_)
    | (refine keeps_next (by with_reducible assumption) ?_) | split | dsimp only

theorem State.relRunCleared_keeps {s0 : State} (s : State) (h_s : Keeps s0 s) :
    Keeps s0 (State.relRunCleared s) := by
  unfold State.relRunCleared
  repeat' first
    | with_reducible first
        | intro _ | assumption | apply keeps_ite | apply State.relAlarm_keeps | apply State.relEnd_keeps
        | apply keeps_foldl
    | simp only [↓keeps_upd_iff] | (refine keeps_snd (by with_reducible assumption) ?_)
    | (refine keeps_some (by with_reducible assumption) ?_) | split | dsimp only

theorem State.signSend_keeps {s0 : State} (s : State) (k lane : Nat) (r : RelReq) (h_s : Keeps s0 s) :
    Keeps s0 (State.signSend s k lane r) := by
  unfold State.signSend
  repeat' first
    | with_reducible first
        | assumption | apply keeps_ite | apply State.inc64_keeps | apply State.pegUse_keeps
        | apply State.relEnd_keeps | apply State.sendMask_keeps
    | simp only [↓keeps_upd_iff] | (refine keeps_snd (by with_reducible assumption) ?_)
    | (refine keeps_some (by with_reducible assumption) ?_)
    | (refine keeps_some2 (by with_reducible assumption) ?_) | split | dsimp only

theorem execReleaseSignSend_keeps {s0 : State} (k lane : Nat) (s : State) (h_s : Keeps s0 s) :
    OutKeeps s0 (execReleaseSignSend k lane s) := by
  unfold execReleaseSignSend
  repeat' first
    | with_reducible first
        | assumption | apply keeps_ite | apply State.relAlarm_keeps | apply State.settle_keeps
        | apply State.signSend_keeps | apply outKeeps_next | apply outKeeps_ite
    | simp only [↓keeps_upd_iff] | (refine keeps_snd (by with_reducible assumption) ?_)
    | (refine keeps_some (by with_reducible assumption) ?_)
    | (refine keeps_next (by with_reducible assumption) ?_) | split | dsimp only

theorem State.relCtlWrite_keeps {s0 : State} (s : State) (v : Word32) (h_s : Keeps s0 s) :
    Keeps s0 (State.relCtlWrite s v) := by
  unfold State.relCtlWrite
  repeat' first
    | with_reducible first
        | intro _ | assumption | apply keeps_ite | apply State.put_keeps | apply State.raise_keeps
        | apply State.regStore_keeps
    | split | dsimp only

theorem execRelCtlWrite_keeps {s0 : State} (v : Word32) (s : State) (h_s : Keeps s0 s) :
    OutKeeps s0 (execRelCtlWrite v s) := by
  unfold execRelCtlWrite
  repeat' first
    | with_reducible first
        | assumption | apply State.relCtlWrite_keeps | apply outKeeps_next
    | dsimp only

end Sys2Proof.Machine
end

