-- ==== Sys2Proof/Laws/QueuesKeeps.lean ====
section
/-! SUPPORT. What the definitions of Machine/Queues.lean keep, one lemma each. -/

namespace Sys2Proof.Machine

set_option linter.all false

theorem State.gatePut_keeps {s0 : State} (s : State) (f : Nat → Nat → Nat) (h_s : Keeps s0 s) :
    Keeps s0 (State.gatePut s f) := by
  unfold State.gatePut
  repeat' first
    | with_reducible first
        | intro _ | assumption | apply State.put_keeps | apply keeps_foldl
    | dsimp only

theorem State.gateChange_keeps {s0 : State} (s : State) (h_s : Keeps s0 s) :
    Keeps s0 (State.gateChange s) := by
  unfold State.gateChange
  repeat' first
    | with_reducible first
        | assumption | apply State.gatePut_keeps | apply State.put_keeps
    | dsimp only

theorem State.putGated_keeps {s0 : State} (s : State) (g : Bool) (h_s : Keeps s0 s) :
    Keeps s0 (State.putGated s g) := by
  unfold State.putGated
  repeat' first
    | with_reducible first
        | assumption | apply keeps_ite | apply State.putB_keeps
    | simp only [↓keeps_upd_iff] | split | dsimp only

theorem execGatingRecompute_keeps {s0 : State} (s : State) (h_s : Keeps s0 s) :
    OutKeeps s0 (execGatingRecompute s) := by
  unfold execGatingRecompute
  repeat' first
    | with_reducible first
        | intro _ | assumption | apply State.gatePut_keeps | apply State.putGated_keeps | apply outKeeps_next
    | dsimp only

theorem State.queueDisable_keeps {s0 : State} (s : State) (q : Nat) (h_s : Keeps s0 s) :
    Keeps s0 (State.queueDisable s q) := by
  unfold State.queueDisable
  repeat' first
    | with_reducible first
        | intro _ | assumption | apply State.incBy_keeps | apply State.put_keeps
        | apply State.queueClear_keeps
    | dsimp only

theorem State.queueRefused_keeps {s0 : State} (s : State) (q : Nat) (h_s : Keeps s0 s) :
    Keeps s0 (State.queueRefused s q) := by
  unfold State.queueRefused
  repeat' first
    | with_reducible first
        | assumption | apply State.put_keeps | apply State.raise_keeps
    | dsimp only

theorem State.queueCfgWrite_keeps {s0 : State} (s : State) (q : Nat) (v : Word32) (h_s : Keeps s0 s) :
    Keeps s0 (State.queueCfgWrite s q v) := by
  unfold State.queueCfgWrite
  repeat' first
    | with_reducible first
        | assumption | apply keeps_ite | apply State.gateChange_keeps | apply State.put_keeps
        | apply State.queueDisable_keeps | apply State.queueRefused_keeps | apply State.setQueue_keeps
    | split | dsimp only

theorem execQueueCfgWrite_keeps {s0 : State} (q : Nat) (v : Word32) (s : State) (h_s : Keeps s0 s) :
    OutKeeps s0 (execQueueCfgWrite q v s) := by
  unfold execQueueCfgWrite
  repeat' first
    | with_reducible first
        | assumption | apply keeps_ite | apply State.queueCfgWrite_keeps | apply outKeeps_next
        | apply outKeeps_ite
    | split | dsimp only

theorem State.queueBaseWrite_keeps {s0 : State} (s : State) (q off : Nat) (v : Word32) (h_s : Keeps s0 s) :
    Keeps s0 (State.queueBaseWrite s q off v) := by
  unfold State.queueBaseWrite
  repeat' first
    | with_reducible first
        | assumption | apply keeps_ite | apply State.put_keeps | apply State.regStore_keeps
    | split | dsimp only

theorem State.doorbell_keeps {s0 : State} (s : State) (q p : Nat) (h_s : Keeps s0 s) :
    Keeps s0 (State.doorbell s q p) := by
  unfold State.doorbell
  repeat' first
    | with_reducible first
        | assumption | apply keeps_ite | apply State.inc_keeps | apply State.putUnread_keeps
        | apply State.put_keeps | apply State.queueStop_keeps
    | split | dsimp only

theorem State.doorbellWord_keeps {s0 : State} (s : State) (q off v : Nat) (h_s : Keeps s0 s) :
    Keeps s0 (State.doorbellWord s q off v) := by
  unfold State.doorbellWord
  repeat' first
    | with_reducible first
        | assumption | apply keeps_ite | apply State.doorbell_keeps | apply State.inc_keeps
    | split | dsimp only

theorem State.doorbellPage_keeps {s0 : State} (s : State) (q off : Nat) (w : Width) (v : Nat)
    (h_s : Keeps s0 s) : Keeps s0 (State.doorbellPage s q off w v) := by
  unfold State.doorbellPage
  repeat' first
    | with_reducible first
        | assumption | apply State.doorbellWord_keeps | apply State.inc_keeps
    | simp only [↓keeps_upd_iff] | (refine keeps_snd (by with_reducible assumption) ?_) | split | dsimp only

theorem execDoorbellWrite_keeps {s0 : State} (q off : Nat) (w : Width) (v : Nat) (s : State)
    (h_s : Keeps s0 s) : OutKeeps s0 (execDoorbellWrite q off w v s) := by
  unfold execDoorbellWrite
  repeat' first
    | with_reducible first
        | assumption | apply keeps_ite | apply State.doorbellPage_keeps | apply outKeeps_next
        | apply outKeeps_ite
    | split | dsimp only

theorem execDeliverySlotFetch_keeps {s0 : State} (q : Nat) (s : State) (h_s : Keeps s0 s) :
    OutKeeps s0 (execDeliverySlotFetch q s) := by
  unfold execDeliverySlotFetch
  repeat' first
    | with_reducible first
        | assumption | apply keeps_ite | apply State.setQueue_keeps | apply outKeeps_next
        | apply outKeeps_ite
    | simp only [↓keeps_upd_iff] | split | dsimp only

theorem State.deliverItem_keeps {s0 : State} (s : State) (q : Nat) (i : Item) (addr len : Nat)
    (h_s : Keeps s0 s) : Keeps s0 (State.deliverItem s q i addr len) := by
  unfold State.deliverItem
  repeat' first
    | with_reducible first
        | assumption | apply keeps_ite | apply State.complete_keeps | apply State.hostWrite_keeps
        | apply State.setQueue_keeps
    | simp only [↓keeps_upd_iff] | (refine keeps_snd (by with_reducible assumption) ?_)
    | (refine keeps_some (by with_reducible assumption) ?_) | split | dsimp only

theorem execQueueDeliver_keeps {s0 : State} (s : State) (h_s : Keeps s0 s) :
    OutKeeps s0 (execQueueDeliver s) := by
  unfold execQueueDeliver
  repeat' first
    | with_reducible first
        | assumption | apply State.deliverItem_keeps | apply State.takeTurn_keeps | apply outKeeps_next
    | simp only [↓keeps_upd_iff] | (refine keeps_snd (by with_reducible assumption) ?_)
    | (refine keeps_some (by with_reducible assumption) ?_)
    | (refine keeps_some2 (by with_reducible assumption) ?_)
    | (refine keeps_next (by with_reducible assumption) ?_) | split | dsimp only

theorem State.subEntered_keeps {s0 : State} (s : State) (q count : Nat) (h_s : Keeps s0 s) :
    Keeps s0 (State.subEntered s q count) := by
  unfold State.subEntered
  repeat' first
    | with_reducible first
        | intro _ | assumption | apply keeps_ite | apply State.setQueue_keeps
    | simp only [↓keeps_upd_iff] | split | dsimp only

theorem State.subRun_keeps {s0 : State} (s : State) (q count w0 w1 : Nat) (h_s : Keeps s0 s) :
    Keeps s0 (State.subRun s q count w0 w1) := by
  unfold State.subRun
  repeat' first
    | with_reducible first
        | assumption | apply keeps_ite | apply State.frameTake_keeps | apply State.inc_keeps
        | apply State.relEnter_keeps | apply State.sendMask_keeps | apply State.subDone_keeps
        | apply State.subEntered_keeps
    | simp only [↓keeps_upd_iff] | (refine keeps_snd (by with_reducible assumption) ?_)
    | (refine keeps_some (by with_reducible assumption) ?_)
    | (refine keeps_some2 (by with_reducible assumption) ?_) | split | dsimp only

theorem execSubmissionFetch_keeps {s0 : State} (s : State) (h_s : Keeps s0 s) :
    OutKeeps s0 (execSubmissionFetch s) := by
  unfold execSubmissionFetch
  repeat' first
    | with_reducible first
        | assumption | apply State.setQueue_keeps | apply State.settle_keeps | apply State.subRun_keeps
        | apply State.takeTurn_keeps | apply outKeeps_next
    | simp only [↓keeps_upd_iff] | (refine keeps_snd (by with_reducible assumption) ?_)
    | (refine keeps_snd3 (by with_reducible assumption) ?_)
    | (refine keeps_some (by with_reducible assumption) ?_)
    | (refine keeps_some2 (by with_reducible assumption) ?_)
    | (refine keeps_next (by with_reducible assumption) ?_) | split | dsimp only

theorem execSubmissionComplete_keeps {s0 : State} (q : Nat) (s : State) (h_s : Keeps s0 s) :
    OutKeeps s0 (execSubmissionComplete q s) := by
  unfold execSubmissionComplete
  repeat' first
    | with_reducible first
        | assumption | apply keeps_ite | apply State.complete_keeps | apply State.setQueue_keeps
        | apply outKeeps_next | apply outKeeps_ite
    | simp only [↓keeps_upd_iff] | (refine keeps_snd (by with_reducible assumption) ?_)
    | (refine keeps_next (by with_reducible assumption) ?_) | split | dsimp only

theorem execHostReadError_keeps {s0 : State} (q : Nat) (timeout : Bool) (s : State) (h_s : Keeps s0 s) :
    OutKeeps s0 (execHostReadError q timeout s) := by
  unfold execHostReadError
  repeat' first
    | with_reducible first
        | assumption | apply keeps_ite | apply State.queueStop_keeps | apply outKeeps_next
        | apply outKeeps_ite
    | split | dsimp only

theorem execBridgeErrRead_keeps {s0 : State} (s : State) (h_s : Keeps s0 s) :
    OutKeeps s0 (execBridgeErrRead s) := by
  unfold execBridgeErrRead
  repeat' first
    | with_reducible first
        | assumption | apply State.clrIrq_keeps | apply outKeeps_next
    | dsimp only

theorem execMsixFire_keeps {s0 : State} (v : Nat) (s : State) (h_s : Keeps s0 s) :
    OutKeeps s0 (execMsixFire v s) := by
  unfold execMsixFire
  repeat' first
    | with_reducible first
        | assumption | apply State.msiSend_keeps | apply State.passTo_keeps | apply outKeeps_next
    | simp only [↓keeps_upd_iff] | (refine keeps_snd (by with_reducible assumption) ?_)
    | (refine keeps_some (by with_reducible assumption) ?_)
    | (refine keeps_next (by with_reducible assumption) ?_) | split | dsimp only

theorem State.unmask_keeps {s0 : State} (s : State) (v : Nat) (h_s : Keeps s0 s) :
    Keeps s0 (State.unmask s v) := by
  unfold State.unmask
  repeat' first
    | with_reducible first
        | assumption | apply keeps_ite | apply State.msiSend_keeps | apply State.put_keeps
    | split | dsimp only

theorem execMsixUnmask_keeps {s0 : State} (v : Nat) (s : State) (h_s : Keeps s0 s) :
    OutKeeps s0 (execMsixUnmask v s) := by
  unfold execMsixUnmask
  repeat' first
    | with_reducible first
        | assumption | apply keeps_ite | apply State.unmask_keeps | apply outKeeps_next | apply outKeeps_ite
    | split | dsimp only

theorem State.fnSplitWrite_keeps {s0 : State} (s : State) (f : Nat) (vec : Bool) (v : Word32)
    (h_s : Keeps s0 s) : Keeps s0 (State.fnSplitWrite s f vec v) := by
  unfold State.fnSplitWrite
  repeat' first
    | with_reducible first
        | intro _ | assumption | apply keeps_ite | apply State.put_keeps | apply State.raise_keeps
        | apply State.regStore_keeps
    | split | dsimp only

theorem execFnSplitWrite_keeps {s0 : State} (f : Nat) (vec : Bool) (v : Word32) (s : State)
    (h_s : Keeps s0 s) : OutKeeps s0 (execFnSplitWrite f vec v s) := by
  unfold execFnSplitWrite
  repeat' first
    | with_reducible first
        | assumption | apply keeps_ite | apply State.fnSplitWrite_keeps | apply outKeeps_next
        | apply outKeeps_ite
    | split | dsimp only

theorem execVfEnableWrite_keeps {s0 : State} (on : Bool) (s : State) (h_s : Keeps s0 s) :
    OutKeeps s0 (execVfEnableWrite on s) := by
  unfold execVfEnableWrite
  repeat' first
    | with_reducible first
        | intro _ | assumption | apply keeps_ite | apply outKeeps_next | apply outKeeps_ite
    | simp only [↓keeps_upd_iff] | split | dsimp only

theorem State.regsReset_keeps {s0 : State} (s : State) (lo hi : Nat) (h_s : Keeps s0 s) :
    Keeps s0 (State.regsReset s lo hi) := by
  unfold State.regsReset
  repeat' first
    | with_reducible first
        | intro _ | assumption
    | simp only [↓keeps_upd_iff] | split | dsimp only

theorem execFunctionLevelReset_keeps {s0 : State} (f : Nat) (s : State) (h_s : Keeps s0 s) :
    OutKeeps s0 (execFunctionLevelReset f s) := by
  unfold execFunctionLevelReset
  repeat' first
    | with_reducible first
        | intro _ | assumption | apply keeps_ite | apply State.gateChange_keeps | apply State.incBy_keeps
        | apply State.put_keeps | apply State.queueDisable_keeps | apply State.regsReset_keeps
        | apply keeps_foldl | apply outKeeps_next | apply outKeeps_ite
    | split | dsimp only

theorem execFlrComplete_keeps {s0 : State} (f : Nat) (s : State) (h_s : Keeps s0 s) :
    OutKeeps s0 (execFlrComplete f s) := by
  unfold execFlrComplete
  repeat' first
    | with_reducible first
        | assumption | apply keeps_ite | apply State.put_keeps | apply State.setIrq_keeps
        | apply outKeeps_next | apply outKeeps_ite
    | split | dsimp only

theorem State.linkLine_keeps {s0 : State} (s : State) (h_s : Keeps s0 s) : Keeps s0 (State.linkLine s) := by
  unfold State.linkLine
  repeat' first
    | with_reducible first
        | assumption | apply State.irq_keeps
    | dsimp only

theorem execBridgeLinkUp_keeps {s0 : State} (gen width : Nat) (s : State) (h_s : Keeps s0 s) :
    OutKeeps s0 (execBridgeLinkUp gen width s) := by
  unfold execBridgeLinkUp
  repeat' first
    | with_reducible first
        | assumption | apply keeps_ite | apply State.gateChange_keeps | apply State.linkLine_keeps
        | apply State.putB_keeps | apply State.put_keeps | apply outKeeps_next | apply outKeeps_ite
    | split | dsimp only

theorem State.linkDown_keeps {s0 : State} (s : State) (h_s : Keeps s0 s) : Keeps s0 (State.linkDown s) := by
  unfold State.linkDown
  repeat' first
    | with_reducible first
        | intro _ | assumption | apply State.evUnitFree_keeps | apply State.gateChange_keeps
        | apply State.linkLine_keeps | apply State.put_keeps | apply State.queueDisable_keeps
        | apply State.raise_keeps | apply State.settle_keeps | apply keeps_foldl
    | dsimp only

theorem execBridgeLinkDown_keeps {s0 : State} (s : State) (h_s : Keeps s0 s) :
    OutKeeps s0 (execBridgeLinkDown s) := by
  unfold execBridgeLinkDown
  repeat' first
    | with_reducible first
        | assumption | apply keeps_ite | apply State.linkDown_keeps | apply outKeeps_next
        | apply outKeeps_ite
    | split | dsimp only

theorem State.spdmAnswer_keeps {s0 : State} (s : State) (m : Bytes) (code : Nat) (x : Option Spdm)
    (h_s : Keeps s0 s) : Keeps s0 (State.spdmAnswer s m code x) := by
  unfold State.spdmAnswer
  repeat' first
    | with_reducible first
        | assumption | apply keeps_ite
    | simp only [↓keeps_upd_iff] | (refine keeps_snd (by with_reducible assumption) ?_)
    | (refine keeps_snd3 (by with_reducible assumption) ?_)
    | (refine keeps_some (by with_reducible assumption) ?_)
    | (refine keeps_some2 (by with_reducible assumption) ?_) | split | dsimp only

theorem execDoeRequest_keeps {s0 : State} (r : DoeReq) (s : State) (h_s : Keeps s0 s) :
    OutKeeps s0 (execDoeRequest r s) := by
  unfold execDoeRequest
  repeat' first
    | with_reducible first
        | assumption | apply keeps_ite | apply State.free_keeps | apply State.put_keeps
        | apply State.spdmAnswer_keeps | apply outKeeps_next | apply outKeeps_ite
    | simp only [↓keeps_upd_iff] | (refine keeps_snd (by with_reducible assumption) ?_)
    | (refine keeps_some (by with_reducible assumption) ?_)
    | (refine keeps_some2 (by with_reducible assumption) ?_)
    | (refine keeps_next (by with_reducible assumption) ?_) | split | dsimp only

theorem execIdeInsecure_keeps {s0 : State} (stream : Nat) (s : State) (h_s : Keeps s0 s) :
    OutKeeps s0 (execIdeInsecure stream s) := by
  unfold execIdeInsecure
  repeat' first
    | with_reducible first
        | assumption | apply State.ideLeave_keeps | apply State.settle_keeps | apply outKeeps_next
    | dsimp only

end Sys2Proof.Machine
end

