-- ==== Sys2Proof/Laws/EvrecKeeps.lean ====
section
/-! SUPPORT. What the definitions of Machine/Evrec.lean keep, one lemma each. -/

namespace Sys2Proof.Machine

set_option linter.all false

theorem State.putOldest_keeps {s0 : State} (s : State) (h_s : Keeps s0 s) : Keeps s0 (State.putOldest s) := by
  unfold State.putOldest
  repeat' first
    | with_reducible first
        | assumption | apply State.put_keeps
    | simp only [↓keeps_upd_iff] | (refine keeps_some (by with_reducible assumption) ?_) | split | dsimp only

theorem State.flushDone_keeps {s0 : State} (s : State) (n : Nat) (h_s : Keeps s0 s) :
    Keeps s0 (State.flushDone s n) := by
  unfold State.flushDone
  repeat' first
    | with_reducible first
        | assumption | apply State.inc_keeps | apply State.putOldest_keeps | apply State.put_keeps
        | apply State.ringWrite_keeps
    | simp only [↓keeps_upd_iff] | dsimp only

theorem State.flushEnd_keeps {s0 : State} (s : State) (n : Nat) (h_s : Keeps s0 s) :
    Keeps s0 (State.flushEnd s n) := by
  unfold State.flushEnd
  repeat' first
    | with_reducible first
        | assumption | apply keeps_ite | apply State.flushDone_keeps | apply State.mirrorOpTime_keeps
    | split | dsimp only

theorem execEvrecFlush_keeps {s0 : State} (s : State) (h_s : Keeps s0 s) :
    OutKeeps s0 (execEvrecFlush s) := by
  unfold execEvrecFlush
  repeat' first
    | with_reducible first
        | assumption | apply keeps_ite | apply State.flushEnd_keeps | apply State.flushStart_keeps
        | apply outKeeps_next | apply outKeeps_ite
    | simp only [↓keeps_upd_iff] | (refine keeps_snd (by with_reducible assumption) ?_)
    | (refine keeps_some (by with_reducible assumption) ?_)
    | (refine keeps_next (by with_reducible assumption) ?_) | split | dsimp only

theorem State.evCtlWrite_keeps {s0 : State} (s : State) (v : Word32) (h_s : Keeps s0 s) :
    Keeps s0 (State.evCtlWrite s v) := by
  unfold State.evCtlWrite
  repeat' first
    | with_reducible first
        | assumption | apply keeps_ite | apply State.flushStart_keeps | apply State.regStore_keeps
    | split | dsimp only

theorem execEvrecFlushWrite_keeps {s0 : State} (v : Word32) (s : State) (h_s : Keeps s0 s) :
    OutKeeps s0 (execEvrecFlushWrite v s) := by
  unfold execEvrecFlushWrite
  repeat' first
    | with_reducible first
        | assumption | apply keeps_ite | apply State.evCtlWrite_keeps | apply outKeeps_next
        | apply outKeeps_ite
    | split | dsimp only

theorem execEvrecMaxageExpiry_keeps {s0 : State} (s : State) (h_s : Keeps s0 s) :
    OutKeeps s0 (execEvrecMaxageExpiry s) := by
  unfold execEvrecMaxageExpiry
  repeat' first
    | with_reducible first
        | assumption | apply State.flushStart_keeps | apply State.passTo_keeps | apply outKeeps_next
    | simp only [↓keeps_upd_iff] | (refine keeps_snd (by with_reducible assumption) ?_)
    | (refine keeps_next (by with_reducible assumption) ?_) | split | dsimp only

theorem execEventRecordEnter_keeps {s0 : State} (source code status : Nat) (payload : Bytes) (s : State)
    (h_s : Keeps s0 s) : OutKeeps s0 (execEventRecordEnter source code status payload s) := by
  unfold execEventRecordEnter
  repeat' first
    | with_reducible first
        | assumption | apply State.evEnter_keeps | apply outKeeps_next
    | dsimp only

theorem State.evPutWrite_keeps {s0 : State} (s : State) (mid : Nat) (v : Word32) (h_s : Keeps s0 s) :
    Keeps s0 (State.evPutWrite s mid v) := by
  unfold State.evPutWrite
  repeat' first
    | with_reducible first
        | assumption | apply keeps_ite | apply State.evEnter_keeps
    | split | dsimp only

theorem execEvrecPut_keeps {s0 : State} (mid : Nat) (v : Word32) (s : State) (h_s : Keeps s0 s) :
    OutKeeps s0 (execEvrecPut mid v s) := by
  unfold execEvrecPut
  repeat' first
    | with_reducible first
        | assumption | apply State.evPutWrite_keeps | apply outKeeps_next
    | dsimp only

theorem State.eraseOthers_keeps {s0 : State} (s : State) (p : Nat) (h_s : Keeps s0 s) :
    Keeps s0 (State.eraseOthers s p) := by
  unfold State.eraseOthers
  repeat' first
    | with_reducible first
        | intro _ | assumption | apply keeps_ite | apply State.blkErase_keeps | apply keeps_foldl
        | apply outKeeps_next | apply outKeeps_ite
    | split | dsimp only

theorem State.evClear_keeps {s0 : State} (s : State) (h_s : Keeps s0 s) : Keeps s0 (State.evClear s) := by
  unfold State.evClear
  repeat' first
    | with_reducible first
        | assumption | apply State.eraseOthers_keeps | apply State.evPut_keeps | apply State.flushEnd_keeps
        | apply State.free_keeps | apply State.putOldest_keeps | apply State.put_keeps
        | apply State.setIrq_keeps
    | simp only [↓keeps_upd_iff] | dsimp only

theorem State.evClearWrite_keeps {s0 : State} (s : State) (mid : Nat) (v : Word32) (h_s : Keeps s0 s) :
    Keeps s0 (State.evClearWrite s mid v) := by
  unfold State.evClearWrite
  repeat' first
    | with_reducible first
        | assumption | apply keeps_ite | apply State.evClear_keeps | apply State.evEnter_keeps
        | apply State.free_keeps | apply State.put_keeps | apply State.setIrq_keeps
    | split | dsimp only

theorem execEvrecClear_keeps {s0 : State} (mid : Nat) (s : State) (h_s : Keeps s0 s) :
    OutKeeps s0 (execEvrecClear mid s) := by
  unfold execEvrecClear
  repeat' first
    | with_reducible first
        | assumption | apply State.evClearWrite_keeps | apply outKeeps_next
    | dsimp only

theorem execEvrecStatusRead_keeps {s0 : State} (s : State) (h_s : Keeps s0 s) :
    OutKeeps s0 (execEvrecStatusRead s) := by
  unfold execEvrecStatusRead
  repeat' first
    | with_reducible first
        | assumption | apply State.clrIrq_keeps | apply outKeeps_next
    | dsimp only

theorem State.evViewRead_keeps {s0 : State} (s : State) (mid a n : Nat) (h_s : Keeps s0 s) :
    Keeps s0 (State.evViewRead s mid a n).2 := by
  unfold State.evViewRead
  repeat' first
    | with_reducible first
        | intro _ | assumption | apply keeps_ite | apply State.clrIrq_keeps | apply keeps_pair_ite
    | split | dsimp only

theorem State.winBaseWrite_keeps {s0 : State} (s : State) (reader v : Nat) (h_s : Keeps s0 s) :
    Keeps s0 (State.winBaseWrite s reader v) := by
  unfold State.winBaseWrite
  repeat' first
    | with_reducible first
        | assumption
    | simp only [↓keeps_upd_iff] | dsimp only

theorem execEvrecWindowRead_keeps {s0 : State} (mid i : Nat) (s : State) (h_s : Keeps s0 s) :
    OutKeeps s0 (execEvrecWindowRead mid i s) := by
  unfold execEvrecWindowRead
  repeat' first
    | with_reducible first
        | assumption | apply keeps_ite | apply outKeeps_next | apply outKeeps_ite
    | simp only [↓keeps_upd_iff] | simp only [↓keeps_upd_mem_iff] | split | dsimp only

end Sys2Proof.Machine
end

