-- ==== Sys2Proof/Laws/PickBaseKeeps.lean ====
section
/-! SUPPORT. What the definitions of Machine/PickBase.lean keep, one lemma each. -/

namespace Sys2Proof.Machine

set_option linter.all false

theorem State.visitsSeen_keeps {s0 : State} (s : State) (h_s : Keeps s0 s) :
    Keeps s0 (State.visitsSeen s) := by
  unfold State.visitsSeen
  repeat' first
    | with_reducible first
        | assumption | apply State.irq_keeps | apply State.put_keeps
    | dsimp only

theorem State.visitWrite_keeps {s0 : State} (s : State) (ws : List Word32) (t : Torn) (h_s : Keeps s0 s) :
    Keeps s0 (State.visitWrite s ws t) := by
  unfold State.visitWrite
  repeat' first
    | with_reducible first
        | assumption | apply State.visitsSeen_keeps
    | simp only [↓keeps_upd_iff] | (refine keeps_snd (by with_reducible assumption) ?_)
    | (refine keeps_some (by with_reducible assumption) ?_) | split | dsimp only

theorem State.mirrorSeen_keeps {s0 : State} (s : State) (h_s : Keeps s0 s) :
    Keeps s0 (State.mirrorSeen s) := by
  unfold State.mirrorSeen
  repeat' first
    | with_reducible first
        | assumption | apply State.put_keeps
    | simp only [↓keeps_upd_iff] | (refine keeps_snd (by with_reducible assumption) ?_)
    | (refine keeps_some (by with_reducible assumption) ?_) | split | dsimp only

theorem State.pickState_keeps {s0 : State} (s : State) (st : Nat) (h_s : Keeps s0 s) :
    Keeps s0 (State.pickState s st) := by
  unfold State.pickState
  repeat' first
    | with_reducible first
        | assumption | apply keeps_ite | apply State.put_keeps | apply State.setIrq_keeps
    | split | dsimp only

theorem State.setSess_keeps {s0 : State} (s : State) (x : PickSess) (h_s : Keeps s0 s) :
    Keeps s0 (State.setSess s x) := by
  unfold State.setSess
  repeat' first
    | with_reducible first
        | assumption
    | simp only [↓keeps_upd_iff] | dsimp only

theorem State.pickMsg_keeps {s0 : State} (s : State) (m : Bytes) (h_s : Keeps s0 s) :
    Keeps s0 (State.pickMsg s m) := by
  unfold State.pickMsg
  repeat' first
    | with_reducible first
        | assumption
    | simp only [↓keeps_upd_iff] | dsimp only

theorem State.pickFail_keeps {s0 : State} (s : State) (st : Nat) (h_s : Keeps s0 s) :
    Keeps s0 (State.pickFail s st) := by
  unfold State.pickFail
  repeat' first
    | with_reducible first
        | assumption | apply keeps_ite | apply State.pickEnd_keeps | apply State.pickMsg_keeps
    | simp only [↓keeps_upd_iff] | (refine keeps_snd (by with_reducible assumption) ?_)
    | (refine keeps_snd3 (by with_reducible assumption) ?_)
    | (refine keeps_some (by with_reducible assumption) ?_) | split | dsimp only

end Sys2Proof.Machine
end

