-- ==== Sys2Proof/Laws/CardKeeps.lean ====
section
/-! SUPPORT. What the definitions of Machine/Card.lean keep, one lemma each. -/

namespace Sys2Proof.Machine

set_option linter.all false

theorem State.cardStart_keeps {s0 : State} (s : State) (cls : Nat) (second : Bool) (h_s : Keeps s0 s) :
    Keeps s0 (State.cardStart s cls second) := by
  unfold State.cardStart
  repeat' first
    | with_reducible first
        | assumption | apply State.put_keeps
    | simp only [↓keeps_upd_iff] | dsimp only

theorem State.cardActivate_keeps {s0 : State} (s : State) (h_s : Keeps s0 s) :
    Keeps s0 (State.cardActivate s) := by
  unfold State.cardActivate
  repeat' first
    | with_reducible first
        | assumption | apply keeps_ite | apply State.cardStart_keeps | apply State.put_keeps
    | split | dsimp only

theorem execCardInsert_keeps {s0 : State} (s : State) (h_s : Keeps s0 s) :
    OutKeeps s0 (execCardInsert s) := by
  unfold execCardInsert
  repeat' first
    | with_reducible first
        | assumption | apply keeps_ite | apply State.cardActivate_keeps | apply State.pass_keeps
        | apply State.put_keeps | apply State.setIrq_keeps | apply outKeeps_next | apply outKeeps_ite
    | split | dsimp only

theorem State.cardFail_keeps {s0 : State} (s : State) (e : Nat) (h_s : Keeps s0 s) :
    Keeps s0 (State.cardFail s e) := by
  unfold State.cardFail
  repeat' first
    | with_reducible first
        | assumption | apply State.cardErr_keeps | apply State.cardOff_keeps
    | dsimp only

theorem State.atrAccept_keeps {s0 : State} (s : State) (a : Atr) (pps : PpsEnd) (h_s : Keeps s0 s) :
    Keeps s0 (State.atrAccept s a pps) := by
  unfold State.atrAccept
  repeat' first
    | with_reducible first
        | assumption | apply keeps_ite | apply State.put_keeps
    | simp only [↓keeps_upd_iff] | (refine keeps_snd (by with_reducible assumption) ?_)
    | (refine keeps_some (by with_reducible assumption) ?_) | split | dsimp only

theorem execAtrReceived_keeps {s0 : State} (atr : Bytes) (pps : PpsEnd) (s : State) (h_s : Keeps s0 s) :
    OutKeeps s0 (execAtrReceived atr pps s) := by
  unfold execAtrReceived
  repeat' first
    | with_reducible first
        | assumption | apply keeps_ite | apply State.atrAccept_keeps | apply State.cardFail_keeps
        | apply State.putWords_keeps | apply State.put_keeps | apply outKeeps_next | apply outKeeps_ite
    | split | dsimp only

theorem execAtrTimeout_keeps {s0 : State} (s : State) (h_s : Keeps s0 s) :
    OutKeeps s0 (execAtrTimeout s) := by
  unfold execAtrTimeout
  repeat' first
    | with_reducible first
        | assumption | apply keeps_ite | apply State.cardFail_keeps | apply State.cardStart_keeps
        | apply State.passTo_keeps | apply outKeeps_next | apply outKeeps_ite
    | split | dsimp only

theorem execCardRemoval_keeps {s0 : State} (share : Option Nat) (s : State) (h_s : Keeps s0 s) :
    OutKeeps s0 (execCardRemoval share s) := by
  unfold execCardRemoval
  repeat' first
    | with_reducible first
        | assumption | apply keeps_ite | apply State.cardFail_keeps | apply State.cerRemoved_keeps
        | apply State.put_keeps | apply State.setIrq_keeps | apply outKeeps_next | apply outKeeps_ite
    | simp only [↓keeps_upd_iff] | (refine keeps_snd (by with_reducible assumption) ?_)
    | (refine keeps_some (by with_reducible assumption) ?_)
    | (refine keeps_next (by with_reducible assumption) ?_) | split | dsimp only

theorem execCardOvercurrent_keeps {s0 : State} (s : State) (h_s : Keeps s0 s) :
    OutKeeps s0 (execCardOvercurrent s) := by
  unfold execCardOvercurrent
  repeat' first
    | with_reducible first
        | assumption | apply keeps_ite | apply State.cardFail_keeps | apply State.raise_keeps
        | apply outKeeps_next | apply outKeeps_ite
    | split | dsimp only

theorem execT1BlockError_keeps {s0 : State} (resync : Bool) (s : State) (h_s : Keeps s0 s) :
    OutKeeps s0 (execT1BlockError resync s) := by
  unfold execT1BlockError
  repeat' first
    | with_reducible first
        | assumption | apply keeps_ite | apply State.cardFail_keeps | apply State.inc_keeps
        | apply State.raise_keeps | apply outKeeps_next | apply outKeeps_ite
    | simp only [↓keeps_upd_iff] | split | dsimp only

theorem execCardMaxwaitExpiry_keeps {s0 : State} (s : State) (h_s : Keeps s0 s) :
    OutKeeps s0 (execCardMaxwaitExpiry s) := by
  unfold execCardMaxwaitExpiry
  repeat' first
    | with_reducible first
        | assumption | apply State.cardDone_keeps | apply State.passTo_keeps | apply State.put_keeps
        | apply outKeeps_next
    | simp only [↓keeps_upd_iff] | (refine keeps_snd (by with_reducible assumption) ?_)
    | (refine keeps_some (by with_reducible assumption) ?_)
    | (refine keeps_next (by with_reducible assumption) ?_) | split | dsimp only

theorem execCardClockStop_keeps {s0 : State} (s : State) (h_s : Keeps s0 s) :
    OutKeeps s0 (execCardClockStop s) := by
  unfold execCardClockStop
  repeat' first
    | with_reducible first
        | assumption | apply keeps_ite | apply State.passTo_keeps | apply outKeeps_next | apply outKeeps_ite
    | simp only [↓keeps_upd_iff] | split | dsimp only

theorem State.swStatus_keeps {s0 : State} (s : State) (sw : Nat) (h_s : Keeps s0 s) :
    Keeps s0 (State.swStatus s sw).2 := by
  unfold State.swStatus
  repeat' first
    | with_reducible first
        | assumption | apply keeps_ite | apply State.free_keeps | apply keeps_pair_ite
    | split | dsimp only

theorem State.cardOpen_keeps {s0 : State} (s : State) (ct data : Bytes) (h_s : Keeps s0 s) :
    Keeps s0 (State.cardOpen s ct data).2 := by
  unfold State.cardOpen
  repeat' first
    | with_reducible first
        | assumption | apply keeps_ite | apply State.pegUse_keeps | apply State.put_keeps
        | apply keeps_pair_ite
    | simp only [↓keeps_upd_iff] | split | dsimp only

theorem State.cardSessEnd_keeps {s0 : State} (s : State) (h_s : Keeps s0 s) :
    Keeps s0 (State.cardSessEnd s) := by
  unfold State.cardSessEnd
  repeat' first
    | with_reducible first
        | assumption | apply State.put_keeps
    | simp only [↓keeps_upd_iff] | dsimp only

theorem State.cardEffect_keeps {s0 : State} (s : State) (apdu : Bytes) (sw : Nat) (data : Bytes)
    (h_s : Keeps s0 s) : Keeps s0 (State.cardEffect s apdu sw data) := by
  unfold State.cardEffect
  repeat' first
    | with_reducible first
        | assumption | apply keeps_ite | apply State.cardSessEnd_keeps | apply State.free_keeps
        | apply State.put_keeps
    | simp only [↓keeps_upd_iff] | split | dsimp only

theorem State.cardRespond_keeps {s0 : State} (s : State) (data : Bytes) (h_s : Keeps s0 s) :
    Keeps s0 (State.cardRespond s data).2 := by
  unfold State.cardRespond
  repeat' first
    | with_reducible first
        | assumption | apply keeps_ite | apply State.bufStore_keeps | apply keeps_pair_ite
    | split | dsimp only

theorem State.cardAnswer_keeps {s0 : State} (s : State) (sealed : Bool) (apdu : Bytes) (sw : Nat)
    (data : Bytes) (h_s : Keeps s0 s) : Keeps s0 (State.cardAnswer s sealed apdu sw data) := by
  unfold State.cardAnswer
  repeat' first
    | with_reducible first
        | assumption | apply keeps_ite | apply State.cardDone_keeps | apply State.cardEffect_keeps
        | apply State.cardOpen_keeps | apply State.cardRespond_keeps | apply State.cardSessEnd_keeps
        | apply State.put_keeps | apply State.swStatus_keeps
    | simp only [↓keeps_upd_iff] | (refine keeps_snd (by with_reducible assumption) ?_)
    | (refine keeps_some (by with_reducible assumption) ?_) | split | dsimp only

theorem State.cardXfer_keeps {s0 : State} (s : State) (mid : Nat) (sealed : Bool)
    (ans : Option (Nat × Bytes)) (h_s : Keeps s0 s) : Keeps s0 (State.cardXfer s mid sealed ans) := by
  unfold State.cardXfer
  repeat' first
    | with_reducible first
        | intro _ | assumption | apply keeps_ite | apply State.cardAnswer_keeps | apply State.cardDone_keeps
        | apply State.clrIrq_keeps | apply State.keyRead_keeps | apply State.put_keeps
    | simp only [↓keeps_upd_iff] | (refine keeps_snd (by with_reducible assumption) ?_)
    | (refine keeps_snd3 (by with_reducible assumption) ?_)
    | (refine keeps_some (by with_reducible assumption) ?_)
    | (refine keeps_some2 (by with_reducible assumption) ?_) | split | dsimp only

theorem execCardXfer_keeps {s0 : State} (mid : Nat) (sealed : Bool) (ans : Option (Nat × Bytes)) (s : State)
    (h_s : Keeps s0 s) : OutKeeps s0 (execCardXfer mid sealed ans s) := by
  unfold execCardXfer
  repeat' first
    | with_reducible first
        | assumption | apply State.cardXfer_keeps | apply outKeeps_next
    | dsimp only

theorem execCardResultRead_keeps {s0 : State} (s : State) (h_s : Keeps s0 s) :
    OutKeeps s0 (execCardResultRead s) := by
  unfold execCardResultRead
  repeat' first
    | with_reducible first
        | assumption | apply State.clrIrq_keeps | apply outKeeps_next
    | dsimp only

theorem execCardStatusRead_keeps {s0 : State} (s : State) (h_s : Keeps s0 s) :
    OutKeeps s0 (execCardStatusRead s) := by
  unfold execCardStatusRead
  repeat' first
    | with_reducible first
        | assumption | apply State.clrIrq_keeps | apply outKeeps_next
    | dsimp only

end Sys2Proof.Machine
end

