-- ==== Sys2Proof/Laws/FaultRowsKeeps.lean ====
section
/-! SUPPORT. What the definitions of Machine/FaultRows.lean keep, one lemma each. -/

namespace Sys2Proof.Machine

set_option linter.all false

theorem execFaultRecordClose_keeps {s0 : State} (t : SelfTest) (s : State) (h_s : Keeps s0 s) :
    OutKeeps s0 (execFaultRecordClose t s) := by
  unfold execFaultRecordClose
  repeat' first
    | with_reducible first
        | assumption | apply State.faultClose_keeps | apply State.pass_keeps | apply State.settle_keeps
        | apply outKeeps_next
    | simp only [↓keeps_upd_iff] | (refine keeps_snd (by with_reducible assumption) ?_)
    | (refine keeps_next (by with_reducible assumption) ?_) | split | dsimp only

theorem State.faultForce_keeps {s0 : State} (s : State) (k : Nat) (v : Word32) (h_s : Keeps s0 s) :
    Keeps s0 (State.faultForce s k v) := by
  unfold State.faultForce
  repeat' first
    | with_reducible first
        | intro _ | assumption | apply keeps_ite | apply State.raiseForced_keeps | apply keeps_foldl
    | split | dsimp only

theorem execFaultForce_keeps {s0 : State} (k : Nat) (v : Word32) (s : State) (h_s : Keeps s0 s) :
    OutKeeps s0 (execFaultForce k v s) := by
  unfold execFaultForce
  repeat' first
    | with_reducible first
        | assumption | apply keeps_ite | apply State.faultForce_keeps | apply outKeeps_next
        | apply outKeeps_ite
    | split | dsimp only

theorem State.faultRelease_keeps {s0 : State} (s : State) (h_s : Keeps s0 s) :
    Keeps s0 (State.faultRelease s) := by
  unfold State.faultRelease
  repeat' first
    | with_reducible first
        | assumption | apply State.put_keeps
    | simp only [↓keeps_upd_iff] | dsimp only

theorem execFaultnPulseEnd_keeps {s0 : State} (s : State) (h_s : Keeps s0 s) :
    OutKeeps s0 (execFaultnPulseEnd s) := by
  unfold execFaultnPulseEnd
  repeat' first
    | with_reducible first
        | assumption | apply keeps_ite | apply State.faultRelease_keeps | apply State.passTo_keeps
        | apply outKeeps_next | apply outKeeps_ite
    | simp only [↓keeps_upd_iff] | (refine keeps_snd (by with_reducible assumption) ?_)
    | (refine keeps_some (by with_reducible assumption) ?_)
    | (refine keeps_next (by with_reducible assumption) ?_) | split | dsimp only

theorem State.nctlWrite_keeps {s0 : State} (s : State) (mid : Nat) (v : Word32) (h_s : Keeps s0 s) :
    Keeps s0 (State.nctlWrite s mid v) := by
  unfold State.nctlWrite
  repeat' first
    | with_reducible first
        | assumption | apply keeps_ite | apply State.faultRelease_keeps
    | simp only [↓keeps_upd_iff] | split | dsimp only

theorem execFaultNctlRelease_keeps {s0 : State} (mid : Nat) (s : State) (h_s : Keeps s0 s) :
    OutKeeps s0 (execFaultNctlRelease mid s) := by
  unfold execFaultNctlRelease
  repeat' first
    | with_reducible first
        | assumption | apply State.nctlWrite_keeps | apply outKeeps_next
    | dsimp only

theorem State.capoKick_keeps {s0 : State} (s : State) (mid key : Nat) (h_s : Keeps s0 s) :
    Keeps s0 (State.capoKick s mid key) := by
  unfold State.capoKick
  repeat' first
    | with_reducible first
        | assumption | apply keeps_ite | apply State.clrIrq_keeps | apply State.inc_keeps
    | simp only [↓keeps_upd_iff] | split | dsimp only

theorem State.modKick_keeps {s0 : State} (s : State) (mid key : Nat) (h_s : Keeps s0 s) :
    Keeps s0 (State.modKick s mid key) := by
  unfold State.modKick
  repeat' first
    | with_reducible first
        | assumption | apply keeps_ite | apply State.clrIrq_keeps | apply State.inc_keeps
    | simp only [↓keeps_upd_iff] | split | dsimp only

theorem execWdogCapoKick_keeps {s0 : State} (mid : Nat) (v : Word32) (s : State) (h_s : Keeps s0 s) :
    OutKeeps s0 (execWdogCapoKick mid v s) := by
  unfold execWdogCapoKick
  repeat' first
    | with_reducible first
        | assumption | apply State.capoKick_keeps | apply outKeeps_next
    | dsimp only

theorem execWdogModKick_keeps {s0 : State} (mid : Nat) (v : Word32) (s : State) (h_s : Keeps s0 s) :
    OutKeeps s0 (execWdogModKick mid v s) := by
  unfold execWdogModKick
  repeat' first
    | with_reducible first
        | assumption | apply State.modKick_keeps | apply outKeeps_next
    | dsimp only

theorem execWdogCapoWarn_keeps {s0 : State} (s : State) (h_s : Keeps s0 s) :
    OutKeeps s0 (execWdogCapoWarn s) := by
  unfold execWdogCapoWarn
  repeat' first
    | with_reducible first
        | assumption | apply keeps_ite | apply State.passTo_keeps | apply State.setIrq_keeps
        | apply outKeeps_next | apply outKeeps_ite
    | split | dsimp only

theorem execWdogCapoExpiry_keeps {s0 : State} (s : State) (h_s : Keeps s0 s) :
    OutKeeps s0 (execWdogCapoExpiry s) := by
  unfold execWdogCapoExpiry
  repeat' first
    | with_reducible first
        | assumption | apply keeps_ite | apply State.passTo_keeps | apply State.raise_keeps
        | apply outKeeps_next | apply outKeeps_ite
    | split | dsimp only

theorem execWdogModuleWarn_keeps {s0 : State} (s : State) (h_s : Keeps s0 s) :
    OutKeeps s0 (execWdogModuleWarn s) := by
  unfold execWdogModuleWarn
  repeat' first
    | with_reducible first
        | assumption | apply keeps_ite | apply State.passTo_keeps | apply State.setIrq_keeps
        | apply outKeeps_next | apply outKeeps_ite
    | split | dsimp only

theorem State.erasesSuspend_keeps {s0 : State} (s : State) (h_s : Keeps s0 s) :
    Keeps s0 (State.erasesSuspend s) := by
  unfold State.erasesSuspend
  repeat' first
    | with_reducible first
        | intro _ | assumption | apply keeps_ite | apply State.inc_keeps | apply keeps_foldl
    | simp only [↓keeps_upd_iff] | split | dsimp only

theorem execWdogModuleExpiry_keeps {s0 : State} (s : State) (h_s : Keeps s0 s) :
    OutKeeps s0 (execWdogModuleExpiry s) := by
  unfold execWdogModuleExpiry
  repeat' first
    | with_reducible first
        | assumption | apply keeps_ite | apply State.erasesSuspend_keeps | apply State.faultN_keeps
        | apply State.free_keeps | apply State.inc_keeps | apply State.passTo_keeps | apply State.put_keeps
        | apply State.settle_keeps | apply outKeeps_next | apply outKeeps_ite
    | simp only [↓keeps_upd_iff] | split | dsimp only

end Sys2Proof.Machine
end

