-- ==== Sys2Proof/Laws/PickKeeps.lean ====
section
/-! SUPPORT. What the definitions of Machine/Pick.lean keep, one lemma each. -/

namespace Sys2Proof.Machine

set_option linter.all false

theorem State.mirrorRun_keeps {s0 : State} (s : State) (t : Torn) (bad : Option Nat) (h_s : Keeps s0 s) :
    Keeps s0 (State.mirrorRun s t bad) := by
  unfold State.mirrorRun
  repeat' first
    | with_reducible first
        | assumption | apply keeps_ite | apply State.free_keeps | apply State.mirrorSeen_keeps
        | apply State.put_keeps | apply State.raise_keeps | apply State.setIrq_keeps
    | simp only [↓keeps_upd_iff] | (refine keeps_snd (by with_reducible assumption) ?_)
    | (refine keeps_some (by with_reducible assumption) ?_) | split | dsimp only

theorem State.mirrorCopy_keeps {s0 : State} (s : State) (resends : Nat) (t : Torn) (bad : Option Nat)
    (h_s : Keeps s0 s) : Keeps s0 (State.mirrorCopy s resends t bad) := by
  unfold State.mirrorCopy
  repeat' first
    | with_reducible first
        | assumption | apply keeps_ite | apply State.incBy_keeps | apply State.mirrorRun_keeps
        | apply State.put_keeps | apply State.raise_keeps | apply State.setIrq_keeps
    | simp only [↓keeps_upd_iff] | split | dsimp only

theorem execMirrorCopy_keeps {s0 : State} (resends : Nat) (torn : Torn) (bad : Option Nat) (s : State)
    (h_s : Keeps s0 s) : OutKeeps s0 (execMirrorCopy resends torn bad s) := by
  unfold execMirrorCopy
  repeat' first
    | with_reducible first
        | assumption | apply keeps_ite | apply State.mirrorCopy_keeps | apply State.put_keeps
        | apply outKeeps_next | apply outKeeps_ite
    | simp only [↓keeps_upd_iff] | split | dsimp only

theorem execMirrorDeferEnd_keeps {s0 : State} (s : State) (h_s : Keeps s0 s) :
    OutKeeps s0 (execMirrorDeferEnd s) := by
  unfold execMirrorDeferEnd
  repeat' first
    | with_reducible first
        | assumption | apply keeps_ite | apply State.mirrorCopy_keeps | apply State.passTo_keeps
        | apply outKeeps_next | apply outKeeps_ite
    | split | dsimp only

theorem State.isoEnd_keeps {s0 : State} (s : State) (h_s : Keeps s0 s) : Keeps s0 (State.isoEnd s) := by
  unfold State.isoEnd
  repeat' first
    | with_reducible first
        | assumption
    | simp only [↓keeps_upd_iff] | dsimp only

theorem State.tagGo_keeps {s0 : State} (s : State) (st : Nat) (ans : Bytes) (h_s : Keeps s0 s) :
    Keeps s0 (State.tagGo s st ans) := by
  unfold State.tagGo
  repeat' first
    | with_reducible first
        | assumption | apply keeps_ite | apply State.isoEnd_keeps | apply State.put_keeps
    | simp only [↓keeps_upd_iff] | split | dsimp only

theorem State.tagOther_keeps {s0 : State} (s : State) (h_s : Keeps s0 s) : Keeps s0 (State.tagOther s) := by
  unfold State.tagOther
  repeat' first
    | with_reducible first
        | assumption | apply keeps_ite | apply State.tagGo_keeps
    | split | dsimp only

theorem execExternalFieldOn_keeps {s0 : State} (s : State) (h_s : Keeps s0 s) :
    OutKeeps s0 (execExternalFieldOn s) := by
  unfold execExternalFieldOn
  repeat' first
    | with_reducible first
        | assumption | apply keeps_ite | apply State.freeB_keeps | apply State.put_keeps
        | apply State.setIrq_keeps | apply outKeeps_next | apply outKeeps_ite
    | simp only [↓keeps_upd_iff] | split | dsimp only

theorem execFieldLoss_keeps {s0 : State} (s : State) (h_s : Keeps s0 s) : OutKeeps s0 (execFieldLoss s) := by
  unfold execFieldLoss
  repeat' first
    | with_reducible first
        | assumption | apply keeps_ite | apply State.pass_keeps | apply State.pickEnd_keeps
        | apply State.put_keeps | apply State.tagGo_keeps | apply outKeeps_next | apply outKeeps_ite
    | simp only [↓keeps_upd_iff] | (refine keeps_snd (by with_reducible assumption) ?_)
    | (refine keeps_some (by with_reducible assumption) ?_)
    | (refine keeps_next (by with_reducible assumption) ?_) | split | dsimp only

theorem execReqa_keeps {s0 : State} (s : State) (h_s : Keeps s0 s) : OutKeeps s0 (execReqa s) := by
  unfold execReqa
  repeat' first
    | with_reducible first
        | assumption | apply keeps_ite | apply State.tagGo_keeps | apply State.tagOther_keeps
        | apply outKeeps_next | apply outKeeps_ite
    | split | dsimp only

theorem execWupa_keeps {s0 : State} (s : State) (h_s : Keeps s0 s) : OutKeeps s0 (execWupa s) := by
  unfold execWupa
  repeat' first
    | with_reducible first
        | assumption | apply keeps_ite | apply State.tagGo_keeps | apply State.tagOther_keeps
        | apply outKeeps_next | apply outKeeps_ite
    | split | dsimp only

theorem execAnticollision_keeps {s0 : State} (known value : Nat) (s : State) (h_s : Keeps s0 s) :
    OutKeeps s0 (execAnticollision known value s) := by
  unfold execAnticollision
  repeat' first
    | with_reducible first
        | assumption | apply keeps_ite | apply State.tagGo_keeps | apply State.tagOther_keeps
        | apply outKeeps_next | apply outKeeps_ite
    | split | dsimp only

theorem execSelect_keeps {s0 : State} (uid : Bytes) (s : State) (h_s : Keeps s0 s) :
    OutKeeps s0 (execSelect uid s) := by
  unfold execSelect
  repeat' first
    | with_reducible first
        | assumption | apply keeps_ite | apply State.tagGo_keeps | apply State.tagOther_keeps
        | apply outKeeps_next | apply outKeeps_ite
    | split | dsimp only

theorem execHlta_keeps {s0 : State} (s : State) (h_s : Keeps s0 s) : OutKeeps s0 (execHlta s) := by
  unfold execHlta
  repeat' first
    | with_reducible first
        | assumption | apply keeps_ite | apply State.tagGo_keeps | apply State.tagOther_keeps
        | apply outKeeps_next | apply outKeeps_ite
    | split | dsimp only

theorem execRats_keeps {s0 : State} (s : State) (h_s : Keeps s0 s) : OutKeeps s0 (execRats s) := by
  unfold execRats
  repeat' first
    | with_reducible first
        | assumption | apply keeps_ite | apply State.tagGo_keeps | apply State.tagOther_keeps
        | apply outKeeps_next | apply outKeeps_ite
    | simp only [↓keeps_upd_iff] | split | dsimp only

theorem State.respond_keeps {s0 : State} (s : State) (data : Bytes) (sw : Nat) (h_s : Keeps s0 s) :
    Keeps s0 (State.respond s data sw) := by
  unfold State.respond
  repeat' first
    | with_reducible first
        | assumption
    | simp only [↓keeps_upd_iff] | dsimp only

theorem State.tagApp_keeps {s0 : State} (s : State) (f : State → State) (h_s : Keeps s0 s)
    (h_f : ∀ t, Keeps s0 t → Keeps s0 (f t)) : Keeps s0 (State.tagApp s f) := by
  unfold State.tagApp
  repeat' first
    | with_reducible first
        | assumption | apply keeps_ite | apply State.respond_keeps | apply State.tagOther_keeps | apply h_f
    | split | dsimp only

theorem execTagSelectAid_keeps {s0 : State} (p1 : Nat) (aid : Bytes) (s : State) (h_s : Keeps s0 s) :
    OutKeeps s0 (execTagSelectAid p1 aid s) := by
  unfold execTagSelectAid
  repeat' first
    | with_reducible first
        | assumption | apply keeps_ite | apply State.free_keeps | apply State.respond_keeps
        | apply State.tagOther_keeps | apply outKeeps_next | apply outKeeps_ite
    | simp only [↓keeps_upd_iff] | split | dsimp only

theorem execReadMirror_keeps {s0 : State} (first : Nat) (s : State) (h_s : Keeps s0 s) :
    OutKeeps s0 (execReadMirror first s) := by
  unfold execReadMirror
  repeat' first
    | with_reducible first
        | intro _ | assumption | apply keeps_ite | apply State.respond_keeps | apply State.tagApp_keeps
        | apply outKeeps_next | apply outKeeps_ite
    | simp only [↓keeps_upd_iff] | (refine keeps_snd (by with_reducible assumption) ?_)
    | (refine keeps_some (by with_reducible assumption) ?_)
    | (refine keeps_next (by with_reducible assumption) ?_) | split | dsimp only

theorem execReadHeader_keeps {s0 : State} (s : State) (h_s : Keeps s0 s) :
    OutKeeps s0 (execReadHeader s) := by
  unfold execReadHeader
  repeat' first
    | with_reducible first
        | intro _ | assumption | apply State.respond_keeps | apply State.tagApp_keeps | apply outKeeps_next
    | simp only [↓keeps_upd_iff] | (refine keeps_snd (by with_reducible assumption) ?_)
    | (refine keeps_some (by with_reducible assumption) ?_)
    | (refine keeps_next (by with_reducible assumption) ?_) | split | dsimp only

theorem State.pickHello_keeps {s0 : State} (s : State) (h_s : Keeps s0 s) :
    Keeps s0 (State.pickHello s).2 := by
  unfold State.pickHello
  repeat' first
    | with_reducible first
        | assumption | apply keeps_ite | apply State.keyRead_keeps | apply keeps_pair_ite
    | split | dsimp only

theorem State.renew4090_keeps {s0 : State} (s : State) (h_s : Keeps s0 s) : Keeps s0 (State.renew4090 s) := by
  unfold State.renew4090
  repeat' first
    | with_reducible first
        | assumption | apply State.free_keeps | apply State.setPriv_keeps
    | simp only [↓keeps_upd_iff] | dsimp only

theorem State.sessBegin_keeps {s0 : State} (s : State) (reader : Bool) (h_s : Keeps s0 s) :
    Keeps s0 (State.sessBegin s reader) := by
  unfold State.sessBegin
  repeat' first
    | with_reducible first
        | assumption | apply State.pickState_keeps | apply State.renew4090_keeps | apply State.setSess_keeps
    | dsimp only

theorem State.sessKeyed_keeps {s0 : State} (s : State) (x : PickSess) (hello m : Bytes) (h_s : Keeps s0 s) :
    Keeps s0 (State.sessKeyed s x hello m) := by
  unfold State.sessKeyed
  repeat' first
    | with_reducible first
        | assumption | apply State.freeB_keeps | apply State.pegInstall_keeps | apply State.pegUse_keeps
        | apply State.pickMsg_keeps | apply State.pickState_keeps | apply State.setSess_keeps
    | simp only [↓keeps_upd_iff] | dsimp only

theorem State.sessAnswer_keeps {s0 : State} (s : State) (m : Bytes) (h_s : Keeps s0 s) :
    Keeps s0 (State.sessAnswer s m) := by
  unfold State.sessAnswer
  repeat' first
    | with_reducible first
        | assumption | apply keeps_ite | apply State.free_keeps | apply State.pickFail_keeps
        | apply State.pickHello_keeps | apply State.sessKeyed_keeps
    | simp only [↓keeps_upd_iff] | (refine keeps_snd (by with_reducible assumption) ?_)
    | (refine keeps_some (by with_reducible assumption) ?_) | split | dsimp only

theorem State.sessFinish_keeps {s0 : State} (s : State) (m : Bytes) (h_s : Keeps s0 s) :
    Keeps s0 (State.sessFinish s m) := by
  unfold State.sessFinish
  repeat' first
    | with_reducible first
        | intro _ | assumption | apply keeps_ite | apply State.pickFail_keeps | apply State.pickState_keeps
        | apply State.put_keeps | apply State.setSess_keeps | apply State.visitWrite_keeps
    | simp only [↓keeps_upd_iff] | (refine keeps_snd (by with_reducible assumption) ?_)
    | (refine keeps_snd3 (by with_reducible assumption) ?_)
    | (refine keeps_some (by with_reducible assumption) ?_) | split | dsimp only

theorem State.sessData_keeps {s0 : State} (s : State) (m : Bytes) (h_s : Keeps s0 s) :
    Keeps s0 (State.sessData s m).2 := by
  unfold State.sessData
  repeat' first
    | with_reducible first
        | assumption | apply keeps_ite | apply State.free_keeps | apply State.pickFail_keeps
        | apply State.pickMsg_keeps | apply State.setSess_keeps | apply keeps_pair_ite
    | simp only [↓keeps_upd_iff] | (refine keeps_snd (by with_reducible assumption) ?_)
    | (refine keeps_some (by with_reducible assumption) ?_) | split | dsimp only

theorem execAnswer_keeps {s0 : State} (m : Bytes) (s : State) (h_s : Keeps s0 s) :
    OutKeeps s0 (execAnswer m s) := by
  unfold execAnswer
  repeat' first
    | with_reducible first
        | assumption | apply keeps_ite | apply State.sessAnswer_keeps | apply outKeeps_next
        | apply outKeeps_ite
    | split | dsimp only

theorem execFinish_keeps {s0 : State} (m : Bytes) (s : State) (h_s : Keeps s0 s) :
    OutKeeps s0 (execFinish m s) := by
  unfold execFinish
  repeat' first
    | with_reducible first
        | assumption | apply keeps_ite | apply State.sessFinish_keeps | apply outKeeps_next
        | apply outKeeps_ite
    | split | dsimp only

theorem execData_keeps {s0 : State} (m : Bytes) (s : State) (h_s : Keeps s0 s) :
    OutKeeps s0 (execData m s) := by
  unfold execData
  repeat' first
    | with_reducible first
        | assumption | apply keeps_ite | apply State.sessData_keeps | apply outKeeps_next
        | apply outKeeps_ite
    | split | dsimp only

theorem State.nextBadge_keeps {s0 : State} (s : State) (h_s : Keeps s0 s) : Keeps s0 (State.nextBadge s) := by
  unfold State.nextBadge
  repeat' first
    | with_reducible first
        | assumption | apply State.putWords_keeps | apply State.put_keeps | apply State.readerOff_keeps
    | simp only [↓keeps_upd_iff] | (refine keeps_snd (by with_reducible assumption) ?_) | split | dsimp only

theorem State.afterSess_keeps {s0 : State} (s : State) (wasReader : Bool) (h_s : Keeps s0 s) :
    Keeps s0 (State.afterSess s wasReader) := by
  unfold State.afterSess
  repeat' first
    | with_reducible first
        | assumption | apply keeps_ite | apply State.nextBadge_keeps | apply outKeeps_next
        | apply outKeeps_ite
    | split | dsimp only

theorem execAbort_keeps {s0 : State} (st : Nat) (s : State) (h_s : Keeps s0 s) :
    OutKeeps s0 (execAbort st s) := by
  unfold execAbort
  repeat' first
    | with_reducible first
        | assumption | apply keeps_ite | apply State.afterSess_keeps | apply State.pickEnd_keeps
        | apply outKeeps_next | apply outKeeps_ite
    | simp only [↓keeps_upd_iff] | split | dsimp only

theorem State.sessAbortWrite_keeps {s0 : State} (s : State) (h_s : Keeps s0 s) :
    Keeps s0 (State.sessAbortWrite s) := by
  unfold State.sessAbortWrite
  repeat' first
    | with_reducible first
        | assumption | apply keeps_ite | apply State.afterSess_keeps | apply State.pickEnd_keeps
        | apply State.pickMsg_keeps
    | split | dsimp only

theorem execPickSessAbort_keeps {s0 : State} (s : State) (h_s : Keeps s0 s) :
    OutKeeps s0 (execPickSessAbort s) := by
  unfold execPickSessAbort
  repeat' first
    | with_reducible first
        | assumption | apply State.sessAbortWrite_keeps | apply outKeeps_next
    | dsimp only

theorem State.sessGo_keeps {s0 : State} (s : State) (h_s : Keeps s0 s) : Keeps s0 (State.sessGo s) := by
  unfold State.sessGo
  repeat' first
    | with_reducible first
        | assumption | apply keeps_ite | apply State.put_keeps | apply State.sessBegin_keeps
    | split | dsimp only

theorem execPickSessGo_keeps {s0 : State} (s : State) (h_s : Keeps s0 s) :
    OutKeeps s0 (execPickSessGo s) := by
  unfold execPickSessGo
  repeat' first
    | with_reducible first
        | assumption | apply State.sessGo_keeps | apply outKeeps_next
    | dsimp only

theorem execSessionStepTimeout_keeps {s0 : State} (s : State) (h_s : Keeps s0 s) :
    OutKeeps s0 (execSessionStepTimeout s) := by
  unfold execSessionStepTimeout
  repeat' first
    | with_reducible first
        | assumption | apply keeps_ite | apply State.passTo_keeps | apply State.pickFail_keeps
        | apply outKeeps_next | apply outKeeps_ite
    | simp only [↓keeps_upd_iff] | (refine keeps_snd (by with_reducible assumption) ?_)
    | (refine keeps_some (by with_reducible assumption) ?_)
    | (refine keeps_next (by with_reducible assumption) ?_) | split | dsimp only

theorem execSessionLifetimeExpiry_keeps {s0 : State} (s : State) (h_s : Keeps s0 s) :
    OutKeeps s0 (execSessionLifetimeExpiry s) := by
  unfold execSessionLifetimeExpiry
  repeat' first
    | with_reducible first
        | assumption | apply State.passTo_keeps | apply State.pickFail_keeps | apply outKeeps_next
    | simp only [↓keeps_upd_iff] | (refine keeps_snd (by with_reducible assumption) ?_)
    | (refine keeps_some (by with_reducible assumption) ?_)
    | (refine keeps_next (by with_reducible assumption) ?_) | split | dsimp only

theorem State.tagHello_keeps {s0 : State} (s : State) (h_s : Keeps s0 s) : Keeps s0 (State.tagHello s).2 := by
  unfold State.tagHello
  repeat' first
    | with_reducible first
        | assumption | apply keeps_ite | apply State.bufStore_keeps | apply State.freeB_keeps
        | apply State.pickMsg_keeps | apply State.put_keeps | apply State.sessBegin_keeps
        | apply State.setPriv_keeps | apply keeps_pair_ite
    | simp only [↓keeps_upd_iff] | split | dsimp only

theorem execTagSession_keeps {s0 : State} (m : Bytes) (s : State) (h_s : Keeps s0 s) :
    OutKeeps s0 (execTagSession m s) := by
  unfold execTagSession
  repeat' first
    | with_reducible first
        | intro _ | assumption | apply keeps_ite | apply State.put_keeps | apply State.respond_keeps
        | apply State.sessAnswer_keeps | apply State.sessFinish_keeps | apply State.tagApp_keeps
        | apply State.tagHello_keeps | apply outKeeps_next | apply outKeeps_ite
    | split | dsimp only

theorem State.tagRequest_keeps {s0 : State} (s : State) (req : Bytes) (h_s : Keeps s0 s) :
    Keeps s0 (State.tagRequest s req).2 := by
  unfold State.tagRequest
  repeat' first
    | with_reducible first
        | intro _ | assumption | apply keeps_ite | apply State.freeB_keeps | apply State.visitWrite_keeps
        | apply keeps_pair_ite
    | simp only [↓keeps_upd_iff] | (refine keeps_snd (by with_reducible assumption) ?_)
    | (refine keeps_some (by with_reducible assumption) ?_) | split | dsimp only

theorem execTagData_keeps {s0 : State} (m : Bytes) (s : State) (h_s : Keeps s0 s) :
    OutKeeps s0 (execTagData m s) := by
  unfold execTagData
  repeat' first
    | with_reducible first
        | intro _ | assumption | apply keeps_ite | apply State.pickFail_keeps | apply State.pickMsg_keeps
        | apply State.respond_keeps | apply State.sessData_keeps | apply State.setSess_keeps
        | apply State.tagApp_keeps | apply State.tagRequest_keeps | apply outKeeps_next | apply outKeeps_ite
    | simp only [↓keeps_upd_iff] | (refine keeps_snd (by with_reducible assumption) ?_)
    | (refine keeps_some (by with_reducible assumption) ?_)
    | (refine keeps_next (by with_reducible assumption) ?_) | split | dsimp only

theorem execWriteVisit_keeps {s0 : State} (body : Bytes) (strong : Bool) (torn : Torn) (s : State)
    (h_s : Keeps s0 s) : OutKeeps s0 (execWriteVisit body strong torn s) := by
  unfold execWriteVisit
  repeat' first
    | with_reducible first
        | intro _ | assumption | apply keeps_ite | apply State.respond_keeps | apply State.tagApp_keeps
        | apply State.visitWrite_keeps | apply outKeeps_next | apply outKeeps_ite
    | simp only [↓keeps_upd_iff] | split | dsimp only

theorem execCapSense_keeps {s0 : State} (delta : Nat) (s : State) (h_s : Keeps s0 s) :
    OutKeeps s0 (execCapSense delta s) := by
  unfold execCapSense
  repeat' first
    | with_reducible first
        | assumption | apply keeps_ite | apply State.pass_keeps | apply State.put_keeps | apply outKeeps_next
        | apply outKeeps_ite
    | split | dsimp only

theorem execDetuningPing_keeps {s0 : State} (shift : Bool) (s : State) (h_s : Keeps s0 s) :
    OutKeeps s0 (execDetuningPing shift s) := by
  unfold execDetuningPing
  repeat' first
    | with_reducible first
        | assumption | apply keeps_ite | apply State.pass_keeps | apply State.put_keeps | apply outKeeps_next
        | apply outKeeps_ite
    | split | dsimp only

theorem execBadgePoll_keeps {s0 : State} (ext : Bool) (field : BadgeField) (s : State) (h_s : Keeps s0 s) :
    OutKeeps s0 (execBadgePoll ext field s) := by
  unfold execBadgePoll
  repeat' first
    | with_reducible first
        | intro _ | assumption | apply keeps_ite | apply State.nextBadge_keeps | apply State.pass_keeps
        | apply State.put_keeps | apply outKeeps_next | apply outKeeps_ite
    | simp only [↓keeps_upd_iff] | split | dsimp only

theorem State.backoffPut_keeps {s0 : State} (s : State) (u : Bytes) (h_s : Keeps s0 s) :
    Keeps s0 (State.backoffPut s u) := by
  unfold State.backoffPut
  repeat' first
    | with_reducible first
        | intro _ | assumption | apply keeps_ite
    | simp only [↓keeps_upd_iff] | (refine keeps_snd (by with_reducible assumption) ?_)
    | (refine keeps_some (by with_reducible assumption) ?_)
    | (refine keeps_key (by with_reducible assumption) ?_) | split | dsimp only

theorem execBadgeRefuse_keeps {s0 : State} (s : State) (h_s : Keeps s0 s) :
    OutKeeps s0 (execBadgeRefuse s) := by
  unfold execBadgeRefuse
  repeat' first
    | with_reducible first
        | assumption | apply keeps_ite | apply State.backoffPut_keeps | apply State.evUnit_keeps
        | apply State.inc_keeps | apply State.nextBadge_keeps | apply State.raise_keeps | apply outKeeps_next
        | apply outKeeps_ite
    | simp only [↓keeps_upd_iff] | (refine keeps_snd (by with_reducible assumption) ?_)
    | (refine keeps_some (by with_reducible assumption) ?_)
    | (refine keeps_next (by with_reducible assumption) ?_) | split | dsimp only

theorem execPickStatusRead_keeps {s0 : State} (s : State) (h_s : Keeps s0 s) :
    OutKeeps s0 (execPickStatusRead s) := by
  unfold execPickStatusRead
  repeat' first
    | with_reducible first
        | assumption | apply State.clrIrq_keeps | apply outKeeps_next
    | dsimp only

theorem execPickMirrorRead_keeps {s0 : State} (s : State) (h_s : Keeps s0 s) :
    OutKeeps s0 (execPickMirrorRead s) := by
  unfold execPickMirrorRead
  repeat' first
    | with_reducible first
        | assumption | apply State.clrIrq_keeps | apply outKeeps_next
    | dsimp only

end Sys2Proof.Machine
end

