-- ==== Sys2Proof/Laws/ResetKeeps.lean ====
section
/-! SUPPORT. What the definitions of Machine/Reset.lean keep, one lemma each. -/

namespace Sys2Proof.Machine

set_option linter.all false

theorem State.logDrain_keeps {s0 : State} (s : State) (x0 : Nat) (h_s : Keeps s0 s) :
    Keeps s0 (State.logDrain s x0) := by
  induction x0 generalizing s with
  | zero =>
    unfold State.logDrain
    repeat' first
    | with_reducible first
        | assumption | apply State.logProgram_keeps
    | simp only [↓keeps_upd_iff] | (refine keeps_snd (by with_reducible assumption) ?_) | split | dsimp only
  | succ n ih =>
    unfold State.logDrain
    repeat' first
      | with_reducible first
          | assumption | apply State.logProgram_keeps | apply ih
      | simp only [↓keeps_upd_iff] | (refine keeps_snd (by with_reducible assumption) ?_) | split
      | dsimp only

theorem State.opCut_keeps {s0 : State} (s : State) (o : DieOp) (h_s : Keeps s0 s) :
    Keeps s0 (State.opCut s o) := by
  unfold State.opCut
  repeat' first
    | with_reducible first
        | assumption | apply keeps_ite | apply State.blkProgram_keeps | apply State.freeB_keeps
        | apply State.free_keeps | apply State.setBlk_keeps
    | simp only [↓keeps_upd_iff] | (refine keeps_snd (by with_reducible assumption) ?_)
    | (refine keeps_some (by with_reducible assumption) ?_) | split | dsimp only

theorem State.opWhole_keeps {s0 : State} (s : State) (o : DieOp) (h_s : Keeps s0 s) :
    Keeps s0 (State.opWhole s o) := by
  unfold State.opWhole
  repeat' first
    | with_reducible first
        | assumption | apply State.blkProgram_keeps
    | simp only [↓keeps_upd_iff] | (refine keeps_snd (by with_reducible assumption) ?_)
    | (refine keeps_some (by with_reducible assumption) ?_) | split | dsimp only

theorem State.flushCut_keeps {s0 : State} (s : State) (h_s : Keeps s0 s) : Keeps s0 (State.flushCut s) := by
  unfold State.flushCut
  repeat' first
    | with_reducible first
        | assumption | apply State.free_keeps | apply State.ringWrite_keeps
    | simp only [↓keeps_upd_iff] | (refine keeps_snd (by with_reducible assumption) ?_)
    | (refine keeps_some (by with_reducible assumption) ?_) | split | dsimp only

theorem State.rebuild_keeps {s0 : State} (s : State) (keep : Nat → Bool) (h_s : Keeps s0 s) : Keeps s0 (State.rebuild s keep) := by
  unfold State.rebuild
  dsimp only
  apply State.privCount_keeps
  apply State.putB_keeps
  apply State.put_keeps
  apply State.putB_keeps
  apply State.put_keeps
  exact keeps_of h_s rfl (Nat.le_refl _) fun x => ⟨rfl, x.2⟩

theorem State.enterP3_keeps {s0 : State} (s : State) (h_s : Keeps s0 s) : Keeps s0 (State.enterP3 s) := by
  unfold State.enterP3
  repeat' first
    | with_reducible first
        | intro _ | assumption | apply State.rebuild_keeps
    | simp only [↓keeps_upd_iff] | split | dsimp only

end Sys2Proof.Machine
end

