-- ==== Sys2Proof/Laws/DebugBaseKeeps.lean ====
section
/-! SUPPORT. What the definitions of Machine/DebugBase.lean keep, one lemma each. -/

namespace Sys2Proof.Machine

set_option linter.all false

theorem State.haltNow_keeps {s0 : State} (s : State) (mid p : Nat) (h_s : Keeps s0 s) :
    Keeps s0 (State.haltNow s mid p) := by
  unfold State.haltNow
  repeat' first
    | with_reducible first
        | intro _ | assumption | apply keeps_ite | apply State.put_keeps | apply State.setProc_keeps
    | simp only [↓keeps_upd_iff] | split | dsimp only

theorem State.debugCatch_keeps {s0 : State} (s : State) (p : Nat) (h_s : Keeps s0 s) :
    Keeps s0 (State.debugCatch s p) := by
  unfold State.debugCatch
  repeat' first
    | with_reducible first
        | assumption | apply keeps_ite | apply State.haltNow_keeps
    | simp only [↓keeps_upd_iff] | (refine keeps_snd (by with_reducible assumption) ?_)
    | (refine keeps_some (by with_reducible assumption) ?_) | split | dsimp only

end Sys2Proof.Machine
end

