-- ==== Sys2Proof/Laws/FretRegsKeeps.lean ====
section
/-! SUPPORT. What the definitions of Machine/FretRegs.lean keep, one lemma each. -/

namespace Sys2Proof.Machine

set_option linter.all false

theorem State.feCtlWrite_keeps {s0 : State} (s : State) (n : Nat) (v : Word32) (h_s : Keeps s0 s) :
    Keeps s0 (State.feCtlWrite s n v) := by
  unfold State.feCtlWrite
  repeat' first
    | with_reducible first
        | assumption | apply State.holdNow_keeps | apply State.regStore_keeps
    | dsimp only

theorem execFeCtlWrite_keeps {s0 : State} (n : Nat) (v : Word32) (s : State) (h_s : Keeps s0 s) :
    OutKeeps s0 (execFeCtlWrite n v s) := by
  unfold execFeCtlWrite
  repeat' first
    | with_reducible first
        | assumption | apply keeps_ite | apply State.feCtlWrite_keeps | apply outKeeps_next
        | apply outKeeps_ite
    | split | dsimp only

theorem State.feConfigWrite_keeps {s0 : State} (s : State) (off : Nat) (v : Word32) (h_s : Keeps s0 s) :
    Keeps s0 (State.feConfigWrite s off v) := by
  unfold State.feConfigWrite
  repeat' first
    | with_reducible first
        | assumption | apply keeps_ite | apply State.put_keeps | apply State.raise_keeps
        | apply State.regStore_keeps
    | split | dsimp only

theorem execFeConfigWrite_keeps {s0 : State} (n r : Nat) (v : Word32) (s : State) (h_s : Keeps s0 s) :
    OutKeeps s0 (execFeConfigWrite n r v s) := by
  unfold execFeConfigWrite
  repeat' first
    | with_reducible first
        | assumption | apply keeps_ite | apply State.feConfigWrite_keeps | apply outKeeps_next
        | apply outKeeps_ite
    | split | dsimp only

end Sys2Proof.Machine
end

