-- ==== Sys2Proof/Laws/TickKeeps.lean ====
section
/-! SUPPORT. What the definitions of Machine/Tick.lean keep, one lemma each. -/

namespace Sys2Proof.Machine

set_option linter.all false

theorem State.engineStart_keeps {s0 : State} (s : State) (n : Nat) (h_s : Keeps s0 s) :
    Keeps s0 (State.engineStart s n) := by
  unfold State.engineStart
  repeat' first
    | with_reducible first
        | assumption | apply State.debugCatch_keeps | apply State.free_keeps | apply State.setProc_keeps
        | apply State.tickEntry_keeps
    | simp only [↓keeps_upd_iff] | dsimp only

theorem State.feBStart_keeps {s0 : State} (s : State) (h_s : Keeps s0 s) : Keeps s0 (State.feBStart s) := by
  unfold State.feBStart
  repeat' first
    | with_reducible first
        | assumption | apply State.engineStart_keeps | apply State.passTo_keeps
    | simp only [↓keeps_upd_iff] | dsimp only

theorem execFeBStart_keeps {s0 : State} (s : State) (h_s : Keeps s0 s) : OutKeeps s0 (execFeBStart s) := by
  unfold execFeBStart
  repeat' first
    | with_reducible first
        | assumption | apply keeps_ite | apply State.feBStart_keeps | apply outKeeps_next
        | apply outKeeps_ite
    | split | dsimp only

theorem State.abandonLate_keeps {s0 : State} (s : State) (h_s : Keeps s0 s) :
    Keeps s0 (State.abandonLate s) := by
  unfold State.abandonLate
  repeat' first
    | with_reducible first
        | intro _ | assumption | apply keeps_ite | apply State.feAbandon_keeps | apply keeps_foldl
    | split | dsimp only

theorem State.listsGone_keeps {s0 : State} (s : State) (h_s : Keeps s0 s) : Keeps s0 (State.listsGone s) := by
  unfold State.listsGone
  repeat' first
    | with_reducible first
        | assumption
    | simp only [↓keeps_upd_iff] | dsimp only

theorem State.endTick_keeps {s0 : State} (s : State) (h_s : Keeps s0 s) : Keeps s0 (State.endTick s) := by
  unfold State.endTick
  repeat' first
    | with_reducible first
        | assumption | apply keeps_ite | apply State.abandonLate_keeps | apply State.feBStart_keeps
        | apply State.listsGone_keeps | apply State.objEdge_keeps | apply State.relEdge_keeps
    | split | dsimp only

theorem State.tickCounters_keeps {s0 : State} (s : State) (n : Nat) (h_s : Keeps s0 s) :
    Keeps s0 (State.tickCounters s n) := by
  unfold State.tickCounters
  repeat' first
    | with_reducible first
        | assumption | apply keeps_ite | apply State.put_keeps
    | split | dsimp only

theorem State.sampleEdge_keeps {s0 : State} (s : State) (h_s : Keeps s0 s) :
    Keeps s0 (State.sampleEdge s) := by
  unfold State.sampleEdge
  repeat' first
    | with_reducible first
        | intro _ | assumption
    | simp only [↓keeps_upd_iff] | (refine keeps_snd (by with_reducible assumption) ?_)
    | (refine keeps_snd3 (by with_reducible assumption) ?_)
    | (refine keeps_some (by with_reducible assumption) ?_) | split | dsimp only

theorem State.heldFollows_keeps {s0 : State} (s : State) (n : Nat) (h_s : Keeps s0 s) :
    Keeps s0 (State.heldFollows s n) := by
  unfold State.heldFollows
  repeat' first
    | with_reducible first
        | assumption | apply keeps_ite | apply State.putB_keeps | apply State.setProc_keeps
    | simp only [↓keeps_upd_iff] | split | dsimp only

theorem State.startEngines_keeps {s0 : State} (s : State) (h_s : Keeps s0 s) :
    Keeps s0 (State.startEngines s) := by
  unfold State.startEngines
  repeat' first
    | with_reducible first
        | intro _ | assumption | apply keeps_ite | apply State.engineStart_keeps | apply keeps_foldl
    | simp only [↓keeps_upd_iff] | split | dsimp only

theorem State.startTick_keeps {s0 : State} (s : State) (n : Nat) (h_s : Keeps s0 s) : Keeps s0 (State.startTick s n) := by
  have h1 : Keeps s0 ((if n = 0 then s.ratePending else s).tickCounters n) :=
    State.tickCounters_keeps _ _ (keeps_ite (State.ratePending_keeps _ h_s) h_s)
  have h2 := keeps_foldl (l := List.range 32) (fun t e ht => State.heldFollows_keeps t e ht) h1
  unfold State.startTick
  exact State.startEngines_keeps _ (State.drawD_keeps _ (keeps_upd
    (State.relScan_keeps _ (State.heldForm_keeps _ (State.sampleEdge_keeps _ (keeps_upd h2))))))

theorem State.parkEngines_keeps {s0 : State} (s : State) (h_s : Keeps s0 s) :
    Keeps s0 (State.parkEngines s) := by
  unfold State.parkEngines
  repeat' first
    | with_reducible first
        | intro _ | assumption | apply State.setProc_keeps | apply State.tickEntry_keeps | apply keeps_foldl
    | simp only [↓keeps_upd_iff] | dsimp only

theorem State.stopEdge_keeps {s0 : State} (s : State) (h_s : Keeps s0 s) : Keeps s0 (State.stopEdge s) := by
  unfold State.stopEdge
  repeat' first
    | with_reducible first
        | intro _ | assumption | apply State.heldFollows_keeps | apply State.parkEngines_keeps
        | apply State.ratePending_keeps | apply keeps_foldl
    | simp only [↓keeps_upd_iff] | dsimp only

theorem execTickEdge_keeps {s0 : State} (s : State) (h_s : Keeps s0 s) : OutKeeps s0 (execTickEdge s) := by
  unfold execTickEdge
  repeat' first
    | with_reducible first
        | assumption | apply keeps_ite | apply State.endTick_keeps | apply State.passTo_keeps
        | apply State.settle_keeps | apply State.startTick_keeps | apply State.stopEdge_keeps
        | apply outKeeps_next | apply outKeeps_ite
    | split | dsimp only

theorem State.timeCtlWrite_keeps {s0 : State} (s : State) (v : Word32) (h_s : Keeps s0 s) :
    Keeps s0 (State.timeCtlWrite s v) := by
  unfold State.timeCtlWrite
  repeat' first
    | with_reducible first
        | intro _ | assumption | apply keeps_ite | apply State.holdNow_keeps
        | apply State.relRunCleared_keeps | apply State.timeCtlBase_keeps | apply keeps_foldl
    | split | dsimp only

theorem execTimeSrcWrite_keeps {s0 : State} (v : Word32) (s : State) (h_s : Keeps s0 s) :
    OutKeeps s0 (execTimeSrcWrite v s) := by
  unfold execTimeSrcWrite
  repeat' first
    | with_reducible first
        | assumption | apply State.settle_keeps | apply State.timeCtlWrite_keeps | apply outKeeps_next
    | dsimp only

theorem execTickRunSet_keeps {s0 : State} (v : Word32) (s : State) (h_s : Keeps s0 s) :
    OutKeeps s0 (execTickRunSet v s) := by
  unfold execTickRunSet
  repeat' first
    | with_reducible first
        | assumption | apply State.settle_keeps | apply State.timeCtlWrite_keeps | apply outKeeps_next
    | split | dsimp only

theorem execTickRunClear_keeps {s0 : State} (v : Word32) (s : State) (h_s : Keeps s0 s) :
    OutKeeps s0 (execTickRunClear v s) := by
  unfold execTickRunClear
  repeat' first
    | with_reducible first
        | assumption | apply State.settle_keeps | apply State.timeCtlWrite_keeps | apply outKeeps_next
    | dsimp only

end Sys2Proof.Machine
end

