-- ==== Sys2Proof/Laws/PowerKeeps.lean ====
section
/-! SUPPORT. What the definitions of Machine/Power.lean keep, one lemma each. -/

namespace Sys2Proof.Machine

set_option linter.all false

theorem execUnitGateWake_keeps {s0 : State} (s : State) (h_s : Keeps s0 s) :
    OutKeeps s0 (execUnitGateWake s) := by
  unfold execUnitGateWake
  repeat' first
    | with_reducible first
        | assumption | apply keeps_ite | apply State.pass_keeps | apply State.putGated_keeps
        | apply outKeeps_next | apply outKeeps_ite
    | split | dsimp only

theorem execEnginePreWake_keeps {s0 : State} (n : Nat) (s : State) (h_s : Keeps s0 s) :
    OutKeeps s0 (execEnginePreWake n s) := by
  unfold execEnginePreWake
  repeat' first
    | with_reducible first
        | assumption | apply keeps_ite | apply State.passTo_keeps | apply State.putGated_keeps
        | apply outKeeps_next | apply outKeeps_ite
    | split | dsimp only

theorem State.askReset_keeps {s0 : State} (s : State) (c : ResetCause) (h_s : Keeps s0 s) :
    Keeps s0 (State.askReset s c) := by
  unfold State.askReset
  repeat' first
    | with_reducible first
        | assumption
    | simp only [↓keeps_upd_iff] | (refine keeps_some (by with_reducible assumption) ?_) | split | dsimp only

theorem State.pwrCtlWrite_keeps {s0 : State} (s : State) (mid : Nat) (v : Word32) (h_s : Keeps s0 s) :
    Keeps s0 (State.pwrCtlWrite s mid v) := by
  unfold State.pwrCtlWrite
  repeat' first
    | with_reducible first
        | assumption | apply keeps_ite | apply State.askReset_keeps | apply State.raise_keeps
    | simp only [↓keeps_upd_iff] | split | dsimp only

theorem execSoftwareReset_keeps {s0 : State} (mid : Nat) (s : State) (h_s : Keeps s0 s) :
    OutKeeps s0 (execSoftwareReset mid s) := by
  unfold execSoftwareReset
  repeat' first
    | with_reducible first
        | assumption | apply State.pwrCtlWrite_keeps | apply outKeeps_next
    | dsimp only

theorem State.portsDown_keeps {s0 : State} (s : State) (h_s : Keeps s0 s) : Keeps s0 (State.portsDown s) := by
  unfold State.portsDown
  repeat' first
    | with_reducible first
        | intro _ | assumption | apply State.setLink_keeps | apply keeps_foldl
    | dsimp only

theorem execRetainRequest_keeps {s0 : State} (l12 : Bool) (s : State) (h_s : Keeps s0 s) :
    OutKeeps s0 (execRetainRequest l12 s) := by
  unfold execRetainRequest
  repeat' first
    | with_reducible first
        | assumption | apply keeps_ite | apply State.flushStart_keeps | apply State.portsDown_keeps
        | apply State.put_keeps | apply State.setIrq_keeps | apply outKeeps_next | apply outKeeps_ite
    | simp only [↓keeps_upd_iff] | split | dsimp only

theorem execRetainDrainExpiry_keeps {s0 : State} (s : State) (h_s : Keeps s0 s) :
    OutKeeps s0 (execRetainDrainExpiry s) := by
  unfold execRetainDrainExpiry
  repeat' first
    | with_reducible first
        | intro _ | assumption | apply keeps_ite | apply State.cellEnd_keeps | apply State.passTo_keeps
        | apply State.veStop_keeps | apply keeps_foldl | apply outKeeps_next | apply outKeeps_ite
    | simp only [↓keeps_upd_iff] | (refine keeps_snd (by with_reducible assumption) ?_)
    | (refine keeps_some (by with_reducible assumption) ?_)
    | (refine keeps_next (by with_reducible assumption) ?_) | split | dsimp only

theorem State.pickStop_keeps {s0 : State} (s : State) (h_s : Keeps s0 s) : Keeps s0 (State.pickStop s) := by
  unfold State.pickStop
  repeat' first
    | with_reducible first
        | assumption | apply keeps_ite | apply State.pickEnd_keeps | apply State.put_keeps
        | apply State.readerOff_keeps
    | simp only [↓keeps_upd_iff] | split | dsimp only

theorem State.rosinOff_keeps {s0 : State} (s : State) (h_s : Keeps s0 s) : Keeps s0 (State.rosinOff s) := by
  unfold State.rosinOff
  repeat' first
    | with_reducible first
        | assumption | apply keeps_ite | apply State.putReserve_keeps | apply State.rosinPut_keeps
    | simp only [↓keeps_upd_iff] | split | dsimp only

theorem State.enterP2_keeps {s0 : State} (s : State) (h_s : Keeps s0 s) : Keeps s0 (State.enterP2 s) := by
  unfold State.enterP2
  repeat' first
    | with_reducible first
        | assumption | apply keeps_ite | apply State.cardOff_keeps | apply State.flushDone_keeps
        | apply State.mirrorOpTime_keeps | apply State.pickStop_keeps | apply State.rosinOff_keeps
    | simp only [↓keeps_upd_iff] | split | dsimp only

theorem execLinkL12Entry_keeps {s0 : State} (s : State) (h_s : Keeps s0 s) :
    OutKeeps s0 (execLinkL12Entry s) := by
  unfold execLinkL12Entry
  repeat' first
    | with_reducible first
        | intro _ | assumption | apply keeps_ite | apply State.enterP2_keeps | apply outKeeps_next
        | apply outKeeps_ite
    | split | dsimp only

theorem State.dipWarn_keeps {s0 : State} (s : State) (h_s : Keeps s0 s) : Keeps s0 (State.dipWarn s) := by
  unfold State.dipWarn
  repeat' first
    | with_reducible first
        | assumption | apply State.evUnitFree_keeps | apply State.put_keeps | apply State.raise_keeps
        | apply State.setIrq_keeps
    | dsimp only

theorem State.dipShed_keeps {s0 : State} (s : State) (h_s : Keeps s0 s) : Keeps s0 (State.dipShed s) := by
  unfold State.dipShed
  repeat' first
    | with_reducible first
        | assumption | apply keeps_ite | apply State.erasesSuspend_keeps | apply State.flushStart_keeps
        | apply State.gateChange_keeps | apply State.pickEnd_keeps | apply State.put_keeps
        | apply State.readerOff_keeps
    | simp only [↓keeps_upd_iff] | split | dsimp only

theorem State.dipStop_keeps {s0 : State} (s : State) (h_s : Keeps s0 s) : Keeps s0 (State.dipStop s) := by
  unfold State.dipStop
  repeat' first
    | with_reducible first
        | assumption | apply keeps_ite | apply State.cardOff_keeps | apply State.dipShed_keeps
        | apply State.mirrorOpTime_keeps | apply State.msiSend_keeps | apply State.portsDown_keeps
        | apply State.put_keeps | apply State.raise_keeps | apply State.setIrq_keeps
        | apply State.timeCtlWrite_keeps
    | simp only [↓keeps_upd_iff] | split | dsimp only

theorem State.bankAt_keeps {s0 : State} (s : State) (mv : Nat) (h_s : Keeps s0 s) :
    Keeps s0 (State.bankAt s mv) := by
  unfold State.bankAt
  repeat' first
    | with_reducible first
        | assumption | apply State.put_keeps
    | simp only [↓keeps_upd_iff] | dsimp only

theorem execSupplyWarning_keeps {s0 : State} (input bank : Nat) (s : State) (h_s : Keeps s0 s) :
    OutKeeps s0 (execSupplyWarning input bank s) := by
  unfold execSupplyWarning
  repeat' first
    | with_reducible first
        | assumption | apply keeps_ite | apply State.dipWarn_keeps | apply State.pass_keeps
        | apply State.put_keeps | apply outKeeps_next | apply outKeeps_ite
    | simp only [↓keeps_upd_iff] | split | dsimp only

theorem execSupplyShed_keeps {s0 : State} (bank : Nat) (s : State) (h_s : Keeps s0 s) :
    OutKeeps s0 (execSupplyShed bank s) := by
  unfold execSupplyShed
  repeat' first
    | with_reducible first
        | assumption | apply keeps_ite | apply State.bankAt_keeps | apply State.dipShed_keeps
        | apply State.passTo_keeps | apply State.settle_keeps | apply outKeeps_next | apply outKeeps_ite
    | simp only [↓keeps_upd_iff] | (refine keeps_snd (by with_reducible assumption) ?_)
    | (refine keeps_some (by with_reducible assumption) ?_)
    | (refine keeps_next (by with_reducible assumption) ?_) | split | dsimp only

theorem execSupplyStopping_keeps {s0 : State} (s : State) (h_s : Keeps s0 s) :
    OutKeeps s0 (execSupplyStopping s) := by
  unfold execSupplyStopping
  repeat' first
    | with_reducible first
        | assumption | apply keeps_ite | apply State.bankAt_keeps | apply State.dipStop_keeps
        | apply State.settle_keeps | apply outKeeps_next | apply outKeeps_ite
    | split | dsimp only

theorem execSupplyResetLevel_keeps {s0 : State} (absent : Bool) (s : State) (h_s : Keeps s0 s) :
    OutKeeps s0 (execSupplyResetLevel absent s) := by
  unfold execSupplyResetLevel
  repeat' first
    | with_reducible first
        | assumption | apply keeps_ite | apply State.askReset_keeps | apply State.bankAt_keeps
        | apply State.dipStop_keeps | apply State.enterP3_keeps | apply State.settle_keeps
        | apply outKeeps_next | apply outKeeps_ite
    | simp only [↓keeps_upd_iff] | split | dsimp only

theorem execInputRestored_keeps {s0 : State} (input bank : Nat) (s : State) (h_s : Keeps s0 s) :
    OutKeeps s0 (execInputRestored input bank s) := by
  unfold execInputRestored
  repeat' first
    | with_reducible first
        | assumption | apply keeps_ite | apply State.bankAt_keeps | apply State.put_keeps
        | apply outKeeps_next | apply outKeeps_ite
    | simp only [↓keeps_upd_iff] | split | dsimp only

theorem State.readerBack_keeps {s0 : State} (s : State) (h_s : Keeps s0 s) :
    Keeps s0 (State.readerBack s) := by
  unfold State.readerBack
  repeat' first
    | with_reducible first
        | assumption | apply keeps_ite | apply State.put_keeps
    | split | dsimp only

theorem State.dipLift_keeps {s0 : State} (s : State) (from_ restored : Nat) (h_s : Keeps s0 s) :
    Keeps s0 (State.dipLift s from_ restored) := by
  unfold State.dipLift
  repeat' first
    | with_reducible first
        | assumption | apply State.clrIrq_keeps | apply State.evEnter_keeps | apply State.free_keeps
        | apply State.gateChange_keeps | apply State.inc_keeps | apply State.keyRetry_keeps
        | apply State.lifeRetry_keeps | apply State.put_keeps | apply State.readerBack_keeps
        | apply State.setIrq_keeps
    | simp only [↓keeps_upd_iff] | dsimp only

theorem execShedLift_keeps {s0 : State} (s : State) (h_s : Keeps s0 s) : OutKeeps s0 (execShedLift s) := by
  unfold execShedLift
  repeat' first
    | with_reducible first
        | assumption | apply keeps_ite | apply State.askReset_keeps | apply State.dipLift_keeps
        | apply State.passTo_keeps | apply outKeeps_next | apply outKeeps_ite
    | simp only [↓keeps_upd_iff] | (refine keeps_snd (by with_reducible assumption) ?_)
    | (refine keeps_some (by with_reducible assumption) ?_)
    | (refine keeps_next (by with_reducible assumption) ?_) | split | dsimp only

theorem execHoldupCheck_keeps {s0 : State} (bank : Nat) (s : State) (h_s : Keeps s0 s) :
    OutKeeps s0 (execHoldupCheck bank s) := by
  unfold execHoldupCheck
  repeat' first
    | with_reducible first
        | assumption | apply keeps_ite | apply State.passTo_keeps | apply State.put_keeps
        | apply State.raise_keeps | apply outKeeps_next | apply outKeeps_ite
    | split | dsimp only

theorem execOvervoltage_keeps {s0 : State} (input : Nat) (s : State) (h_s : Keeps s0 s) :
    OutKeeps s0 (execOvervoltage input s) := by
  unfold execOvervoltage
  repeat' first
    | with_reducible first
        | assumption | apply keeps_ite | apply State.pass_keeps | apply State.put_keeps
        | apply State.raise_keeps | apply outKeeps_next | apply outKeeps_ite
    | split | dsimp only

theorem execPowerTotalLoss_keeps {s0 : State} (s : State) (h_s : Keeps s0 s) :
    OutKeeps s0 (execPowerTotalLoss s) := by
  unfold execPowerTotalLoss
  repeat' first
    | with_reducible first
        | intro _ | assumption | apply keeps_ite | apply State.enterP3_keeps | apply State.putB_keeps
        | apply State.putSticky_keeps | apply State.put_keeps | apply State.rootErase_keeps
        | apply outKeeps_next | apply outKeeps_ite
    | simp only [↓keeps_upd_iff] | split | dsimp only

theorem State.wake_keeps {s0 : State} (s : State) (src us : Nat) (h_s : Keeps s0 s) :
    Keeps s0 (State.wake s src us) := by
  unfold State.wake
  repeat' first
    | with_reducible first
        | assumption | apply keeps_ite | apply State.askReset_keeps | apply State.dipWarn_keeps
        | apply State.pass_keeps | apply State.put_keeps | apply State.readerBack_keeps
        | apply State.rosinPut_keeps | apply State.rosinRestart_keeps | apply State.setIrq_keeps
        | apply State.setProc_keeps
    | simp only [↓keeps_upd_iff] | split | dsimp only

theorem execWake_keeps {s0 : State} (src us : Nat) (s : State) (h_s : Keeps s0 s) :
    OutKeeps s0 (execWake src us s) := by
  unfold execWake
  repeat' first
    | with_reducible first
        | assumption | apply keeps_ite | apply State.passTo_keeps | apply State.wake_keeps
        | apply outKeeps_next | apply outKeeps_ite
    | split | dsimp only

theorem execWakeNLow_keeps {s0 : State} (us : Nat) (s : State) (h_s : Keeps s0 s) :
    OutKeeps s0 (execWakeNLow us s) := by
  unfold execWakeNLow
  repeat' first
    | with_reducible first
        | assumption | apply keeps_ite | apply State.pass_keeps | apply State.wake_keeps
        | apply outKeeps_next | apply outKeeps_ite
    | split | dsimp only

theorem execWakeFail_keeps {s0 : State} (src : Nat) (s : State) (h_s : Keeps s0 s) :
    OutKeeps s0 (execWakeFail src s) := by
  unfold execWakeFail
  repeat' first
    | with_reducible first
        | assumption | apply keeps_ite | apply State.passTo_keeps | apply State.raise_keeps
        | apply outKeeps_next | apply outKeeps_ite
    | simp only [↓keeps_upd_iff] | split | dsimp only

theorem execRstNLow_keeps {s0 : State} (s : State) (h_s : Keeps s0 s) : OutKeeps s0 (execRstNLow s) := by
  unfold execRstNLow
  repeat' first
    | with_reducible first
        | assumption | apply keeps_ite | apply State.askReset_keeps | apply State.pass_keeps
        | apply State.put_keeps | apply State.settle_keeps | apply outKeeps_next | apply outKeeps_ite
    | simp only [↓keeps_upd_iff] | split | dsimp only

theorem execPerstNLow_keeps {s0 : State} (s : State) (h_s : Keeps s0 s) : OutKeeps s0 (execPerstNLow s) := by
  unfold execPerstNLow
  repeat' first
    | with_reducible first
        | assumption | apply keeps_ite | apply State.linkDown_keeps | apply outKeeps_next
        | apply outKeeps_ite
    | simp only [↓keeps_upd_iff] | split | dsimp only

theorem execPerstNRise_keeps {s0 : State} (s : State) (h_s : Keeps s0 s) :
    OutKeeps s0 (execPerstNRise s) := by
  unfold execPerstNRise
  repeat' first
    | with_reducible first
        | assumption | apply outKeeps_next
    | simp only [↓keeps_upd_iff] | dsimp only

theorem execPwrStatusRead_keeps {s0 : State} (s : State) (h_s : Keeps s0 s) :
    OutKeeps s0 (execPwrStatusRead s) := by
  unfold execPwrStatusRead
  repeat' first
    | with_reducible first
        | assumption | apply State.clrIrq_keeps | apply outKeeps_next
    | dsimp only

end Sys2Proof.Machine
end

