-- ==== Sys2Proof/Laws/CaseKeeps.lean ====
section
/-! SUPPORT. What the definitions of Machine/Case.lean keep, one lemma each. -/

namespace Sys2Proof.Machine

set_option linter.all false

theorem State.caseEnd_keeps {s0 : State} (s : State) (st det : Nat) (h_s : Keeps s0 s) :
    Keeps s0 (State.caseEnd s st det) := by
  unfold State.caseEnd
  repeat' first
    | with_reducible first
        | assumption | apply State.put_keeps | apply State.setIrq_keeps
    | simp only [↓keeps_upd_iff] | dsimp only

theorem State.keyWrite_keeps {s0 : State} (s : State) (a : Nat) (bs : Bytes) (h_s : Keeps s0 s) :
    Keeps s0 (State.keyWrite s a bs) := by
  unfold State.keyWrite
  repeat' first
    | with_reducible first
        | assumption | apply State.bufStore_keeps
    | dsimp only

theorem State.dieQueue_keeps {s0 : State} (s : State) (o : DieOp) (h_s : Keeps s0 s) :
    Keeps s0 (State.dieQueue s o) := by
  unfold State.dieQueue
  repeat' first
    | with_reducible first
        | assumption
    | simp only [↓keeps_upd_iff] | dsimp only

theorem State.blockInfo_keeps {s0 : State} (s : State) (b : Nat) (h_s : Keeps s0 s) :
    Keeps s0 (State.blockInfo s b) := by
  unfold State.blockInfo
  repeat' first
    | with_reducible first
        | assumption | apply keeps_ite | apply State.put_keeps | apply outKeeps_next | apply outKeeps_ite
    | split | dsimp only

theorem State.caseGo_keeps {s0 : State} (s : State) (mid op : Nat) (h_s : Keeps s0 s) :
    Keeps s0 (State.caseGo s mid op) := by
  unfold State.caseGo
  repeat' first
    | with_reducible first
        | assumption | apply keeps_ite | apply State.blockInfo_keeps | apply State.caseEnd_keeps
        | apply State.clrIrq_keeps | apply State.dieQueue_keeps | apply State.keyRead_keeps
        | apply State.keyWrite_keeps | apply State.put_keeps | apply State.raiseBase_keeps
        | apply State.relocate_keeps | apply State.setIrq_keeps | apply State.settle_keeps
    | simp only [↓keeps_upd_iff] | (refine keeps_snd (by with_reducible assumption) ?_)
    | (refine keeps_snd3 (by with_reducible assumption) ?_)
    | (refine keeps_some (by with_reducible assumption) ?_)
    | (refine keeps_some2 (by with_reducible assumption) ?_) | split | dsimp only

theorem execCaseRead_keeps {s0 : State} (mid : Nat) (s : State) (h_s : Keeps s0 s) :
    OutKeeps s0 (execCaseRead mid s) := by
  unfold execCaseRead
  repeat' first
    | with_reducible first
        | assumption | apply State.caseGo_keeps | apply outKeeps_next
    | dsimp only

theorem execCaseProgram_keeps {s0 : State} (mid : Nat) (s : State) (h_s : Keeps s0 s) :
    OutKeeps s0 (execCaseProgram mid s) := by
  unfold execCaseProgram
  repeat' first
    | with_reducible first
        | assumption | apply State.caseGo_keeps | apply outKeeps_next
    | dsimp only

theorem execCaseErase_keeps {s0 : State} (mid : Nat) (s : State) (h_s : Keeps s0 s) :
    OutKeeps s0 (execCaseErase mid s) := by
  unfold execCaseErase
  repeat' first
    | with_reducible first
        | assumption | apply State.caseGo_keeps | apply outKeeps_next
    | dsimp only

theorem execReadTuning_keeps {s0 : State} (mid : Nat) (s : State) (h_s : Keeps s0 s) :
    OutKeeps s0 (execReadTuning mid s) := by
  unfold execReadTuning
  repeat' first
    | with_reducible first
        | assumption | apply State.caseGo_keeps | apply outKeeps_next
    | dsimp only

theorem execBlockinfo_keeps {s0 : State} (mid : Nat) (s : State) (h_s : Keeps s0 s) :
    OutKeeps s0 (execBlockinfo mid s) := by
  unfold execBlockinfo
  repeat' first
    | with_reducible first
        | assumption | apply State.caseGo_keeps | apply outKeeps_next
    | dsimp only

theorem execRelocate_keeps {s0 : State} (mid : Nat) (s : State) (h_s : Keeps s0 s) :
    OutKeeps s0 (execRelocate mid s) := by
  unfold execRelocate
  repeat' first
    | with_reducible first
        | assumption | apply State.caseGo_keeps | apply outKeeps_next
    | dsimp only

theorem execCaseCmdUnassigned_keeps {s0 : State} (mid op : Nat) (s : State) (h_s : Keeps s0 s) :
    OutKeeps s0 (execCaseCmdUnassigned mid op s) := by
  unfold execCaseCmdUnassigned
  repeat' first
    | with_reducible first
        | assumption | apply keeps_ite | apply State.caseGo_keeps | apply outKeeps_next | apply outKeeps_ite
    | split | dsimp only

theorem execCaseCmdResultRead_keeps {s0 : State} (s : State) (h_s : Keeps s0 s) :
    OutKeeps s0 (execCaseCmdResultRead s) := by
  unfold execCaseCmdResultRead
  repeat' first
    | with_reducible first
        | assumption | apply State.clrIrq_keeps | apply outKeeps_next
    | dsimp only

theorem execCaseFailAddrRead_keeps {s0 : State} (s : State) (h_s : Keeps s0 s) :
    OutKeeps s0 (execCaseFailAddrRead s) := by
  unfold execCaseFailAddrRead
  repeat' first
    | with_reducible first
        | assumption | apply State.clrIrq_keeps | apply outKeeps_next
    | dsimp only

theorem State.dieStart_keeps {s0 : State} (s : State) (plane : Nat) (o : DieOp) (h_s : Keeps s0 s) :
    Keeps s0 (State.dieStart s plane o) := by
  unfold State.dieStart
  repeat' first
    | with_reducible first
        | assumption | apply keeps_ite | apply State.blkSwap_keeps | apply State.relocate_keeps
        | apply State.setBlk_keeps | apply State.shieldCopy_keeps | apply outKeeps_next | apply outKeeps_ite
    | simp only [↓keeps_upd_iff] | (refine keeps_snd (by with_reducible assumption) ?_)
    | (refine keeps_some (by with_reducible assumption) ?_)
    | (refine keeps_next (by with_reducible assumption) ?_) | split | dsimp only

theorem State.eraseSuspend_keeps {s0 : State} (s : State) (plane : Nat) (h_s : Keeps s0 s) :
    Keeps s0 (State.eraseSuspend s plane) := by
  unfold State.eraseSuspend
  repeat' first
    | with_reducible first
        | assumption | apply keeps_ite | apply State.inc_keeps
    | simp only [↓keeps_upd_iff] | (refine keeps_snd (by with_reducible assumption) ?_)
    | (refine keeps_some (by with_reducible assumption) ?_) | split | dsimp only

theorem execCasePlaneDispatch_keeps {s0 : State} (plane : Nat) (s : State) (h_s : Keeps s0 s) :
    OutKeeps s0 (execCasePlaneDispatch plane s) := by
  unfold execCasePlaneDispatch
  repeat' first
    | with_reducible first
        | intro _ | assumption | apply keeps_ite | apply State.dieStart_keeps
        | apply State.eraseSuspend_keeps | apply State.settle_keeps | apply outKeeps_next
        | apply outKeeps_ite
    | simp only [↓keeps_upd_iff] | (refine keeps_snd (by with_reducible assumption) ?_)
    | (refine keeps_some (by with_reducible assumption) ?_)
    | (refine keeps_next (by with_reducible assumption) ?_) | split | dsimp only

theorem State.caseReadEnd_keeps {s0 : State} (s : State) (b page len step corr : Nat) (h_s : Keeps s0 s) :
    Keeps s0 (State.caseReadEnd s b page len step corr) := by
  unfold State.caseReadEnd
  repeat' first
    | with_reducible first
        | assumption | apply State.caseEnd_keeps | apply State.keyWrite_keeps | apply State.put_keeps
        | apply State.readOk_keeps
    | simp only [↓keeps_upd_iff] | (refine keeps_snd (by with_reducible assumption) ?_)
    | (refine keeps_some (by with_reducible assumption) ?_) | split | dsimp only

theorem State.spareFail_keeps {s0 : State} (s : State) (plane : Nat) (h_s : Keeps s0 s) :
    Keeps s0 (State.spareFail s plane) := by
  unfold State.spareFail
  repeat' first
    | with_reducible first
        | assumption | apply State.inc_keeps | apply State.putSpares_keeps
    | simp only [↓keeps_upd_iff] | (refine keeps_snd (by with_reducible assumption) ?_)
    | (refine keeps_some (by with_reducible assumption) ?_) | split | dsimp only

theorem State.metaWritten_keeps {s0 : State} (s : State) (b : Nat) (bs : Bytes) (h_s : Keeps s0 s) :
    Keeps s0 (State.metaWritten s b bs) := by
  unfold State.metaWritten
  repeat' first
    | with_reducible first
        | assumption | apply keeps_ite
    | simp only [↓keeps_upd_iff] | split | dsimp only

theorem State.metaErased_keeps {s0 : State} (s : State) (b : Nat) (h_s : Keeps s0 s) :
    Keeps s0 (State.metaErased s b) := by
  unfold State.metaErased
  repeat' first
    | with_reducible first
        | intro _ | assumption | apply keeps_ite
    | simp only [↓keeps_upd_iff] | split | dsimp only

theorem State.dieDone_keeps {s0 : State} (s : State) (o : DieOp) (e : DieEnd) (link : Bool)
    (h_s : Keeps s0 s) : Keeps s0 (State.dieDone s o e link) := by
  unfold State.dieDone
  repeat' first
    | with_reducible first
        | assumption | apply keeps_ite | apply State.blkErase_keeps | apply State.blkProgram_keeps
        | apply State.blkSwap_keeps | apply State.cacheDrop_keeps | apply State.caseEnd_keeps
        | apply State.caseReadEnd_keeps | apply State.dieQueue_keeps | apply State.free_keeps
        | apply State.ledRelease_keeps | apply State.metaErased_keeps | apply State.metaWritten_keeps
        | apply State.put_keeps | apply State.readBad_keeps | apply State.relocate_keeps
        | apply State.spareFail_keeps
    | simp only [↓keeps_upd_iff] | (refine keeps_snd (by with_reducible assumption) ?_)
    | (refine keeps_some (by with_reducible assumption) ?_)
    | (refine keeps_okS (by with_reducible assumption) ?_)
    | (refine keeps_okS2 (by with_reducible assumption) ?_)
    | (refine keeps_ok (by with_reducible assumption) ?_) | split | dsimp only

theorem execCaseDieOpDone_keeps {s0 : State} (plane : Nat) (e : DieEnd) (resends : Nat) (s : State)
    (h_s : Keeps s0 s) : OutKeeps s0 (execCaseDieOpDone plane e resends s) := by
  unfold execCaseDieOpDone
  repeat' first
    | with_reducible first
        | assumption | apply State.dieDone_keeps | apply State.dieLink_keeps | apply State.relocate_keeps
        | apply State.settle_keeps | apply outKeeps_next
    | simp only [↓keeps_upd_iff] | (refine keeps_snd (by with_reducible assumption) ?_)
    | (refine keeps_some (by with_reducible assumption) ?_)
    | (refine keeps_next (by with_reducible assumption) ?_) | split | dsimp only

theorem execReadCacheFill_keeps {s0 : State} (page : Nat) (e : DieEnd) (resends stall : Nat) (s : State)
    (h_s : Keeps s0 s) : OutKeeps s0 (execReadCacheFill page e resends stall s) := by
  unfold execReadCacheFill
  repeat' first
    | with_reducible first
        | intro _ | assumption | apply keeps_ite | apply State.cacheTouch_keeps | apply State.dieLink_keeps
        | apply State.inc64_keeps | apply State.inc_keeps | apply State.readBad_keeps
        | apply State.readOk_keeps | apply State.setProc_keeps | apply State.settle_keeps
        | apply outKeeps_next | apply outKeeps_ite
    | simp only [↓keeps_upd_iff] | (refine keeps_snd (by with_reducible assumption) ?_)
    | (refine keeps_next (by with_reducible assumption) ?_)
    | (refine keeps_okS (by with_reducible assumption) ?_)
    | (refine keeps_okS2 (by with_reducible assumption) ?_)
    | (refine keeps_ok (by with_reducible assumption) ?_) | split | dsimp only

theorem execCaseRefresh_keeps {s0 : State} (block : Nat) (s : State) (h_s : Keeps s0 s) :
    OutKeeps s0 (execCaseRefresh block s) := by
  unfold execCaseRefresh
  repeat' first
    | with_reducible first
        | assumption | apply keeps_ite | apply State.dieQueue_keeps | apply State.ledRelease_keeps
        | apply State.relocate_keeps | apply outKeeps_next | apply outKeeps_ite
    | split | dsimp only

theorem execRefreshAgeFlag_keeps {s0 : State} (block : Nat) (s : State) (h_s : Keeps s0 s) :
    OutKeeps s0 (execRefreshAgeFlag block s) := by
  unfold execRefreshAgeFlag
  repeat' first
    | with_reducible first
        | assumption | apply keeps_ite | apply State.blkFlag_keeps | apply outKeeps_next | apply outKeeps_ite
    | split | dsimp only

theorem State.caseGenWrite_keeps {s0 : State} (s : State) (k word : Nat) (v : Word32) (h_s : Keeps s0 s) :
    Keeps s0 (State.caseGenWrite s k word v) := by
  unfold State.caseGenWrite
  repeat' first
    | with_reducible first
        | assumption | apply keeps_ite | apply State.raise_keeps | apply State.regStore_keeps
    | split | dsimp only

theorem execCaseGenWrite_keeps {s0 : State} (k word : Nat) (v : Word32) (s : State) (h_s : Keeps s0 s) :
    OutKeeps s0 (execCaseGenWrite k word v s) := by
  unfold execCaseGenWrite
  repeat' first
    | with_reducible first
        | assumption | apply keeps_ite | apply State.caseGenWrite_keeps | apply outKeeps_next
        | apply outKeeps_ite
    | split | dsimp only

end Sys2Proof.Machine
end

