-- ==== Sys2Proof/Laws/LedgerKeeps.lean ====
section
/-! SUPPORT. What the definitions of Machine/Ledger.lean keep, one lemma each. -/

namespace Sys2Proof.Machine

set_option linter.all false

theorem State.ledActWrite_keeps {s0 : State} (s : State) (mid a : Nat) (v : Word32) (h_s : Keeps s0 s) :
    Keeps s0 (State.ledActWrite s mid a v) := by
  unfold State.ledActWrite
  repeat' first
    | with_reducible first
        | assumption | apply keeps_ite | apply State.ledRelease_keeps | apply State.ledRequest_keeps
    | split | dsimp only

theorem execLedgerRequest_keeps {s0 : State} (mid a : Nat) (s : State) (h_s : Keeps s0 s) :
    OutKeeps s0 (execLedgerRequest mid a s) := by
  unfold execLedgerRequest
  repeat' first
    | with_reducible first
        | assumption | apply State.ledActWrite_keeps | apply outKeeps_next
    | dsimp only

theorem execLedgerRelease_keeps {s0 : State} (mid a : Nat) (s : State) (h_s : Keeps s0 s) :
    OutKeeps s0 (execLedgerRelease mid a s) := by
  unfold execLedgerRelease
  repeat' first
    | with_reducible first
        | assumption | apply State.ledActWrite_keeps | apply outKeeps_next
    | dsimp only

theorem execLedgerGrant_keeps {s0 : State} (s : State) (h_s : Keeps s0 s) :
    OutKeeps s0 (execLedgerGrant s) := by
  unfold execLedgerGrant
  repeat' first
    | with_reducible first
        | assumption | apply State.ledGrant_keeps | apply outKeeps_next
    | simp only [↓keeps_upd_iff] | (refine keeps_snd (by with_reducible assumption) ?_)
    | (refine keeps_some (by with_reducible assumption) ?_)
    | (refine keeps_next (by with_reducible assumption) ?_) | split | dsimp only

theorem execLedgerMaxwait_keeps {s0 : State} (s : State) (h_s : Keeps s0 s) :
    OutKeeps s0 (execLedgerMaxwait s) := by
  unfold execLedgerMaxwait
  repeat' first
    | with_reducible first
        | intro _ | assumption | apply keeps_ite | apply State.evUnitFree_keeps | apply State.passTo_keeps
        | apply State.setIrq_keeps | apply State.settle_keeps | apply outKeeps_next | apply outKeeps_ite
    | simp only [↓keeps_upd_iff] | (refine keeps_snd (by with_reducible assumption) ?_)
    | (refine keeps_some (by with_reducible assumption) ?_)
    | (refine keeps_next (by with_reducible assumption) ?_)
    | (refine keeps_key (by with_reducible assumption) ?_) | split | dsimp only

theorem execLedgerStatusRead_keeps {s0 : State} (s : State) (h_s : Keeps s0 s) :
    OutKeeps s0 (execLedgerStatusRead s) := by
  unfold execLedgerStatusRead
  repeat' first
    | with_reducible first
        | assumption | apply State.clrIrq_keeps | apply outKeeps_next
    | dsimp only

theorem State.ledRan_keeps {s0 : State} (s : State) (a : Nat) (h_s : Keeps s0 s) :
    Keeps s0 (State.ledRan s a) := by
  unfold State.ledRan
  repeat' first
    | with_reducible first
        | assumption
    | simp only [↓keeps_upd_iff] | dsimp only

theorem State.scrubNote_keeps {s0 : State} (s : State) (h_s : Keeps s0 s) : Keeps s0 (State.scrubNote s) := by
  unfold State.scrubNote
  repeat' first
    | with_reducible first
        | assumption | apply State.evUnitFree_keeps
    | simp only [↓keeps_upd_iff] | dsimp only

theorem State.scrubEntry_keeps {s0 : State} (s : State) (i : Nat) (h_s : Keeps s0 s) :
    Keeps s0 (State.scrubEntry s i) := by
  unfold State.scrubEntry
  repeat' first
    | with_reducible first
        | assumption | apply keeps_ite | apply State.scrubNote_keeps | apply State.setEntry_keeps
    | split | dsimp only

theorem execTableScrub_keeps {s0 : State} (s : State) (h_s : Keeps s0 s) :
    OutKeeps s0 (execTableScrub s) := by
  unfold execTableScrub
  repeat' first
    | with_reducible first
        | intro _ | assumption | apply State.ledEnter_keeps | apply State.ledRan_keeps
        | apply State.ledRelease_keeps | apply State.passTo_keeps | apply State.scrubEntry_keeps
        | apply State.settle_keeps | apply keeps_foldl | apply outKeeps_next
    | simp only [↓keeps_upd_iff] | (refine keeps_snd (by with_reducible assumption) ?_)
    | (refine keeps_next (by with_reducible assumption) ?_) | split | dsimp only

theorem State.guardRewrite_keeps {s0 : State} (s : State) (p : Nat) (h_s : Keeps s0 s) :
    Keeps s0 (State.guardRewrite s p) := by
  unfold State.guardRewrite
  repeat' first
    | with_reducible first
        | assumption | apply keeps_ite | apply State.guardEnqueue_keeps | apply State.guardWriteback_keeps
    | split | dsimp only

theorem State.scrubLines_keeps {s0 : State} (s : State) (from_ : Nat) (h_s : Keeps s0 s) :
    Keeps s0 (State.scrubLines s from_) := by
  unfold State.scrubLines
  repeat' first
    | with_reducible first
        | intro _ | assumption | apply State.dramLink_keeps | apply State.dramTagFail_keeps
        | apply keeps_foldl
    | dsimp only

theorem execDramScrub_keeps {s0 : State} (env : FabEnv) (s : State) (h_s : Keeps s0 s) :
    OutKeeps s0 (execDramScrub env s) := by
  unfold execDramScrub
  repeat' first
    | with_reducible first
        | intro _ | assumption | apply keeps_ite | apply State.disturb_keeps | apply State.guardRewrite_keeps
        | apply State.ledEnter_keeps | apply State.ledRan_keeps | apply State.ledRelease_keeps
        | apply State.passTo_keeps | apply State.scrubLines_keeps | apply State.settle_keeps
        | apply keeps_foldl | apply outKeeps_next | apply outKeeps_ite
    | simp only [↓keeps_upd_iff] | (refine keeps_snd (by with_reducible assumption) ?_)
    | (refine keeps_next (by with_reducible assumption) ?_) | split | dsimp only

theorem State.lmsResume_keeps {s0 : State} (s : State) (slot n : Nat) (h_s : Keeps s0 s) :
    Keeps s0 (State.lmsResume s slot n) := by
  unfold State.lmsResume
  repeat' first
    | with_reducible first
        | assumption | apply keeps_ite | apply State.cellEnd_keeps | apply State.lmsTake_keeps
    | simp only [↓keeps_upd_iff] | (refine keeps_snd (by with_reducible assumption) ?_)
    | (refine keeps_some (by with_reducible assumption) ?_) | split | dsimp only

theorem execLmsReserve_keeps {s0 : State} (slot : Nat) (s : State) (h_s : Keeps s0 s) :
    OutKeeps s0 (execLmsReserve slot s) := by
  unfold execLmsReserve
  repeat' first
    | with_reducible first
        | intro _ | assumption | apply keeps_ite | apply State.ledEnter_keeps | apply State.ledRelease_keeps
        | apply State.lmsLow_keeps | apply State.lmsResume_keeps | apply State.setPriv_keeps
        | apply State.settle_keeps | apply keeps_foldl | apply outKeeps_next | apply outKeeps_ite
    | simp only [↓keeps_upd_iff] | (refine keeps_snd (by with_reducible assumption) ?_)
    | (refine keeps_next (by with_reducible assumption) ?_) | split | dsimp only

theorem State.pstBank_keeps {s0 : State} (s : State) (t : BankTest) (h_s : Keeps s0 s) :
    Keeps s0 (State.pstBank s t) := by
  unfold State.pstBank
  repeat' first
    | with_reducible first
        | assumption | apply keeps_ite | apply State.bankRetire_keeps | apply State.minBanks_keeps
        | apply State.put_keeps | apply State.runOn_keeps
    | simp only [↓keeps_upd_iff] | split | dsimp only

theorem execRosinPst_keeps {s0 : State} (tests : List BankTest) (kat : List Nat) (s : State)
    (h_s : Keeps s0 s) : OutKeeps s0 (execRosinPst tests kat s) := by
  unfold execRosinPst
  repeat' first
    | with_reducible first
        | intro _ | assumption | apply keeps_ite | apply State.condKat_keeps | apply State.ledEnter_keeps
        | apply State.ledRelease_keeps | apply State.passTo_keeps | apply State.pstBank_keeps
        | apply State.settle_keeps | apply keeps_foldl | apply outKeeps_next | apply outKeeps_ite
    | simp only [↓keeps_upd_iff] | (refine keeps_snd (by with_reducible assumption) ?_)
    | (refine keeps_next (by with_reducible assumption) ?_) | split | dsimp only

end Sys2Proof.Machine
end

