-- ==== Sys2Proof/Laws/RegWriteKeeps.lean ====
section
/-! SUPPORT. What the definitions of Machine/RegWrite.lean keep, one lemma each. -/

namespace Sys2Proof.Machine

set_option linter.all false

theorem State.refuseWrite_keeps {s0 : State} (s : State) (off : Nat) (h_s : Keeps s0 s) :
    Keeps s0 (State.refuseWrite s off) := by
  unfold State.refuseWrite
  repeat' first
    | with_reducible first
        | assumption | apply State.raise_keeps
    | dsimp only

theorem State.refuseField_keeps {s0 : State} (s : State) (f : Fld) (v : Word32) (h_s : Keeps s0 s) :
    Keeps s0 (State.refuseField s f v) := by
  unfold State.refuseField
  repeat' first
    | with_reducible first
        | assumption | apply State.storeBut_keeps
    | dsimp only

theorem State.timeRegWrite_keeps {s0 : State} (s : State) (off : Nat) (v : Word32) (h_s : Keeps s0 s) :
    Keeps s0 (State.timeRegWrite s off v) := by
  unfold State.timeRegWrite
  repeat' first
    | with_reducible first
        | assumption | apply keeps_ite | apply State.regStore_keeps | apply State.settle_keeps
        | apply State.tickRateWrite_keeps | apply State.timeCtlWrite_keeps | apply State.timeSecWrite_keeps
    | split | dsimp only

theorem State.intcSrcWrite_keeps {s0 : State} (s : State) (i : Nat) (v : Word32) (h_s : Keeps s0 s) :
    Keeps s0 (State.intcSrcWrite s i v) := by
  unfold State.intcSrcWrite
  repeat' first
    | with_reducible first
        | assumption | apply keeps_ite | apply State.refuseWrite_keeps | apply State.regStore_keeps
        | apply State.wr_keeps
    | simp only [↓keeps_upd_iff] | split | dsimp only

theorem State.intcRegWrite_keeps {s0 : State} (s : State) (off : Nat) (v : Word32) (h_s : Keeps s0 s) :
    Keeps s0 (State.intcRegWrite s off v) := by
  unfold State.intcRegWrite
  repeat' first
    | with_reducible first
        | assumption | apply keeps_ite | apply State.intcSrcWrite_keeps | apply State.regStore_keeps
    | split | dsimp only

theorem State.portRegWrite_keeps {s0 : State} (s : State) (off : Nat) (v : Word32) (h_s : Keeps s0 s) :
    Keeps s0 (State.portRegWrite s off v) := by
  unfold State.portRegWrite
  repeat' first
    | with_reducible first
        | assumption | apply keeps_ite | apply State.pairCtlWrite_keeps | apply State.portCtlWrite_keeps
        | apply State.regStore_keeps | apply State.setIrq_keeps
    | split | dsimp only

theorem State.assocRegWrite_keeps {s0 : State} (s : State) (off : Nat) (v : Word32) (h_s : Keeps s0 s) :
    Keeps s0 (State.assocRegWrite s off v) := by
  unfold State.assocRegWrite
  repeat' first
    | with_reducible first
        | assumption | apply keeps_ite | apply State.assocGo_keeps | apply State.regStore_keeps
        | apply State.relCtlWrite_keeps
    | split | dsimp only

theorem State.bowRegWrite_keeps {s0 : State} (s : State) (off : Nat) (v : Word32) (h_s : Keeps s0 s) :
    Keeps s0 (State.bowRegWrite s off v) := by
  unfold State.bowRegWrite
  repeat' first
    | with_reducible first
        | assumption | apply keeps_ite | apply State.refuseWrite_keeps | apply State.regStore_keeps
    | split | dsimp only

theorem State.feRegWrite_keeps {s0 : State} (s : State) (off : Nat) (v : Word32) (h_s : Keeps s0 s) :
    Keeps s0 (State.feRegWrite s off v) := by
  unfold State.feRegWrite
  repeat' first
    | with_reducible first
        | assumption | apply keeps_ite | apply State.feConfigWrite_keeps | apply State.feCtlWrite_keeps
        | apply State.regStore_keeps
    | split | dsimp only

theorem State.queueRegWrite_keeps {s0 : State} (s : State) (off : Nat) (v : Word32) (h_s : Keeps s0 s) :
    Keeps s0 (State.queueRegWrite s off v) := by
  unfold State.queueRegWrite
  repeat' first
    | with_reducible first
        | assumption | apply keeps_ite | apply State.queueBaseWrite_keeps | apply State.queueCfgWrite_keeps
        | apply State.regStore_keeps
    | split | dsimp only

theorem State.qgRegWrite_keeps {s0 : State} (s : State) (off : Nat) (v : Word32) (h_s : Keeps s0 s) :
    Keeps s0 (State.qgRegWrite s off v) := by
  unfold State.qgRegWrite
  repeat' first
    | with_reducible first
        | assumption | apply keeps_ite | apply State.gateChange_keeps | apply State.regStore_keeps
    | split | dsimp only

theorem State.bridgeRegWrite_keeps {s0 : State} (s : State) (off : Nat) (v : Word32) (h_s : Keeps s0 s) :
    Keeps s0 (State.bridgeRegWrite s off v) := by
  unfold State.bridgeRegWrite
  repeat' first
    | with_reducible first
        | assumption | apply keeps_ite | apply State.fnSplitWrite_keeps | apply State.gateChange_keeps
        | apply State.regStore_keeps | apply State.unmask_keeps
    | split | dsimp only

theorem State.ringRegWrite_keeps {s0 : State} (s : State) (mid r o : Nat) (v : Word32) (h_s : Keeps s0 s) :
    Keeps s0 (State.ringRegWrite s mid r o v) := by
  unfold State.ringRegWrite
  repeat' first
    | with_reducible first
        | assumption | apply keeps_ite | apply State.prodWrite_keeps | apply State.regStore_keeps
        | apply State.ringAbort_keeps | apply State.ringCfgWrite_keeps | apply State.ringLine_keeps
    | split | dsimp only

theorem State.lmsResWrite_keeps {s0 : State} (s : State) (v : Word32) (h_s : Keeps s0 s) :
    Keeps s0 (State.lmsResWrite s v) := by
  unfold State.lmsResWrite
  repeat' first
    | with_reducible first
        | assumption | apply State.storeBut_keeps
    | dsimp only

theorem State.soundRegWrite_keeps {s0 : State} (s : State) (mid off : Nat) (v : Word32) (h_s : Keeps s0 s) :
    Keeps s0 (State.soundRegWrite s mid off v) := by
  unfold State.soundRegWrite
  repeat' first
    | with_reducible first
        | assumption | apply keeps_ite | apply State.cellCtlWrite_keeps | apply State.lmsResWrite_keeps
        | apply State.regStore_keeps | apply State.ringRegWrite_keeps
    | split | dsimp only

theorem State.verifyRegWrite_keeps {s0 : State} (s : State) (mid off : Nat) (v : Word32) (h_s : Keeps s0 s) :
    Keeps s0 (State.verifyRegWrite s mid off v) := by
  unfold State.verifyRegWrite
  repeat' first
    | with_reducible first
        | assumption | apply keeps_ite | apply State.irq_keeps | apply State.regStore_keeps
        | apply State.veAbortWrite_keeps | apply State.veOwnerWrite_keeps | apply State.veRegWrite_keeps
        | apply State.veWrite_keeps
    | split | dsimp only

theorem State.digestRegWrite_keeps {s0 : State} (s : State) (mid off : Nat) (v : Word32) (h_s : Keeps s0 s) :
    Keeps s0 (State.digestRegWrite s mid off v) := by
  unfold State.digestRegWrite
  repeat' first
    | with_reducible first
        | assumption | apply keeps_ite | apply State.regStore_keeps | apply State.ringRegWrite_keeps
    | split | dsimp only

theorem State.rosinRegWrite_keeps {s0 : State} (s : State) (mid off : Nat) (v : Word32) (h_s : Keeps s0 s) :
    Keeps s0 (State.rosinRegWrite s mid off v) := by
  unfold State.rosinRegWrite
  repeat' first
    | with_reducible first
        | assumption | apply keeps_ite | apply State.limitsHold_keeps | apply State.pullGo_keeps
        | apply State.regStore_keeps
    | split | dsimp only

theorem State.keyRegWrite_keeps {s0 : State} (s : State) (mid off : Nat) (v : Word32) (h_s : Keeps s0 s) :
    Keeps s0 (State.keyRegWrite s mid off v) := by
  unfold State.keyRegWrite
  repeat' first
    | with_reducible first
        | assumption | apply keeps_ite | apply State.cardAnswer_keeps | apply State.cerCtlWrite_keeps
        | apply State.cerStep_keeps | apply State.keyGo_keeps | apply State.regStore_keeps
    | simp only [↓keeps_upd_iff] | split | dsimp only

theorem State.caseRegWrite_keeps {s0 : State} (s : State) (mid off : Nat) (v : Word32) (h_s : Keeps s0 s) :
    Keeps s0 (State.caseRegWrite s mid off v) := by
  unfold State.caseRegWrite
  repeat' first
    | with_reducible first
        | assumption | apply keeps_ite | apply State.caseGenWrite_keeps | apply State.caseGo_keeps
        | apply State.regStore_keeps
    | split | dsimp only

theorem State.evrecRegWrite_keeps {s0 : State} (s : State) (mid off : Nat) (v : Word32) (h_s : Keeps s0 s) :
    Keeps s0 (State.evrecRegWrite s mid off v) := by
  unfold State.evrecRegWrite
  repeat' first
    | with_reducible first
        | assumption | apply keeps_ite | apply State.evClearWrite_keeps | apply State.evCtlWrite_keeps
        | apply State.evPutWrite_keeps | apply State.regStore_keeps
    | split | dsimp only

theorem State.ledgerRegWrite_keeps {s0 : State} (s : State) (mid off : Nat) (v : Word32) (h_s : Keeps s0 s) :
    Keeps s0 (State.ledgerRegWrite s mid off v) := by
  unfold State.ledgerRegWrite
  repeat' first
    | with_reducible first
        | assumption | apply keeps_ite | apply State.ledActWrite_keeps | apply State.refuseWrite_keeps
        | apply State.regStore_keeps
    | split | dsimp only

theorem State.tamperRegWrite_keeps {s0 : State} (s : State) (mid off : Nat) (v : Word32) (h_s : Keeps s0 s) :
    Keeps s0 (State.tamperRegWrite s mid off v) := by
  unfold State.tamperRegWrite
  repeat' first
    | with_reducible first
        | assumption | apply keeps_ite | apply State.forceWrite_keeps | apply State.irq_keeps
        | apply State.regStore_keeps | apply State.stickyClr_keeps
    | simp only [↓keeps_upd_iff] | split | dsimp only

theorem State.faultRegWrite_keeps {s0 : State} (s : State) (mid off : Nat) (v : Word32) (h_s : Keeps s0 s) :
    Keeps s0 (State.faultRegWrite s mid off v) := by
  unfold State.faultRegWrite
  repeat' first
    | with_reducible first
        | intro _ | assumption | apply keeps_ite | apply State.clrIrq_keeps | apply State.faultForce_keeps
        | apply State.nctlWrite_keeps | apply State.regStore_keeps | apply keeps_foldl
    | split | dsimp only

theorem State.wdogRegWrite_keeps {s0 : State} (s : State) (mid off : Nat) (v : Word32) (h_s : Keeps s0 s) :
    Keeps s0 (State.wdogRegWrite s mid off v) := by
  unfold State.wdogRegWrite
  repeat' first
    | with_reducible first
        | assumption | apply keeps_ite | apply State.capoKick_keeps | apply State.irq_keeps
        | apply State.modKick_keeps | apply State.regStore_keeps
    | simp only [↓keeps_upd_iff] | split | dsimp only

theorem State.pwrRegWrite_keeps {s0 : State} (s : State) (mid off : Nat) (v : Word32) (h_s : Keeps s0 s) :
    Keeps s0 (State.pwrRegWrite s mid off v) := by
  unfold State.pwrRegWrite
  repeat' first
    | with_reducible first
        | assumption | apply keeps_ite | apply State.pwrCtlWrite_keeps | apply State.refuseField_keeps
        | apply State.regStore_keeps
    | split | dsimp only

theorem State.lifeRegWrite_keeps {s0 : State} (s : State) (mid off : Nat) (v : Word32) (h_s : Keeps s0 s) :
    Keeps s0 (State.lifeRegWrite s mid off v) := by
  unfold State.lifeRegWrite
  repeat' first
    | with_reducible first
        | assumption | apply keeps_ite | apply State.freeB_keeps | apply State.free_keeps
        | apply State.lifeGo_keeps | apply State.regStore_keeps
    | split | dsimp only

theorem State.pickCtlWrite_keeps {s0 : State} (s : State) (v : Word32) (h_s : Keeps s0 s) :
    Keeps s0 (State.pickCtlWrite s v) := by
  unfold State.pickCtlWrite
  repeat' first
    | with_reducible first
        | intro _ | assumption | apply keeps_ite | apply State.pickEnd_keeps | apply State.put_keeps
        | apply State.readerBack_keeps | apply State.readerOff_keeps | apply State.regStore_keeps
        | apply State.tagGo_keeps
    | split | dsimp only

theorem State.pickRegWrite_keeps {s0 : State} (s : State) (off : Nat) (v : Word32) (h_s : Keeps s0 s) :
    Keeps s0 (State.pickRegWrite s off v) := by
  unfold State.pickRegWrite
  repeat' first
    | with_reducible first
        | assumption | apply keeps_ite | apply State.pickCtlWrite_keeps | apply State.regStore_keeps
        | apply State.sessAbortWrite_keeps | apply State.sessGo_keeps | apply State.storeBut_keeps
    | split | dsimp only

theorem State.cardRegWrite_keeps {s0 : State} (s : State) (mid off : Nat) (v : Word32) (h_s : Keeps s0 s) :
    Keeps s0 (State.cardRegWrite s mid off v) := by
  unfold State.cardRegWrite
  repeat' first
    | with_reducible first
        | assumption | apply keeps_ite | apply State.cardActivate_keeps | apply State.cardOff_keeps
        | apply State.cardXfer_keeps | apply State.regStore_keeps | apply State.storeBut_keeps
    | split | dsimp only

theorem State.unmappedAccess_keeps {s0 : State} (s : State) (h_s : Keeps s0 s) :
    Keeps s0 (State.unmappedAccess s) := by
  unfold State.unmappedAccess
  repeat' first
    | with_reducible first
        | assumption
    | simp only [↓keeps_upd_iff] | dsimp only

theorem State.narrowWrite_keeps {s0 : State} (s : State) (h_s : Keeps s0 s) :
    Keeps s0 (State.narrowWrite s) := by
  unfold State.narrowWrite
  repeat' first
    | with_reducible first
        | assumption
    | simp only [↓keeps_upd_iff] | dsimp only

theorem State.regWrite_keeps {s0 : State} (s : State) (mid off : Nat) (v : Word32) (h_s : Keeps s0 s) :
    Keeps s0 (State.regWrite s mid off v) := by
  unfold State.regWrite
  repeat' first
    | with_reducible first
        | assumption | apply keeps_ite | apply State.assocRegWrite_keeps | apply State.bowRegWrite_keeps
        | apply State.bridgeRegWrite_keeps | apply State.cardRegWrite_keeps | apply State.caseRegWrite_keeps
        | apply State.digestRegWrite_keeps | apply State.evrecRegWrite_keeps
        | apply State.faultRegWrite_keeps | apply State.feRegWrite_keeps | apply State.intcRegWrite_keeps
        | apply State.kdcLine_keeps | apply State.keyRegWrite_keeps | apply State.ledgerRegWrite_keeps
        | apply State.lifeRegWrite_keeps | apply State.nutCommitWrite_keeps | apply State.pickRegWrite_keeps
        | apply State.portRegWrite_keeps | apply State.pwrRegWrite_keeps | apply State.qgRegWrite_keeps
        | apply State.queueRegWrite_keeps | apply State.regStore_keeps | apply State.rosinRegWrite_keeps
        | apply State.soundRegWrite_keeps | apply State.tamperRegWrite_keeps | apply State.timeRegWrite_keeps
        | apply State.unmappedAccess_keeps | apply State.verifyRegWrite_keeps
        | apply State.wdogRegWrite_keeps
    | simp only [↓keeps_upd_iff] | (refine keeps_snd (by with_reducible assumption) ?_)
    | (refine keeps_some (by with_reducible assumption) ?_) | split | dsimp only

theorem State.regAccessWrite_keeps {s0 : State} (s : State) (mid off : Nat) (v : Word32) (h_s : Keeps s0 s) :
    Keeps s0 (State.regAccessWrite s mid off v) := by
  unfold State.regAccessWrite
  repeat' first
    | with_reducible first
        | assumption | apply keeps_ite | apply State.regWrite_keeps | apply State.unmappedAccess_keeps
    | split | dsimp only

theorem State.regWidthWrite_keeps {s0 : State} (s : State) (mid off : Nat) (w : Width) (v : Nat)
    (h_s : Keeps s0 s) : Keeps s0 (State.regWidthWrite s mid off w v) := by
  unfold State.regWidthWrite
  repeat' first
    | with_reducible first
        | assumption | apply State.narrowWrite_keeps | apply State.regAccessWrite_keeps
    | simp only [↓keeps_upd_iff] | (refine keeps_snd (by with_reducible assumption) ?_) | split | dsimp only

theorem execRegisterWrite_keeps {s0 : State} (mid off : Nat) (w : Width) (v : Nat) (s : State)
    (h_s : Keeps s0 s) : OutKeeps s0 (execRegisterWrite mid off w v s) := by
  unfold execRegisterWrite
  repeat' first
    | with_reducible first
        | assumption | apply keeps_ite | apply State.regWidthWrite_keeps | apply outKeeps_next
        | apply outKeeps_ite
    | split | dsimp only

end Sys2Proof.Machine
end

