-- ==== Sys2Proof/Laws/BootKeeps.lean ====
section
/-! SUPPORT. What the definitions of Machine/Boot.lean keep, one lemma each. -/

namespace Sys2Proof.Machine

set_option linter.all false

theorem State.shieldFix_keeps {s0 : State} (s : State) (h_s : Keeps s0 s) : Keeps s0 (State.shieldFix s) := by
  unfold State.shieldFix
  repeat' first
    | with_reducible first
        | assumption | apply keeps_ite | apply State.blkSwap_keeps | apply State.inc_keeps
        | apply State.setBlk_keeps | apply outKeeps_next | apply outKeeps_ite
    | simp only [↓keeps_upd_iff] | (refine keeps_snd (by with_reducible assumption) ?_)
    | (refine keeps_snd3 (by with_reducible assumption) ?_)
    | (refine keeps_some (by with_reducible assumption) ?_)
    | (refine keeps_some2 (by with_reducible assumption) ?_)
    | (refine keeps_next (by with_reducible assumption) ?_) | split | dsimp only

theorem State.evidDrain_keeps {s0 : State} (s : State) (h_s : Keeps s0 s) : Keeps s0 (State.evidDrain s) := by
  unfold State.evidDrain
  repeat' first
    | with_reducible first
        | intro _ | assumption | apply State.logProgram_keeps | apply State.put_keeps | apply keeps_foldl
    | simp only [↓keeps_upd_iff] | dsimp only

theorem State.intentErase_keeps {s0 : State} (s : State) (h_s : Keeps s0 s) :
    Keeps s0 (State.intentErase s) := by
  unfold State.intentErase
  repeat' first
    | with_reducible first
        | intro _ | assumption | apply keeps_ite | apply State.blkErase_keeps | apply keeps_foldl
    | split | dsimp only

theorem State.refreshAsk_keeps {s0 : State} (s : State) (h_s : Keeps s0 s) :
    Keeps s0 (State.refreshAsk s) := by
  unfold State.refreshAsk
  repeat' first
    | with_reducible first
        | intro _ | assumption | apply keeps_ite | apply State.ledRequest_keeps | apply keeps_foldl
    | split | dsimp only

theorem State.caseBoot_keeps {s0 : State} (s : State) (env : BootEnv) (h_s : Keeps s0 s) :
    Keeps s0 (State.caseBoot s env) := by
  unfold State.caseBoot
  repeat' first
    | with_reducible first
        | assumption | apply keeps_ite | apply State.evidDrain_keeps | apply State.intentErase_keeps
        | apply State.putB_keeps | apply State.putSticky_keeps | apply State.put_keeps
        | apply State.raiseBase_keeps | apply State.settle_keeps | apply State.shieldFix_keeps
    | split | dsimp only

theorem State.recorderBoot_keeps {s0 : State} (s : State) (h_s : Keeps s0 s) :
    Keeps s0 (State.recorderBoot s) := by
  unfold State.recorderBoot
  repeat' first
    | with_reducible first
        | assumption | apply State.putOldest_keeps | apply State.put_keeps
    | simp only [↓keeps_upd_iff] | (refine keeps_snd (by with_reducible assumption) ?_)
    | (refine keeps_some (by with_reducible assumption) ?_) | split | dsimp only

theorem State.bootRevoke_keeps {s0 : State} (s : State) (c : Commit) (h_s : Keeps s0 s) :
    Keeps s0 (State.bootRevoke s c) := by
  unfold State.bootRevoke
  repeat' first
    | with_reducible first
        | assumption | apply State.commitPut_keeps | apply State.put_keeps | apply State.raise_keeps
    | simp only [↓keeps_upd_iff] | dsimp only

theorem State.bootStart_keeps {s0 : State} (s : State) (c : Commit) (trial : Bool) (h_s : Keeps s0 s) :
    Keeps s0 (State.bootStart s c trial) := by
  unfold State.bootStart
  repeat' first
    | with_reducible first
        | assumption | apply State.irq_keeps | apply State.putB_keeps | apply State.put_keeps
    | simp only [↓keeps_upd_iff] | dsimp only

theorem State.bootSlots_keeps {s0 : State} (s : State) (x0 : List Commit) (h_s : Keeps s0 s) :
    Keeps s0 (State.bootSlots s x0) := by
  induction x0 generalizing s with
  | nil =>
    unfold State.bootSlots
    repeat' first
    | with_reducible first
        | assumption | apply keeps_ite | apply State.bootRevoke_keeps | apply State.bootStart_keeps
        | apply State.inc_keeps
    | split | dsimp only
  | cons y ys ih =>
    unfold State.bootSlots
    repeat' first
      | with_reducible first
          | assumption | apply keeps_ite | apply State.bootRevoke_keeps | apply State.bootStart_keeps
          | apply State.inc_keeps | apply ih
      | split | dsimp only

theorem State.presetEntry_keeps {s0 : State} (s : State) (off : Nat) (v : Word32) (h_s : Keeps s0 s) :
    Keeps s0 (State.presetEntry s off v) := by
  unfold State.presetEntry
  repeat' first
    | with_reducible first
        | assumption | apply keeps_ite | apply State.inc_keeps | apply State.put_keeps
        | apply State.raise_keeps | apply State.regWrite_keeps
    | split | dsimp only

theorem State.presetEntries_keeps {s0 : State} (s : State) (x0 : Nat) (x1 : Bytes) (h_s : Keeps s0 s) :
    Keeps s0 (State.presetEntries s x0 x1) := by
  induction x0 generalizing s x1 with
  | zero =>
    unfold State.presetEntries
    repeat' first
    | with_reducible first
        | assumption | apply State.presetEntry_keeps
    | split | dsimp only
  | succ n ih =>
    unfold State.presetEntries
    repeat' first
      | with_reducible first
          | assumption | apply State.presetEntry_keeps | apply ih
      | split | dsimp only

theorem State.presetApply_keeps {s0 : State} (s : State) (h_s : Keeps s0 s) :
    Keeps s0 (State.presetApply s) := by
  unfold State.presetApply
  repeat' first
    | with_reducible first
        | assumption | apply keeps_ite | apply State.presetEntries_keeps | apply State.put_keeps
    | simp only [↓keeps_upd_iff] | split | dsimp only

theorem State.measurePut_keeps {s0 : State} (s : State) (i : Nat) (x0 : List Bytes) (h_s : Keeps s0 s) :
    Keeps s0 (State.measurePut s i x0) := by
  induction x0 generalizing s i with
  | nil =>
    unfold State.measurePut
    repeat' first
    | with_reducible first
        | assumption | apply State.poke_keeps
    | split | dsimp only
  | cons y ys ih =>
    unfold State.measurePut
    repeat' first
      | with_reducible first
          | assumption | apply State.poke_keeps | apply ih
      | split | dsimp only

theorem State.attest_keeps {s0 : State} (s : State) (h_s : Keeps s0 s) : Keeps s0 (State.attest s) := by
  unfold State.attest
  repeat' first
    | with_reducible first
        | assumption | apply State.measurePut_keeps | apply State.poke_keeps
    | simp only [↓keeps_upd_iff] | dsimp only

theorem State.bootEnd_keeps {s0 : State} (s : State) (hold : Bool) (h_s : Keeps s0 s) :
    Keeps s0 (State.bootEnd s hold) := by
  unfold State.bootEnd
  repeat' first
    | with_reducible first
        | assumption | apply keeps_ite | apply State.faultRelease_keeps | apply State.free_keeps
        | apply State.put_keeps | apply State.setProc_keeps
    | simp only [↓keeps_upd_iff] | split | dsimp only

theorem State.boot_keeps {s0 : State} (s : State) (hold : Bool) (env : BootEnv) (h_s : Keeps s0 s) :
    Keeps s0 (State.boot s hold env) := by
  unfold State.boot
  repeat' first
    | with_reducible first
        | intro _ | assumption | apply keeps_ite | apply State.condKat_keeps | apply State.debugClose_keeps
        | apply State.minBanks_keeps | apply State.mirrorSeen_keeps | apply State.put_keeps
        | apply State.rosinPut_keeps | apply State.rosinRestart_keeps | apply State.settle_keeps
        | apply State.visitsSeen_keeps | apply keeps_foldl
    | simp only [↓keeps_upd_iff] | split | dsimp only

theorem State.bootGo_keeps {s0 : State} (s : State) (hold : Bool) (env : BootEnv) (h_s : Keeps s0 s) :
    Keeps s0 (State.bootGo s hold env) := by
  unfold State.bootGo
  repeat' first
    | with_reducible first
        | assumption | apply State.attest_keeps | apply State.bootEnd_keeps | apply State.bootSlots_keeps
        | apply State.caseBoot_keeps | apply State.dramInitStart_keeps | apply State.presetApply_keeps
        | apply State.recorderBoot_keeps | apply State.refreshAsk_keeps
    | simp only [↓keeps_upd_iff] | dsimp only

theorem State.bootReady_keeps {s0 : State} (s : State) (h_s : Keeps s0 s) : Keeps s0 (State.bootReady s) := by
  unfold State.bootReady
  repeat' first
    | with_reducible first
        | assumption | apply keeps_ite | apply State.bootGo_keeps
    | simp only [↓keeps_upd_iff] | (refine keeps_snd (by with_reducible assumption) ?_)
    | (refine keeps_some (by with_reducible assumption) ?_)
    | (refine keeps_some2 (by with_reducible assumption) ?_) | split | dsimp only

theorem execEntropyGrant_keeps {s0 : State} (p : Nat) (s : State) (h_s : Keeps s0 s) :
    OutKeeps s0 (execEntropyGrant p s) := by
  unfold execEntropyGrant
  repeat' first
    | with_reducible first
        | assumption | apply State.bootReady_keeps | apply State.entropyGrant_keeps | apply outKeeps_next
    | dsimp only

theorem State.coldBoot_keeps {s0 : State} (s : State) (env : BootEnv) (h_s : Keeps s0 s) :
    Keeps s0 (State.coldBoot s env) := by
  unfold State.coldBoot
  repeat' first
    | with_reducible first
        | assumption | apply keeps_ite | apply State.boot_keeps | apply State.inc_keeps
        | apply State.put_keeps | apply State.rebuild_keeps
    | split | dsimp only

theorem execColdBoot_keeps {s0 : State} (input bank : Nat) (env : BootEnv) (s : State) (h_s : Keeps s0 s) :
    OutKeeps s0 (execColdBoot input bank env s) := by
  unfold execColdBoot
  repeat' first
    | with_reducible first
        | assumption | apply keeps_ite | apply State.coldBoot_keeps | apply State.pass_keeps
        | apply State.put_keeps | apply outKeeps_next | apply outKeeps_ite
    | simp only [↓keeps_upd_iff] | split | dsimp only

theorem execRstNRise_keeps {s0 : State} (env : BootEnv) (s : State) (h_s : Keeps s0 s) :
    OutKeeps s0 (execRstNRise env s) := by
  unfold execRstNRise
  repeat' first
    | with_reducible first
        | assumption | apply keeps_ite | apply State.coldBoot_keeps | apply outKeeps_next
        | apply outKeeps_ite
    | simp only [↓keeps_upd_iff] | split | dsimp only

theorem State.beforeReset_keeps {s0 : State} (s : State) (c : ResetCause) (h_s : Keeps s0 s) :
    Keeps s0 (State.beforeReset s c) := by
  unfold State.beforeReset
  repeat' first
    | with_reducible first
        | intro _ | assumption | apply keeps_ite | apply State.faultClose_keeps | apply State.flushEnd_keeps
        | apply State.opWhole_keeps | apply State.settle_keeps | apply keeps_foldl
    | simp only [↓keeps_upd_iff] | (refine keeps_snd (by with_reducible assumption) ?_) | split | dsimp only

theorem State.wdogRecord_keeps {s0 : State} (s : State) (h_s : Keeps s0 s) :
    Keeps s0 (State.wdogRecord s) := by
  unfold State.wdogRecord
  repeat' first
    | with_reducible first
        | assumption | apply State.inc_keeps | apply State.openOrMerge_keeps
    | dsimp only

theorem State.moduleReset_keeps {s0 : State} (s : State) (c : ResetCause) (env : BootEnv) (h_s : Keeps s0 s) :
    Keeps s0 (State.moduleReset s c env) := by
  unfold State.moduleReset
  repeat' first
    | with_reducible first
        | intro _ | assumption | apply keeps_ite | apply State.beforeReset_keeps | apply State.boot_keeps
        | apply State.putB_keeps | apply State.put_keeps | apply State.rebuild_keeps
        | apply State.settle_keeps | apply State.wdogRecord_keeps
    | simp only [↓keeps_upd_iff] | split | dsimp only

theorem execModuleReset_keeps {s0 : State} (env : BootEnv) (s : State) (h_s : Keeps s0 s) :
    OutKeeps s0 (execModuleReset env s) := by
  unfold execModuleReset
  repeat' first
    | with_reducible first
        | assumption | apply keeps_ite | apply State.moduleReset_keeps | apply outKeeps_next
        | apply outKeeps_ite
    | simp only [↓keeps_upd_iff] | (refine keeps_snd (by with_reducible assumption) ?_)
    | (refine keeps_some (by with_reducible assumption) ?_)
    | (refine keeps_next (by with_reducible assumption) ?_) | split | dsimp only

end Sys2Proof.Machine
end

