-- ==== Sys2Proof/Laws/RegReadKeeps.lean ====
section
/-! SUPPORT. What the definitions of Machine/RegRead.lean keep, one lemma each. -/

namespace Sys2Proof.Machine

set_option linter.all false

theorem State.readEffect_keeps {s0 : State} (s : State) (off : Nat) (h_s : Keeps s0 s) :
    Keeps s0 (State.readEffect s off) := by
  unfold State.readEffect
  repeat' first
    | with_reducible first
        | intro _ | assumption | apply keeps_ite | apply State.clrIrq_keeps | apply keeps_foldl
    | simp only [↓keeps_upd_iff] | split | dsimp only

theorem State.dualMismatch_keeps {s0 : State} (s : State) (off : Nat) (h_s : Keeps s0 s) :
    Keeps s0 (State.dualMismatch s off) := by
  unfold State.dualMismatch
  repeat' first
    | with_reducible first
        | assumption | apply keeps_ite | apply State.inc_keeps | apply State.isolate_keeps
        | apply State.put_keeps | apply State.raise_keeps
    | split | dsimp only

theorem State.comparedRead_keeps {s0 : State} (s : State) (off : Nat) (h_s : Keeps s0 s) :
    Keeps s0 (State.comparedRead s off).2 := by
  unfold State.comparedRead
  repeat' first
    | with_reducible first
        | assumption | apply keeps_ite | apply State.dualMismatch_keeps | apply keeps_pair_ite
    | simp only [↓keeps_upd_iff] | (refine keeps_snd (by with_reducible assumption) ?_)
    | (refine keeps_some (by with_reducible assumption) ?_) | split | dsimp only

theorem State.latchHi_keeps {s0 : State} (s : State) (mid off : Nat) (h_s : Keeps s0 s) :
    Keeps s0 (State.latchHi s mid off) := by
  unfold State.latchHi
  repeat' first
    | with_reducible first
        | assumption | apply State.comparedRead_keeps
    | simp only [↓keeps_upd_iff] | dsimp only

theorem State.regRead_keeps {s0 : State} (s : State) (mid off : Nat) (h_s : Keeps s0 s) :
    Keeps s0 (State.regRead s mid off).2 := by
  unfold State.regRead
  repeat' first
    | with_reducible first
        | assumption | apply keeps_ite | apply State.comparedRead_keeps | apply State.latchHi_keeps
        | apply State.pullRead_keeps | apply State.readEffect_keeps | apply State.unmappedAccess_keeps
        | apply keeps_pair_ite
    | simp only [↓keeps_upd_iff] | (refine keeps_snd (by with_reducible assumption) ?_)
    | (refine keeps_some (by with_reducible assumption) ?_) | split | dsimp only

theorem State.regAccessRead_keeps {s0 : State} (s : State) (mid off : Nat) (h_s : Keeps s0 s) :
    Keeps s0 (State.regAccessRead s mid off).2 := by
  unfold State.regAccessRead
  repeat' first
    | with_reducible first
        | assumption | apply keeps_ite | apply State.regRead_keeps | apply State.unmappedAccess_keeps
        | apply keeps_pair_ite
    | split | dsimp only

theorem State.replyWord_keeps {s0 : State} (s : State) (off : Nat) (w : Word32) (h_s : Keeps s0 s) :
    Keeps s0 (State.replyWord s off w) := by
  unfold State.replyWord
  repeat' first
    | with_reducible first
        | assumption
    | simp only [↓keeps_upd_iff] | simp only [↓keeps_upd_mem_iff] | dsimp only

theorem execCounterLoRead_keeps {s0 : State} (mid off : Nat) (s : State) (h_s : Keeps s0 s) :
    OutKeeps s0 (execCounterLoRead mid off s) := by
  unfold execCounterLoRead
  repeat' first
    | with_reducible first
        | assumption | apply keeps_ite | apply State.regAccessRead_keeps | apply State.replyWord_keeps
        | apply outKeeps_next | apply outKeeps_ite
    | split | dsimp only

theorem execDualStoredRead_keeps {s0 : State} (mid off : Nat) (upset : Option Word32) (s : State)
    (h_s : Keeps s0 s) : OutKeeps s0 (execDualStoredRead mid off upset s) := by
  unfold execDualStoredRead
  repeat' first
    | with_reducible first
        | assumption | apply keeps_ite | apply State.regAccessRead_keeps | apply State.replyWord_keeps
        | apply outKeeps_next | apply outKeeps_ite
    | simp only [↓keeps_upd_iff] | (refine keeps_snd (by with_reducible assumption) ?_)
    | (refine keeps_some (by with_reducible assumption) ?_)
    | (refine keeps_next (by with_reducible assumption) ?_) | split | dsimp only

end Sys2Proof.Machine
end

