-- ==== Sys2Proof/Laws/BusKeeps.lean ====
section
/-! SUPPORT. What the definitions of Machine/Bus.lean keep, one lemma each. -/

namespace Sys2Proof.Machine

set_option linter.all false

theorem State.bar4Read_keeps {s0 : State} (s : State) (mid a n : Nat) (h_s : Keeps s0 s) :
    Keeps s0 (State.bar4Read s mid a n).2 := by
  unfold State.bar4Read
  repeat' first
    | with_reducible first
        | assumption | apply keeps_ite | apply State.evViewRead_keeps | apply State.unmappedAccess_keeps
        | apply keeps_pair_ite
    | split | dsimp only

theorem State.bar4Write_keeps {s0 : State} (s : State) (mid a v : Nat) (h_s : Keeps s0 s) :
    Keeps s0 (State.bar4Write s mid a v) := by
  unfold State.bar4Write
  repeat' first
    | with_reducible first
        | assumption | apply keeps_ite | apply State.unmappedAccess_keeps | apply State.winBaseWrite_keeps
    | split | dsimp only

theorem State.doorbellStore_keeps {s0 : State} (s : State) (mid a v : Nat) (h_s : Keeps s0 s) :
    Keeps s0 (State.doorbellStore s mid a v) := by
  unfold State.doorbellStore
  repeat' first
    | with_reducible first
        | assumption | apply keeps_ite | apply State.doorbellPage_keeps | apply State.unmappedAccess_keeps
    | split | dsimp only

theorem State.targetRead_keeps {s0 : State} (s : State) (mid a : Nat) (h_s : Keeps s0 s) :
    Keeps s0 (State.targetRead s mid a).2 := by
  unfold State.targetRead
  refine keeps_pair_ite (keeps_mk (State.regAccessRead_keeps _ _ _ h_s)) (keeps_pair_ite (keeps_mk h_s)
    (keeps_pair_ite (keeps_mk (State.bar4Read_keeps _ _ _ _ h_s)) (keeps_pair_ite (keeps_mk (State.xipRead_keeps _ _ _ h_s))
      (keeps_pair_ite (keeps_mk h_s) (keeps_pair_ite (keeps_pair_ite (keeps_mk (State.hostFetch_keeps _ _ _ h_s)) (keeps_mk h_s))
        (keeps_mk (State.memRead_keeps _ _ _ h_s)))))))

theorem State.busRead_keeps {s0 : State} (s : State) (mid a : Nat) (fetch : Bool) (h_s : Keeps s0 s) :
    Keeps s0 (State.busRead s mid a fetch).2 := by
  unfold State.busRead
  repeat' first
    | with_reducible first
        | assumption | apply keeps_ite | apply State.nutDeny_keeps | apply State.targetRead_keeps
        | apply State.transfer_keeps | apply keeps_pair_ite
    | split | dsimp only

theorem State.busCheck_keeps {s0 : State} (s : State) (mid a : Nat) (h_s : Keeps s0 s) :
    Keeps s0 (State.busCheck s mid a).2 := by
  unfold State.busCheck
  repeat' first
    | with_reducible first
        | assumption | apply keeps_ite | apply State.nutDeny_keeps | apply keeps_pair_ite
    | split | dsimp only

theorem State.targetWrite_keeps {s0 : State} (s : State) (mid a v : Nat) (h_s : Keeps s0 s) :
    Keeps s0 (State.targetWrite s mid a v) := by
  unfold State.targetWrite
  repeat' first
    | with_reducible first
        | assumption | apply keeps_ite | apply State.bar4Write_keeps | apply State.doorbellStore_keeps
        | apply State.hostStore_keeps | apply State.memStore_keeps | apply State.regAccessWrite_keeps
    | split | dsimp only

theorem State.busWrite_keeps {s0 : State} (s : State) (mid a v : Nat) (h_s : Keeps s0 s) :
    Keeps s0 (State.busWrite s mid a v) := by
  unfold State.busWrite
  repeat' first
    | with_reducible first
        | assumption | apply keeps_ite | apply State.targetWrite_keeps | apply State.transfer_keeps
    | split | dsimp only

end Sys2Proof.Machine
end

