-- ==== Sys2Proof/Laws/FabricKeeps.lean ====
section
/-! SUPPORT. What the definitions of Machine/Fabric.lean keep, one lemma each. -/

namespace Sys2Proof.Machine

set_option linter.all false

theorem State.regWordsRead_keeps {s0 : State} (s : State) (mid off x0 : Nat) (h_s : Keeps s0 s) :
    Keeps s0 (State.regWordsRead s mid off x0).2 := by
  induction x0 generalizing s mid off with
  | zero =>
    unfold State.regWordsRead
    repeat' first
    | with_reducible first
        | assumption | apply State.regAccessRead_keeps
    | split | dsimp only
  | succ n ih =>
    unfold State.regWordsRead
    repeat' first
      | with_reducible first
          | assumption | apply State.regAccessRead_keeps | apply ih
      | split | dsimp only

theorem State.targetBytes_keeps {s0 : State} (s : State) (mid a n : Nat) (h_s : Keeps s0 s) :
    Keeps s0 (State.targetBytes s mid a n).2 := by
  unfold State.targetBytes
  repeat' first
    | with_reducible first
        | intro _ | assumption | apply keeps_ite | apply State.bar4Read_keeps | apply State.hostFetch_keeps
        | apply State.memRead_keeps | apply State.regWordsRead_keeps | apply State.xipRead_keeps
        | apply keeps_pair_ite
    | split | dsimp only

theorem State.partRead_keeps {s0 : State} (s : State) (mid a n : Nat) (h_s : Keeps s0 s) :
    Keeps s0 (State.partRead s mid a n).2 := by
  unfold State.partRead
  repeat' first
    | with_reducible first
        | assumption | apply keeps_ite | apply State.targetBytes_keeps | apply State.transfer_keeps
        | apply keeps_pair_ite
    | split | dsimp only

theorem State.pieceWrite_keeps {s0 : State} (s : State) (mid : Nat) (p : Nat × Bytes) (h_s : Keeps s0 s) :
    Keeps s0 (State.pieceWrite s mid p) := by
  unfold State.pieceWrite
  repeat' first
    | with_reducible first
        | assumption | apply keeps_ite | apply State.bar4Write_keeps | apply State.doorbellStore_keeps
        | apply State.inc_keeps | apply State.narrowWrite_keeps | apply State.regAccessWrite_keeps
    | split | dsimp only

theorem State.targetStore_keeps {s0 : State} (s : State) (mid a : Nat) (bs : Bytes) (h_s : Keeps s0 s) :
    Keeps s0 (State.targetStore s mid a bs).2 := by
  unfold State.targetStore
  repeat' first
    | with_reducible first
        | intro _ | assumption | apply keeps_ite | apply State.hostStore_keeps | apply State.memStore_keeps
        | apply State.pieceWrite_keeps | apply keeps_foldl | apply keeps_pair_ite
    | split | dsimp only

theorem State.partWrite_keeps {s0 : State} (s : State) (mid a : Nat) (bs : Bytes) (h_s : Keeps s0 s) :
    Keeps s0 (State.partWrite s mid a bs).2 := by
  unfold State.partWrite
  repeat' first
    | with_reducible first
        | assumption | apply keeps_ite | apply State.targetStore_keeps | apply State.transfer_keeps
        | apply keeps_pair_ite
    | split | dsimp only

theorem State.carryPart_keeps {s0 : State} (s : State) (mid : Nat) (op : FabOp) (p : ReqPart)
    (h_s : Keeps s0 s) : Keeps s0 (State.carryPart s mid op p).2 := by
  unfold State.carryPart
  repeat' first
    | with_reducible first
        | intro _ | assumption | apply keeps_ite | apply Cx.fetch_keeps | apply Cx.read_keeps
        | apply Cx.write_keeps | apply State.partRead_keeps | apply State.partWrite_keeps
        | apply State.unmappedAccess_keeps | apply keeps_pair_ite
    | simp only [↓keeps_upd_iff] | (refine keeps_snd (by with_reducible assumption) ?_)
    | (refine keeps_snd3 (by with_reducible assumption) ?_) | split | dsimp only

theorem State.carryParts_keeps {s0 : State} (s : State) (mid : Nat) (op : FabOp) (x0 : List ReqPart)
    (h_s : Keeps s0 s) : Keeps s0 (State.carryParts s mid op x0).2 := by
  induction x0 generalizing s mid op with
  | nil =>
    unfold State.carryParts
    repeat' first
    | with_reducible first
        | assumption | apply State.carryPart_keeps
    | split | dsimp only
  | cons y ys ih =>
    unfold State.carryParts
    repeat' first
      | with_reducible first
          | assumption | apply State.carryPart_keeps | apply ih
      | split | dsimp only

theorem State.replyParts_keeps {s0 : State} (s : State) (l : List ReplyPart) (h_s : Keeps s0 s) :
    Keeps s0 (State.replyParts s l) := by
  unfold State.replyParts
  repeat' first
    | with_reducible first
        | assumption
    | simp only [↓keeps_upd_iff] | simp only [↓keeps_upd_mem_iff] | dsimp only

theorem State.carryRequest_keeps {s0 : State} (s : State) (mid : Nat) (op : FabOp) (parts : List ReqPart)
    (h_s : Keeps s0 s) : Keeps s0 (State.carryRequest s mid op parts) := by
  unfold State.carryRequest
  repeat' first
    | with_reducible first
        | intro _ | assumption | apply keeps_ite | apply State.carryParts_keeps | apply State.nutDeny_keeps
        | apply State.replyParts_keeps
    | simp only [↓keeps_upd_iff] | (refine keeps_snd (by with_reducible assumption) ?_)
    | (refine keeps_some (by with_reducible assumption) ?_)
    | (refine keeps_key (by with_reducible assumption) ?_) | split | dsimp only

theorem State.fabricAccess_keeps {s0 : State} (s : State) (mid a : Nat) (op : FabOp) (h_s : Keeps s0 s) :
    Keeps s0 (State.fabricAccess s mid a op) := by
  unfold State.fabricAccess
  repeat' first
    | with_reducible first
        | assumption | apply keeps_ite | apply State.carryRequest_keeps | apply State.replyParts_keeps
    | split | dsimp only

theorem State.barAccess_keeps {s0 : State} (s : State) (mid b off : Nat) (op : FabOp) (h_s : Keeps s0 s) :
    Keeps s0 (State.barAccess s mid b off op) := by
  unfold State.barAccess
  repeat' first
    | with_reducible first
        | intro _ | assumption | apply keeps_ite | apply State.carryRequest_keeps
    | split | dsimp only

theorem execFabricAccess_keeps {s0 : State} (mid : Nat) (t : AccAddr) (op : FabOp) (env : FabEnv) (s : State)
    (h_s : Keeps s0 s) : OutKeeps s0 (execFabricAccess mid t op env s) := by
  unfold execFabricAccess
  repeat' first
    | with_reducible first
        | assumption | apply keeps_ite | apply State.barAccess_keeps | apply State.disturb_keeps
        | apply State.fabricAccess_keeps | apply outKeeps_next | apply outKeeps_ite
    | simp only [↓keeps_upd_iff] | (refine keeps_snd (by with_reducible assumption) ?_)
    | (refine keeps_next (by with_reducible assumption) ?_) | split | dsimp only

end Sys2Proof.Machine
end

