-- ==== Sys2Proof/Laws/WindowsKeeps.lean ====
section
/-! SUPPORT. What the definitions of Machine/Windows.lean keep, one lemma each. -/

namespace Sys2Proof.Machine

set_option linter.all false

theorem State.windowWrite_keeps {s0 : State} (s : State) (w v : Nat) (h_s : Keeps s0 s) :
    Keeps s0 (State.windowWrite s w v) := by
  unfold State.windowWrite
  repeat' first
    | with_reducible first
        | assumption
    | simp only [↓keeps_upd_iff] | dsimp only

end Sys2Proof.Machine
end

