-- ==== Sys2Proof/Laws/OperandsKeeps.lean ====
section
/-! SUPPORT. What the definitions of Machine/Operands.lean keep, one lemma each. -/

namespace Sys2Proof.Machine

set_option linter.all false

theorem Cx.afterMiss_keeps {s0 : State} (c : Cx) (miss : Bool) (h_c : Keeps s0 c.s) :
    Keeps s0 (Cx.afterMiss c miss).s := by
  unfold Cx.afterMiss
  repeat' first
    | with_reducible first
        | assumption | apply keeps_ite | apply State.free_keeps | apply State.inc64_keeps
        | apply keeps_foldlC
    | simp only [↓keeps_upd_iff] | split | dsimp only

theorem Cx.readAs_keeps {s0 : State} (c : Cx) (priv w spec : Nat) (h_c : Keeps s0 c.s) :
    ResKeeps s0 (Cx.readAs c priv w spec) := by
  unfold Cx.readAs
  repeat' first
    | with_reducible first
        | assumption | apply keeps_ite | apply Cx.afterMiss_keeps | apply State.busRead_keeps
        | apply State.sramRead_keeps | apply resKeeps_ok | apply resKeeps_exc | apply resKeeps_ite
        | apply resKeeps_andThen
    | simp only [↓keeps_upd_iff] | (refine keeps_snd (by with_reducible assumption) ?_)
    | (refine keeps_snd3 (by with_reducible assumption) ?_)
    | (refine keeps_some (by with_reducible assumption) ?_)
    | (refine keeps_okS (by with_reducible assumption) ?_)
    | (refine keeps_okS2 (by with_reducible assumption) ?_)
    | (refine keeps_excS (by with_reducible assumption) ?_)
    | (refine keeps_ok (by with_reducible assumption) ?_)
    | (refine keeps_exc (by with_reducible assumption) ?_) | split | dsimp only

theorem Cx.read_keeps {s0 : State} (c : Cx) (w spec : Nat) (h_c : Keeps s0 c.s) :
    ResKeeps s0 (Cx.read c w spec) := by
  unfold Cx.read
  repeat' first
    | with_reducible first
        | intro _ | assumption | apply Cx.readAs_keeps | apply resKeeps_ok | apply resKeeps_exc
        | apply resKeeps_ite | apply resKeeps_andThen | apply resS_ok | apply resS_exc | apply resS_ite
        | apply resS_andThenS | apply resS_andThen
    | simp only [↓keeps_upd_iff] | dsimp only

theorem Cx.writeAs_keeps {s0 : State} (c : Cx) (priv w v spec : Nat) (h_c : Keeps s0 c.s) :
    ResKeeps s0 (Cx.writeAs c priv w v spec) := by
  unfold Cx.writeAs
  repeat' first
    | with_reducible first
        | assumption | apply keeps_ite | apply State.busCheck_keeps | apply State.put_keeps
        | apply resKeeps_ok | apply resKeeps_exc | apply resKeeps_ite | apply resKeeps_andThen
    | simp only [↓keeps_upd_iff] | (refine keeps_snd (by with_reducible assumption) ?_)
    | (refine keeps_snd3 (by with_reducible assumption) ?_)
    | (refine keeps_some (by with_reducible assumption) ?_)
    | (refine keeps_okS (by with_reducible assumption) ?_)
    | (refine keeps_okS2 (by with_reducible assumption) ?_)
    | (refine keeps_excS (by with_reducible assumption) ?_)
    | (refine keeps_ok (by with_reducible assumption) ?_)
    | (refine keeps_exc (by with_reducible assumption) ?_) | split | dsimp only

theorem Cx.write_keeps {s0 : State} (c : Cx) (w v spec : Nat) (h_c : Keeps s0 c.s) :
    ResKeeps s0 (Cx.write c w v spec) := by
  unfold Cx.write
  repeat' first
    | with_reducible first
        | intro _ | assumption | apply Cx.writeAs_keeps | apply resKeeps_ok | apply resKeeps_exc
        | apply resKeeps_ite | apply resKeeps_andThen | apply resS_ok | apply resS_exc | apply resS_ite
        | apply resS_andThenS | apply resS_andThen
    | simp only [↓keeps_upd_iff] | dsimp only

theorem Cx.store_keeps {s0 : State} (c : Cx) (e : Nat × Nat) (h_c : Keeps s0 c.s) :
    Keeps s0 (Cx.store c e).s := by
  unfold Cx.store
  repeat' first
    | with_reducible first
        | assumption | apply State.busWrite_keeps | apply State.poke_keeps | apply State.sramStored_keeps
        | apply State.windowWrite_keeps | apply keeps_foldlC
    | simp only [↓keeps_upd_iff] | (refine keeps_snd (by with_reducible assumption) ?_) | split | dsimp only

theorem Cx.storeAll_keeps {s0 : State} (c : Cx) (h_c : Keeps s0 c.s) : Keeps s0 (Cx.storeAll c).s := by
  unfold Cx.storeAll
  repeat' first
    | with_reducible first
        | intro _ | assumption | apply Cx.store_keeps | apply keeps_foldl | apply keeps_foldlC
    | simp only [↓keeps_upd_iff] | dsimp only

theorem Cx.srWrite_keeps {s0 : State} (c : Cx) (s v spec : Nat) (h_c : Keeps s0 c.s) :
    ResKeeps s0 (Cx.srWrite c s v spec) := by
  unfold Cx.srWrite
  repeat' first
    | with_reducible first
        | assumption | apply keeps_ite | apply resKeeps_ok | apply resKeeps_exc | apply resKeeps_ite
        | apply resKeeps_andThen
    | simp only [↓keeps_upd_iff] | split | dsimp only

theorem Cx.fetch_keeps {s0 : State} (c : Cx) (w : Nat) (h_c : Keeps s0 c.s) : ResKeeps s0 (Cx.fetch c w) := by
  unfold Cx.fetch
  repeat' first
    | with_reducible first
        | assumption | apply keeps_ite | apply Cx.afterMiss_keeps | apply State.busRead_keeps
        | apply State.sramRead_keeps | apply resKeeps_ok | apply resKeeps_exc | apply resKeeps_ite
        | apply resKeeps_andThen
    | simp only [↓keeps_upd_iff] | (refine keeps_snd (by with_reducible assumption) ?_)
    | (refine keeps_snd3 (by with_reducible assumption) ?_)
    | (refine keeps_some (by with_reducible assumption) ?_)
    | (refine keeps_okS (by with_reducible assumption) ?_)
    | (refine keeps_okS2 (by with_reducible assumption) ?_)
    | (refine keeps_excS (by with_reducible assumption) ?_)
    | (refine keeps_ok (by with_reducible assumption) ?_)
    | (refine keeps_exc (by with_reducible assumption) ?_) | split | dsimp only

theorem Cx.fetchN_keeps {s0 : State} (c : Cx) (w x0 : Nat) (h_c : Keeps s0 c.s) :
    ResKeeps s0 (Cx.fetchN c w x0) := by
  induction x0 generalizing c w with
  | zero =>
    unfold Cx.fetchN
    repeat' first
    | with_reducible first
        | intro _ | assumption | apply Cx.fetch_keeps | apply resKeeps_ok | apply resKeeps_exc
        | apply resKeeps_ite | apply resKeeps_andThen | apply resS_ok | apply resS_exc | apply resS_ite
        | apply resS_andThenS | apply resS_andThen
    | split | dsimp only
  | succ n ih =>
    unfold Cx.fetchN
    repeat' first
      | with_reducible first
          | intro _ | assumption | apply Cx.fetch_keeps | apply ih | apply resKeeps_ok | apply resKeeps_exc
          | apply resKeeps_ite | apply resKeeps_andThen | apply resS_ok | apply resS_exc | apply resS_ite
          | apply resS_andThenS | apply resS_andThen
      | split | dsimp only

theorem Cx.decode_keeps {s0 : State} (c : Cx) (w : Nat) (d : OpDesc) (h_c : Keeps s0 c.s) :
    ResKeeps s0 (Cx.decode c w d) := by
  unfold Cx.decode
  repeat' first
    | with_reducible first
        | intro _ | assumption | apply keeps_ite | apply Cx.fetchN_keeps | apply resKeeps_ok
        | apply resKeeps_exc | apply resKeeps_ite | apply resKeeps_andThen | apply resS_ok | apply resS_exc
        | apply resS_ite | apply resS_andThenS | apply resS_andThen
    | simp only [↓keeps_upd_iff] | (refine keeps_snd (by with_reducible assumption) ?_)
    | (refine keeps_snd3 (by with_reducible assumption) ?_)
    | (refine keeps_some (by with_reducible assumption) ?_)
    | (refine keeps_some2 (by with_reducible assumption) ?_)
    | (refine keeps_okS (by with_reducible assumption) ?_)
    | (refine keeps_okS2 (by with_reducible assumption) ?_)
    | (refine keeps_excS (by with_reducible assumption) ?_)
    | (refine keeps_ok (by with_reducible assumption) ?_)
    | (refine keeps_exc (by with_reducible assumption) ?_) | split | dsimp only

theorem Cx.ea_keeps {s0 : State} (c : Cx) (spec : Nat) (sz : Sz) (sum : Int) (h_c : Keeps s0 c.s) :
    ResKeeps s0 (Cx.ea c spec sz sum) := by
  unfold Cx.ea
  repeat' first
    | with_reducible first
        | assumption | apply keeps_ite | apply resKeeps_ok | apply resKeeps_exc | apply resKeeps_ite
        | apply resKeeps_andThen
    | split | dsimp only

theorem Cx.ptr_keeps {s0 : State} (c : Cx) (spec : Nat) (sz : Sz) (v : Nat) (h_c : Keeps s0 c.s) :
    ResKeeps s0 (Cx.ptr c spec sz v) := by
  unfold Cx.ptr
  repeat' first
    | with_reducible first
        | assumption | apply keeps_ite | apply Cx.ea_keeps | apply resKeeps_ok | apply resKeeps_exc
        | apply resKeeps_ite | apply resKeeps_andThen
    | split | dsimp only

theorem Cx.evalSpec_keeps {s0 : State} (c : Cx) (x : Nat) (ext : List Nat) (sz : Sz) (spec : Nat)
    (h_c : Keeps s0 c.s) : ResKeeps s0 (Cx.evalSpec c x ext sz spec) := by
  unfold Cx.evalSpec
  repeat' first
    | with_reducible first
        | intro _ | assumption | apply keeps_ite | apply Cx.ea_keeps | apply Cx.ptr_keeps
        | apply Cx.read_keeps | apply Cx.write_keeps | apply resKeeps_ok | apply resKeeps_exc
        | apply resKeeps_ite | apply resKeeps_andThen | apply resS_ok | apply resS_exc | apply resS_ite
        | apply resS_andThenS | apply resS_andThen
    | split | dsimp only

theorem Cx.readOctet_keeps {s0 : State} (c : Cx) (base o spec : Nat) (h_c : Keeps s0 c.s) :
    ResKeeps s0 (Cx.readOctet c base o spec) := by
  unfold Cx.readOctet
  repeat' first
    | with_reducible first
        | intro _ | assumption | apply keeps_ite | apply Cx.read_keeps | apply resKeeps_ok
        | apply resKeeps_exc | apply resKeeps_ite | apply resKeeps_andThen | apply resS_ok | apply resS_exc
        | apply resS_ite | apply resS_andThenS | apply resS_andThen
    | simp only [↓keeps_upd_iff] | split | dsimp only

theorem Cx.readDouble_keeps {s0 : State} (c : Cx) (w spec : Nat) (h_c : Keeps s0 c.s) :
    ResKeeps s0 (Cx.readDouble c w spec) := by
  unfold Cx.readDouble
  repeat' first
    | with_reducible first
        | intro _ | assumption | apply keeps_ite | apply Cx.read_keeps | apply resKeeps_ok
        | apply resKeeps_exc | apply resKeeps_ite | apply resKeeps_andThen | apply resS_ok | apply resS_exc
        | apply resS_ite | apply resS_andThenS | apply resS_andThen
    | simp only [↓keeps_upd_iff] | split | dsimp only

theorem Cx.get_keeps {s0 : State} (c : Cx) (o : Opnd) (sz : Sz) (spec : Nat) (h_c : Keeps s0 c.s) :
    ResKeeps s0 (Cx.get c o sz spec) := by
  unfold Cx.get
  repeat' first
    | with_reducible first
        | assumption | apply keeps_ite | apply Cx.readDouble_keeps | apply Cx.readOctet_keeps
        | apply Cx.read_keeps | apply resKeeps_ok | apply resKeeps_exc | apply resKeeps_ite
        | apply resKeeps_andThen
    | simp only [↓keeps_upd_iff] | (refine keeps_snd (by with_reducible assumption) ?_)
    | (refine keeps_okS (by with_reducible assumption) ?_)
    | (refine keeps_okS2 (by with_reducible assumption) ?_)
    | (refine keeps_ok (by with_reducible assumption) ?_) | split | dsimp only

theorem Cx.rmwRead_keeps {s0 : State} (c : Cx) (w spec : Nat) (h_c : Keeps s0 c.s) :
    ResKeeps s0 (Cx.rmwRead c w spec) := by
  unfold Cx.rmwRead
  repeat' first
    | with_reducible first
        | assumption | apply Cx.readAs_keeps | apply State.busCheck_keeps | apply State.targetRead_keeps
        | apply resKeeps_ok | apply resKeeps_exc | apply resKeeps_ite | apply resKeeps_andThen
    | simp only [↓keeps_upd_iff] | (refine keeps_snd (by with_reducible assumption) ?_)
    | (refine keeps_some (by with_reducible assumption) ?_)
    | (refine keeps_okS (by with_reducible assumption) ?_)
    | (refine keeps_okS2 (by with_reducible assumption) ?_)
    | (refine keeps_excS (by with_reducible assumption) ?_)
    | (refine keeps_ok (by with_reducible assumption) ?_)
    | (refine keeps_exc (by with_reducible assumption) ?_) | split | dsimp only

theorem Cx.writeOctet_keeps {s0 : State} (c : Cx) (base o v spec : Nat) (h_c : Keeps s0 c.s) :
    ResKeeps s0 (Cx.writeOctet c base o v spec) := by
  unfold Cx.writeOctet
  repeat' first
    | with_reducible first
        | intro _ | assumption | apply keeps_ite | apply Cx.rmwRead_keeps | apply Cx.write_keeps
        | apply resKeeps_ok | apply resKeeps_exc | apply resKeeps_ite | apply resKeeps_andThen
        | apply resS_ok | apply resS_exc | apply resS_ite | apply resS_andThenS | apply resS_andThen
    | split | dsimp only

theorem Cx.put_keeps {s0 : State} (c : Cx) (o : Opnd) (sz : Sz) (v spec : Nat) (h_c : Keeps s0 c.s) :
    ResKeeps s0 (Cx.put c o sz v spec) := by
  unfold Cx.put
  repeat' first
    | with_reducible first
        | intro _ | assumption | apply keeps_ite | apply Cx.srWrite_keeps | apply Cx.writeOctet_keeps
        | apply Cx.write_keeps | apply resKeeps_ok | apply resKeeps_exc | apply resKeeps_ite
        | apply resKeeps_andThen | apply resS_ok | apply resS_exc | apply resS_ite | apply resS_andThenS
        | apply resS_andThen
    | simp only [↓keeps_upd_iff] | (refine keeps_snd (by with_reducible assumption) ?_)
    | (refine keeps_okS (by with_reducible assumption) ?_)
    | (refine keeps_okS2 (by with_reducible assumption) ?_)
    | (refine keeps_ok (by with_reducible assumption) ?_) | split | dsimp only

end Sys2Proof.Machine
end

