-- ==== Sys2Proof/Laws/DebugKeeps.lean ====
section
/-! SUPPORT. What the definitions of Machine/Debug.lean keep, one lemma each. -/

namespace Sys2Proof.Machine

set_option linter.all false

theorem State.debugRefused_keeps {s0 : State} (s : State) (h_s : Keeps s0 s) :
    Keeps s0 (State.debugRefused s) := by
  unfold State.debugRefused
  repeat' first
    | with_reducible first
        | assumption | apply State.inc_keeps
    | dsimp only

theorem State.debugSession_keeps {s0 : State} (s : State) (mid : Nat) (b : Bool) (h_s : Keeps s0 s) :
    Keeps s0 (State.debugSession s mid b) := by
  unfold State.debugSession
  repeat' first
    | with_reducible first
        | assumption | apply keeps_ite | apply State.putB_keeps
    | split | dsimp only

theorem State.debugWake_keeps {s0 : State} (s : State) (h_s : Keeps s0 s) : Keeps s0 (State.debugWake s) := by
  unfold State.debugWake
  repeat' first
    | with_reducible first
        | assumption | apply keeps_ite | apply State.pass_keeps | apply State.putGated_keeps
    | split | dsimp only

theorem State.debugReply_keeps {s0 : State} (s : State) (v : Nat) (h_s : Keeps s0 s) :
    Keeps s0 (State.debugReply s v) := by
  unfold State.debugReply
  repeat' first
    | with_reducible first
        | assumption | apply State.replyParts_keeps
    | dsimp only

theorem State.debugRegWrite_keeps {s0 : State} (s : State) (p bank n v : Nat) (h_s : Keeps s0 s) :
    Keeps s0 (State.debugRegWrite s p bank n v) := by
  unfold State.debugRegWrite
  repeat' first
    | with_reducible first
        | assumption | apply keeps_ite | apply State.setProc_keeps
    | simp only [↓keeps_upd_iff] | split | dsimp only

theorem State.debugResume_keeps {s0 : State} (s : State) (p : Nat) (h_s : Keeps s0 s) :
    Keeps s0 (State.debugResume s p) := by
  unfold State.debugResume
  repeat' first
    | with_reducible first
        | intro _ | assumption | apply keeps_ite | apply Cx.get_keeps | apply Cx.put_keeps
        | apply State.put_keeps | apply State.setProc_keeps
    | simp only [↓keeps_upd_iff] | (refine keeps_snd (by with_reducible assumption) ?_)
    | (refine keeps_some (by with_reducible assumption) ?_) | split | dsimp only

theorem State.debugDo_keeps {s0 : State} (s : State) (mid : Nat) (op : DbgOp) (h_s : Keeps s0 s) :
    Keeps s0 (State.debugDo s mid op) := by
  unfold State.debugDo
  repeat' first
    | with_reducible first
        | intro _ | assumption | apply keeps_ite | apply State.debugRefused_keeps
        | apply State.debugRegWrite_keeps | apply State.debugReply_keeps | apply State.debugResume_keeps
        | apply State.debugSession_keeps | apply State.debugWake_keeps | apply State.disturb_keeps
        | apply State.fabricAccess_keeps | apply State.free_keeps | apply State.regRead_keeps
        | apply State.regWrite_keeps
    | simp only [↓keeps_upd_iff] | (refine keeps_snd (by with_reducible assumption) ?_) | split | dsimp only

theorem State.debugAon_keeps {s0 : State} (s : State) (op : DbgOp) (h_s : Keeps s0 s) :
    Keeps s0 (State.debugAon s op) := by
  unfold State.debugAon
  repeat' first
    | with_reducible first
        | assumption | apply keeps_ite | apply Cx.read_keeps | apply State.debugReply_keeps
        | apply State.free_keeps | apply State.replyParts_keeps
    | simp only [↓keeps_upd_iff] | (refine keeps_snd (by with_reducible assumption) ?_)
    | (refine keeps_snd3 (by with_reducible assumption) ?_) | split | dsimp only

theorem execDebugAccess_keeps {s0 : State} (mid : Nat) (op : DbgOp) (s : State) (h_s : Keeps s0 s) :
    OutKeeps s0 (execDebugAccess mid op s) := by
  unfold execDebugAccess
  repeat' first
    | with_reducible first
        | assumption | apply keeps_ite | apply State.debugAon_keeps | apply State.debugDo_keeps
        | apply outKeeps_next | apply outKeeps_ite
    | split | dsimp only

theorem execDebugHalt_keeps {s0 : State} (mid p : Nat) (s : State) (h_s : Keeps s0 s) :
    OutKeeps s0 (execDebugHalt mid p s) := by
  unfold execDebugHalt
  repeat' first
    | with_reducible first
        | intro _ | assumption | apply keeps_ite | apply State.debugCatch_keeps
        | apply State.debugRefused_keeps | apply State.debugSession_keeps | apply State.debugWake_keeps
        | apply outKeeps_next | apply outKeeps_ite
    | simp only [↓keeps_upd_iff] | split | dsimp only

end Sys2Proof.Machine
end

