-- ==== Sys2Proof/Laws/DiurnKeeps.lean ====
section
/-! SUPPORT. What the definitions of Machine/Diurn.lean keep, one lemma each. -/

namespace Sys2Proof.Machine

set_option linter.all false

theorem Cx.putBlock_keeps {s0 : State} (c : Cx) (priv w : Nat) (x0 : List Nat) (h_c : Keeps s0 c.s) :
    Keeps s0 (Cx.putBlock c priv w x0).2.s := by
  induction x0 generalizing c priv w with
  | nil =>
    unfold Cx.putBlock
    repeat' first
    | with_reducible first
        | assumption | apply keeps_ite | apply Cx.storeAll_keeps | apply Cx.writeAs_keeps
        | apply keeps_pair_ite
    | simp only [↓keeps_upd_iff] | (refine keeps_snd (by with_reducible assumption) ?_)
    | (refine keeps_okS (by with_reducible assumption) ?_)
    | (refine keeps_okS2 (by with_reducible assumption) ?_)
    | (refine keeps_excS (by with_reducible assumption) ?_)
    | (refine keeps_ok (by with_reducible assumption) ?_)
    | (refine keeps_exc (by with_reducible assumption) ?_) | split | dsimp only
  | cons y ys ih =>
    unfold Cx.putBlock
    repeat' first
      | with_reducible first
          | assumption | apply keeps_ite | apply Cx.storeAll_keeps | apply Cx.writeAs_keeps | apply ih
          | apply keeps_pair_ite
      | simp only [↓keeps_upd_iff] | (refine keeps_snd (by with_reducible assumption) ?_)
      | (refine keeps_okS (by with_reducible assumption) ?_)
      | (refine keeps_okS2 (by with_reducible assumption) ?_)
      | (refine keeps_excS (by with_reducible assumption) ?_)
      | (refine keeps_ok (by with_reducible assumption) ?_)
      | (refine keeps_exc (by with_reducible assumption) ?_) | split | dsimp only

theorem Cx.putReserve_keeps {s0 : State} (c : Cx) (priv w : Nat) (x0 : List Nat) (h_c : Keeps s0 c.s) :
    Keeps s0 (Cx.putReserve c priv w x0).s := by
  induction x0 generalizing c priv w with
  | nil =>
    unfold Cx.putReserve
    repeat' first
    | with_reducible first
        | assumption | apply keeps_ite | apply Cx.storeAll_keeps | apply Cx.writeAs_keeps
        | apply State.putReserve_keeps | apply keeps_foldlC
    | simp only [↓keeps_upd_iff] | (refine keeps_snd (by with_reducible assumption) ?_)
    | (refine keeps_okS (by with_reducible assumption) ?_)
    | (refine keeps_okS2 (by with_reducible assumption) ?_)
    | (refine keeps_excS (by with_reducible assumption) ?_)
    | (refine keeps_ok (by with_reducible assumption) ?_)
    | (refine keeps_exc (by with_reducible assumption) ?_) | split | dsimp only
  | cons y ys ih =>
    unfold Cx.putReserve
    repeat' first
      | with_reducible first
          | assumption | apply keeps_ite | apply Cx.storeAll_keeps | apply Cx.writeAs_keeps
          | apply State.putReserve_keeps | apply ih | apply keeps_foldlC
      | simp only [↓keeps_upd_iff] | (refine keeps_snd (by with_reducible assumption) ?_)
      | (refine keeps_okS (by with_reducible assumption) ?_)
      | (refine keeps_okS2 (by with_reducible assumption) ?_)
      | (refine keeps_excS (by with_reducible assumption) ?_)
      | (refine keeps_ok (by with_reducible assumption) ?_)
      | (refine keeps_exc (by with_reducible assumption) ?_) | split | dsimp only

theorem Cx.entryRefused_keeps {s0 : State} (c : Cx) (pr : Proc) (e : Entry) (fail : Bool)
    (h_c : Keeps s0 c.s) : Keeps s0 (Cx.entryRefused c pr e fail) := by
  unfold Cx.entryRefused
  repeat' first
    | with_reducible first
        | assumption | apply keeps_ite | apply Cx.putReserve_keeps | apply State.feAbandon_keeps
        | apply State.putReserve_keeps | apply State.raise_keeps | apply State.setProc_keeps
    | simp only [↓keeps_upd_iff] | split | dsimp only

theorem State.putLastExc_keeps {s0 : State} (s : State) (p : Nat) (e : Entry) (h_s : Keeps s0 s) :
    Keeps s0 (State.putLastExc s p e) := by
  unfold State.putLastExc
  repeat' first
    | with_reducible first
        | assumption | apply keeps_ite | apply Cx.put_keeps | apply State.put_keeps
    | simp only [↓keeps_upd_iff] | (refine keeps_snd (by with_reducible assumption) ?_)
    | (refine keeps_some (by with_reducible assumption) ?_) | split | dsimp only

theorem Cx.enter_keeps {s0 : State} (c : Cx) (pr : Proc) (e : Entry) (h_c : Keeps s0 c.s) :
    Keeps s0 (Cx.enter c pr e).2 := by
  unfold Cx.enter
  repeat' first
    | with_reducible first
        | assumption | apply keeps_ite | apply Cx.entryRefused_keeps | apply Cx.putBlock_keeps
        | apply Cx.readAs_keeps | apply State.putLastExc_keeps | apply State.setProc_keeps
        | apply keeps_pair_ite
    | simp only [↓keeps_upd_iff] | (refine keeps_snd (by with_reducible assumption) ?_)
    | (refine keeps_some (by with_reducible assumption) ?_)
    | (refine keeps_okS (by with_reducible assumption) ?_)
    | (refine keeps_okS2 (by with_reducible assumption) ?_)
    | (refine keeps_excS (by with_reducible assumption) ?_)
    | (refine keeps_ok (by with_reducible assumption) ?_)
    | (refine keeps_exc (by with_reducible assumption) ?_)
    | (refine keeps_sndC (by with_reducible assumption) ?_) | split | dsimp only

theorem Cx.takeExc_keeps {s0 : State} (c : Cx) (x : Exc) (h_c : Keeps s0 c.s) :
    Keeps s0 (Cx.takeExc c x) := by
  unfold Cx.takeExc
  repeat' first
    | with_reducible first
        | assumption | apply Cx.enter_keeps
    | simp only [↓keeps_upd_iff] | dsimp only

theorem Cx.finish_keeps {s0 : State} (c : Cx) (next : Nat) (taken : Option Nat) (opCost : Nat)
    (h_c : Keeps s0 c.s) : Keeps s0 (Cx.finish c next taken opCost) := by
  unfold Cx.finish
  repeat' first
    | with_reducible first
        | assumption | apply keeps_ite | apply Cx.storeAll_keeps | apply State.setProc_keeps
    | simp only [↓keeps_upd_iff] | (refine keeps_snd (by with_reducible assumption) ?_)
    | (refine keeps_some (by with_reducible assumption) ?_)
    | (refine keeps_sndC (by with_reducible assumption) ?_) | split | dsimp only

theorem State.cx_keeps {s0 : State} (s : State) (p : Nat) (h_s : Keeps s0 s) : Keeps s0 (State.cx s p).s := by
  unfold State.cx
  repeat' first
    | with_reducible first
        | assumption | apply keeps_foldlC
    | dsimp only

theorem State.beforeEdge_keeps {s0 : State} (s : State) (p : Nat) (t : State) (h_s : Keeps s0 s)
    (h_t : Keeps s0 t) : Keeps s0 (State.beforeEdge s p t) := by
  unfold State.beforeEdge
  repeat' first
    | with_reducible first
        | assumption | apply keeps_ite
    | split | dsimp only

theorem State.runInstr_keeps {s0 : State} (s : State) (p code : Nat) (d : OpDesc)
    (body : Dec → Cx → Res State) (h_s : Keeps s0 s) (h_body : ∀ v c, Keeps s0 c.s → ResSKeeps s0 (body v c)) :
    Keeps s0 (State.runInstr s p code d body) := by
  unfold State.runInstr
  repeat' first
    | with_reducible first
        | intro _ | assumption | apply keeps_ite | apply Cx.decode_keeps | apply Cx.fetch_keeps
        | apply Cx.takeExc_keeps | apply State.beforeEdge_keeps | apply State.cx_keeps
        | apply State.debugCatch_keeps | apply h_body | apply resKeeps_ok | apply resKeeps_exc
        | apply resKeeps_ite | apply resKeeps_andThen | apply resS_ok | apply resS_exc | apply resS_ite
        | apply resS_andThenS | apply resS_andThen
    | simp only [↓keeps_upd_iff] | (refine keeps_snd (by with_reducible assumption) ?_)
    | (refine keeps_okS (by with_reducible assumption) ?_)
    | (refine keeps_okS2 (by with_reducible assumption) ?_)
    | (refine keeps_excS (by with_reducible assumption) ?_)
    | (refine keeps_ok (by with_reducible assumption) ?_)
    | (refine keeps_exc (by with_reducible assumption) ?_) | split | dsimp only

theorem Cx.evalOpt_keeps {s0 : State} (c : Cx) (x : Nat) (ext : List Nat) (sz : Option Sz) (spec : Nat)
    (h_c : Keeps s0 c.s) : ResKeeps s0 (Cx.evalOpt c x ext sz spec) := by
  unfold Cx.evalOpt
  repeat' first
    | with_reducible first
        | assumption | apply keeps_ite | apply Cx.evalSpec_keeps | apply resKeeps_ok | apply resKeeps_exc
        | apply resKeeps_ite | apply resKeeps_andThen
    | simp only [↓keeps_upd_iff] | (refine keeps_snd (by with_reducible assumption) ?_)
    | (refine keeps_some (by with_reducible assumption) ?_)
    | (refine keeps_okS (by with_reducible assumption) ?_)
    | (refine keeps_okS2 (by with_reducible assumption) ?_)
    | (refine keeps_ok (by with_reducible assumption) ?_) | split | dsimp only

theorem Cx.phase1_keeps {s0 : State} (c : Cx) (d : OpDesc) (i : Dec) (h_c : Keeps s0 c.s) :
    ResKeeps s0 (Cx.phase1 c d i) := by
  unfold Cx.phase1
  repeat' first
    | with_reducible first
        | intro _ | assumption | apply keeps_ite | apply Cx.ea_keeps | apply Cx.evalOpt_keeps
        | apply resKeeps_ok | apply resKeeps_exc | apply resKeeps_ite | apply resKeeps_andThen
        | apply resS_ok | apply resS_exc | apply resS_ite | apply resS_andThenS | apply resS_andThen
    | split | dsimp only

theorem Cx.getOpt_keeps {s0 : State} (c : Cx) (o : Opnd) (sz : Option Sz) (spec : Nat) (h_c : Keeps s0 c.s) :
    ResKeeps s0 (Cx.getOpt c o sz spec) := by
  unfold Cx.getOpt
  repeat' first
    | with_reducible first
        | assumption | apply Cx.get_keeps | apply resKeeps_ok | apply resKeeps_exc | apply resKeeps_ite
        | apply resKeeps_andThen
    | simp only [↓keeps_upd_iff] | (refine keeps_some (by with_reducible assumption) ?_)
    | (refine keeps_okS (by with_reducible assumption) ?_)
    | (refine keeps_okS2 (by with_reducible assumption) ?_)
    | (refine keeps_ok (by with_reducible assumption) ?_) | split | dsimp only

theorem Cx.aluEnd_keeps {s0 : State} (c : Cx) (d : OpDesc) (o : Opnds) (r : AluOut) (next : Nat)
    (h_c : Keeps s0 c.s) : ResSKeeps s0 (Cx.aluEnd c d o r next) := by
  unfold Cx.aluEnd
  repeat' first
    | with_reducible first
        | intro _ | assumption | apply keeps_ite | apply Cx.finish_keeps | apply Cx.put_keeps
        | apply State.put_keeps | apply resKeeps_ok | apply resKeeps_exc | apply resKeeps_ite
        | apply resKeeps_andThen | apply resS_ok | apply resS_exc | apply resS_ite | apply resS_andThenS
        | apply resS_andThen
    | simp only [↓keeps_upd_iff] | (refine keeps_snd (by with_reducible assumption) ?_)
    | (refine keeps_some (by with_reducible assumption) ?_)
    | (refine keeps_key (by with_reducible assumption) ?_)
    | (refine keeps_okS (by with_reducible assumption) ?_)
    | (refine keeps_okS2 (by with_reducible assumption) ?_)
    | (refine keeps_excS (by with_reducible assumption) ?_)
    | (refine keeps_ok (by with_reducible assumption) ?_)
    | (refine keeps_exc (by with_reducible assumption) ?_) | split | dsimp only

theorem aluBody_keeps {s0 : State} (d : OpDesc) (readC : Bool) (f : Nat → Nat → Nat → Proc → AluOut)
    (i : Dec) (c : Cx) (h_c : Keeps s0 c.s) : ResSKeeps s0 (aluBody d readC f i c) := by
  unfold aluBody
  repeat' first
    | with_reducible first
        | intro _ | assumption | apply keeps_ite | apply Cx.aluEnd_keeps | apply Cx.getOpt_keeps
        | apply Cx.phase1_keeps | apply outKeeps_next | apply outKeeps_ite | apply resKeeps_ok
        | apply resKeeps_exc | apply resKeeps_ite | apply resKeeps_andThen | apply resS_ok | apply resS_exc
        | apply resS_ite | apply resS_andThenS | apply resS_andThen
    | split | dsimp only

theorem branchBody_keeps {s0 : State} (d : OpDesc) (cond : Proc → Bool) (i : Dec) (c : Cx)
    (h_c : Keeps s0 c.s) : ResSKeeps s0 (branchBody d cond i c) := by
  unfold branchBody
  repeat' first
    | with_reducible first
        | intro _ | assumption | apply keeps_ite | apply Cx.finish_keeps | apply Cx.getOpt_keeps
        | apply Cx.phase1_keeps | apply outKeeps_next | apply outKeeps_ite | apply resKeeps_ok
        | apply resKeeps_exc | apply resKeeps_ite | apply resKeeps_andThen | apply resS_ok | apply resS_exc
        | apply resS_ite | apply resS_andThenS | apply resS_andThen
    | split | dsimp only

theorem Cx.push_keeps {s0 : State} (c : Cx) (v : Nat) (h_c : Keeps s0 c.s) : ResKeeps s0 (Cx.push c v) := by
  unfold Cx.push
  repeat' first
    | with_reducible first
        | intro _ | assumption | apply keeps_ite | apply Cx.write_keeps | apply resKeeps_ok
        | apply resKeeps_exc | apply resKeeps_ite | apply resKeeps_andThen | apply resS_ok | apply resS_exc
        | apply resS_ite | apply resS_andThenS | apply resS_andThen
    | split | dsimp only

theorem Cx.pop_keeps {s0 : State} (c : Cx) (sp : Nat) (h_c : Keeps s0 c.s) : ResKeeps s0 (Cx.pop c sp) := by
  unfold Cx.pop
  repeat' first
    | with_reducible first
        | assumption | apply keeps_ite | apply Cx.read_keeps | apply resKeeps_ok | apply resKeeps_exc
        | apply resKeeps_ite | apply resKeeps_andThen
    | split | dsimp only

theorem Cx.setSp_keeps {s0 : State} (c : Cx) (v : Nat) (h_c : Keeps s0 c.s) : Keeps s0 (Cx.setSp c v).s := by
  unfold Cx.setSp
  repeat' first
    | with_reducible first
        | assumption | apply keeps_foldlC
    | simp only [↓keeps_upd_iff] | dsimp only

theorem nopBody_keeps {s0 : State} (i : Dec) (c : Cx) (h_c : Keeps s0 c.s) : ResSKeeps s0 (nopBody i c) := by
  unfold nopBody
  repeat' first
    | with_reducible first
        | assumption | apply Cx.finish_keeps | apply outKeeps_next | apply resKeeps_ok | apply resKeeps_exc
        | apply resKeeps_ite | apply resKeeps_andThen | apply resS_ok | apply resS_exc | apply resS_ite
        | apply resS_andThenS | apply resS_andThen
    | dsimp only

theorem jmpBody_keeps {s0 : State} (i : Dec) (c : Cx) (h_c : Keeps s0 c.s) : ResSKeeps s0 (jmpBody i c) := by
  unfold jmpBody
  repeat' first
    | with_reducible first
        | intro _ | assumption | apply keeps_ite | apply Cx.finish_keeps | apply Cx.getOpt_keeps
        | apply Cx.phase1_keeps | apply outKeeps_next | apply outKeeps_ite | apply resKeeps_ok
        | apply resKeeps_exc | apply resKeeps_ite | apply resKeeps_andThen | apply resS_ok | apply resS_exc
        | apply resS_ite | apply resS_andThenS | apply resS_andThen
    | split | dsimp only

theorem callBody_keeps {s0 : State} (i : Dec) (c : Cx) (h_c : Keeps s0 c.s) :
    ResSKeeps s0 (callBody i c) := by
  unfold callBody
  repeat' first
    | with_reducible first
        | intro _ | assumption | apply keeps_ite | apply Cx.finish_keeps | apply Cx.getOpt_keeps
        | apply Cx.phase1_keeps | apply Cx.push_keeps | apply Cx.setSp_keeps | apply outKeeps_next
        | apply outKeeps_ite | apply resKeeps_ok | apply resKeeps_exc | apply resKeeps_ite
        | apply resKeeps_andThen | apply resS_ok | apply resS_exc | apply resS_ite | apply resS_andThenS
        | apply resS_andThen
    | split | dsimp only

theorem retBody_keeps {s0 : State} (i : Dec) (c : Cx) (h_c : Keeps s0 c.s) : ResSKeeps s0 (retBody i c) := by
  unfold retBody
  repeat' first
    | with_reducible first
        | intro _ | assumption | apply keeps_ite | apply Cx.finish_keeps | apply Cx.pop_keeps
        | apply Cx.setSp_keeps | apply outKeeps_next | apply outKeeps_ite | apply resKeeps_ok
        | apply resKeeps_exc | apply resKeeps_ite | apply resKeeps_andThen | apply resS_ok | apply resS_exc
        | apply resS_ite | apply resS_andThenS | apply resS_andThen
    | split | dsimp only

theorem loopBody_keeps {s0 : State} (i : Dec) (c : Cx) (h_c : Keeps s0 c.s) :
    ResSKeeps s0 (loopBody i c) := by
  unfold loopBody
  repeat' first
    | with_reducible first
        | intro _ | assumption | apply keeps_ite | apply Cx.finish_keeps | apply Cx.getOpt_keeps
        | apply Cx.phase1_keeps | apply outKeeps_next | apply outKeeps_ite | apply resKeeps_ok
        | apply resKeeps_exc | apply resKeeps_ite | apply resKeeps_andThen | apply resS_ok | apply resS_exc
        | apply resS_ite | apply resS_andThenS | apply resS_andThen
    | simp only [↓keeps_upd_iff] | split | dsimp only

theorem lpopBody_keeps {s0 : State} (i : Dec) (c : Cx) (h_c : Keeps s0 c.s) :
    ResSKeeps s0 (lpopBody i c) := by
  unfold lpopBody
  repeat' first
    | with_reducible first
        | assumption | apply keeps_ite | apply Cx.finish_keeps | apply outKeeps_next | apply outKeeps_ite
        | apply resKeeps_ok | apply resKeeps_exc | apply resKeeps_ite | apply resKeeps_andThen
        | apply resS_ok | apply resS_exc | apply resS_ite | apply resS_andThenS | apply resS_andThen
    | simp only [↓keeps_upd_iff] | split | dsimp only

theorem waitBody_keeps {s0 : State} (i : Dec) (c : Cx) (h_c : Keeps s0 c.s) :
    ResSKeeps s0 (waitBody i c) := by
  unfold waitBody
  repeat' first
    | with_reducible first
        | assumption | apply Cx.finish_keeps | apply State.setProc_keeps | apply outKeeps_next
        | apply resKeeps_ok | apply resKeeps_exc | apply resKeeps_ite | apply resKeeps_andThen
        | apply resS_ok | apply resS_exc | apply resS_ite | apply resS_andThenS | apply resS_andThen
    | simp only [↓keeps_upd_iff] | dsimp only

theorem pushBody_keeps {s0 : State} (i : Dec) (c : Cx) (h_c : Keeps s0 c.s) :
    ResSKeeps s0 (pushBody i c) := by
  unfold pushBody
  repeat' first
    | with_reducible first
        | intro _ | assumption | apply Cx.finish_keeps | apply Cx.getOpt_keeps | apply Cx.phase1_keeps
        | apply Cx.push_keeps | apply Cx.setSp_keeps | apply outKeeps_next | apply resKeeps_ok
        | apply resKeeps_exc | apply resKeeps_ite | apply resKeeps_andThen | apply resS_ok | apply resS_exc
        | apply resS_ite | apply resS_andThenS | apply resS_andThen
    | dsimp only

theorem popBody_keeps {s0 : State} (i : Dec) (c : Cx) (h_c : Keeps s0 c.s) : ResSKeeps s0 (popBody i c) := by
  unfold popBody
  repeat' first
    | with_reducible first
        | intro _ | assumption | apply keeps_ite | apply Cx.finish_keeps | apply Cx.phase1_keeps
        | apply Cx.pop_keeps | apply Cx.put_keeps | apply Cx.setSp_keeps | apply State.put_keeps
        | apply outKeeps_next | apply outKeeps_ite | apply resKeeps_ok | apply resKeeps_exc
        | apply resKeeps_ite | apply resKeeps_andThen | apply resS_ok | apply resS_exc | apply resS_ite
        | apply resS_andThenS | apply resS_andThen
    | simp only [↓keeps_upd_iff] | split | dsimp only

theorem enterBody_keeps {s0 : State} (i : Dec) (c : Cx) (h_c : Keeps s0 c.s) :
    ResSKeeps s0 (enterBody i c) := by
  unfold enterBody
  repeat' first
    | with_reducible first
        | intro _ | assumption | apply keeps_ite | apply Cx.finish_keeps | apply Cx.getOpt_keeps
        | apply Cx.phase1_keeps | apply Cx.push_keeps | apply Cx.setSp_keeps | apply outKeeps_next
        | apply outKeeps_ite | apply resKeeps_ok | apply resKeeps_exc | apply resKeeps_ite
        | apply resKeeps_andThen | apply resS_ok | apply resS_exc | apply resS_ite | apply resS_andThenS
        | apply resS_andThen
    | simp only [↓keeps_upd_iff] | split | dsimp only

theorem leaveBody_keeps {s0 : State} (i : Dec) (c : Cx) (h_c : Keeps s0 c.s) :
    ResSKeeps s0 (leaveBody i c) := by
  unfold leaveBody
  repeat' first
    | with_reducible first
        | intro _ | assumption | apply keeps_ite | apply Cx.finish_keeps | apply Cx.pop_keeps
        | apply Cx.setSp_keeps | apply outKeeps_next | apply outKeeps_ite | apply resKeeps_ok
        | apply resKeeps_exc | apply resKeeps_ite | apply resKeeps_andThen | apply resS_ok | apply resS_exc
        | apply resS_ite | apply resS_andThenS | apply resS_andThen
    | simp only [↓keeps_upd_iff] | split | dsimp only

theorem Cx.readBlock_keeps {s0 : State} (c : Cx) (priv w x0 : Nat) (h_c : Keeps s0 c.s) :
    ResKeeps s0 (Cx.readBlock c priv w x0) := by
  induction x0 generalizing c priv w with
  | zero =>
    unfold Cx.readBlock
    repeat' first
    | with_reducible first
        | intro _ | assumption | apply Cx.readAs_keeps | apply resKeeps_ok | apply resKeeps_exc
        | apply resKeeps_ite | apply resKeeps_andThen | apply resS_ok | apply resS_exc | apply resS_ite
        | apply resS_andThenS | apply resS_andThen
    | split | dsimp only
  | succ n ih =>
    unfold Cx.readBlock
    repeat' first
      | with_reducible first
          | intro _ | assumption | apply Cx.readAs_keeps | apply ih | apply resKeeps_ok | apply resKeeps_exc
          | apply resKeeps_ite | apply resKeeps_andThen | apply resS_ok | apply resS_exc | apply resS_ite
          | apply resS_andThenS | apply resS_andThen
      | split | dsimp only

theorem Cx.doReturn_keeps {s0 : State} (c : Cx) (ch : Nat) (b : List Nat) (keepFlags rx : Bool)
    (h_c : Keeps s0 c.s) : Keeps s0 (Cx.doReturn c ch b keepFlags rx) := by
  unfold Cx.doReturn
  repeat' first
    | with_reducible first
        | assumption | apply keeps_ite | apply Cx.get_keeps | apply Cx.storeAll_keeps | apply State.inc_keeps
        | apply State.irqComplete_keeps | apply State.setProc_keeps
    | simp only [↓keeps_upd_iff] | split | dsimp only

theorem returnBody_keeps {s0 : State} (rx : Bool) (_i : Dec) (c : Cx) (h_c : Keeps s0 c.s) :
    ResSKeeps s0 (returnBody rx _i c) := by
  unfold returnBody
  repeat' first
    | with_reducible first
        | intro _ | assumption | apply keeps_ite | apply Cx.doReturn_keeps | apply Cx.readBlock_keeps
        | apply resKeeps_ok | apply resKeeps_exc | apply resKeeps_ite | apply resKeeps_andThen
        | apply resS_ok | apply resS_exc | apply resS_ite | apply resS_andThenS | apply resS_andThen
    | split | dsimp only

theorem Cx.gate63_keeps {s0 : State} (c : Cx) (h_c : Keeps s0 c.s) : ResSKeeps s0 (Cx.gate63 c) := by
  unfold Cx.gate63
  repeat' first
    | with_reducible first
        | intro _ | assumption | apply keeps_ite | apply Cx.doReturn_keeps | apply Cx.readBlock_keeps
        | apply resKeeps_ok | apply resKeeps_exc | apply resKeeps_ite | apply resKeeps_andThen
        | apply resS_ok | apply resS_exc | apply resS_ite | apply resS_andThenS | apply resS_andThen
    | split | dsimp only

theorem Cx.gateEnter_keeps {s0 : State} (c : Cx) (e : Entry) (h_c : Keeps s0 c.s) :
    ResSKeeps s0 (Cx.gateEnter c e) := by
  unfold Cx.gateEnter
  repeat' first
    | with_reducible first
        | assumption | apply keeps_ite | apply Cx.enter_keeps | apply Cx.storeAll_keeps | apply resKeeps_ok
        | apply resKeeps_exc | apply resKeeps_ite | apply resKeeps_andThen | apply resS_ok | apply resS_exc
        | apply resS_ite | apply resS_andThenS | apply resS_andThen
    | split | dsimp only

theorem Cx.gateFret_keeps {s0 : State} (c : Cx) (g next : Nat) (h_c : Keeps s0 c.s) :
    ResSKeeps s0 (Cx.gateFret c g next) := by
  unfold Cx.gateFret
  repeat' first
    | with_reducible first
        | assumption | apply keeps_ite | apply Cx.gate63_keeps | apply Cx.gateEnter_keeps
        | apply Cx.get_keeps | apply resKeeps_ok | apply resKeeps_exc | apply resKeeps_ite
        | apply resKeeps_andThen | apply resS_ok | apply resS_exc | apply resS_ite | apply resS_andThenS
        | apply resS_andThen
    | split | dsimp only

theorem Cx.gateCapo_keeps {s0 : State} (c : Cx) (g next : Nat) (h_c : Keeps s0 c.s) :
    ResSKeeps s0 (Cx.gateCapo c g next) := by
  unfold Cx.gateCapo
  repeat' first
    | with_reducible first
        | intro _ | assumption | apply keeps_ite | apply Cx.gateEnter_keeps | apply Cx.get_keeps
        | apply Cx.read_keeps | apply resKeeps_ok | apply resKeeps_exc | apply resKeeps_ite
        | apply resKeeps_andThen | apply resS_ok | apply resS_exc | apply resS_ite | apply resS_andThenS
        | apply resS_andThen
    | split | dsimp only

theorem gateBody_keeps {s0 : State} (i : Dec) (c : Cx) (h_c : Keeps s0 c.s) :
    ResSKeeps s0 (gateBody i c) := by
  unfold gateBody
  repeat' first
    | with_reducible first
        | intro _ | assumption | apply keeps_ite | apply Cx.gateCapo_keeps | apply Cx.gateFret_keeps
        | apply Cx.getOpt_keeps | apply Cx.phase1_keeps | apply outKeeps_next | apply outKeeps_ite
        | apply resKeeps_ok | apply resKeeps_exc | apply resKeeps_ite | apply resKeeps_andThen
        | apply resS_ok | apply resS_exc | apply resS_ite | apply resS_andThenS | apply resS_andThen
    | split | dsimp only

theorem Cx.octets_keeps {s0 : State} (c : Cx) (o : Opnd) (acc k x0 : Nat) (h_c : Keeps s0 c.s) :
    ResKeeps s0 (Cx.octets c o acc k x0) := by
  induction x0 generalizing c o acc k with
  | zero =>
    unfold Cx.octets
    repeat' first
    | with_reducible first
        | intro _ | assumption | apply keeps_ite | apply Cx.get_keeps | apply Cx.read_keeps
        | apply resKeeps_ok | apply resKeeps_exc | apply resKeeps_ite | apply resKeeps_andThen
        | apply resS_ok | apply resS_exc | apply resS_ite | apply resS_andThenS | apply resS_andThen
    | simp only [↓keeps_upd_iff] | (refine keeps_snd (by with_reducible assumption) ?_)
    | (refine keeps_snd3 (by with_reducible assumption) ?_)
    | (refine keeps_okS (by with_reducible assumption) ?_)
    | (refine keeps_okS2 (by with_reducible assumption) ?_)
    | (refine keeps_excS (by with_reducible assumption) ?_)
    | (refine keeps_ok (by with_reducible assumption) ?_)
    | (refine keeps_exc (by with_reducible assumption) ?_) | split | dsimp only
  | succ n ih =>
    unfold Cx.octets
    repeat' first
      | with_reducible first
          | intro _ | assumption | apply keeps_ite | apply Cx.get_keeps | apply Cx.read_keeps | apply ih
          | apply resKeeps_ok | apply resKeeps_exc | apply resKeeps_ite | apply resKeeps_andThen
          | apply resS_ok | apply resS_exc | apply resS_ite | apply resS_andThenS | apply resS_andThen
      | simp only [↓keeps_upd_iff] | (refine keeps_snd (by with_reducible assumption) ?_)
      | (refine keeps_snd3 (by with_reducible assumption) ?_)
      | (refine keeps_okS (by with_reducible assumption) ?_)
      | (refine keeps_okS2 (by with_reducible assumption) ?_)
      | (refine keeps_excS (by with_reducible assumption) ?_)
      | (refine keeps_ok (by with_reducible assumption) ?_)
      | (refine keeps_exc (by with_reducible assumption) ?_) | split | dsimp only

theorem ogetBody_keeps {s0 : State} (i : Dec) (c : Cx) (h_c : Keeps s0 c.s) :
    ResSKeeps s0 (ogetBody i c) := by
  unfold ogetBody
  repeat' first
    | with_reducible first
        | intro _ | assumption | apply Cx.aluEnd_keeps | apply Cx.getOpt_keeps | apply Cx.octets_keeps
        | apply Cx.phase1_keeps | apply outKeeps_next | apply resKeeps_ok | apply resKeeps_exc
        | apply resKeeps_ite | apply resKeeps_andThen | apply resS_ok | apply resS_exc | apply resS_ite
        | apply resS_andThenS | apply resS_andThen
    | dsimp only

theorem Cx.putOctets_keeps {s0 : State} (c : Cx) (b i a n k x0 : Nat) (h_c : Keeps s0 c.s) :
    ResKeeps s0 (Cx.putOctets c b i a n k x0) := by
  induction x0 generalizing c b i a n k with
  | zero =>
    unfold Cx.putOctets
    repeat' first
    | with_reducible first
        | intro _ | assumption | apply keeps_ite | apply Cx.writeOctet_keeps | apply resKeeps_ok
        | apply resKeeps_exc | apply resKeeps_ite | apply resKeeps_andThen | apply resS_ok | apply resS_exc
        | apply resS_ite | apply resS_andThenS | apply resS_andThen
    | simp only [↓keeps_upd_iff] | split | dsimp only
  | succ n ih =>
    unfold Cx.putOctets
    repeat' first
      | with_reducible first
          | intro _ | assumption | apply keeps_ite | apply Cx.writeOctet_keeps | apply ih | apply resKeeps_ok
          | apply resKeeps_exc | apply resKeeps_ite | apply resKeeps_andThen | apply resS_ok | apply resS_exc
          | apply resS_ite | apply resS_andThenS | apply resS_andThen
      | simp only [↓keeps_upd_iff] | split | dsimp only

theorem oputBody_keeps {s0 : State} (i : Dec) (c : Cx) (h_c : Keeps s0 c.s) :
    ResSKeeps s0 (oputBody i c) := by
  unfold oputBody
  repeat' first
    | with_reducible first
        | intro _ | assumption | apply keeps_ite | apply Cx.finish_keeps | apply Cx.getOpt_keeps
        | apply Cx.phase1_keeps | apply Cx.putOctets_keeps | apply Cx.put_keeps | apply State.put_keeps
        | apply outKeeps_next | apply outKeeps_ite | apply resKeeps_ok | apply resKeeps_exc
        | apply resKeeps_ite | apply resKeeps_andThen | apply resS_ok | apply resS_exc | apply resS_ite
        | apply resS_andThenS | apply resS_andThen
    | simp only [↓keeps_upd_iff] | (refine keeps_snd (by with_reducible assumption) ?_)
    | (refine keeps_snd3 (by with_reducible assumption) ?_)
    | (refine keeps_some (by with_reducible assumption) ?_)
    | (refine keeps_next (by with_reducible assumption) ?_)
    | (refine keeps_key (by with_reducible assumption) ?_)
    | (refine keeps_okS (by with_reducible assumption) ?_)
    | (refine keeps_okS2 (by with_reducible assumption) ?_)
    | (refine keeps_ok (by with_reducible assumption) ?_) | split | dsimp only

theorem berlenBody_keeps {s0 : State} (i : Dec) (c : Cx) (h_c : Keeps s0 c.s) :
    ResSKeeps s0 (berlenBody i c) := by
  unfold berlenBody
  repeat' first
    | with_reducible first
        | intro _ | assumption | apply keeps_ite | apply Cx.aluEnd_keeps | apply Cx.octets_keeps
        | apply Cx.phase1_keeps | apply outKeeps_next | apply outKeeps_ite | apply resKeeps_ok
        | apply resKeeps_exc | apply resKeeps_ite | apply resKeeps_andThen | apply resS_ok | apply resS_exc
        | apply resS_ite | apply resS_andThenS | apply resS_andThen
    | split | dsimp only

end Sys2Proof.Machine
end

