-- ==== Sys2Proof/Laws/DiurnRowsKeeps.lean ====
section
/-! SUPPORT. What the definitions of Machine/DiurnRows.lean keep, one lemma each. -/

namespace Sys2Proof.Machine

set_option linter.all false

theorem execNop_keeps {s0 : State} (p : Nat) (s : State) (h_s : Keeps s0 s) : OutKeeps s0 (execNop p s) := by
  unfold execNop
  repeat' first
    | with_reducible first
        | assumption | apply State.runInstr_keeps | apply nopBody_keeps | apply outKeeps_next
    | dsimp only

theorem execJmp_keeps {s0 : State} (p : Nat) (s : State) (h_s : Keeps s0 s) : OutKeeps s0 (execJmp p s) := by
  unfold execJmp
  repeat' first
    | with_reducible first
        | assumption | apply State.runInstr_keeps | apply jmpBody_keeps | apply outKeeps_next
    | dsimp only

theorem execCall_keeps {s0 : State} (p : Nat) (s : State) (h_s : Keeps s0 s) :
    OutKeeps s0 (execCall p s) := by
  unfold execCall
  repeat' first
    | with_reducible first
        | assumption | apply State.runInstr_keeps | apply callBody_keeps | apply outKeeps_next
    | dsimp only

theorem execRet_keeps {s0 : State} (p : Nat) (s : State) (h_s : Keeps s0 s) : OutKeeps s0 (execRet p s) := by
  unfold execRet
  repeat' first
    | with_reducible first
        | assumption | apply State.runInstr_keeps | apply retBody_keeps | apply outKeeps_next
    | dsimp only

theorem execLoop_keeps {s0 : State} (p : Nat) (s : State) (h_s : Keeps s0 s) :
    OutKeeps s0 (execLoop p s) := by
  unfold execLoop
  repeat' first
    | with_reducible first
        | assumption | apply State.runInstr_keeps | apply loopBody_keeps | apply outKeeps_next
    | dsimp only

theorem execLpop_keeps {s0 : State} (p : Nat) (s : State) (h_s : Keeps s0 s) :
    OutKeeps s0 (execLpop p s) := by
  unfold execLpop
  repeat' first
    | with_reducible first
        | assumption | apply State.runInstr_keeps | apply lpopBody_keeps | apply outKeeps_next
    | dsimp only

theorem execBeq_keeps {s0 : State} (p : Nat) (s : State) (h_s : Keeps s0 s) : OutKeeps s0 (execBeq p s) := by
  unfold execBeq
  repeat' first
    | with_reducible first
        | intro _ | assumption | apply State.runInstr_keeps | apply branchBody_keeps | apply outKeeps_next
    | dsimp only

theorem execBne_keeps {s0 : State} (p : Nat) (s : State) (h_s : Keeps s0 s) : OutKeeps s0 (execBne p s) := by
  unfold execBne
  repeat' first
    | with_reducible first
        | intro _ | assumption | apply State.runInstr_keeps | apply branchBody_keeps | apply outKeeps_next
    | dsimp only

theorem execBlt_keeps {s0 : State} (p : Nat) (s : State) (h_s : Keeps s0 s) : OutKeeps s0 (execBlt p s) := by
  unfold execBlt
  repeat' first
    | with_reducible first
        | intro _ | assumption | apply State.runInstr_keeps | apply branchBody_keeps | apply outKeeps_next
    | dsimp only

theorem execBge_keeps {s0 : State} (p : Nat) (s : State) (h_s : Keeps s0 s) : OutKeeps s0 (execBge p s) := by
  unfold execBge
  repeat' first
    | with_reducible first
        | intro _ | assumption | apply State.runInstr_keeps | apply branchBody_keeps | apply outKeeps_next
    | dsimp only

theorem execBltu_keeps {s0 : State} (p : Nat) (s : State) (h_s : Keeps s0 s) :
    OutKeeps s0 (execBltu p s) := by
  unfold execBltu
  repeat' first
    | with_reducible first
        | intro _ | assumption | apply State.runInstr_keeps | apply branchBody_keeps | apply outKeeps_next
    | dsimp only

theorem execBgeu_keeps {s0 : State} (p : Nat) (s : State) (h_s : Keeps s0 s) :
    OutKeeps s0 (execBgeu p s) := by
  unfold execBgeu
  repeat' first
    | with_reducible first
        | intro _ | assumption | apply State.runInstr_keeps | apply branchBody_keeps | apply outKeeps_next
    | dsimp only

theorem execBmi_keeps {s0 : State} (p : Nat) (s : State) (h_s : Keeps s0 s) : OutKeeps s0 (execBmi p s) := by
  unfold execBmi
  repeat' first
    | with_reducible first
        | intro _ | assumption | apply State.runInstr_keeps | apply branchBody_keeps | apply outKeeps_next
    | dsimp only

theorem execBpl_keeps {s0 : State} (p : Nat) (s : State) (h_s : Keeps s0 s) : OutKeeps s0 (execBpl p s) := by
  unfold execBpl
  repeat' first
    | with_reducible first
        | intro _ | assumption | apply State.runInstr_keeps | apply branchBody_keeps | apply outKeeps_next
    | dsimp only

theorem execBgt_keeps {s0 : State} (p : Nat) (s : State) (h_s : Keeps s0 s) : OutKeeps s0 (execBgt p s) := by
  unfold execBgt
  repeat' first
    | with_reducible first
        | intro _ | assumption | apply State.runInstr_keeps | apply branchBody_keeps | apply outKeeps_next
    | dsimp only

theorem execBle_keeps {s0 : State} (p : Nat) (s : State) (h_s : Keeps s0 s) : OutKeeps s0 (execBle p s) := by
  unfold execBle
  repeat' first
    | with_reducible first
        | intro _ | assumption | apply State.runInstr_keeps | apply branchBody_keeps | apply outKeeps_next
    | split | dsimp only

theorem execBhi_keeps {s0 : State} (p : Nat) (s : State) (h_s : Keeps s0 s) : OutKeeps s0 (execBhi p s) := by
  unfold execBhi
  repeat' first
    | with_reducible first
        | intro _ | assumption | apply State.runInstr_keeps | apply branchBody_keeps | apply outKeeps_next
    | dsimp only

theorem execBls_keeps {s0 : State} (p : Nat) (s : State) (h_s : Keeps s0 s) : OutKeeps s0 (execBls p s) := by
  unfold execBls
  repeat' first
    | with_reducible first
        | intro _ | assumption | apply State.runInstr_keeps | apply branchBody_keeps | apply outKeeps_next
    | split | dsimp only

theorem execBvs_keeps {s0 : State} (p : Nat) (s : State) (h_s : Keeps s0 s) : OutKeeps s0 (execBvs p s) := by
  unfold execBvs
  repeat' first
    | with_reducible first
        | intro _ | assumption | apply State.runInstr_keeps | apply branchBody_keeps | apply outKeeps_next
    | dsimp only

theorem execBvc_keeps {s0 : State} (p : Nat) (s : State) (h_s : Keeps s0 s) : OutKeeps s0 (execBvc p s) := by
  unfold execBvc
  repeat' first
    | with_reducible first
        | intro _ | assumption | apply State.runInstr_keeps | apply branchBody_keeps | apply outKeeps_next
    | dsimp only

theorem execBts_keeps {s0 : State} (p : Nat) (s : State) (h_s : Keeps s0 s) : OutKeeps s0 (execBts p s) := by
  unfold execBts
  repeat' first
    | with_reducible first
        | intro _ | assumption | apply State.runInstr_keeps | apply branchBody_keeps | apply outKeeps_next
    | dsimp only

theorem execBtc_keeps {s0 : State} (p : Nat) (s : State) (h_s : Keeps s0 s) : OutKeeps s0 (execBtc p s) := by
  unfold execBtc
  repeat' first
    | with_reducible first
        | intro _ | assumption | apply State.runInstr_keeps | apply branchBody_keeps | apply outKeeps_next
    | dsimp only

theorem execGate_keeps {s0 : State} (p : Nat) (s : State) (h_s : Keeps s0 s) :
    OutKeeps s0 (execGate p s) := by
  unfold execGate
  repeat' first
    | with_reducible first
        | assumption | apply State.runInstr_keeps | apply gateBody_keeps | apply outKeeps_next
    | dsimp only

theorem execRetg_keeps {s0 : State} (p : Nat) (s : State) (h_s : Keeps s0 s) :
    OutKeeps s0 (execRetg p s) := by
  unfold execRetg
  repeat' first
    | with_reducible first
        | assumption | apply State.runInstr_keeps | apply returnBody_keeps | apply outKeeps_next
    | dsimp only

theorem execRetx_keeps {s0 : State} (p : Nat) (s : State) (h_s : Keeps s0 s) :
    OutKeeps s0 (execRetx p s) := by
  unfold execRetx
  repeat' first
    | with_reducible first
        | assumption | apply State.runInstr_keeps | apply returnBody_keeps | apply outKeeps_next
    | dsimp only

theorem execWait_keeps {s0 : State} (p : Nat) (s : State) (h_s : Keeps s0 s) :
    OutKeeps s0 (execWait p s) := by
  unfold execWait
  repeat' first
    | with_reducible first
        | assumption | apply State.runInstr_keeps | apply waitBody_keeps | apply outKeeps_next
    | dsimp only

theorem execPush_keeps {s0 : State} (p : Nat) (s : State) (h_s : Keeps s0 s) :
    OutKeeps s0 (execPush p s) := by
  unfold execPush
  repeat' first
    | with_reducible first
        | assumption | apply State.runInstr_keeps | apply pushBody_keeps | apply outKeeps_next
    | dsimp only

theorem execPop_keeps {s0 : State} (p : Nat) (s : State) (h_s : Keeps s0 s) : OutKeeps s0 (execPop p s) := by
  unfold execPop
  repeat' first
    | with_reducible first
        | assumption | apply State.runInstr_keeps | apply popBody_keeps | apply outKeeps_next
    | dsimp only

theorem execEnter_keeps {s0 : State} (p : Nat) (s : State) (h_s : Keeps s0 s) :
    OutKeeps s0 (execEnter p s) := by
  unfold execEnter
  repeat' first
    | with_reducible first
        | assumption | apply State.runInstr_keeps | apply enterBody_keeps | apply outKeeps_next
    | dsimp only

theorem execLeave_keeps {s0 : State} (p : Nat) (s : State) (h_s : Keeps s0 s) :
    OutKeeps s0 (execLeave p s) := by
  unfold execLeave
  repeat' first
    | with_reducible first
        | assumption | apply State.runInstr_keeps | apply leaveBody_keeps | apply outKeeps_next
    | dsimp only

theorem execMov_keeps {s0 : State} (p : Nat) (s : State) (h_s : Keeps s0 s) : OutKeeps s0 (execMov p s) := by
  unfold execMov
  repeat' first
    | with_reducible first
        | intro _ | assumption | apply State.runInstr_keeps | apply aluBody_keeps | apply outKeeps_next
    | dsimp only

theorem execAdd_keeps {s0 : State} (p : Nat) (s : State) (h_s : Keeps s0 s) : OutKeeps s0 (execAdd p s) := by
  unfold execAdd
  repeat' first
    | with_reducible first
        | intro _ | assumption | apply State.runInstr_keeps | apply aluBody_keeps | apply outKeeps_next
    | dsimp only

theorem execSub_keeps {s0 : State} (p : Nat) (s : State) (h_s : Keeps s0 s) : OutKeeps s0 (execSub p s) := by
  unfold execSub
  repeat' first
    | with_reducible first
        | intro _ | assumption | apply State.runInstr_keeps | apply aluBody_keeps | apply outKeeps_next
    | dsimp only

theorem execAdc_keeps {s0 : State} (p : Nat) (s : State) (h_s : Keeps s0 s) : OutKeeps s0 (execAdc p s) := by
  unfold execAdc
  repeat' first
    | with_reducible first
        | intro _ | assumption | apply keeps_ite | apply State.runInstr_keeps | apply aluBody_keeps
        | apply outKeeps_next | apply outKeeps_ite
    | split | dsimp only

theorem execSbc_keeps {s0 : State} (p : Nat) (s : State) (h_s : Keeps s0 s) : OutKeeps s0 (execSbc p s) := by
  unfold execSbc
  repeat' first
    | with_reducible first
        | intro _ | assumption | apply keeps_ite | apply State.runInstr_keeps | apply aluBody_keeps
        | apply outKeeps_next | apply outKeeps_ite
    | split | dsimp only

theorem execNeg_keeps {s0 : State} (p : Nat) (s : State) (h_s : Keeps s0 s) : OutKeeps s0 (execNeg p s) := by
  unfold execNeg
  repeat' first
    | with_reducible first
        | intro _ | assumption | apply State.runInstr_keeps | apply aluBody_keeps | apply outKeeps_next
    | dsimp only

theorem execAbs_keeps {s0 : State} (p : Nat) (s : State) (h_s : Keeps s0 s) : OutKeeps s0 (execAbs p s) := by
  unfold execAbs
  repeat' first
    | with_reducible first
        | intro _ | assumption | apply State.runInstr_keeps | apply aluBody_keeps | apply outKeeps_next
    | dsimp only

theorem execMul_keeps {s0 : State} (p : Nat) (s : State) (h_s : Keeps s0 s) : OutKeeps s0 (execMul p s) := by
  unfold execMul
  repeat' first
    | with_reducible first
        | intro _ | assumption | apply State.runInstr_keeps | apply aluBody_keeps | apply outKeeps_next
    | dsimp only

theorem execMuld_keeps {s0 : State} (p : Nat) (s : State) (h_s : Keeps s0 s) :
    OutKeeps s0 (execMuld p s) := by
  unfold execMuld
  repeat' first
    | with_reducible first
        | intro _ | assumption | apply State.runInstr_keeps | apply aluBody_keeps | apply outKeeps_next
    | dsimp only

theorem execDiv_keeps {s0 : State} (p : Nat) (s : State) (h_s : Keeps s0 s) : OutKeeps s0 (execDiv p s) := by
  unfold execDiv
  repeat' first
    | with_reducible first
        | intro _ | assumption | apply State.runInstr_keeps | apply aluBody_keeps | apply outKeeps_next
    | dsimp only

theorem execRem_keeps {s0 : State} (p : Nat) (s : State) (h_s : Keeps s0 s) : OutKeeps s0 (execRem p s) := by
  unfold execRem
  repeat' first
    | with_reducible first
        | intro _ | assumption | apply State.runInstr_keeps | apply aluBody_keeps | apply outKeeps_next
    | dsimp only

theorem execDivu_keeps {s0 : State} (p : Nat) (s : State) (h_s : Keeps s0 s) :
    OutKeeps s0 (execDivu p s) := by
  unfold execDivu
  repeat' first
    | with_reducible first
        | intro _ | assumption | apply State.runInstr_keeps | apply aluBody_keeps | apply outKeeps_next
    | dsimp only

theorem execRemu_keeps {s0 : State} (p : Nat) (s : State) (h_s : Keeps s0 s) :
    OutKeeps s0 (execRemu p s) := by
  unfold execRemu
  repeat' first
    | with_reducible first
        | intro _ | assumption | apply State.runInstr_keeps | apply aluBody_keeps | apply outKeeps_next
    | dsimp only

theorem execMin_keeps {s0 : State} (p : Nat) (s : State) (h_s : Keeps s0 s) : OutKeeps s0 (execMin p s) := by
  unfold execMin
  repeat' first
    | with_reducible first
        | intro _ | assumption | apply State.runInstr_keeps | apply aluBody_keeps | apply outKeeps_next
    | dsimp only

theorem execMax_keeps {s0 : State} (p : Nat) (s : State) (h_s : Keeps s0 s) : OutKeeps s0 (execMax p s) := by
  unfold execMax
  repeat' first
    | with_reducible first
        | intro _ | assumption | apply State.runInstr_keeps | apply aluBody_keeps | apply outKeeps_next
    | dsimp only

theorem execMacd_keeps {s0 : State} (p : Nat) (s : State) (h_s : Keeps s0 s) :
    OutKeeps s0 (execMacd p s) := by
  unfold execMacd
  repeat' first
    | with_reducible first
        | intro _ | assumption | apply State.runInstr_keeps | apply aluBody_keeps | apply outKeeps_next
    | dsimp only

theorem execAnd_keeps {s0 : State} (p : Nat) (s : State) (h_s : Keeps s0 s) : OutKeeps s0 (execAnd p s) := by
  unfold execAnd
  repeat' first
    | with_reducible first
        | intro _ | assumption | apply State.runInstr_keeps | apply aluBody_keeps | apply outKeeps_next
    | dsimp only

theorem execOr_keeps {s0 : State} (p : Nat) (s : State) (h_s : Keeps s0 s) : OutKeeps s0 (execOr p s) := by
  unfold execOr
  repeat' first
    | with_reducible first
        | intro _ | assumption | apply State.runInstr_keeps | apply aluBody_keeps | apply outKeeps_next
    | dsimp only

theorem execXor_keeps {s0 : State} (p : Nat) (s : State) (h_s : Keeps s0 s) : OutKeeps s0 (execXor p s) := by
  unfold execXor
  repeat' first
    | with_reducible first
        | intro _ | assumption | apply State.runInstr_keeps | apply aluBody_keeps | apply outKeeps_next
    | dsimp only

theorem execAndn_keeps {s0 : State} (p : Nat) (s : State) (h_s : Keeps s0 s) :
    OutKeeps s0 (execAndn p s) := by
  unfold execAndn
  repeat' first
    | with_reducible first
        | intro _ | assumption | apply State.runInstr_keeps | apply aluBody_keeps | apply outKeeps_next
    | dsimp only

theorem execNot_keeps {s0 : State} (p : Nat) (s : State) (h_s : Keeps s0 s) : OutKeeps s0 (execNot p s) := by
  unfold execNot
  repeat' first
    | with_reducible first
        | intro _ | assumption | apply State.runInstr_keeps | apply aluBody_keeps | apply outKeeps_next
    | dsimp only

theorem execShl_keeps {s0 : State} (p : Nat) (s : State) (h_s : Keeps s0 s) : OutKeeps s0 (execShl p s) := by
  unfold execShl
  repeat' first
    | with_reducible first
        | intro _ | assumption | apply State.runInstr_keeps | apply aluBody_keeps | apply outKeeps_next
    | dsimp only

theorem execShr_keeps {s0 : State} (p : Nat) (s : State) (h_s : Keeps s0 s) : OutKeeps s0 (execShr p s) := by
  unfold execShr
  repeat' first
    | with_reducible first
        | intro _ | assumption | apply State.runInstr_keeps | apply aluBody_keeps | apply outKeeps_next
    | dsimp only

theorem execSar_keeps {s0 : State} (p : Nat) (s : State) (h_s : Keeps s0 s) : OutKeeps s0 (execSar p s) := by
  unfold execSar
  repeat' first
    | with_reducible first
        | intro _ | assumption | apply State.runInstr_keeps | apply aluBody_keeps | apply outKeeps_next
    | dsimp only

theorem execRol_keeps {s0 : State} (p : Nat) (s : State) (h_s : Keeps s0 s) : OutKeeps s0 (execRol p s) := by
  unfold execRol
  repeat' first
    | with_reducible first
        | intro _ | assumption | apply State.runInstr_keeps | apply aluBody_keeps | apply outKeeps_next
    | dsimp only

theorem execExt_keeps {s0 : State} (p : Nat) (s : State) (h_s : Keeps s0 s) : OutKeeps s0 (execExt p s) := by
  unfold execExt
  repeat' first
    | with_reducible first
        | intro _ | assumption | apply State.runInstr_keeps | apply aluBody_keeps | apply outKeeps_next
    | dsimp only

theorem execExts_keeps {s0 : State} (p : Nat) (s : State) (h_s : Keeps s0 s) :
    OutKeeps s0 (execExts p s) := by
  unfold execExts
  repeat' first
    | with_reducible first
        | intro _ | assumption | apply State.runInstr_keeps | apply aluBody_keeps | apply outKeeps_next
    | dsimp only

theorem execIns_keeps {s0 : State} (p : Nat) (s : State) (h_s : Keeps s0 s) : OutKeeps s0 (execIns p s) := by
  unfold execIns
  repeat' first
    | with_reducible first
        | intro _ | assumption | apply State.runInstr_keeps | apply aluBody_keeps | apply outKeeps_next
    | dsimp only

theorem execHadd_keeps {s0 : State} (p : Nat) (s : State) (h_s : Keeps s0 s) :
    OutKeeps s0 (execHadd p s) := by
  unfold execHadd
  repeat' first
    | with_reducible first
        | intro _ | assumption | apply State.runInstr_keeps | apply aluBody_keeps | apply outKeeps_next
    | dsimp only

theorem execHsub_keeps {s0 : State} (p : Nat) (s : State) (h_s : Keeps s0 s) :
    OutKeeps s0 (execHsub p s) := by
  unfold execHsub
  repeat' first
    | with_reducible first
        | intro _ | assumption | apply State.runInstr_keeps | apply aluBody_keeps | apply outKeeps_next
    | dsimp only

theorem execHmul_keeps {s0 : State} (p : Nat) (s : State) (h_s : Keeps s0 s) :
    OutKeeps s0 (execHmul p s) := by
  unfold execHmul
  repeat' first
    | with_reducible first
        | intro _ | assumption | apply State.runInstr_keeps | apply aluBody_keeps | apply outKeeps_next
    | dsimp only

theorem execHpack_keeps {s0 : State} (p : Nat) (s : State) (h_s : Keeps s0 s) :
    OutKeeps s0 (execHpack p s) := by
  unfold execHpack
  repeat' first
    | with_reducible first
        | intro _ | assumption | apply State.runInstr_keeps | apply aluBody_keeps | apply outKeeps_next
    | dsimp only

theorem execHhi_keeps {s0 : State} (p : Nat) (s : State) (h_s : Keeps s0 s) : OutKeeps s0 (execHhi p s) := by
  unfold execHhi
  repeat' first
    | with_reducible first
        | intro _ | assumption | apply State.runInstr_keeps | apply aluBody_keeps | apply outKeeps_next
    | dsimp only

theorem execHlo_keeps {s0 : State} (p : Nat) (s : State) (h_s : Keeps s0 s) : OutKeeps s0 (execHlo p s) := by
  unfold execHlo
  repeat' first
    | with_reducible first
        | intro _ | assumption | apply State.runInstr_keeps | apply aluBody_keeps | apply outKeeps_next
    | dsimp only

theorem execHswp_keeps {s0 : State} (p : Nat) (s : State) (h_s : Keeps s0 s) :
    OutKeeps s0 (execHswp p s) := by
  unfold execHswp
  repeat' first
    | with_reducible first
        | intro _ | assumption | apply State.runInstr_keeps | apply aluBody_keeps | apply outKeeps_next
    | dsimp only

theorem execDmov_keeps {s0 : State} (p : Nat) (s : State) (h_s : Keeps s0 s) :
    OutKeeps s0 (execDmov p s) := by
  unfold execDmov
  repeat' first
    | with_reducible first
        | intro _ | assumption | apply State.runInstr_keeps | apply aluBody_keeps | apply outKeeps_next
    | dsimp only

theorem execDadd_keeps {s0 : State} (p : Nat) (s : State) (h_s : Keeps s0 s) :
    OutKeeps s0 (execDadd p s) := by
  unfold execDadd
  repeat' first
    | with_reducible first
        | intro _ | assumption | apply State.runInstr_keeps | apply aluBody_keeps | apply outKeeps_next
    | dsimp only

theorem execDsub_keeps {s0 : State} (p : Nat) (s : State) (h_s : Keeps s0 s) :
    OutKeeps s0 (execDsub p s) := by
  unfold execDsub
  repeat' first
    | with_reducible first
        | intro _ | assumption | apply State.runInstr_keeps | apply aluBody_keeps | apply outKeeps_next
    | dsimp only

theorem execDneg_keeps {s0 : State} (p : Nat) (s : State) (h_s : Keeps s0 s) :
    OutKeeps s0 (execDneg p s) := by
  unfold execDneg
  repeat' first
    | with_reducible first
        | intro _ | assumption | apply State.runInstr_keeps | apply aluBody_keeps | apply outKeeps_next
    | dsimp only

theorem execDcvt_keeps {s0 : State} (p : Nat) (s : State) (h_s : Keeps s0 s) :
    OutKeeps s0 (execDcvt p s) := by
  unfold execDcvt
  repeat' first
    | with_reducible first
        | intro _ | assumption | apply State.runInstr_keeps | apply aluBody_keeps | apply outKeeps_next
    | dsimp only

theorem execDsat_keeps {s0 : State} (p : Nat) (s : State) (h_s : Keeps s0 s) :
    OutKeeps s0 (execDsat p s) := by
  unfold execDsat
  repeat' first
    | with_reducible first
        | intro _ | assumption | apply State.runInstr_keeps | apply aluBody_keeps | apply outKeeps_next
    | dsimp only

theorem execDsar_keeps {s0 : State} (p : Nat) (s : State) (h_s : Keeps s0 s) :
    OutKeeps s0 (execDsar p s) := by
  unfold execDsar
  repeat' first
    | with_reducible first
        | intro _ | assumption | apply State.runInstr_keeps | apply aluBody_keeps | apply outKeeps_next
    | dsimp only

theorem execDcmp_keeps {s0 : State} (p : Nat) (s : State) (h_s : Keeps s0 s) :
    OutKeeps s0 (execDcmp p s) := by
  unfold execDcmp
  repeat' first
    | with_reducible first
        | intro _ | assumption | apply State.runInstr_keeps | apply aluBody_keeps | apply outKeeps_next
    | dsimp only

theorem execOget_keeps {s0 : State} (p : Nat) (s : State) (h_s : Keeps s0 s) :
    OutKeeps s0 (execOget p s) := by
  unfold execOget
  repeat' first
    | with_reducible first
        | assumption | apply State.runInstr_keeps | apply ogetBody_keeps | apply outKeeps_next
    | dsimp only

theorem execOput_keeps {s0 : State} (p : Nat) (s : State) (h_s : Keeps s0 s) :
    OutKeeps s0 (execOput p s) := by
  unfold execOput
  repeat' first
    | with_reducible first
        | assumption | apply State.runInstr_keeps | apply oputBody_keeps | apply outKeeps_next
    | dsimp only

theorem execBerlen_keeps {s0 : State} (p : Nat) (s : State) (h_s : Keeps s0 s) :
    OutKeeps s0 (execBerlen p s) := by
  unfold execBerlen
  repeat' first
    | with_reducible first
        | assumption | apply State.runInstr_keeps | apply berlenBody_keeps | apply outKeeps_next
    | dsimp only

theorem execOcnt_keeps {s0 : State} (p : Nat) (s : State) (h_s : Keeps s0 s) :
    OutKeeps s0 (execOcnt p s) := by
  unfold execOcnt
  repeat' first
    | with_reducible first
        | intro _ | assumption | apply State.runInstr_keeps | apply aluBody_keeps | apply outKeeps_next
    | dsimp only

end Sys2Proof.Machine
end

