-- ==== Sys2Proof/Laws/State.lean ====
section
/-! SUPPORT. What the operations on registers, time and memory leave of each field of State: one lemma per field
per operation. -/

namespace Sys2Proof.Machine

@[simp] theorem State.wr_clock (s : State) (off : Nat) (v : Word32) : (s.wr off v).clock = s.clock := rfl
@[simp] theorem State.wr_regs (s : State) (off : Nat) (v : Word32) : (s.wr off v).regs = tset s.regs off v := rfl
@[simp] theorem State.wr_dual (s : State) (off : Nat) (v : Word32) : (s.wr off v).dual = terase s.dual off := rfl
@[simp] theorem State.wr_hiLatch (s : State) (off : Nat) (v : Word32) : (s.wr off v).hiLatch = s.hiLatch := rfl
@[simp] theorem State.wr_topUnmapped (s : State) (off : Nat) (v : Word32) : (s.wr off v).topUnmapped = s.topUnmapped := rfl
@[simp] theorem State.wr_topNarrow (s : State) (off : Nat) (v : Word32) : (s.wr off v).topNarrow = s.topNarrow := rfl
@[simp] theorem State.wr_freeCtr (s : State) (off : Nat) (v : Word32) : (s.wr off v).freeCtr = s.freeCtr := rfl
@[simp] theorem State.wr_pstate (s : State) (off : Nat) (v : Word32) : (s.wr off v).pstate = s.pstate := rfl
@[simp] theorem State.wr_resetPend (s : State) (off : Nat) (v : Word32) : (s.wr off v).resetPend = s.resetPend := rfl
@[simp] theorem State.wr_time (s : State) (off : Nat) (v : Word32) : (s.wr off v).time = s.time := rfl
@[simp] theorem State.wr_mem (s : State) (off : Nat) (v : Word32) : (s.wr off v).mem = s.mem := rfl
@[simp] theorem State.wr_ev (s : State) (off : Nat) (v : Word32) : (s.wr off v).ev = s.ev := rfl
@[simp] theorem State.wr_flt (s : State) (off : Nat) (v : Word32) : (s.wr off v).flt = s.flt := rfl
@[simp] theorem State.wr_procs (s : State) (off : Nat) (v : Word32) : (s.wr off v).procs = s.procs := rfl
@[simp] theorem State.wr_key (s : State) (off : Nat) (v : Word32) : (s.wr off v).key = s.key := rfl
@[simp] theorem State.wr_data (s : State) (off : Nat) (v : Word32) : (s.wr off v).data = s.data := rfl
@[simp] theorem State.wr_jobs (s : State) (off : Nat) (v : Word32) : (s.wr off v).jobs = s.jobs := rfl
@[simp] theorem State.wr_ve (s : State) (off : Nat) (v : Word32) : (s.wr off v).ve = s.ve := rfl
@[simp] theorem State.wr_rosin (s : State) (off : Nat) (v : Word32) : (s.wr off v).rosin = s.rosin := rfl
@[simp] theorem State.wr_die (s : State) (off : Nat) (v : Word32) : (s.wr off v).die = s.die := rfl
@[simp] theorem State.wr_led (s : State) (off : Nat) (v : Word32) : (s.wr off v).led = s.led := rfl
@[simp] theorem State.wr_tamp (s : State) (off : Nat) (v : Word32) : (s.wr off v).tamp = s.tamp := rfl
@[simp] theorem State.wr_wdog (s : State) (off : Nat) (v : Word32) : (s.wr off v).wdog = s.wdog := rfl
@[simp] theorem State.wr_pwr (s : State) (off : Nat) (v : Word32) : (s.wr off v).pwr = s.pwr := rfl
@[simp] theorem State.wr_lcs (s : State) (off : Nat) (v : Word32) : (s.wr off v).lcs = s.lcs := rfl
@[simp] theorem State.wr_pick (s : State) (off : Nat) (v : Word32) : (s.wr off v).pick = s.pick := rfl
@[simp] theorem State.wr_card (s : State) (off : Nat) (v : Word32) : (s.wr off v).card = s.card := rfl
@[simp] theorem State.wr_intcHeld (s : State) (off : Nat) (v : Word32) : (s.wr off v).intcHeld = s.intcHeld := rfl
@[simp] theorem State.wr_holdoffs (s : State) (off : Nat) (v : Word32) : (s.wr off v).holdoffs = s.holdoffs := rfl
@[simp] theorem State.wr_pending (s : State) (off : Nat) (v : Word32) : (s.wr off v).pending = s.pending := rfl

@[simp] theorem State.put_clock (s : State) (f : Fld) (v : Nat) : (s.put f v).clock = s.clock := rfl
@[simp] theorem State.put_hiLatch (s : State) (f : Fld) (v : Nat) : (s.put f v).hiLatch = s.hiLatch := rfl
@[simp] theorem State.put_topUnmapped (s : State) (f : Fld) (v : Nat) : (s.put f v).topUnmapped = s.topUnmapped := rfl
@[simp] theorem State.put_topNarrow (s : State) (f : Fld) (v : Nat) : (s.put f v).topNarrow = s.topNarrow := rfl
@[simp] theorem State.put_freeCtr (s : State) (f : Fld) (v : Nat) : (s.put f v).freeCtr = s.freeCtr := rfl
@[simp] theorem State.put_pstate (s : State) (f : Fld) (v : Nat) : (s.put f v).pstate = s.pstate := rfl
@[simp] theorem State.put_resetPend (s : State) (f : Fld) (v : Nat) : (s.put f v).resetPend = s.resetPend := rfl
@[simp] theorem State.put_time (s : State) (f : Fld) (v : Nat) : (s.put f v).time = s.time := rfl
@[simp] theorem State.put_mem (s : State) (f : Fld) (v : Nat) : (s.put f v).mem = s.mem := rfl
@[simp] theorem State.put_ev (s : State) (f : Fld) (v : Nat) : (s.put f v).ev = s.ev := rfl
@[simp] theorem State.put_flt (s : State) (f : Fld) (v : Nat) : (s.put f v).flt = s.flt := rfl
@[simp] theorem State.put_procs (s : State) (f : Fld) (v : Nat) : (s.put f v).procs = s.procs := rfl
@[simp] theorem State.put_key (s : State) (f : Fld) (v : Nat) : (s.put f v).key = s.key := rfl
@[simp] theorem State.put_data (s : State) (f : Fld) (v : Nat) : (s.put f v).data = s.data := rfl
@[simp] theorem State.put_jobs (s : State) (f : Fld) (v : Nat) : (s.put f v).jobs = s.jobs := rfl
@[simp] theorem State.put_ve (s : State) (f : Fld) (v : Nat) : (s.put f v).ve = s.ve := rfl
@[simp] theorem State.put_rosin (s : State) (f : Fld) (v : Nat) : (s.put f v).rosin = s.rosin := rfl
@[simp] theorem State.put_die (s : State) (f : Fld) (v : Nat) : (s.put f v).die = s.die := rfl
@[simp] theorem State.put_led (s : State) (f : Fld) (v : Nat) : (s.put f v).led = s.led := rfl
@[simp] theorem State.put_tamp (s : State) (f : Fld) (v : Nat) : (s.put f v).tamp = s.tamp := rfl
@[simp] theorem State.put_wdog (s : State) (f : Fld) (v : Nat) : (s.put f v).wdog = s.wdog := rfl
@[simp] theorem State.put_pwr (s : State) (f : Fld) (v : Nat) : (s.put f v).pwr = s.pwr := rfl
@[simp] theorem State.put_lcs (s : State) (f : Fld) (v : Nat) : (s.put f v).lcs = s.lcs := rfl
@[simp] theorem State.put_pick (s : State) (f : Fld) (v : Nat) : (s.put f v).pick = s.pick := rfl
@[simp] theorem State.put_card (s : State) (f : Fld) (v : Nat) : (s.put f v).card = s.card := rfl
@[simp] theorem State.put_intcHeld (s : State) (f : Fld) (v : Nat) : (s.put f v).intcHeld = s.intcHeld := rfl
@[simp] theorem State.put_holdoffs (s : State) (f : Fld) (v : Nat) : (s.put f v).holdoffs = s.holdoffs := rfl
@[simp] theorem State.put_pending (s : State) (f : Fld) (v : Nat) : (s.put f v).pending = s.pending := rfl

@[simp] theorem State.pass_clock (s : State) (n : Nat) : (s.pass n).clock = s.clock + n := rfl
@[simp] theorem State.pass_regs (s : State) (n : Nat) : (s.pass n).regs = s.regs := rfl
@[simp] theorem State.pass_dual (s : State) (n : Nat) : (s.pass n).dual = s.dual := rfl
@[simp] theorem State.pass_hiLatch (s : State) (n : Nat) : (s.pass n).hiLatch = s.hiLatch := rfl
@[simp] theorem State.pass_topUnmapped (s : State) (n : Nat) : (s.pass n).topUnmapped = s.topUnmapped := rfl
@[simp] theorem State.pass_topNarrow (s : State) (n : Nat) : (s.pass n).topNarrow = s.topNarrow := rfl
@[simp] theorem State.pass_freeCtr (s : State) (n : Nat) : (s.pass n).freeCtr = s.freeCtr := rfl
@[simp] theorem State.pass_pstate (s : State) (n : Nat) : (s.pass n).pstate = s.pstate := rfl
@[simp] theorem State.pass_resetPend (s : State) (n : Nat) : (s.pass n).resetPend = s.resetPend := rfl
@[simp] theorem State.pass_mem (s : State) (n : Nat) : (s.pass n).mem = s.mem := rfl
@[simp] theorem State.pass_ev (s : State) (n : Nat) : (s.pass n).ev = s.ev := rfl
@[simp] theorem State.pass_flt (s : State) (n : Nat) : (s.pass n).flt = s.flt := rfl
@[simp] theorem State.pass_procs (s : State) (n : Nat) : (s.pass n).procs = s.procs := rfl
@[simp] theorem State.pass_key (s : State) (n : Nat) : (s.pass n).key = s.key := rfl
@[simp] theorem State.pass_data (s : State) (n : Nat) : (s.pass n).data = s.data := rfl
@[simp] theorem State.pass_jobs (s : State) (n : Nat) : (s.pass n).jobs = s.jobs := rfl
@[simp] theorem State.pass_ve (s : State) (n : Nat) : (s.pass n).ve = s.ve := rfl
@[simp] theorem State.pass_rosin (s : State) (n : Nat) : (s.pass n).rosin = s.rosin := rfl
@[simp] theorem State.pass_die (s : State) (n : Nat) : (s.pass n).die = s.die := rfl
@[simp] theorem State.pass_led (s : State) (n : Nat) : (s.pass n).led = s.led := rfl
@[simp] theorem State.pass_tamp (s : State) (n : Nat) : (s.pass n).tamp = s.tamp := rfl
@[simp] theorem State.pass_wdog (s : State) (n : Nat) : (s.pass n).wdog = s.wdog := rfl
@[simp] theorem State.pass_pwr (s : State) (n : Nat) : (s.pass n).pwr = s.pwr := rfl
@[simp] theorem State.pass_lcs (s : State) (n : Nat) : (s.pass n).lcs = s.lcs := rfl
@[simp] theorem State.pass_pick (s : State) (n : Nat) : (s.pass n).pick = s.pick := rfl
@[simp] theorem State.pass_card (s : State) (n : Nat) : (s.pass n).card = s.card := rfl
@[simp] theorem State.pass_intcHeld (s : State) (n : Nat) : (s.pass n).intcHeld = s.intcHeld := rfl
@[simp] theorem State.pass_holdoffs (s : State) (n : Nat) : (s.pass n).holdoffs = s.holdoffs := rfl
@[simp] theorem State.pass_pending (s : State) (n : Nat) : (s.pass n).pending = s.pending := rfl

@[simp] theorem State.passTo_clock (s : State) (c : Nat) : (s.passTo c).clock = s.clock + (c - s.clock) := rfl
@[simp] theorem State.passTo_regs (s : State) (c : Nat) : (s.passTo c).regs = s.regs := rfl
@[simp] theorem State.passTo_dual (s : State) (c : Nat) : (s.passTo c).dual = s.dual := rfl
@[simp] theorem State.passTo_hiLatch (s : State) (c : Nat) : (s.passTo c).hiLatch = s.hiLatch := rfl
@[simp] theorem State.passTo_topUnmapped (s : State) (c : Nat) : (s.passTo c).topUnmapped = s.topUnmapped := rfl
@[simp] theorem State.passTo_topNarrow (s : State) (c : Nat) : (s.passTo c).topNarrow = s.topNarrow := rfl
@[simp] theorem State.passTo_freeCtr (s : State) (c : Nat) : (s.passTo c).freeCtr = s.freeCtr := rfl
@[simp] theorem State.passTo_pstate (s : State) (c : Nat) : (s.passTo c).pstate = s.pstate := rfl
@[simp] theorem State.passTo_resetPend (s : State) (c : Nat) : (s.passTo c).resetPend = s.resetPend := rfl
@[simp] theorem State.passTo_mem (s : State) (c : Nat) : (s.passTo c).mem = s.mem := rfl
@[simp] theorem State.passTo_ev (s : State) (c : Nat) : (s.passTo c).ev = s.ev := rfl
@[simp] theorem State.passTo_flt (s : State) (c : Nat) : (s.passTo c).flt = s.flt := rfl
@[simp] theorem State.passTo_procs (s : State) (c : Nat) : (s.passTo c).procs = s.procs := rfl
@[simp] theorem State.passTo_key (s : State) (c : Nat) : (s.passTo c).key = s.key := rfl
@[simp] theorem State.passTo_data (s : State) (c : Nat) : (s.passTo c).data = s.data := rfl
@[simp] theorem State.passTo_jobs (s : State) (c : Nat) : (s.passTo c).jobs = s.jobs := rfl
@[simp] theorem State.passTo_ve (s : State) (c : Nat) : (s.passTo c).ve = s.ve := rfl
@[simp] theorem State.passTo_rosin (s : State) (c : Nat) : (s.passTo c).rosin = s.rosin := rfl
@[simp] theorem State.passTo_die (s : State) (c : Nat) : (s.passTo c).die = s.die := rfl
@[simp] theorem State.passTo_led (s : State) (c : Nat) : (s.passTo c).led = s.led := rfl
@[simp] theorem State.passTo_tamp (s : State) (c : Nat) : (s.passTo c).tamp = s.tamp := rfl
@[simp] theorem State.passTo_wdog (s : State) (c : Nat) : (s.passTo c).wdog = s.wdog := rfl
@[simp] theorem State.passTo_pwr (s : State) (c : Nat) : (s.passTo c).pwr = s.pwr := rfl
@[simp] theorem State.passTo_lcs (s : State) (c : Nat) : (s.passTo c).lcs = s.lcs := rfl
@[simp] theorem State.passTo_pick (s : State) (c : Nat) : (s.passTo c).pick = s.pick := rfl
@[simp] theorem State.passTo_card (s : State) (c : Nat) : (s.passTo c).card = s.card := rfl
@[simp] theorem State.passTo_intcHeld (s : State) (c : Nat) : (s.passTo c).intcHeld = s.intcHeld := rfl
@[simp] theorem State.passTo_holdoffs (s : State) (c : Nat) : (s.passTo c).holdoffs = s.holdoffs := rfl
@[simp] theorem State.passTo_pending (s : State) (c : Nat) : (s.passTo c).pending = s.pending := rfl

@[simp] theorem State.poke_clock (s : State) (a : Nat) (bs : Bytes) : (s.poke a bs).clock = s.clock := rfl
@[simp] theorem State.poke_regs (s : State) (a : Nat) (bs : Bytes) : (s.poke a bs).regs = s.regs := rfl
@[simp] theorem State.poke_dual (s : State) (a : Nat) (bs : Bytes) : (s.poke a bs).dual = s.dual := rfl
@[simp] theorem State.poke_hiLatch (s : State) (a : Nat) (bs : Bytes) : (s.poke a bs).hiLatch = s.hiLatch := rfl
@[simp] theorem State.poke_topUnmapped (s : State) (a : Nat) (bs : Bytes) : (s.poke a bs).topUnmapped = s.topUnmapped := rfl
@[simp] theorem State.poke_topNarrow (s : State) (a : Nat) (bs : Bytes) : (s.poke a bs).topNarrow = s.topNarrow := rfl
@[simp] theorem State.poke_freeCtr (s : State) (a : Nat) (bs : Bytes) : (s.poke a bs).freeCtr = s.freeCtr := rfl
@[simp] theorem State.poke_pstate (s : State) (a : Nat) (bs : Bytes) : (s.poke a bs).pstate = s.pstate := rfl
@[simp] theorem State.poke_resetPend (s : State) (a : Nat) (bs : Bytes) : (s.poke a bs).resetPend = s.resetPend := rfl
@[simp] theorem State.poke_time (s : State) (a : Nat) (bs : Bytes) : (s.poke a bs).time = s.time := rfl
@[simp] theorem State.poke_mem (s : State) (a : Nat) (bs : Bytes) : (s.poke a bs).mem = { s.mem with cells := cellsWrite s.mem.cells a bs } := rfl
@[simp] theorem State.poke_ev (s : State) (a : Nat) (bs : Bytes) : (s.poke a bs).ev = s.ev := rfl
@[simp] theorem State.poke_flt (s : State) (a : Nat) (bs : Bytes) : (s.poke a bs).flt = s.flt := rfl
@[simp] theorem State.poke_procs (s : State) (a : Nat) (bs : Bytes) : (s.poke a bs).procs = s.procs := rfl
@[simp] theorem State.poke_key (s : State) (a : Nat) (bs : Bytes) : (s.poke a bs).key = s.key := rfl
@[simp] theorem State.poke_data (s : State) (a : Nat) (bs : Bytes) : (s.poke a bs).data = s.data := rfl
@[simp] theorem State.poke_jobs (s : State) (a : Nat) (bs : Bytes) : (s.poke a bs).jobs = s.jobs := rfl
@[simp] theorem State.poke_ve (s : State) (a : Nat) (bs : Bytes) : (s.poke a bs).ve = s.ve := rfl
@[simp] theorem State.poke_rosin (s : State) (a : Nat) (bs : Bytes) : (s.poke a bs).rosin = s.rosin := rfl
@[simp] theorem State.poke_die (s : State) (a : Nat) (bs : Bytes) : (s.poke a bs).die = s.die := rfl
@[simp] theorem State.poke_led (s : State) (a : Nat) (bs : Bytes) : (s.poke a bs).led = s.led := rfl
@[simp] theorem State.poke_tamp (s : State) (a : Nat) (bs : Bytes) : (s.poke a bs).tamp = s.tamp := rfl
@[simp] theorem State.poke_wdog (s : State) (a : Nat) (bs : Bytes) : (s.poke a bs).wdog = s.wdog := rfl
@[simp] theorem State.poke_pwr (s : State) (a : Nat) (bs : Bytes) : (s.poke a bs).pwr = s.pwr := rfl
@[simp] theorem State.poke_lcs (s : State) (a : Nat) (bs : Bytes) : (s.poke a bs).lcs = s.lcs := rfl
@[simp] theorem State.poke_pick (s : State) (a : Nat) (bs : Bytes) : (s.poke a bs).pick = s.pick := rfl
@[simp] theorem State.poke_card (s : State) (a : Nat) (bs : Bytes) : (s.poke a bs).card = s.card := rfl
@[simp] theorem State.poke_intcHeld (s : State) (a : Nat) (bs : Bytes) : (s.poke a bs).intcHeld = s.intcHeld := rfl
@[simp] theorem State.poke_holdoffs (s : State) (a : Nat) (bs : Bytes) : (s.poke a bs).holdoffs = s.holdoffs := rfl
@[simp] theorem State.poke_pending (s : State) (a : Nat) (bs : Bytes) : (s.poke a bs).pending = s.pending := rfl

@[simp] theorem State.hostWrite_clock (s : State) (a : Nat) (bs : Bytes) : (s.hostWrite a bs).clock = s.clock := rfl
@[simp] theorem State.hostWrite_regs (s : State) (a : Nat) (bs : Bytes) : (s.hostWrite a bs).regs = s.regs := rfl
@[simp] theorem State.hostWrite_dual (s : State) (a : Nat) (bs : Bytes) : (s.hostWrite a bs).dual = s.dual := rfl
@[simp] theorem State.hostWrite_hiLatch (s : State) (a : Nat) (bs : Bytes) : (s.hostWrite a bs).hiLatch = s.hiLatch := rfl
@[simp] theorem State.hostWrite_topUnmapped (s : State) (a : Nat) (bs : Bytes) : (s.hostWrite a bs).topUnmapped = s.topUnmapped := rfl
@[simp] theorem State.hostWrite_topNarrow (s : State) (a : Nat) (bs : Bytes) : (s.hostWrite a bs).topNarrow = s.topNarrow := rfl
@[simp] theorem State.hostWrite_freeCtr (s : State) (a : Nat) (bs : Bytes) : (s.hostWrite a bs).freeCtr = s.freeCtr := rfl
@[simp] theorem State.hostWrite_pstate (s : State) (a : Nat) (bs : Bytes) : (s.hostWrite a bs).pstate = s.pstate := rfl
@[simp] theorem State.hostWrite_resetPend (s : State) (a : Nat) (bs : Bytes) : (s.hostWrite a bs).resetPend = s.resetPend := rfl
@[simp] theorem State.hostWrite_time (s : State) (a : Nat) (bs : Bytes) : (s.hostWrite a bs).time = s.time := rfl
@[simp] theorem State.hostWrite_mem (s : State) (a : Nat) (bs : Bytes) : (s.hostWrite a bs).mem = { s.mem with host := cellsWrite s.mem.host a bs } := rfl
@[simp] theorem State.hostWrite_ev (s : State) (a : Nat) (bs : Bytes) : (s.hostWrite a bs).ev = s.ev := rfl
@[simp] theorem State.hostWrite_flt (s : State) (a : Nat) (bs : Bytes) : (s.hostWrite a bs).flt = s.flt := rfl
@[simp] theorem State.hostWrite_procs (s : State) (a : Nat) (bs : Bytes) : (s.hostWrite a bs).procs = s.procs := rfl
@[simp] theorem State.hostWrite_key (s : State) (a : Nat) (bs : Bytes) : (s.hostWrite a bs).key = s.key := rfl
@[simp] theorem State.hostWrite_data (s : State) (a : Nat) (bs : Bytes) : (s.hostWrite a bs).data = s.data := rfl
@[simp] theorem State.hostWrite_jobs (s : State) (a : Nat) (bs : Bytes) : (s.hostWrite a bs).jobs = s.jobs := rfl
@[simp] theorem State.hostWrite_ve (s : State) (a : Nat) (bs : Bytes) : (s.hostWrite a bs).ve = s.ve := rfl
@[simp] theorem State.hostWrite_rosin (s : State) (a : Nat) (bs : Bytes) : (s.hostWrite a bs).rosin = s.rosin := rfl
@[simp] theorem State.hostWrite_die (s : State) (a : Nat) (bs : Bytes) : (s.hostWrite a bs).die = s.die := rfl
@[simp] theorem State.hostWrite_led (s : State) (a : Nat) (bs : Bytes) : (s.hostWrite a bs).led = s.led := rfl
@[simp] theorem State.hostWrite_tamp (s : State) (a : Nat) (bs : Bytes) : (s.hostWrite a bs).tamp = s.tamp := rfl
@[simp] theorem State.hostWrite_wdog (s : State) (a : Nat) (bs : Bytes) : (s.hostWrite a bs).wdog = s.wdog := rfl
@[simp] theorem State.hostWrite_pwr (s : State) (a : Nat) (bs : Bytes) : (s.hostWrite a bs).pwr = s.pwr := rfl
@[simp] theorem State.hostWrite_lcs (s : State) (a : Nat) (bs : Bytes) : (s.hostWrite a bs).lcs = s.lcs := rfl
@[simp] theorem State.hostWrite_pick (s : State) (a : Nat) (bs : Bytes) : (s.hostWrite a bs).pick = s.pick := rfl
@[simp] theorem State.hostWrite_card (s : State) (a : Nat) (bs : Bytes) : (s.hostWrite a bs).card = s.card := rfl
@[simp] theorem State.hostWrite_intcHeld (s : State) (a : Nat) (bs : Bytes) : (s.hostWrite a bs).intcHeld = s.intcHeld := rfl
@[simp] theorem State.hostWrite_holdoffs (s : State) (a : Nat) (bs : Bytes) : (s.hostWrite a bs).holdoffs = s.holdoffs := rfl
@[simp] theorem State.hostWrite_pending (s : State) (a : Nat) (bs : Bytes) : (s.hostWrite a bs).pending = s.pending := rfl

theorem State.inc_eq_put (s : State) (f : Fld) : s.inc f = s.put f (satAt f.max (s.get f + 1)) := rfl
theorem State.incBy_eq_put (s : State) (f : Fld) (n : Nat) : s.incBy f n = s.put f (satAt f.max (s.get f + n)) := rfl
theorem State.incWrap_eq_put (s : State) (f : Fld) : s.incWrap f = s.put f (s.get f + 1) := rfl
theorem State.putB_eq_put (s : State) (f : Fld) (b : Bool) : s.putB f b = s.put f (if b then 1 else 0) := rfl
theorem State.setIrq_eq_put (s : State) (i : Nat) : s.setIrq i = s.put (INTC_SRC_LEVEL i) 1 := rfl
theorem State.clrIrq_eq_put (s : State) (i : Nat) : s.clrIrq i = s.put (INTC_SRC_LEVEL i) 0 := rfl
theorem State.irq_eq_put (s : State) (i : Nat) (b : Bool) : s.irq i b = s.put (INTC_SRC_LEVEL i) (if b then 1 else 0) := rfl

end Sys2Proof.Machine
end

