-- ==== Sys2Proof/Laws/Registers.lean ====
section
/-! SUPPORT. Reading a table after an update of it, a word's field after one of its fields is set, a register or a
field after a hardware update. -/

namespace Sys2Proof.Machine

/-! ## Tables -/

theorem tget_terase {α : Type} (t : List (Nat × α)) (k j : Nat) :
    tget (terase t k) j = if j = k then none else tget t j := by
  induction t with
  | nil => simp [terase, tget]
  | cons e t ih =>
    obtain ⟨i, v⟩ := e
    by_cases hik : i = k
    · subst hik
      by_cases hj : j = i
      · subst hj; simpa [terase] using ih
      · simp [terase, tget, ih, hj, Ne.symm hj]
    · by_cases hij : i = j
      · subst hij; simp [terase, tget, hik]
      · by_cases hj : j = k
        · subst hj; simp [terase, tget, hik, ih]
        · simp [terase, tget, hik, hij, ih, hj]

theorem tget_tinsert {α : Type} (t : List (Nat × α)) (k j : Nat) (v : α) (h : tget t k = none) :
    tget (tinsert t k v) j = if j = k then some v else tget t j := by
  induction t with
  | nil => simp [tinsert, tget, eq_comm]
  | cons e t ih =>
    obtain ⟨i, w⟩ := e
    have hik : i ≠ k := by intro hc; subst hc; simp [tget] at h
    have ht : tget t k = none := by simpa [tget, hik] using h
    unfold tinsert
    split
    · by_cases hj : j = k
      · subst hj; simp [tget]
      · simp [tget, hj, Ne.symm hj]
    · by_cases hij : i = j
      · subst hij; simp [tget, hik]
      · simp [tget, hij, ih ht]

theorem tget_tset {α : Type} (t : List (Nat × α)) (k j : Nat) (v : α) :
    tget (tset t k v) j = if j = k then some v else tget t j := by
  unfold tset
  rw [tget_tinsert _ _ _ _ (by simp [tget_terase])]
  by_cases hj : j = k <;> simp [hj, tget_terase]

theorem tgetD_tset {α : Type} (t : List (Nat × α)) (k j : Nat) (v d : α) :
    tgetD (tset t k v) j d = if j = k then v else tgetD t j d := by
  unfold tgetD
  rw [tget_tset]
  by_cases hj : j = k <;> simp [hj]

theorem tgetD_tsetD {α : Type} [DecidableEq α] (t : List (Nat × α)) (k j : Nat) (v d : α) :
    tgetD (tsetD d t k v) j d = if j = k then v else tgetD t j d := by
  unfold tgetD tsetD
  by_cases hv : v = d
  · subst hv
    rw [if_pos rfl, tget_terase]
    by_cases hj : j = k <;> simp [hj]
  · rw [if_neg hv, tget_tinsert _ _ _ _ (by simp [tget_terase])]
    by_cases hj : j = k <;> simp [hj, tget_terase]

/-! ## Byte memories -/

theorem cellRead_cellWrite (m : List Host.Cell) (a c : Nat) (b : Byte) :
    cellRead (cellWrite m a b) c = if c = a then b else cellRead m c := tgetD_tsetD m a c b 0

/-- A byte outside the written ones reads as before. -/
theorem cellRead_cellsWrite_out (m : List Host.Cell) (a c : Nat) (bs : Bytes) (h : c < a ∨ a + bs.length ≤ c) :
    cellRead (cellsWrite m a bs) c = cellRead m c := by
  induction bs generalizing m a with
  | nil => rfl
  | cons b bs ih =>
    simp only [List.length_cons] at h
    unfold cellsWrite
    rw [ih _ _ (by omega), cellRead_cellWrite, if_neg (by omega)]

/-- A written byte reads as written. -/
theorem cellRead_cellsWrite_in (m : List Host.Cell) (a i : Nat) (bs : Bytes) (h : i < bs.length) :
    cellRead (cellsWrite m a bs) (a + i) = bs.getD i 0 := by
  induction bs generalizing m a i with
  | nil => simp at h
  | cons b bs ih =>
    unfold cellsWrite
    cases i with
    | zero => rw [cellRead_cellsWrite_out _ _ _ _ (by omega), cellRead_cellWrite]; simp
    | succ i =>
      simp only [List.length_cons] at h
      have := ih (cellWrite m a b) (a + 1) i (by omega)
      rw [show a + (i + 1) = a + 1 + i by omega, this]; simp

/-! ## Fields of words -/

theorem wordField_wordSet_self (w : Word32) (hi lo v : Nat) (h : lo ≤ hi) (h' : hi < 32) :
    wordField (wordSet w hi lo v) hi lo = v % 2 ^ (hi + 1 - lo) := by
  unfold wordField wordSet
  have hw := w.isLt
  generalize hn : hi + 1 - lo = n
  have hs : hi + 1 = lo + n := by omega
  rw [hs, BitVec.toNat_ofNat]
  have hA := Nat.pow_pos (n := lo) (show 0 < 2 by omega)
  have hB := Nat.pow_pos (n := n) (show 0 < 2 by omega)
  have e : (2 : Nat) ^ (lo + n) = 2 ^ lo * 2 ^ n := Nat.pow_add 2 lo n
  obtain ⟨k, hk⟩ : ∃ k, 32 = (lo + n) + k := ⟨32 - (lo + n), by omega⟩
  have hm : ∀ x, x % 2 ^ 32 / 2 ^ lo % 2 ^ n = x / 2 ^ lo % 2 ^ n := by
    intro x
    rw [hk, Nat.pow_add, e, Nat.mul_assoc, Nat.mod_mul_right_div_self, Nat.mod_mul_right_mod]
  rw [hm, e]
  have d : (2 ^ lo * 2 ^ n * (w.toNat / (2 ^ lo * 2 ^ n)) + 2 ^ lo * (v % 2 ^ n) + w.toNat % 2 ^ lo) / 2 ^ lo =
      2 ^ n * (w.toNat / (2 ^ lo * 2 ^ n)) + v % 2 ^ n := by
    rw [Nat.mul_assoc, ← Nat.mul_add, Nat.add_comm, Nat.add_mul_div_left _ _ hA,
      Nat.div_eq_of_lt (Nat.mod_lt _ hA), Nat.zero_add]
  rw [d, Nat.mul_add_mod, Nat.mod_mod]

/-- A field outside the one that is set keeps its value. -/
theorem wordField_wordSet_of_disjoint (w : Word32) (hi lo v hi' lo' : Nat) (h : lo ≤ hi)
    (h' : lo' ≤ hi') (h1' : hi' < 32) (hd : hi < lo' ∨ hi' < lo) :
    wordField (wordSet w hi lo v) hi' lo' = wordField w hi' lo' := by
  unfold wordField wordSet
  have hA := Nat.pow_pos (n := lo) (show 0 < 2 by omega)
  rw [BitVec.toNat_ofNat]
  generalize hn' : hi' + 1 - lo' = n'
  have e1 : (2 : Nat) ^ (hi + 1) = 2 ^ lo * 2 ^ (hi + 1 - lo) := by rw [← Nat.pow_add]; congr 1; omega
  have hlt : 2 ^ lo * (v % 2 ^ (hi + 1 - lo)) + w.toNat % 2 ^ lo < 2 ^ (hi + 1) := by
    have h2 := Nat.mod_lt v (Nat.pow_pos (n := hi + 1 - lo) (show 0 < 2 by omega))
    have h3 := Nat.mod_lt w.toNat hA
    rw [e1]
    calc 2 ^ lo * (v % 2 ^ (hi + 1 - lo)) + w.toNat % 2 ^ lo
        < 2 ^ lo * (v % 2 ^ (hi + 1 - lo)) + 2 ^ lo := by omega
      _ = 2 ^ lo * (v % 2 ^ (hi + 1 - lo) + 1) := by rw [Nat.mul_add, Nat.mul_one]
      _ ≤ 2 ^ lo * 2 ^ (hi + 1 - lo) := Nat.mul_le_mul_left _ h2
  obtain ⟨k, hk⟩ : ∃ k, 32 = (lo' + n') + k := ⟨32 - (lo' + n'), by omega⟩
  have hm : ∀ x, x % 2 ^ 32 / 2 ^ lo' % 2 ^ n' = x / 2 ^ lo' % 2 ^ n' := by
    intro x
    rw [hk, Nat.pow_add, Nat.pow_add, Nat.mul_assoc, Nat.mod_mul_right_div_self, Nat.mod_mul_right_mod]
  rw [hm, Nat.add_assoc]
  cases hd with
  | inl hd =>
    have e2 : (2 : Nat) ^ lo' = 2 ^ (hi + 1) * 2 ^ (lo' - (hi + 1)) := by rw [← Nat.pow_add]; congr 1; omega
    rw [e2, ← Nat.div_div_eq_div_mul, ← Nat.div_div_eq_div_mul, Nat.add_comm,
      Nat.add_mul_div_left _ _ (Nat.pow_pos (by omega)), Nat.div_eq_of_lt hlt, Nat.zero_add]
  | inr hd =>
    have e3 : (2 : Nat) ^ lo = 2 ^ (lo' + n') * 2 ^ (lo - (lo' + n')) := by rw [← Nat.pow_add]; congr 1; omega
    have key : ∀ y z, (2 ^ lo * y + z % 2 ^ lo) / 2 ^ lo' % 2 ^ n' = z / 2 ^ lo' % 2 ^ n' := by
      intro y z
      rw [← Nat.mod_mul_right_div_self, ← Nat.mod_mul_right_div_self z, ← Nat.pow_add]
      congr 1
      rw [e3, Nat.mul_assoc, Nat.mul_add_mod, Nat.mod_mul_right_mod]
    have := key (2 ^ (hi + 1 - lo) * (w.toNat / 2 ^ (hi + 1)) + v % 2 ^ (hi + 1 - lo)) w.toNat
    rw [Nat.mul_add, ← Nat.mul_assoc, ← e1, Nat.add_assoc] at this
    exact this

/-! ## Registers -/

theorem State.rd_put (s : State) (f : Fld) (v off : Nat) :
    (s.put f v).rd off = if off = f.off then wordSet (s.rd f.off) f.hi f.lo v else s.rd off := by
  unfold State.rd State.put
  dsimp only
  rw [tgetD_tset]
  by_cases h : off = f.off <;> simp [h]
  rfl

theorem State.rd_wr (s : State) (o off : Nat) (v : Word32) : (s.wr o v).rd off = if off = o then v else s.rd off := by
  unfold State.rd State.wr
  dsimp only
  rw [tgetD_tset]

/-- A field put in reads back, cut to its width. -/
theorem State.get_put_self (s : State) (f : Fld) (v : Nat) (h : f.lo ≤ f.hi) (h' : f.hi < 32) :
    (s.put f v).get f = v % 2 ^ (f.hi + 1 - f.lo) := by
  unfold State.get
  rw [State.rd_put, if_pos rfl]
  exact wordField_wordSet_self _ _ _ _ h h'

/-- A field of another register keeps its value. -/
theorem State.get_put_of_ne (s : State) (f g : Fld) (v : Nat) (h : g.off ≠ f.off) : (s.put f v).get g = s.get g := by
  unfold State.get
  rw [State.rd_put, if_neg h]

/-- Another field of the same register keeps its value. -/
theorem State.get_put_of_disjoint (s : State) (f g : Fld) (v : Nat) (h : f.lo ≤ f.hi) (hg : g.lo ≤ g.hi)
    (hg' : g.hi < 32) (hd : f.hi < g.lo ∨ g.hi < f.lo) : (s.put f v).get g = s.get g := by
  unfold State.get
  rw [State.rd_put]
  split
  · rename_i e
    rw [e]
    exact wordField_wordSet_of_disjoint _ _ _ _ _ _ h hg hg' hd
  · rfl

/-- A field of another register keeps its value when a register is put in whole. -/
theorem State.get_wr_of_ne (s : State) (o : Nat) (w : Word32) (g : Fld) (h : g.off ≠ o) : (s.wr o w).get g = s.get g := by
  unfold State.get
  rw [State.rd_wr, if_neg h]

/-- A hardware update of a field touches neither copy of another register. -/
theorem State.dual_put_of_ne (s : State) (f : Fld) (v off : Nat) (h : off ≠ f.off) :
    tget (s.put f v).dual off = tget s.dual off := by
  unfold State.put
  dsimp only
  split
  · rfl
  · split
    · rw [tget_terase, if_neg h]
    · rw [tget_tset, if_neg h]

end Sys2Proof.Machine
end

