-- ==== Sys2Proof/Laws/Frames.lean ====
section
/-! SUPPORT. How the frames of the statements (SameRegs, SameMem, SameProcs) are built up update by update, and flags
after a field update. -/

namespace Sys2Proof.Machine

/-! ## Flags -/

theorem State.on_put_of_ne (s : State) (f g : Fld) (v : Nat) (h : g.off ≠ f.off) : (s.put f v).on g = s.on g := by
  unfold State.on; rw [State.get_put_of_ne _ _ _ _ h]

theorem State.on_put_of_disjoint (s : State) (f g : Fld) (v : Nat) (h : f.lo ≤ f.hi) (hg : g.lo ≤ g.hi) (hb : g.hi < 32)
    (hd : f.hi < g.lo ∨ g.hi < f.lo) : (s.put f v).on g = s.on g := by
  unfold State.on; rw [State.get_put_of_disjoint _ _ _ _ h hg hb hd]

theorem State.on_put_self (s : State) (f : Fld) (v : Nat) (h : f.lo ≤ f.hi) (h' : f.hi < 32) :
    (s.put f v).on f = decide (v % 2 ^ (f.hi + 1 - f.lo) = 1) := by
  unfold State.on; rw [State.get_put_self _ _ _ h h']

theorem State.rd_put_of_ne (s : State) (f : Fld) (v off : Nat) (h : off ≠ f.off) : (s.put f v).rd off = s.rd off := by
  rw [State.rd_put, if_neg h]

/-! ## Registers -/

theorem SameRegs.refl (s : State) (l : List Nat) : SameRegs l s s := fun _ _ => ⟨rfl, rfl⟩

theorem SameRegs.trans {l : List Nat} {s t u : State} (h : SameRegs l s t) (h' : SameRegs l t u) : SameRegs l s u :=
  fun off ho => ⟨(h' off ho).1.trans (h off ho).1, (h' off ho).2.trans (h off ho).2⟩

theorem SameRegs.mono {l l' : List Nat} {s t : State} (hl : ∀ x, x ∈ l → x ∈ l') (h : SameRegs l s t) : SameRegs l' s t :=
  fun off ho => h off fun hm => ho (hl off hm)

/-- A field of a listed register is updated. -/
theorem SameRegs.put {l : List Nat} {s t : State} (f : Fld) (v : Nat) (hm : f.off ∈ l) (h : SameRegs l s t) :
    SameRegs l s (t.put f v) := by
  intro off ho
  have hne : off ≠ f.off := fun e => ho (e ▸ hm)
  rw [State.rd_put_of_ne _ _ _ _ hne, State.dual_put_of_ne _ _ _ _ hne]
  exact h off ho

/-- A state with the registers of one whose frame is known. -/
theorem SameRegs.of_eq {l : List Nat} {s t u : State} (h1 : t.regs = u.regs) (h2 : t.dual = u.dual) (h : SameRegs l s u) :
    SameRegs l s t := by
  intro off ho
  have h3 := h off ho
  unfold State.rd at *
  rw [h1, h2]
  exact h3

/-! ## Memory and processors -/

theorem SameMem.of_eq {s t : State} (h : t.mem = s.mem) : SameMem s t := by
  intro a; rw [h]; exact ⟨rfl, rfl⟩

theorem SameMem.trans {s t u : State} (h : SameMem s t) (h' : SameMem t u) : SameMem s u :=
  fun a => ⟨(h' a).1.trans (h a).1, (h' a).2.trans (h a).2⟩

theorem SameProcs.of_eq {l : List Nat} {s t : State} (h : t.procs = s.procs) : SameProcs l s t := by
  intro p _; unfold State.proc; rw [h]

end Sys2Proof.Machine
end

