-- ==== Sys2Proof/Laws/FretKeeps.lean ====
section
/-! SUPPORT. What the definitions of Machine/Fret.lean keep, one lemma each. -/

namespace Sys2Proof.Machine

set_option linter.all false

theorem State.irqDelivered_keeps {s0 : State} (s : State) (p i : Nat) (t : State) (h_s : Keeps s0 s)
    (h_t : Keeps s0 t) : Keeps s0 (State.irqDelivered s p i t) := by
  unfold State.irqDelivered
  repeat' first
    | with_reducible first
        | assumption | apply keeps_ite | apply Cx.get_keeps | apply State.inc_keeps
    | simp only [↓keeps_upd_iff] | split | dsimp only

theorem execInterruptEntry_keeps {s0 : State} (p : Nat) (s : State) (h_s : Keeps s0 s) :
    OutKeeps s0 (execInterruptEntry p s) := by
  unfold execInterruptEntry
  repeat' first
    | with_reducible first
        | assumption | apply keeps_ite | apply Cx.enter_keeps | apply Cx.put_keeps | apply State.cx_keeps
        | apply State.debugCatch_keeps | apply State.irqDelivered_keeps | apply State.put_keeps
        | apply outKeeps_next | apply outKeeps_ite
    | simp only [↓keeps_upd_iff] | (refine keeps_snd (by with_reducible assumption) ?_)
    | (refine keeps_some (by with_reducible assumption) ?_)
    | (refine keeps_next (by with_reducible assumption) ?_) | split | dsimp only

theorem execIntcHoldoffExpiry_keeps {s0 : State} (g : Nat) (s : State) (h_s : Keeps s0 s) :
    OutKeeps s0 (execIntcHoldoffExpiry g s) := by
  unfold execIntcHoldoffExpiry
  repeat' first
    | with_reducible first
        | assumption | apply State.passTo_keeps | apply outKeeps_next
    | simp only [↓keeps_upd_iff] | (refine keeps_some (by with_reducible assumption) ?_)
    | (refine keeps_next (by with_reducible assumption) ?_) | split | dsimp only

theorem execBudgetExceeded_keeps {s0 : State} (n : Nat) (s : State) (h_s : Keeps s0 s) :
    OutKeeps s0 (execBudgetExceeded n s) := by
  unfold execBudgetExceeded
  repeat' first
    | with_reducible first
        | assumption | apply keeps_ite | apply Cx.enter_keeps | apply Cx.get_keeps | apply State.cx_keeps
        | apply State.debugCatch_keeps | apply State.inc_keeps | apply State.passTo_keeps
        | apply State.setProc_keeps | apply outKeeps_next | apply outKeeps_ite
    | simp only [↓keeps_upd_iff] | (refine keeps_snd (by with_reducible assumption) ?_)
    | (refine keeps_snd3 (by with_reducible assumption) ?_)
    | (refine keeps_some (by with_reducible assumption) ?_)
    | (refine keeps_next (by with_reducible assumption) ?_) | split | dsimp only

end Sys2Proof.Machine
end

