-- ==== Sys2Proof/Laws/Mark.lean ====
section
/-! SUPPORT. The mark of a torn-safe write: CRC-32 stays below 2^32, so that a mark is never zero; words of the
Pickguard's memory as a range. -/

namespace Sys2Proof.Machine

theorem crc32Bits_lt (k c : Nat) (h : c < 2 ^ 32) : crc32Bits k c < 2 ^ 32 := by
  induction k generalizing c with
  | zero => exact h
  | succ k ih =>
    unfold crc32Bits
    refine ih _ ?_
    split
    · exact Nat.xor_lt_two_pow (by omega) (by decide)
    · omega

theorem crc32_lt (bs : Bytes) : crc32 bs < 2 ^ 32 := by
  have h (bs : Bytes) (c : Nat) (hc : c < 2 ^ 32) :
      bs.foldl (fun c b => crc32Bits 8 (c ^^^ b.toNat)) c < 2 ^ 32 := by
    induction bs generalizing c with
    | nil => exact hc
    | cons b bs ih => exact ih _ (crc32Bits_lt 8 _ (Nat.xor_lt_two_pow hc (Nat.lt_trans b.isLt (by decide))))
  exact Nat.xor_lt_two_pow (h bs _ (by decide)) (by decide)

/-- A mark is never zero: the place of an invalidated entry is told from every mark (R572). -/
theorem markOf_ne_zero (ws : List Word32) : markOf ws ≠ 0 := by
  have h := crc32_lt (wordsBytes ws)
  unfold markOf
  simp only
  split
  · decide
  · rename_i hc
    intro he
    have := congrArg BitVec.toNat he
    simp only [BitVec.toNat_ofNat, Nat.mod_eq_of_lt h] at this
    exact hc (.inl this)

/-- Ranges of words agree where every word does. -/
theorem pickWords_congr {s t : State} (i n : Nat) (h : ∀ j, i ≤ j → j < i + n → s.pickWord j = t.pickWord j) :
    s.pickWords i n = t.pickWords i n := by
  induction n generalizing i with
  | zero => rfl
  | succ n ih =>
    simp only [State.pickWords]
    rw [h i (Nat.le_refl i) (by omega), ih (i + 1) (fun j h1 h2 => h j (by omega) (by omega))]

end Sys2Proof.Machine
end

