-- ==== Sys2Proof/Laws/TickRowsKeeps.lean ====
section
/-! SUPPORT. What the definitions of Machine/TickRows.lean keep, one lemma each. -/

namespace Sys2Proof.Machine

set_option linter.all false

theorem Cx.stageStatus_keeps {s0 : State} (c : Cx) (d : OpDesc) (o : Opnds) (st : Nat) (full : Bool)
    (next : Nat) (h_c : Keeps s0 c.s) : ResSKeeps s0 (Cx.stageStatus c d o st full next) := by
  unfold Cx.stageStatus
  repeat' first
    | with_reducible first
        | assumption | apply Cx.aluEnd_keeps | apply resKeeps_ok | apply resKeeps_exc | apply resKeeps_ite
        | apply resKeeps_andThen | apply resS_ok | apply resS_exc | apply resS_ite | apply resS_andThenS
        | apply resS_andThen
    | dsimp only

theorem Cx.stage_keeps {s0 : State} (c : Cx) (d : OpDesc) (o : Opnds) (x : Staged) (next : Nat)
    (h_c : Keeps s0 c.s) : ResSKeeps s0 (Cx.stage c d o x next) := by
  unfold Cx.stage
  repeat' first
    | with_reducible first
        | intro _ | assumption | apply keeps_ite | apply Cx.stageStatus_keeps | apply State.inc_keeps
        | apply resKeeps_ok | apply resKeeps_exc | apply resKeeps_ite | apply resKeeps_andThen
        | apply resS_ok | apply resS_exc | apply resS_ite | apply resS_andThenS | apply resS_andThen
    | simp only [↓keeps_upd_iff] | split | dsimp only

theorem Cx.checkC_keeps {s0 : State} (c : Cx) (o : Opnd) (h_c : Keeps s0 c.s) :
    ResKeeps s0 (Cx.checkC c o) := by
  unfold Cx.checkC
  repeat' first
    | with_reducible first
        | assumption | apply keeps_ite | apply Cx.put_keeps | apply State.put_keeps | apply resKeeps_ok
        | apply resKeeps_exc | apply resKeeps_ite | apply resKeeps_andThen
    | simp only [↓keeps_upd_iff] | (refine keeps_snd (by with_reducible assumption) ?_)
    | (refine keeps_okS (by with_reducible assumption) ?_)
    | (refine keeps_okS2 (by with_reducible assumption) ?_)
    | (refine keeps_excS (by with_reducible assumption) ?_)
    | (refine keeps_ok (by with_reducible assumption) ?_)
    | (refine keeps_exc (by with_reducible assumption) ?_) | split | dsimp only

theorem stagingBody_keeps {s0 : State} (d : OpDesc) (f : Opnds → Nat → Nat → Dec → Cx → Res State) (i : Dec)
    (c : Cx) (h_c : Keeps s0 c.s) (h_f : ∀ a b d v c, Keeps s0 c.s → ResSKeeps s0 (f a b d v c)) :
    ResSKeeps s0 (stagingBody d f i c) := by
  unfold stagingBody
  repeat' first
    | with_reducible first
        | intro _ | assumption | apply Cx.checkC_keeps | apply Cx.getOpt_keeps | apply Cx.phase1_keeps
        | apply h_f | apply resKeeps_ok | apply resKeeps_exc | apply resKeeps_ite | apply resKeeps_andThen
        | apply resS_ok | apply resS_exc | apply resS_ite | apply resS_andThenS | apply resS_andThen
    | dsimp only

theorem Cx.readWords_keeps {s0 : State} (c : Cx) (w x0 : Nat) (h_c : Keeps s0 c.s) :
    ResKeeps s0 (Cx.readWords c w x0) := by
  induction x0 generalizing c w with
  | zero =>
    unfold Cx.readWords
    repeat' first
    | with_reducible first
        | intro _ | assumption | apply keeps_ite | apply Cx.read_keeps | apply resKeeps_ok
        | apply resKeeps_exc | apply resKeeps_ite | apply resKeeps_andThen | apply resS_ok | apply resS_exc
        | apply resS_ite | apply resS_andThenS | apply resS_andThen
    | split | dsimp only
  | succ n ih =>
    unfold Cx.readWords
    repeat' first
      | with_reducible first
          | intro _ | assumption | apply keeps_ite | apply Cx.read_keeps | apply ih | apply resKeeps_ok
          | apply resKeeps_exc | apply resKeeps_ite | apply resKeeps_andThen | apply resS_ok | apply resS_exc
          | apply resS_ite | apply resS_andThenS | apply resS_andThen
      | split | dsimp only

theorem gosubBody_keeps {s0 : State} (x0 : Dec) (x1 : Cx) (h_x1 : Keeps s0 x1.s) :
    ResSKeeps s0 (gosubBody x0 x1) := by
  unfold gosubBody
  repeat' first
    | with_reducible first
        | intro _ | assumption | apply keeps_ite | apply Cx.readWords_keeps | apply Cx.stageStatus_keeps
        | apply Cx.stage_keeps | apply stagingBody_keeps | apply outKeeps_next | apply outKeeps_ite
        | apply resKeeps_ok | apply resKeeps_exc | apply resKeeps_ite | apply resKeeps_andThen
        | apply resS_ok | apply resS_exc | apply resS_ite | apply resS_andThenS | apply resS_andThen
    | split | dsimp only

theorem jobputBody_keeps {s0 : State} (x0 : Dec) (x1 : Cx) (h_x1 : Keeps s0 x1.s) :
    ResSKeeps s0 (jobputBody x0 x1) := by
  unfold jobputBody
  repeat' first
    | with_reducible first
        | intro _ | assumption | apply keeps_ite | apply Cx.readWords_keeps | apply Cx.stage_keeps
        | apply stagingBody_keeps | apply outKeeps_next | apply outKeeps_ite | apply resKeeps_ok
        | apply resKeeps_exc | apply resKeeps_ite | apply resKeeps_andThen | apply resS_ok | apply resS_exc
        | apply resS_ite | apply resS_andThenS | apply resS_andThen
    | split | dsimp only

theorem verdictBody_keeps {s0 : State} (x0 : Dec) (x1 : Cx) (h_x1 : Keeps s0 x1.s) :
    ResSKeeps s0 (verdictBody x0 x1) := by
  unfold verdictBody
  repeat' first
    | with_reducible first
        | intro _ | assumption | apply Cx.stage_keeps | apply stagingBody_keeps | apply outKeeps_next
        | apply resKeeps_ok | apply resKeeps_exc | apply resKeeps_ite | apply resKeeps_andThen
        | apply resS_ok | apply resS_exc | apply resS_ite | apply resS_andThenS | apply resS_andThen
    | dsimp only

theorem evputBody_keeps {s0 : State} (x0 : Dec) (x1 : Cx) (h_x1 : Keeps s0 x1.s) :
    ResSKeeps s0 (evputBody x0 x1) := by
  unfold evputBody
  repeat' first
    | with_reducible first
        | intro _ | assumption | apply keeps_ite | apply Cx.readWords_keeps | apply Cx.stage_keeps
        | apply stagingBody_keeps | apply outKeeps_next | apply outKeeps_ite | apply resKeeps_ok
        | apply resKeeps_exc | apply resKeeps_ite | apply resKeeps_andThen | apply resS_ok | apply resS_exc
        | apply resS_ite | apply resS_andThenS | apply resS_andThen
    | split | dsimp only

theorem State.commitOne_keeps {s0 : State} (n : Nat) (trust : Bool) (s : State) (x : Staged)
    (h_s : Keeps s0 s) : Keeps s0 (State.commitOne n trust s x) := by
  unfold State.commitOne
  repeat' first
    | with_reducible first
        | assumption | apply State.evPut_keeps | apply State.jobPost_keeps | apply State.relEnter_keeps
        | apply State.verdictCommit_keeps
    | simp only [↓keeps_upd_iff] | (refine keeps_snd (by with_reducible assumption) ?_) | split | dsimp only

theorem State.commitTick_keeps {s0 : State} (s : State) (n : Nat) (outs : List Staged) (priv : Nat)
    (h_s : Keeps s0 s) : Keeps s0 (State.commitTick s n outs priv) := by
  unfold State.commitTick
  repeat' first
    | with_reducible first
        | intro _ | assumption | apply State.commitOne_keeps | apply State.setProc_keeps
        | apply State.settle_keeps | apply keeps_foldl
    | simp only [↓keeps_upd_iff] | dsimp only

theorem twaitBody_keeps {s0 : State} (i : Dec) (c : Cx) (h_c : Keeps s0 c.s) :
    ResSKeeps s0 (twaitBody i c) := by
  unfold twaitBody
  repeat' first
    | with_reducible first
        | assumption | apply Cx.finish_keeps | apply State.commitTick_keeps | apply outKeeps_next
        | apply resKeeps_ok | apply resKeeps_exc | apply resKeeps_ite | apply resKeeps_andThen
        | apply resS_ok | apply resS_exc | apply resS_ite | apply resS_andThenS | apply resS_andThen
    | dsimp only

theorem tleftBody_keeps {s0 : State} (i : Dec) (c : Cx) (h_c : Keeps s0 c.s) :
    ResSKeeps s0 (tleftBody i c) := by
  unfold tleftBody
  repeat' first
    | with_reducible first
        | intro _ | assumption | apply Cx.aluEnd_keeps | apply Cx.get_keeps | apply Cx.phase1_keeps
        | apply outKeeps_next | apply resKeeps_ok | apply resKeeps_exc | apply resKeeps_ite
        | apply resKeeps_andThen | apply resS_ok | apply resS_exc | apply resS_ite | apply resS_andThenS
        | apply resS_andThen
    | dsimp only

theorem tabandonBody_keeps {s0 : State} (_i : Dec) (c : Cx) (h_c : Keeps s0 c.s) :
    ResSKeeps s0 (tabandonBody _i c) := by
  unfold tabandonBody
  repeat' first
    | with_reducible first
        | assumption | apply State.feAbandon_keeps | apply resKeeps_ok | apply resKeeps_exc
        | apply resKeeps_ite | apply resKeeps_andThen | apply resS_ok | apply resS_exc | apply resS_ite
        | apply resS_andThenS | apply resS_andThen
    | dsimp only

theorem Cx.putWords_keeps {s0 : State} (c : Cx) (w : Nat) (x0 : List Nat) (h_c : Keeps s0 c.s) :
    ResKeeps s0 (Cx.putWords c w x0) := by
  induction x0 generalizing c w with
  | nil =>
    unfold Cx.putWords
    repeat' first
    | with_reducible first
        | intro _ | assumption | apply Cx.write_keeps | apply State.putWords_keeps | apply resKeeps_ok
        | apply resKeeps_exc | apply resKeeps_ite | apply resKeeps_andThen | apply resS_ok | apply resS_exc
        | apply resS_ite | apply resS_andThenS | apply resS_andThen
    | split | dsimp only
  | cons y ys ih =>
    unfold Cx.putWords
    repeat' first
      | with_reducible first
          | intro _ | assumption | apply Cx.write_keeps | apply State.putWords_keeps | apply ih
          | apply resKeeps_ok | apply resKeeps_exc | apply resKeeps_ite | apply resKeeps_andThen
          | apply resS_ok | apply resS_exc | apply resS_ite | apply resS_andThenS | apply resS_andThen
      | split | dsimp only

theorem svpullBody_keeps {s0 : State} (i : Dec) (c : Cx) (h_c : Keeps s0 c.s) :
    ResSKeeps s0 (svpullBody i c) := by
  unfold svpullBody
  repeat' first
    | with_reducible first
        | intro _ | assumption | apply keeps_ite | apply Cx.finish_keeps | apply Cx.getOpt_keeps
        | apply Cx.phase1_keeps | apply Cx.putWords_keeps | apply State.putWords_keeps | apply outKeeps_next
        | apply outKeeps_ite | apply resKeeps_ok | apply resKeeps_exc | apply resKeeps_ite
        | apply resKeeps_andThen | apply resS_ok | apply resS_exc | apply resS_ite | apply resS_andThenS
        | apply resS_andThen
    | simp only [↓keeps_upd_iff] | (refine keeps_snd (by with_reducible assumption) ?_)
    | (refine keeps_snd3 (by with_reducible assumption) ?_)
    | (refine keeps_some (by with_reducible assumption) ?_)
    | (refine keeps_next (by with_reducible assumption) ?_)
    | (refine keeps_key (by with_reducible assumption) ?_)
    | (refine keeps_okS (by with_reducible assumption) ?_)
    | (refine keeps_okS2 (by with_reducible assumption) ?_)
    | (refine keeps_excS (by with_reducible assumption) ?_)
    | (refine keeps_ok (by with_reducible assumption) ?_)
    | (refine keeps_exc (by with_reducible assumption) ?_) | split | dsimp only

theorem State.runTwait_keeps {s0 : State} (s : State) (p : Nat) (h_s : Keeps s0 s) :
    Keeps s0 (State.runTwait s p) := by
  unfold State.runTwait
  repeat' first
    | with_reducible first
        | assumption | apply State.runInstr_keeps | apply twaitBody_keeps
    | dsimp only

theorem State.twaitIn_keeps {s0 : State} (at_ : Nat) (s : State) (n : Nat) (h_s : Keeps s0 s) :
    Keeps s0 (State.twaitIn at_ s n) := by
  unfold State.twaitIn
  repeat' first
    | with_reducible first
        | assumption | apply keeps_ite | apply State.runTwait_keeps
    | split | dsimp only

theorem execTwait_keeps {s0 : State} (p : Nat) (s : State) (h_s : Keeps s0 s) :
    OutKeeps s0 (execTwait p s) := by
  unfold execTwait
  repeat' first
    | with_reducible first
        | intro _ | assumption | apply keeps_ite | apply State.runTwait_keeps | apply State.twaitIn_keeps
        | apply keeps_foldl | apply outKeeps_next | apply outKeeps_ite
    | split | dsimp only

theorem execTleft_keeps {s0 : State} (p : Nat) (s : State) (h_s : Keeps s0 s) :
    OutKeeps s0 (execTleft p s) := by
  unfold execTleft
  repeat' first
    | with_reducible first
        | assumption | apply State.runInstr_keeps | apply tleftBody_keeps | apply outKeeps_next
    | dsimp only

theorem execSvpull_keeps {s0 : State} (p : Nat) (s : State) (h_s : Keeps s0 s) :
    OutKeeps s0 (execSvpull p s) := by
  unfold execSvpull
  repeat' first
    | with_reducible first
        | assumption | apply State.runInstr_keeps | apply svpullBody_keeps | apply outKeeps_next
    | dsimp only

theorem execGosub_keeps {s0 : State} (p : Nat) (s : State) (h_s : Keeps s0 s) :
    OutKeeps s0 (execGosub p s) := by
  unfold execGosub
  repeat' first
    | with_reducible first
        | assumption | apply State.runInstr_keeps | apply gosubBody_keeps | apply outKeeps_next
    | dsimp only

theorem execJobput_keeps {s0 : State} (p : Nat) (s : State) (h_s : Keeps s0 s) :
    OutKeeps s0 (execJobput p s) := by
  unfold execJobput
  repeat' first
    | with_reducible first
        | assumption | apply State.runInstr_keeps | apply jobputBody_keeps | apply outKeeps_next
    | dsimp only

theorem execVerdict_keeps {s0 : State} (p : Nat) (s : State) (h_s : Keeps s0 s) :
    OutKeeps s0 (execVerdict p s) := by
  unfold execVerdict
  repeat' first
    | with_reducible first
        | assumption | apply State.runInstr_keeps | apply verdictBody_keeps | apply outKeeps_next
    | dsimp only

theorem execEvput_keeps {s0 : State} (p : Nat) (s : State) (h_s : Keeps s0 s) :
    OutKeeps s0 (execEvput p s) := by
  unfold execEvput
  repeat' first
    | with_reducible first
        | assumption | apply State.runInstr_keeps | apply evputBody_keeps | apply outKeeps_next
    | dsimp only

theorem execTabandon_keeps {s0 : State} (p : Nat) (s : State) (h_s : Keeps s0 s) :
    OutKeeps s0 (execTabandon p s) := by
  unfold execTabandon
  repeat' first
    | with_reducible first
        | assumption | apply State.runInstr_keeps | apply tabandonBody_keeps | apply outKeeps_next
    | dsimp only

theorem execUnassignedOpcode_keeps {s0 : State} (p : Nat) (s : State) (h_s : Keeps s0 s) :
    OutKeeps s0 (execUnassignedOpcode p s) := by
  unfold execUnassignedOpcode
  repeat' first
    | with_reducible first
        | assumption | apply keeps_ite | apply Cx.fetch_keeps | apply Cx.takeExc_keeps
        | apply State.beforeEdge_keeps | apply State.cx_keeps | apply outKeeps_next | apply outKeeps_ite
    | simp only [↓keeps_upd_iff] | (refine keeps_snd (by with_reducible assumption) ?_)
    | (refine keeps_snd3 (by with_reducible assumption) ?_)
    | (refine keeps_next (by with_reducible assumption) ?_)
    | (refine keeps_okS (by with_reducible assumption) ?_)
    | (refine keeps_okS2 (by with_reducible assumption) ?_)
    | (refine keeps_excS (by with_reducible assumption) ?_)
    | (refine keeps_ok (by with_reducible assumption) ?_)
    | (refine keeps_exc (by with_reducible assumption) ?_) | split | dsimp only

end Sys2Proof.Machine
end

