-- ==== Sys2Proof/Tests/Slice0.lean ====
section
/-! SUPPORT. Tests: commands that `wellFormed` refuses, values the spec gives, and, for each statement, states and
operands that meet its hypotheses. -/

open Sys2Proof Sys2Proof.Machine

namespace Sys2Proof.Tests

set_option Elab.async false
set_option linter.unusedVariables false

/-! ## Helpers -/

/-- State.reset with fields put. -/
def st (l : List (Fld × Nat)) : State := l.foldl (fun s e => s.put e.1 e.2) State.reset

/-- The next state an outcome answers. -/
def answer (o : Out) : Option State :=
  match o with
  | .next t => some t
  | _ => none

/-- A property of the next state. -/
def thenB (o : Out) (f : State → Bool) : Bool := (answer o).any f

/-- The value of a step of an instruction that goes on, with the instruction so far. -/
def okB {α : Type} (r : Res α) (k : α → Cx → Bool) : Bool :=
  match r with
  | .ok a c => k a c
  | .exc _ _ => false

/-- An exception that a step raises. -/
def excB {α : Type} (r : Res α) (k : Exc → Bool) : Bool :=
  match r with
  | .ok _ _ => false
  | .exc e _ => k e

theorem okB_iff {α : Type} {r : Res α} {k : α → Cx → Bool} (h : okB r k = true) : ∃ a c, r = .ok a c ∧ k a c = true := by
  cases r with
  | ok a c => exact ⟨a, c, rfl, h⟩
  | exc e c => simp [okB] at h

theorem excB_iff {α : Type} {r : Res α} {k : Exc → Bool} (h : excB r k = true) : ∃ e c, r = .exc e c ∧ k e = true := by
  cases r with
  | ok a c => simp [excB] at h
  | exc e c => exact ⟨e, c, rfl, h⟩

/-- Whether processor `p` is about to run an opcode with operands `d`, and `k` holds of what it decodes to. -/
def decodesB (s : State) (p code : Nat) (d : OpDesc) (k : Dec → Cx → Bool) : Bool :=
  s.canStep p && okB ((s.cx p).fetch (s.proc p).pc.toNat) fun w c1 =>
    decide (w / 2 ^ 27 = code) && opAssigned p (s.proc p).priv code && okB (({ c1 with first := w } : Cx).decode w d) k

theorem decodesB_iff {s : State} {p code : Nat} {d : OpDesc} {k : Dec → Cx → Bool} (h : decodesB s p code d k = true) :
    ∃ i c, s.Decodes p code d i c ∧ k i c = true := by
  simp only [decodesB, Bool.and_eq_true] at h
  obtain ⟨h1, h2⟩ := h
  obtain ⟨w, c1, h3, h4⟩ := okB_iff h2
  simp only [Bool.and_eq_true, decide_eq_true_eq] at h4
  obtain ⟨⟨h5, h6⟩, h7⟩ := h4
  obtain ⟨i, c, h8, h9⟩ := okB_iff h7
  exact ⟨i, c, ⟨h1, w, c1, h3, h5, h6, h8⟩, h9⟩

/-- Operand A read, and `k` holds of it. -/
def readsAB1 (d : OpDesc) (k : Dec → Opnds → Nat → Cx → Bool) (i : Dec) (c : Cx) : Bool :=
  okB (c.phase1 d i) fun o c1 => okB (c1.getOpt o.a (some .w) 1) fun a c' => k i o a c'

theorem readsA_iff {d : OpDesc} {k : Dec → Opnds → Nat → Cx → Bool} {i : Dec} {c : Cx} (h : readsAB1 d k i c = true) :
    ∃ o a c', c.ReadsA d i o a c' ∧ k i o a c' = true := by
  obtain ⟨o, c1, h1, h2⟩ := okB_iff h
  obtain ⟨a, c', h3, h4⟩ := okB_iff h2
  exact ⟨o, a, c', ⟨c1, h1, h3⟩, h4⟩

/-- Operands A and B read, and `k` holds of them. -/
def readsABB (d : OpDesc) (k : Dec → Opnds → Nat → Nat → Cx → Bool) (i : Dec) (c : Cx) : Bool :=
  okB (c.phase1 d i) fun o c1 => okB (c1.getOpt o.a (some .w) 1) fun a c2 => okB (c2.getOpt o.b (some .w) 2) fun b c' => k i o a b c'

theorem readsAB_iff {d : OpDesc} {k : Dec → Opnds → Nat → Nat → Cx → Bool} {i : Dec} {c : Cx} (h : readsABB d k i c = true) :
    ∃ o a b c', c.ReadsAB d i o a b c' ∧ k i o a b c' = true := by
  obtain ⟨o, c1, h1, h2⟩ := okB_iff h
  obtain ⟨a, c2, h3, h4⟩ := okB_iff h2
  obtain ⟨b, c', h5, h6⟩ := okB_iff h4
  exact ⟨o, a, b, c', ⟨c1, c2, h1, h3, h5⟩, h6⟩

/-- A staging opcode's operands read, and `k` holds of them. -/
def readsStageB (d : OpDesc) (k : Nat → Nat → Cx → Bool) (i : Dec) (c : Cx) : Bool :=
  okB (c.phase1 d i) fun o c1 => okB (c1.checkC o.c) fun _ c2 => okB (c2.getOpt o.a d.a 1) fun a c3 =>
    okB (c3.getOpt o.b d.b 2) fun b c' => k a b c'

theorem readsStage_iff {d : OpDesc} {k : Nat → Nat → Cx → Bool} {i : Dec} {c : Cx} (h : readsStageB d k i c = true) :
    ∃ o a b c', c.ReadsStage d i o a b c' ∧ k a b c' = true := by
  obtain ⟨o, c1, h1, h2⟩ := okB_iff h
  obtain ⟨u, c2, h3, h4⟩ := okB_iff h2
  obtain ⟨a, c3, h5, h6⟩ := okB_iff h4
  obtain ⟨b, c', h7, h8⟩ := okB_iff h6
  exact ⟨o, a, b, c', ⟨c1, c2, c3, h1, h3, h5, h7⟩, h8⟩

/-- A computing opcode's operands read, and `k` holds of them. -/
def aluReadsB (r : AluRow) (k : Nat → Nat → Nat → Opnds → Cx → Bool) (i : Dec) (c : Cx) : Bool :=
  okB (c.phase1 r.desc i) fun o c1 => okB (c1.getOpt o.a r.desc.a (if o.marker then 3 else 1)) fun a c2 =>
    okB (c2.getOpt o.b r.desc.b 2) fun b c3 =>
      okB (if r.readC then c3.getOpt o.c r.desc.c 3 else .ok 0 c3) fun cv c' => k a b cv o c'

theorem aluReads_iff {r : AluRow} {k : Nat → Nat → Nat → Opnds → Cx → Bool} {i : Dec} {c : Cx} (h : aluReadsB r k i c = true) :
    ∃ o a b cv c', r.Reads i c o a b cv c' ∧ k a b cv o c' = true := by
  obtain ⟨o, c1, h1, h2⟩ := okB_iff h
  obtain ⟨a, c2, h3, h4⟩ := okB_iff h2
  obtain ⟨b, c3, h5, h6⟩ := okB_iff h4
  obtain ⟨cv, c', h7, h8⟩ := okB_iff h6
  exact ⟨o, a, b, cv, c', ⟨c1, c2, c3, h1, h3, h5, h7⟩, h8⟩

/-- An instruction word: opcode and the three specifiers (R103). -/
def iw (op a b c : Nat) : Nat := 2 ^ 27 * op + 2 ^ 18 * a + 2 ^ 9 * b + c

/-- Special register `n` as a specifier; the short immediate `n` is `n` itself. -/
def sr (n : Nat) : Nat := 64 + n

/-- A word immediate (its value in the extension word), and a direct address. -/
def wi : Nat := 32

/-- Engine 0 in Trust supervisor about to run the instruction at word 0x8100 of its tick memory, with room on its
trap stacks. -/
def eng (ws : List Nat) : State :=
  ({ State.reset with procs := [(0, { Proc.reset 0 with run := .running, pc := 0x8100, sp := [0, 0, 0, 0x8800], tsb := [0x400, 0x8600], tsl := [0x300, 0x8500] })] }
    : State).poke 0x40800 (ws.flatMap (natToBytes 8))

/-- The same with the processor changed. -/
def engWith (ws : List Nat) (f : Proc → Proc) : State := (eng ws).setProc 0 (f ((eng ws).proc 0))

/-- A probe of a computing opcode on a state. -/
def aluB (s : State) (r : AluRow) (k : Nat → Nat → Nat → Opnds → Cx → Bool) : Bool :=
  decodesB s 0 r.code r.desc (aluReadsB r k)

theorem aluB_iff {s : State} {r : AluRow} {k : Nat → Nat → Nat → Opnds → Cx → Bool} (h : aluB s r k = true) :
    ∃ i c o a b cv c', s.Decodes 0 r.code r.desc i c ∧ r.Reads i c o a b cv c' ∧ k a b cv o c' = true := by
  obtain ⟨i, c, h1, h2⟩ := decodesB_iff h
  obtain ⟨o, a, b, cv, c', h3, h4⟩ := aluReads_iff h2
  exact ⟨i, c, o, a, b, cv, c', h1, h3, h4⟩

/-- A probe of an opcode with one operand A. -/
def aB (s : State) (code : Nat) (d : OpDesc) (k : Dec → Opnds → Nat → Cx → Bool) : Bool :=
  decodesB s 0 code d (readsAB1 d k)

theorem aB_iff {s : State} {code : Nat} {d : OpDesc} {k : Dec → Opnds → Nat → Cx → Bool} (h : aB s code d k = true) :
    ∃ i c o v c', s.Decodes 0 code d i c ∧ c.ReadsA d i o v c' ∧ k i o v c' = true := by
  obtain ⟨i, c, h1, h2⟩ := decodesB_iff h
  obtain ⟨o, a, c', h3, h4⟩ := readsA_iff h2
  exact ⟨i, c, o, a, c', h1, h3, h4⟩

/-- A probe of an opcode with operands A and B. -/
def abB (s : State) (code : Nat) (d : OpDesc) (k : Dec → Opnds → Nat → Nat → Cx → Bool) : Bool :=
  decodesB s 0 code d (readsABB d k)

theorem abB_iff {s : State} {code : Nat} {d : OpDesc} {k : Dec → Opnds → Nat → Nat → Cx → Bool} (h : abB s code d k = true) :
    ∃ i c o a b c', s.Decodes 0 code d i c ∧ c.ReadsAB d i o a b c' ∧ k i o a b c' = true := by
  obtain ⟨i, c, h1, h2⟩ := decodesB_iff h
  obtain ⟨o, a, b, c', h3, h4⟩ := readsAB_iff h2
  exact ⟨i, c, o, a, b, c', h1, h3, h4⟩

/-- A probe of a staging opcode. -/
def stageB (s : State) (code cost : Nat) (k : Nat → Nat → Cx → Bool) : Bool :=
  decodesB s 0 code (dStage cost) (readsStageB (dStage cost) k)

theorem stageB_iff {s : State} {code cost : Nat} {k : Nat → Nat → Cx → Bool} (h : stageB s code cost k = true) :
    ∃ i c o a b c', s.Decodes 0 code (dStage cost) i c ∧ c.ReadsStage (dStage cost) i o a b c' ∧ k a b c' = true := by
  obtain ⟨i, c, h1, h2⟩ := decodesB_iff h
  obtain ⟨o, a, b, c', h3, h4⟩ := readsStage_iff h2
  exact ⟨i, c, o, a, b, c', h1, h3, h4⟩

/-- Some value of a step. -/
def anyB {α : Type} (r : Res α) : Bool := okB r fun _ _ => true

/-- The special registers of engine 0 after a command. -/
def after (i : Instr) (s : State) (n : Nat) : Option Nat := (answer (exec i s)).map fun t => (t.proc 0).srRead 0 n

/-! ## States that the tests are about -/

/-- The module takes no action beyond a record at an event of a source. -/
def calmB (s : State) (src : Nat) : Bool :=
  decide (s.flt.zeroizeDue = false ∧ s.get (FAULT_SRC_ACTION src) < 16 ∧ s.get (FAULT_SRC_ACTION SRC_EVREC_LOST) < 16)

theorem calmB_iff {s : State} {src : Nat} : calmB s src = true ↔ s.calm src := by simp [calmB, State.calm]

def sramCleanB (s : State) (a n : Nat) : Bool :=
  decide ((sramPart a).isSome = true ∧ (sramPart (a + n - 1)).isSome = true ∧ s.mem.parityNext = 0 ∧ s.upsetsIn a n = [] ∧
    s.poisoned a n = false)

theorem sramCleanB_iff {s : State} {a n : Nat} : sramCleanB s a n = true ↔ s.sramClean a n := by simp [sramCleanB, State.sramClean]

def standsB (s : State) (p : Nat) (t : State) : Bool :=
  (!(isFret p) || !(s.time.ticking) || decide ((t.proc p).now ≤ s.edgeCycle)) &&
    decide (t.lcs.haltReq = [] ∧ t.lcs.stepReq = [] ∧ t.lcs.breaks = [])

def addRow : AluRow := ⟨.add 0, 0o101, dBin 1, false, fun a b _ _ => aluAdd 36 a b 0⟩

def divRow : AluRow := ⟨.div 0, 0o111, dBin 20, false, fun a b _ _ => aluDiv a b⟩

def dcmpRow : AluRow := ⟨.dcmp 0, 0o407, ⟨some .d, some .d, none, false, 1⟩, false, fun a b _ _ => aluSub 72 a b 0⟩

/-- A loop level open at depth `d`. -/
def inLoop (d : Nat) (p : Proc) : Proc := { p with sw := swSet p.sw 19 17 d, lc := [2, 2, 2, 2], le := [0x8101, 0x8101, 0x8101, 0x8101] }

/-- A block on the Trust chain, depth 1, whose CAUSE word is `cause` and whose SW is `sw`. -/
def blocked (op cause sw : Nat) : State :=
  ((engWith [iw op 0 0 0] fun p => { p with depth := [0, 1] }).poke (8 * (0x8600 + 24)) (([0x8150, sw] ++ List.replicate 20 0 ++ [cause, 0]).flatMap
    (natToBytes 8)))

/-- The block a return reads, and a property of it. -/
def blockB (op cause sw : Nat) (k : Nat → List Nat → Cx → Bool) : Bool :=
  decodesB (blocked op cause sw) 0 op (dNone 0) fun _ c => decide (c.pr.depth.getD (c.pr.world c.p) 0 ≠ 0) &&
    okB (c.readBlock c.pr.priv ((c.pr.tsb.getD (c.pr.world c.p) 0).toNat + 24) 24) fun b c1 => k c.pr.priv b c1

/-- Engine 0 in the Station world at word 0x100. -/
def station (priv : Nat) (ws : List Nat) : State :=
  ((engWith [] fun p => { p with pc := 0x100, sw := BitVec.ofNat 36 priv })).poke 0x800 (ws.flatMap (natToBytes 8))

/-- The Capo at word 0x100 of its memory. -/
def capo (ws : List Nat) : State :=
  ({ State.reset with procs := [(32, { Proc.reset 32 with run := .running, pc := 0x100 })] } : State).poke (0x2000000 + 0x800) (ws.flatMap (natToBytes 8))

/-- An entry of the Trust chain with room for its block. -/
def sampleEntry : Entry := ⟨2, none, 3, 1, none, 0x8101, 0, 0, 5, 0, 0x8300⟩

/-- The octet 'AB CD' read as a word, and the BER length forms (R161 to R163). -/
def octWord : Nat := 0xF00000000 + 0x81050000

/-- Engine 0 with associations up to 15 in its first window, a valid entry 3 with one channel and a cut of one
sample set. -/
def feeds (ws : List Nat) (cut : Option SampleSet) : State :=
  { (eng ws) with data := { (eng ws).data with samples := [(3, ⟨cut, none, none⟩)] } }

/-- The Bridge's link is up and the module runs. -/
def hosted : State := { st [(BRIDGE_LINK_UP, 1), (LIFE_BOOT_STAGE, stRUNNING)] with data := { State.reset.data with vfEnable := true } }

/-- A memory with page 3 waiting for its write-back, its version listed or not. -/
def dirty (vs : List (Nat × Nat × Bool)) : State :=
  { State.reset with mem := { State.reset.mem with guardQueue := [3, 4], versions := vs, writebacks := [0x800] } }

/-- A staged region of granules 0 to `e`, from granule `b`. -/
def staged (b e en : Nat) (l : List (Fld × Nat)) : State :=
  st ([(NUT_STAGE_START_LO_ADDR, b), (NUT_STAGE_END_LO_ADDR, e), (NUT_STAGE_CTL_EN, en)] ++ l)

/-- A state with its time fields changed. -/
def timed (l : List (Fld × Nat)) (f : TimeState → TimeState) : State := { st l with time := f State.reset.time }

/-- Ticks run at 4,800 a second and FE_B waits. -/
def running : State :=
  let s := timed [(TIME_CTL_RUN, 1)] fun t => { t with ticking := true, firstTick := true, rate := 4800 }
  { s with data := { s.data with feBWaits := true } }

/-- Source 64 waits for the Capo, above its threshold. -/
def irqState : State :=
  { st [(INTC_SRC_LEVEL 64, 1), (INTC_SRC_EN 64, 1), (INTC_SRC_TARGET 64, 32), (INTC_SRC_PRIO 64, 5)] with
    procs := [(32, { Proc.reset 32 with run := .running, tsb := [0x8000, 0] })], holdoffs := [(9, 5000)] }

/-- Port 0 is enabled with its link up, an ordinary clock. -/
def portUp : State := st [(PORT_CTL_EN 0, 1), (PORT_STATUS_LINK 0, 1), (PORT_CTL_EN 3, 1)]

/-- Frame 1 of 64 octets in a stage. -/
def framed (stage : FrameStage) : State :=
  let s := State.reset
  { s with data := { s.data with frames := [⟨1, 0, List.replicate 64 0, default, 0, 0, stage⟩] } }

/-- A started entry of routable sampled values. -/
def svEntry : TableEntry := eput (eput (eput (List.replicate 16 0) eV 1) eTYPE tyRSV) eSTARTED 1

/-- An association table entry 5. -/
def withEntry (s : State) (e : TableEntry) : State := s.setEntry 5 e

/-- A release request in slot 3 with its control words. -/
def request (stateW va vb : Nat) (hold : Bool) (presented : Nat) : State :=
  { State.reset with data := { State.reset.data with rel := [(3, ⟨stateW, va, vb, 5, [], default, none, 0, hold, presented, 0⟩)] } }

/-- Queue 5 enabled for delivery with 4 slots, group 0 owned by function 0. -/
def q5 (l : List (Fld × Nat)) : State :=
  st ([(FN_QG_QG_COUNT 0, 1), (FN_QG_COUNTHI 0, 0), (QUEUE_CFG_EN 5, 1), (QUEUE_CFG_SIZE 5, 4)] ++ l)

/-- An item of a queue. -/
def item : Item := ⟨none, 0, none, 0, 0, 0, 0, 0⟩

/-- Region 0 of the Nut: the first 8 KiB of the common words, read and written by the cells and the DMA engines. -/
def common : List (Fld × Nat) :=
  [(NUT_REGION_START_LO_ADDR 0, 0x1000000 / 64), (NUT_REGION_END_LO_ADDR 0, 0x1001FC0 / 64), (NUT_REGION_CTL_EN 0, 1),
   (NUT_REGION_RMASK_MASK 0 2, 0xFFFF0000), (NUT_REGION_WMASK_MASK 0 2, 0xFFFF0000), (NUT_REGION_RMASK_MASK 0 3, 0xFFFFFFFF),
   (NUT_REGION_WMASK_MASK 0 3, 0xFFFFFFFF)]

/-- Ring 2 of Capo ring 1 in the common words, one slot posted, its data window behind it. -/
def ring2 (w : List Nat) (l : List (Fld × Nat)) : State :=
  l.foldl (fun s e => s.put e.1 e.2) (({ State.reset with regs :=
    [(NUT_REGION_START_LO 0, 0x1000000), (NUT_REGION_END_LO 0, 0x1001FC0), (NUT_REGION_CTL 0, 1), (NUT_REGION_RMASK 0 2, 0xFFFF0000),
     (NUT_REGION_RMASK 0 3, 0xFFFFFFFF), (NUT_REGION_WMASK 0 2, 0xFFFF0000), (NUT_REGION_WMASK 0 3, 0xFFFFFFFF), (CELL_STATUS 3, 0),
     (SOUND_ENTSTATE, 0), (ringBase 2, 0x1000000), (ringBase 2 + 0x08, 0x80020000), (ringBase 2 + 0x0C, 0x41), (ringBase 2 + 0x10, 0xFFFF),
     (ringBase 2 + 0x14, 0x1001000), (ringBase 2 + 0x1C, 0x1001FC0), (ringBase 2 + 0x24, 1)] } : State).poke 0x1000000
    (packWords 16 ((w ++ List.replicate (16 - w.length) 0).flatMap (natToBytes 4))))

/-- A descriptor of RANDOM for 64 bytes. -/
def randomJob : List Nat := [0x3D000000, 0, 0, 0, 0, 0, 0, 0, 0x1001000, 0, 64]

/-- A verification job of ring 2 on cell 3. -/
def verifyJob : Job := ⟨2, 0, 0x0A000000 :: List.replicate 15 0, 0, 0, [], 0, none, false, false, 0⟩

def cell3 : State := { ring2 [] [(CELL_STATUS_STATE 3, 1)] with jobs := { State.reset.jobs with jobs := [(3, verifyJob)], grants := 1 } }

/-- A secret output with SECOUT, without it, and to the key store (R349, R352). -/
def kemJob (dest : Nat) : List Nat :=
  [0x02000000, 0, 0x1001000, 0, 800, 0, 0, 0, 0x1001400, 0, 800, dest, 0, 0, 0, 0]

/-- GO with operation `op`. -/
def go (op : Nat) : Word32 := BitVec.ofNat 32 (2 ^ 31 + 2 ^ 24 * op)

/-- Engine 3 running a command that has a result. -/
def ve3 (res : Option (Nat × Nat × Bytes)) : State :=
  { st [(VE_OWNER_MID 3, 0x41), (VE_STATUS_BUSY 3, 1), (VE_TIMEOUT_MS 3, 5)] with ve := { State.reset.ve with cmds := [(3, ⟨go 1, 0, 0, 0, 0, 0, [], res, res.isSome⟩)] } }

/-- Digest ring 0 (ring 1,024) in the common words with one slot posted. -/
def dring (w : List Nat) : State :=
  (st ([(rgMID 1024, 0x41), (rgEN 1024, 1), (rgLOG2SIZE 1024, 2), (rgPROD 1024, 1), (⟨ringBase 1024, 31, 0⟩, 0x1000000), (CORE_STATUS_STATE 0, 0)] ++ common)).poke 0x1000000
    (packWords 16 ((w ++ List.replicate (16 - w.length) 0).flatMap (natToBytes 4)))

/-- The array runs, bank 63 in a state. -/
def rosin (state bank : Nat) : State := st [(ROSIN_STATE_STATE, state), (BANK_STATUS_STATE 63, bank)]

/-- Alternating bits: no failure of the continuous tests. -/
def altBits (n : Nat) : List Bool := (List.range n).map fun i => decide (i % 4 < 2)

/-- A reserve above a floor of 0. -/
def reserved : State :=
  { (rosin roReady 0).put ROSIN_CTL_FLOOR 0 with rosin := { State.reset.rosin with reserve := List.replicate 128 1 } }

/-- Peg slot 3 in a state, with limit 5 and count 2. -/
def pegged (ps : PegSt) (l : List (Fld × Nat)) : State := (st ([(KEY_CMD_SLOT_SLOT, 3)] ++ l)).setPeg 3 { Peg.free with st := ps, limit := 5, count := 2 }

/-- A ceremony of a kind, 2 of 8, with a share or not; a card's session is open. -/
def ceremony (kind : Nat) (shares : List Share) : State :=
  let s := st [(CARD_STATUS_SESSION, 1), (CARD_STATUS_PINOK, 1), (CER_STATE_STATE, 1), (CER_CTL_K, 2), (CER_CTL_N, 8)]
  { s with key := { s.key with cer := some ⟨kind, 2, 8, 32, 3, 0, [], [], shares, [1]⟩ } }

/-- Block 32 on plane 0 with a command's fields and what the planes do. -/
def cased (l : List (Fld × Nat)) (w : List DieOp) (r a : List (Nat × DieOp)) : State :=
  let s := st ([(CASE_CMD_ADDR_BLOCK, 100), (CASE_CMD_LEN_LEN, 64)] ++ l)
  { s with die := { s.die with waiting := w, running := r, asleep := a } }

def readOp : DieOp := ⟨0, 100, 0, .read 64⟩

def eraseOp : DieOp := ⟨3, 100, 0, .erase⟩

def programOp : DieOp := ⟨3, 100, 0, .program 0 [1, 2]⟩

/-- A block flagged for refresh, under its grant. -/
def flagged : State :=
  let s := (st [(LEDGER_ACT_HOLDS laREFRESH, 1)]).setBlk 100 { CaseBlk.empty with next := 4, flagged := true }
  { s with led := { s.led with block := some 100 } }

/-- A buffer of `n` records. -/
def buffered (n : Nat) (flush : Option Nat) : State :=
  { State.reset with ev := { State.reset.ev with buf := List.replicate n (⟨.zero, false, false, 0, 0, 0, 0, 0, []⟩, 0), flushN := flush } }

/-- Requests that wait for the ledger. -/
def ledger (l : List LedReq) (h : List (Fld × Nat)) : State := { st h with led := { State.reset.led with waiting := l } }

/-- Quantity 23 enabled with a count of 1 and an action; events of it before. -/
def quantity (action : Nat) (l : List (Fld × Nat)) (q : TQty) : State :=
  let s := st ([(TSRC_CFG_EN 23, 1), (TSRC_CFG_COUNT 23, 1), (TSRC_CFG_ACTION 23, action)] ++ l)
  { s with tamp := { s.tamp with qty := [(23, q)] } }

def noEvents : TQty := ⟨[], [], 0, 0⟩

/-- A fault record open, a FAULT_N pulse that runs to a cycle, a kick half done. -/
def faulty : State :=
  let s := st [(FAULT_NCTL_ASSERTED, 1), (WDOG_CAPO_CTL_EN, 1)]
  { s with flt := { s.flt with open_ := some ⟨5, 2, 0, 0, 0, 0, false, false, false, .zero, 0⟩, pulseEnd := some 900, logNext := 15 },
           wdog := { s.wdog with capoKey := true, modKey := true, capoPaused := none, modPaused := none } }

/-- The external field on for 2 ms and the tag in a state, with ISO-DEP, the application and an UID. -/
def tagged (tg : Nat) (iso app : Bool) : State :=
  let s := st [(PICK_CTL_TAG_EN, 1), (PICK_STATUS_TAGSTATE, tg)]
  { s with clock := 3000000, pick := { s.pick with fdet := true, isoDep := iso, app := app, uid := [8, 1, 2, 3] } }

/-- A session in a state of PICK_SESS, as the reader or the tag. -/
def talking (state : Nat) (reader : Bool) : State :=
  let s := st [(PICK_SESS_STATE, state)]
  { s with pick := { s.pick with sess := some ⟨reader, 0, 0, [], [], [], [], [], 0, 0⟩ } }

/-- The reader that waits. -/
def waits (mode : Nat) : State := st [(PICK_CTL_RDR_EN, 1), (PICK_CTL_PING_EN, 1), (PICK_STATUS_MODE, mode), (PICK_WAIT_CAPTHRESH, 10)]

/-- A copy of one empty record in mirror slot 0, with the mark that covers it. -/
def mirrored (mark : Word32) : State :=
  let s := tagged tgACTIVE true true
  { s with pick := { s.pick with words := [(16, 1), (17, 1), (18, mark)] } }

/-- The port with a card, its state, and a transfer. -/
def carded (state : Nat) (x : Option (Bool × Bytes × Nat)) : State :=
  let s := st [(CARD_STATUS_PRESENT, 1), (CARD_STATUS_STATE, state), (CARD_CTL_EN, 1), (CARD_BUF_LO_ADDR, 0x2000000), (CARD_CMDLEN_LEN, 4)]
  { s with card := { s.card with xfer := x, clockStop := true, t1errs := 2 } }

def cardAtr : Bytes := [0x3B, 0x97, 0x95, 0x81, 0x31, 0xFE, 0x45, 0x80, 0xE5, 0x01, 0x08, 0x40, 0x03, 0x01, 0x27]

/-- The Capo waits in ring 0 with RETAIN asked for; fields put. -/
def dozing (l : List (Fld × Nat)) : State :=
  let s := st l
  { s with procs := [(32, { s.proc 32 with run := .wait })], pwr := { s.pwr with retainReq := true } }

/-- In a power state with a dip's warning, its restored input and the held reset. -/
def dipped (p : PState) (phase : Nat) (r : Option Nat) (held : Bool) : State :=
  let s := st [(PWR_STATUS_PHASE, phase)]
  { s with pstate := p, pwr := { s.pwr with dipAt := some 0, restoredAt := r, resetHeld := held } }

/-- P2 with every wake source enabled. -/
def asleep (alarm : Bool) : State :=
  let s := st [(PWR_WAKEEN_EN, 31)]
  { s with pstate := .p2, pwr := { s.pwr with alarmReset := alarm } }

/-- The lifecycle state, with active module keys where a count of them is given. -/
def aged (lc : Nat) (l : List (Fld × Nat)) : State := st ([(LIFE_STATE_STATE, lc)] ++ l)

/-- A preset image without entries (R545). -/
def noPreset : Bytes := natToBytes 4 0x50533834 ++ List.replicate 12 0 ++ natToBytes 4 0x985CF650

/-- The module's five keys active, a root key. -/
def keyed : State :=
  let s := st [(KEY_STATE_ROOT, 1)]
  { s with key := { s.key with privs := [4090, 4091, 4093, 4094, 4095].map (fun i => (i, { s.priv i with st := .active })) } }

/-- Ready to draw; a challenge, a running image under trial, its commit. -/
def drawn : State := { st [(ROSIN_STATE_STATE, roReady)] with rosin := { State.reset.rosin with reserve := List.replicate 64 1 } }

def trial : State :=
  let s := st [(LIFE_BOOT_TRIAL, 1), (LEDGER_ACT_HOLDS laCOMMIT, 1), (LIFE_CMD_ARG_SLOT, 1), (LIFE_BUF_LO_ADDR, 0x2000000), (LIFE_BUF_LEN_LEN, 8)]
  { s with lcs := { s.lcs with chalAt := some 7, running := some 3, commits := [⟨ckCOMMIT, 0, 3, 1, 1, 8, []⟩] } }

/-- Frame 1 of 64 octets in a stage, with a view, entry 5 listed. -/
def framed5 (e : TableEntry) (v : MsgView) (stage : FrameStage) : State :=
  let s := withEntry State.reset e
  { s with data := { s.data with frames := [⟨1, 0, List.replicate 64 0, v, 0, 0, stage⟩] } }

/-- A well-formed R-SV message without a security extension. -/
def plainView : MsgView := { (default : MsgView) with wellFormed := true, parsable := true, seqNo := 9, asdus := [⟨[], 0, []⟩] }

/-- A GOOSE publication entry with key A in Peg slot 7, epoch 2. -/
def pubEntry : TableEntry :=
  eput (eput (eput (eput (eput (List.replicate 16 0) eV 1) eROLE rlPUBLISH) eAV 1) eSLOTA 7) eEPOCHA 2

/-- A GOOSE subscription entry with key A in Peg slot 7, epoch 2. -/
def subEntry : TableEntry := eput (eput (eput (eput (List.replicate 16 0) eV 1) eAV 1) eSLOTA 7) eEPOCHA 2

/-- Peg slot 7 active, resident, for signing and verification. -/
def peg7 (s : State) : State :=
  s.setPeg 7 { Peg.free with st := .active, limit := 9, epoch := 2, use := 2 ^ useSIGN + 2 ^ useVERIFY, resident := true, kalg := kaAES128 }

/-- Bits of a linear-feedback register: no start-up test fails. -/
def mixBits : List Bool :=
  ((List.range 8192).foldl (fun (x : Nat × List Bool) _ =>
    (x.1 / 2 + 2 ^ 15 * ((x.1 + x.1 / 4 + x.1 / 8 + x.1 / 32) % 2), decide (x.1 % 2 = 1) :: x.2)) (0xACE1, [])).2

/-! ## Well-formedness: an ill-formed command for each check -/

/-- No error anywhere on an access's way. -/
def noEnv : FabEnv := ⟨none, none, 0, 0, false, none⟩

/-- Diurn rows with a processor that does not exist; jobs on cell 16, commands on engine 4, jobs on core 8. -/
theorem test_illFormed_rows : (diurnRows 33).all (fun r => !(wellFormed r.instr)) = true ∧
    jobRows.all (fun r => !(wellFormed (r.1 16 0 .none))) = true ∧ veRows.all (fun r => !(wellFormed (r.1 4 0x40 0))) = true ∧
    veRows.all (fun r => !(wellFormed (r.1 0 0x44 0))) = true ∧ digRows.all (fun r => !(wellFormed (r.1 8 false))) = true := by
  decide +kernel

theorem test_illFormed_1 : ([.enginePreWake 32, .budgetExceeded 32, .requestTimeout 64, .ptpMessageRx 0 4 .malformed, .ptpSyncTx 4,
    .registerWrite 0x44 0 .w32 0, .registerWrite 0x40 67108864 .w32 0, .counterLoRead 0x44 0,
    .counterLoRead 0x40 67108864, .dualStoredRead 0x44 0 none, .dualStoredRead 0x40 67108864 none,
    .fabricAccess 0x44 (.internal 0) (.read 8) noEnv, .sramWriteback 1099511627776,
    .scrubRead 8 1099511627775 .clean, .scrubRead 7 1099511627776 .clean, .nutCommit 256, .interruptEntry 33,
    .intcHoldoffExpiry 64, .feCtlWrite 32 0, .feConfigWrite 32 2047 0, .feConfigWrite 31 2048 0, .portCtlWrite 4 0,
    .portLinkChange 4 default, .pairCtlWrite 2 0, .portFrameRx 4 default, .prpSupervisionTx 2, .bowVerify 0 8,
    .pegBlobLoad 262144 noEnv, .assocCmdUnassigned 16, .portStatusRead 4, .bowKatRun 8 false,
    .fnSplitWrite 64 false 0, .functionLevelReset 64, .flrComplete 64, .queueCfgWrite 65536 0,
    .doorbellWrite 65536 4095 .w32 0] : List Instr).all (fun i => !(wellFormed i)) = true := by decide +kernel

theorem test_illFormed_2 : ([.doorbellWrite 65535 4096 .w32 0, .deliverySlotFetch 65536, .submissionComplete 65536,
    .hostReadError 65536 false, .msixFire 2048, .releaseSignSend 64 7, .releaseSignSend 63 8,
    .cellDispatch 16 false, .jobCompletion 1032 0, .cellClearDone 16, .cellKatRun 16 false, .cellOfflineWrite 16 0,
    .cellStatusRead 16, .jrProdWrite 0x44 1031 0, .jrProdWrite 0x40 1032 0, .jrCfgWrite 0x44 1031 255 0,
    .jrCfgWrite 0x40 1032 255 0, .jrCfgWrite 0x40 1031 256 0, .ringAbort 1032, .jobTimeout 1032 0,
    .entropyRefill 16 0 0, .lmsReserve 4096, .veOwnerWrite 0x44 3 255 0, .veOwnerWrite 0x40 4 255 0,
    .veOwnerWrite 0x40 3 256 0, .veOpUnassigned 4 0x40 0, .veOpUnassigned 3 0x44 0, .veCommandEnd 4, .veTimeout 4,
    .veAbort 4 0x40, .veAbort 3 0x44, .veKatRun 4 false, .digestOpUnassigned 8, .digKatRun 8 false,
    .startupWindowEnd 64 [], .aptWindowEnd 64 []] : List Instr).all (fun i => !(wellFormed i)) = true := by decide +kernel

theorem test_illFormed_3 : ([.healthWindowEnd 64 [], .trimLimit 64, .conditionerBlock 4, .entropyGrant 6, .rosinPullGo 0x44,
    .rosinPullRead 0x44 15, .rosinPullRead 0x40 16, .reservePeg 0x44, .importGke 0x44, .erasePeg 0x44,
    .infoPeg 0x44, .lowerLimit 0x44, .derive 0x44, .reservePriv 0x44, .importPriv 0x44, .destroyPriv 0x44,
    .infoPriv 0x44, .rekeyRoot 0x44, .keyCmdUnassigned 0x44 15, .keyCmdUnassigned 0x40 16, .shareIn 0x44 0,
    .shareOut 0x44 0, .authorise 0x44 0, .cerStep 0x44 0 .confirmed, .cerAbort 0x44 0, .caseRead 0x44,
    .caseProgram 0x44, .caseErase 0x44, .readTuning 0x44, .blockinfo 0x44, .relocate 0x44,
    .caseCmdUnassigned 0x44 15, .caseCmdUnassigned 0x40 16, .casePlaneDispatch 4, .caseDieOpDone 4 .failed 0,
    .readCacheFill 2048 .failed 0 0] : List Instr).all (fun i => !(wellFormed i)) = true := by decide +kernel

theorem test_illFormed_4 : ([.caseRefresh 512, .caseGenWrite 8 2 0, .caseGenWrite 7 3 0, .eventRecordEnter 512 65535 255 [],
    .eventRecordEnter 511 65536 255 [], .eventRecordEnter 511 65535 256 [], .evrecPut 0x44 0, .evrecClear 0x44,
    .evrecWindowRead 0x44 0, .ledgerRequest 0x44 6, .ledgerRequest 0x40 7, .ledgerRelease 0x44 6,
    .ledgerRelease 0x40 7, .tamperDetection 24 false 0 [], .tamperRearm 24, .pairDisagreement 24 false,
    .tamperStickyClr 0x44, .tamperForce 24 0, .faultForce 10 0, .faultNctlRelease 0x44, .wdogCapoKick 0x44 0,
    .wdogModKick 0x44 0, .wake 9 180, .wake 8 181, .wakeFail 9, .supplyWarning 131072 131071,
    .supplyWarning 131071 131072, .supplyShed 131072, .inputRestored 131072 131071, .inputRestored 131071 131072,
    .overvoltage 131072, .coldBoot 131072 131071 default, .coldBoot 131071 131072 default, .softwareReset 0x44,
    .provision 0x44 [] default, .seal 0x44] : List Instr).all (fun i => !(wellFormed i)) = true := by decide +kernel

theorem test_illFormed_5 : ([.retire 0x44, .debugChallenge 0x44, .debugOpen 0x44, .debugClose 0x44, .commitImage 0x44, .confirmImage 0x44,
    .writePreset 0x44, .lifeCmdUnassigned 0x44 15, .lifeCmdUnassigned 0x40 16, .debugAccess 0x40 .secret,
    .debugHalt 0x40 32, .debugHalt 0x70 33, .tagSelectAid 256 [], .abort 256, .cardXfer 0x44 false none,
    .unassignedOpcode 33, .holdupCheck 131072, .refreshAgeFlag 512, .msixUnmask 2048, .pdelayReqTx 4] : List Instr).all (fun i => !(wellFormed i)) = true := by decide +kernel

/-! ## The Diurn instruction set -/

theorem witness_DiurnInstructionsRun :
    (∃ i c, (eng [iw 0o001 0 0 0]).Decodes 0 0o001 (dNone 0) i c ∧ anyB (nopBody i c) = true) ∧
    (∃ i c, (eng [iw 0o101 96 7 (sr 4), 0x20000]).Decodes 0 0o101 (dBin 1) i c ∧
      excB (aluBody (dBin 1) false (fun a b _ _ => aluAdd 36 a b 0) i c) (fun _ => true) = true) ∧
    ((engWith [] fun p => { p with pc := 0x10000 }).canStep 0 = true ∧
      excB (((engWith [] fun p => { p with pc := 0x10000 }).cx 0).fetch 0x10000) (fun e => decide (e.detail = 0x40)) = true) ∧
    ((eng [iw 0o101 5 7 5]).canStep 0 = true ∧ okB (((eng [iw 0o101 5 7 5]).cx 0).fetch 0x8100) (fun w c =>
      decide (w / 2 ^ 27 = 0o101) && excB (({ c with first := w } : Cx).decode w (dBin 1)) fun e => decide (e.detail = 0x05)) = true) :=
  ⟨decodesB_iff (by decide +kernel), decodesB_iff (by decide +kernel), by decide +kernel, by decide +kernel⟩

theorem witness_UnassignedOpcodeRaisesIllegal :
    (eng [iw 0o700 0 0 0]).canStep 0 = true ∧
      okB (((eng [iw 0o700 0 0 0]).cx 0).fetch 0x8100) (fun w _ => !(opAssigned 0 3 (w / 2 ^ 27))) = true ∧
      opAssigned 0 3 0o607 = true ∧ opAssigned 0 1 0o607 = false := by decide +kernel

theorem rows_mem : addRow ∈ aluRows 0 ∧ divRow ∈ aluRows 0 ∧ dcmpRow ∈ aluRows 0 := by
  simp [aluRows, aluRows1, aluRows2, addRow, divRow, dcmpRow]

/-- An exception due, an opcode without C, a result written, a write that fails, and C = SW. -/
theorem witness_AluRowsCompute :
    (∃ i c o a b cv c', (engWith [iw 0o111 5 0 (sr 4)] fun p => { p with sw := p.sw ||| 0x20000000 }).Decodes 0 divRow.code divRow.desc i c ∧
      divRow.Reads i c o a b cv c' ∧ (aluExc c'.pr (divRow.f a b cv c'.pr)).isSome = true) ∧
    (∃ i c o a b cv c', (eng [iw 0o407 5 5 0]).Decodes 0 dcmpRow.code dcmpRow.desc i c ∧
      dcmpRow.Reads i c o a b cv c' ∧ (aluExc c'.pr (dcmpRow.f a b cv c'.pr)).isNone = true) ∧
    (∃ i c o a b cv c', (eng [iw 0o101 5 7 (sr 4)]).Decodes 0 addRow.code addRow.desc i c ∧ addRow.Reads i c o a b cv c' ∧
      ((aluExc c'.pr (addRow.f a b cv c'.pr)).isNone && anyB (c'.put o.c .w (addRow.f a b cv c'.pr).val 3)) = true) ∧
    (∃ i c o a b cv c', (eng [iw 0o101 5 7 96, 0x20000]).Decodes 0 addRow.code addRow.desc i c ∧ addRow.Reads i c o a b cv c' ∧
      ((aluExc c'.pr (addRow.f a b cv c'.pr)).isNone && excB (c'.put o.c .w (addRow.f a b cv c'.pr).val 3) fun _ => true) = true) ∧
    (∃ i c o a b cv c', (eng [iw 0o101 5 7 (sr 2)]).Decodes 0 addRow.code addRow.desc i c ∧ addRow.Reads i c o a b cv c' ∧
      (decide (o.c = .spr 2) && anyB (({ c' with tset := false } : Cx).put o.c .w (addRow.f a b cv c'.pr).val 3)) = true) :=
  ⟨aluB_iff (k := fun a b cv _ c' => (aluExc c'.pr (divRow.f a b cv c'.pr)).isSome) (by decide +kernel),
   aluB_iff (k := fun a b cv _ c' => (aluExc c'.pr (dcmpRow.f a b cv c'.pr)).isNone) (by decide +kernel),
   aluB_iff (k := fun a b cv o c' => (aluExc c'.pr (addRow.f a b cv c'.pr)).isNone &&
      anyB (c'.put o.c .w (addRow.f a b cv c'.pr).val 3)) (by decide +kernel),
   aluB_iff (k := fun a b cv o c' => (aluExc c'.pr (addRow.f a b cv c'.pr)).isNone &&
      excB (c'.put o.c .w (addRow.f a b cv c'.pr).val 3) fun _ => true) (by decide +kernel),
   aluB_iff (k := fun a b cv o c' => decide (o.c = .spr 2) &&
      anyB (({ c' with tset := false } : Cx).put o.c .w (addRow.f a b cv c'.pr).val 3)) (by decide +kernel)⟩

theorem witness_AluRegisterFormFrame :
    ∃ i c, (eng [iw 0o101 5 (sr 3) (sr 4)]).Decodes 0 0o101 (dBin 1) i c ∧
      (decide (specMode i.a ≤ 2 ∧ specMode i.b ≤ 2 ∧ specMode i.c = 2) &&
        anyB (aluBody (dBin 1) false (fun a b _ _ => aluAdd 36 a b 0) i c)) = true :=
  decodesB_iff (k := fun i c => decide (specMode i.a ≤ 2 ∧ specMode i.b ≤ 2 ∧ specMode i.c = 2) &&
    anyB (aluBody (dBin 1) false (fun a b _ _ => aluAdd 36 a b 0) i c)) (by decide +kernel)

/-- 5 + 7, 5 − 7 with a borrow, and the flags (R153). -/
theorem test_add_sub : after (.add 0) (eng [iw 0o101 5 7 (sr 4)]) 4 = some 12 ∧
    (aluSub 36 5 7 0).val = 2 ^ 36 - 2 ∧ (aluSub 36 5 7 0).c = some true ∧ (aluAdd 36 (2 ^ 36 - 1) 1 0).c = some true ∧
    (aluAdd 36 (2 ^ 35 - 1) 1 0).v = some true := by decide +kernel

/-- Shifts at the counts where R157 changes its rule. -/
theorem test_shift_counts : (aluShl 1 36).c = some true ∧ (aluShl 1 37).c = some false ∧ (aluSar 36 (2 ^ 35) 40).val = 2 ^ 36 - 1 ∧
    (aluRol 1 36).val = 1 ∧ (aluRol 1 36).c = some false ∧ (aluRol (2 ^ 35) 1).c = some true := by decide +kernel

/-- Truncation toward zero and the sign of a remainder (R156); fields and halves (R158, R159). -/
theorem test_div_fields : (aluDiv (2 ^ 36 - 7) 2).val = 2 ^ 36 - 3 ∧ (aluRem (2 ^ 36 - 7) 2).val = 2 ^ 36 - 1 ∧
    (aluExt 0xABC (64 * 4 + 4)).val = 0xB ∧ (aluExts 0x80 (64 * 4 + 4)).val = 2 ^ 36 - 8 ∧ (aluHswp 1).val = 2 ^ 18 := by decide +kernel

/-- The hypotheses of ShiftRule, ArithmeticValues and FieldAndHalfValues at their boundary values. -/
theorem witness_values : (0 : Nat) < 2 ^ 36 ∧ (2 ^ 36 - 1 : Nat) < 2 ^ 36 ∧ ¬ ((2 ^ 35 : Nat) = 2 ^ 35 ∧ (1 : Nat) = 2 ^ 36 - 1) ∧
    toSigned 72 (2 ^ 71) < -2 ^ 35 ∧ (2 ^ 35 : Int) ≤ toSigned 72 (2 ^ 35) ∧ toSigned 72 (2 ^ 35 - 1) < 2 ^ 35 ∧
    toSigned 36 (2 ^ 35) = -34359738368 ∧ toSigned 36 5 ≠ -34359738368 := by decide +kernel

theorem witness_ControlTransferRows :
    (∃ i c o v c', (engWith [iw 0o010 wi 0 0, 0x8200] fun p => { p with sw := p.sw ||| 0x400000000 }).Decodes 0 0o010 (dA 1) i c ∧
      c.ReadsA (dA 1) i o v c' ∧ decide (v < 2 ^ 24 ∧ (if c'.tset then c'.pr.setBit 30 true else c'.pr).flagZ = true) = true) ∧
    (∃ i c o v c', (engWith [iw 0o010 wi 0 0, 2 ^ 24] fun p => { p with sw := p.sw ||| 0x400000000 }).Decodes 0 0o010 (dA 1) i c ∧
      c.ReadsA (dA 1) i o v c' ∧ decide (2 ^ 24 ≤ v ∧ (if c'.tset then c'.pr.setBit 30 true else c'.pr).flagZ = true) = true) ∧
    (∃ i c o v c', (eng [iw 0o010 wi 0 0, 0x8200]).Decodes 0 0o010 (dA 1) i c ∧ c.ReadsA (dA 1) i o v c' ∧
      decide ((if c'.tset then c'.pr.setBit 30 true else c'.pr).flagZ = false) = true) ∧
    (∃ i c o v c', (eng [iw 0o002 wi 0 0, 2 ^ 24 - 1]).Decodes 0 0o002 (dA 1) i c ∧ c.ReadsA (dA 1) i o v c' ∧ decide (v < 2 ^ 24) = true) ∧
    (∃ i c o v c', (eng [iw 0o002 wi 0 0, 2 ^ 24]).Decodes 0 0o002 (dA 1) i c ∧ c.ReadsA (dA 1) i o v c' ∧ decide (2 ^ 24 ≤ v) = true) ∧
    (∃ i c o v c', (eng [iw 0o003 wi 0 0, 0x8200]).Decodes 0 0o003 (dA 2) i c ∧ c.ReadsA (dA 2) i o v c' ∧
      (decide (v < 2 ^ 24 ∧ c'.pr.spv ≠ 0) && anyB (c'.write (c'.pr.spv - 1) i.next 0)) = true) ∧
    (∃ i c, (eng [iw 0o004 0 0 0]).Decodes 0 0o004 (dNone 2) i c ∧ okB (c.pop c.pr.spv) (fun v _ => decide (v < 2 ^ 24)) = true) ∧
    ((eng []).cx 0).writes = [] :=
  ⟨aB_iff (k := fun _ _ v c' => decide (v < 2 ^ 24 ∧ (if c'.tset then c'.pr.setBit 30 true else c'.pr).flagZ = true)) (by decide +kernel),
   aB_iff (k := fun _ _ v c' => decide (2 ^ 24 ≤ v ∧ (if c'.tset then c'.pr.setBit 30 true else c'.pr).flagZ = true)) (by decide +kernel),
   aB_iff (k := fun _ _ _ c' => decide ((if c'.tset then c'.pr.setBit 30 true else c'.pr).flagZ = false)) (by decide +kernel),
   aB_iff (k := fun _ _ v _ => decide (v < 2 ^ 24)) (by decide +kernel), aB_iff (k := fun _ _ v _ => decide (2 ^ 24 ≤ v)) (by decide +kernel),
   aB_iff (k := fun i _ v c' => decide (v < 2 ^ 24 ∧ c'.pr.spv ≠ 0) && anyB (c'.write (c'.pr.spv - 1) i.next 0)) (by decide +kernel),
   decodesB_iff (by decide +kernel), by decide +kernel⟩

/-- A taken branch, a call and its return address, an untaken branch (R148, R149). -/
theorem test_control : after (.jmp 0) (eng [iw 0o002 wi 0 0, 0x8200]) 1 = some 0x8200 ∧
    after (.call 0) (eng [iw 0o003 wi 0 0, 0x8200]) 3 = some 0x87FF ∧ after (.beq 0) (eng [iw 0o010 wi 0 0, 0x8200]) 1 = some 0x8102 := by
  decide +kernel

theorem witness_LoopRows :
    (∃ i c o n e c', (engWith [iw 0o005 5 wi 0, 0x8200] (inLoop 4)).Decodes 0 0o005 ⟨some .w, some .w, none, false, 2⟩ i c ∧
      c.ReadsAB ⟨some .w, some .w, none, false, 2⟩ i o n e c' ∧ decide (4 ≤ c'.pr.ldepth) = true) ∧
    (∃ i c o n e c', (eng [iw 0o005 wi wi 0, 2 ^ 24, 0x8200]).Decodes 0 0o005 ⟨some .w, some .w, none, false, 2⟩ i c ∧
      c.ReadsAB ⟨some .w, some .w, none, false, 2⟩ i o n e c' ∧ decide (c'.pr.ldepth < 4 ∧ 2 ^ 24 ≤ n) = true) ∧
    (∃ i c o n e c', (eng [iw 0o005 5 wi 0, 0x8102]).Decodes 0 0o005 ⟨some .w, some .w, none, false, 2⟩ i c ∧
      c.ReadsAB ⟨some .w, some .w, none, false, 2⟩ i o n e c' ∧ decide (c'.pr.ldepth < 4 ∧ n < 2 ^ 24 ∧ e ≤ i.next) = true) ∧
    (∃ i c o n e c', (eng [iw 0o005 0 wi 0, 0x8200]).Decodes 0 0o005 ⟨some .w, some .w, none, false, 2⟩ i c ∧
      c.ReadsAB ⟨some .w, some .w, none, false, 2⟩ i o n e c' ∧ decide (c'.pr.ldepth < 4 ∧ n = 0 ∧ e < 2 ^ 24 ∧ i.next < e) = true) ∧
    (∃ i c o n e c', (engWith [iw 0o005 wi wi 0, 2 ^ 24 - 1, 0x8200] (inLoop 3)).Decodes 0 0o005 ⟨some .w, some .w, none, false, 2⟩ i c ∧
      c.ReadsAB ⟨some .w, some .w, none, false, 2⟩ i o n e c' ∧
      decide (c'.pr.ldepth < 4 ∧ 0 < n ∧ n < 2 ^ 24 ∧ e < 2 ^ 24 ∧ i.next < e) = true) ∧
    (∃ i c, (eng [iw 0o006 0 0 0]).Decodes 0 0o006 (dNone 1) i c ∧ decide (c.pr.ldepth = 0) = true) ∧
    (∃ i c, (engWith [iw 0o006 0 0 0] (inLoop 2)).Decodes 0 0o006 (dNone 1) i c ∧ decide (0 < c.pr.ldepth) = true) ∧
    (∃ i c, (eng [iw 0o024 0 0 0]).Decodes 0 0o024 (dNone 1) i c ∧ true = true) ∧
    (inLoop 1 (Proc.reset 0)).ldepth = 0 + 1 ∧ ((inLoop 1 (Proc.reset 0)).le.getD 0 0).toNat = 0x8101 ∧
      1 < ((inLoop 1 (Proc.reset 0)).lc.getD 0 0).toNat ∧ 0 < (inLoop 1 (Proc.reset 0)).lx.length :=
  ⟨abB_iff (k := fun _ _ _ _ c' => decide (4 ≤ c'.pr.ldepth)) (by decide +kernel),
   abB_iff (k := fun _ _ n _ c' => decide (c'.pr.ldepth < 4 ∧ 2 ^ 24 ≤ n)) (by decide +kernel),
   abB_iff (k := fun i _ n e c' => decide (c'.pr.ldepth < 4 ∧ n < 2 ^ 24 ∧ e ≤ i.next)) (by decide +kernel),
   abB_iff (k := fun i _ n e c' => decide (c'.pr.ldepth < 4 ∧ n = 0 ∧ e < 2 ^ 24 ∧ i.next < e)) (by decide +kernel),
   abB_iff (k := fun i _ n e c' => decide (c'.pr.ldepth < 4 ∧ 0 < n ∧ n < 2 ^ 24 ∧ e < 2 ^ 24 ∧ i.next < e)) (by decide +kernel),
   decodesB_iff (k := fun _ c => decide (c.pr.ldepth = 0)) (by decide +kernel),
   decodesB_iff (k := fun _ c => decide (0 < c.pr.ldepth)) (by decide +kernel),
   decodesB_iff (k := fun _ _ => true) (by decide +kernel), by decide +kernel⟩

/-- LOOP opens a level whose LC reads the count; the end check goes back to LS (R135, R136). -/
theorem test_loop : after (.loop 0) (eng [iw 0o005 3 wi 0, 0x8200]) 20 = some 3 ∧
    after (.nop 0) (engWith [iw 0o001 0 0 0] fun p => { inLoop 1 p with ls := [0x80F0, 0, 0, 0] }) 1 = some 0x80F0 := by decide +kernel

theorem witness_StackRows :
    (∃ i c o v c', (eng [iw 0o040 5 0 0]).Decodes 0 0o040 (dA 1) i c ∧ c.ReadsA (dA 1) i o v c' ∧
      (decide (c'.pr.spv ≠ 0) && anyB (c'.write (c'.pr.spv - 1) v 0)) = true) ∧
    (∃ i c o v c', (engWith [iw 0o040 5 0 0] fun p => { p with sp := [0, 0, 0, 0] }).Decodes 0 0o040 (dA 1) i c ∧
      c.ReadsA (dA 1) i o v c' ∧ decide (c'.pr.spv = 0) = true) ∧
    (∃ i c, (eng [iw 0o041 0 0 (sr 4)]).Decodes 0 0o041 (dC 1) i c ∧ okB (c.phase1 (dC 1) i) (fun o c1 =>
      decide (c1.pr.spv + 1 ≠ 2 ^ 24) && okB (c1.read c1.pr.spv 0) fun v c2 => anyB ((c2.setSp (c2.pr.spv + 1)).put o.c .w v 3)) = true) ∧
    (∃ i c, (engWith [iw 0o041 0 0 (sr 4)] fun p => { p with sp := [0, 0, 0, 0xFFFFFF] }).Decodes 0 0o041 (dC 1) i c ∧
      okB (c.phase1 (dC 1) i) (fun _ c1 => decide (c1.pr.spv + 1 = 2 ^ 24)) = true) ∧
    (∃ i c o v c', (eng [iw 0o042 wi 0 0, 2 ^ 24]).Decodes 0 0o042 (dA 2) i c ∧ c.ReadsA (dA 2) i o v c' ∧ decide (2 ^ 24 ≤ v) = true) ∧
    (∃ i c o v c', (eng [iw 0o042 5 0 0]).Decodes 0 0o042 (dA 2) i c ∧ c.ReadsA (dA 2) i o v c' ∧
      (decide (v < 2 ^ 24) && okB (c'.push c'.pr.fp.toNat) fun sp _ => decide (v ≤ sp)) = true) ∧
    (∃ i c, (engWith [iw 0o043 0 0 0] fun p => { p with fp := 0x8102 }).Decodes 0 0o043 (dNone 2) i c ∧
      okB (c.pop c.pr.fp.toNat) (fun v _ => decide (v < 2 ^ 24)) = true) ∧
    (∃ i c, (engWith [iw 0o043 0 0 0, 0, 2 ^ 24] fun p => { p with fp := 0x8102 }).Decodes 0 0o043 (dNone 2) i c ∧
      okB (c.pop c.pr.fp.toNat) (fun v _ => decide (2 ^ 24 ≤ v)) = true) ∧
    ((eng []).cx 0).pr.priv < ((eng []).cx 0).pr.sp.length :=
  ⟨aB_iff (k := fun _ _ v c' => decide (c'.pr.spv ≠ 0) && anyB (c'.write (c'.pr.spv - 1) v 0)) (by decide +kernel),
   aB_iff (k := fun _ _ _ c' => decide (c'.pr.spv = 0)) (by decide +kernel), decodesB_iff (by decide +kernel), decodesB_iff (by decide +kernel),
   aB_iff (k := fun _ _ v _ => decide (2 ^ 24 ≤ v)) (by decide +kernel),
   aB_iff (k := fun _ _ v c' => decide (v < 2 ^ 24) && okB (c'.push c'.pr.fp.toNat) fun sp _ => decide (v ≤ sp)) (by decide +kernel),
   decodesB_iff (by decide +kernel), decodesB_iff (by decide +kernel), by decide +kernel⟩

/-- PUSH moves SP down by one and stores there; POP takes the word back (R149). -/
theorem test_push : after (.push 0) (eng [iw 0o040 5 0 0]) 3 = some 0x87FF ∧
    thenB (exec (.push 0) (eng [iw 0o040 5 0 0])) (fun t => decide (bytesToNat (t.peek (8 * 0x87FF) 8) = 5)) = true := by decide +kernel

theorem witness_GateAndReturnRows_empty :
    decodesB (eng [iw 0o022 0 0 0]) 0 0o022 (dNone 0) (fun _ c => decide (c.pr.depth.getD (c.pr.world c.p) 0 = 0)) = true := by decide +kernel

theorem witness_GateAndReturnRows_kind :
    blockB 0o022 (2 ^ 34 * 2) 3 (fun _ b _ => decide (2 ≤ b.getD 22 0 / 2 ^ 34)) = true ∧
    blockB 0o021 0 3 (fun _ b _ => decide (b.getD 22 0 / 2 ^ 34 ≠ 2)) = true := by decide +kernel

theorem witness_GateAndReturnRows_priv :
    blockB 0o022 0 3 (fun _ b c1 => decide (b.getD 22 0 / 2 ^ 34 < 2 ∧ b.getD 22 0 / 2 ^ 32 % 4 ≠ c1.pr.priv)) = true := by decide +kernel

theorem witness_GateAndReturnRows_value :
    blockB 0o022 (2 ^ 32 * 3) (3 + 2 ^ 17 * 5) (fun _ b c1 => decide (b.getD 22 0 / 2 ^ 32 % 4 = c1.pr.priv) &&
      blockRefused c1.p c1.pr.priv b true) = true := by decide +kernel

theorem witness_GateAndReturnRows_return :
    blockB 0o022 (2 ^ 32 * 3) 3 (fun _ b c1 => decide (b.getD 22 0 / 2 ^ 32 % 4 = c1.pr.priv) &&
      !(blockRefused c1.p c1.pr.priv b true)) = true ∧
    blockB 0o021 (2 ^ 34 * 2 + 2 ^ 32 * 3) 3 (fun _ b c1 => decide (b.getD 22 0 / 2 ^ 34 = 2 ∧ b.getD 22 0 / 2 ^ 32 % 4 = c1.pr.priv)) = true := by
  decide +kernel

theorem witness_GateAndReturnRows_gates :
    aB (station 0 [iw 0o020 wi 0 0, 62]) 0o020 (dA 0) (fun _ _ g c1 => decide (c1.p = 0 ∧ c1.pr.priv < 2 ∧ g ≤ 62)) = true ∧
    aB (eng [iw 0o020 wi 0 0, 128]) 0o020 (dA 0) (fun _ _ g c1 => decide (c1.pr.priv = 3 ∧ 128 ≤ g ∧ g ≤ 135 ∧
      c1.s.on (FE_SENTRY_V 0 (g - 128)) = false)) = true ∧
    aB ((eng [iw 0o020 wi 0 0, 135]).put (FE_SENTRY_V 0 7) 1) 0o020 (dA 0) (fun _ _ g c1 => decide (c1.pr.priv = 3 ∧ 128 ≤ g ∧ g ≤ 135 ∧
      c1.s.on (FE_SENTRY_V 0 (g - 128)) = true)) = true ∧
    aB (station 1 [iw 0o020 wi 0 0, 128]) 0o020 (dA 0) (fun _ _ g c1 => decide (c1.pr.priv < 2 ∧ 128 ≤ g)) = true ∧
    aB (station 1 [iw 0o020 wi 0 0, 64]) 0o020 (dA 0) (fun _ _ g c1 => decide (c1.pr.priv = 1 ∧ 64 ≤ g ∧ g ≤ 127)) = true := by decide +kernel

theorem witness_GateAndReturnRows_capo :
    decodesB (capo [iw 0o020 wi 0 0, 5000]) 32 0o020 (dA 0) (readsAB1 (dA 0) fun _ _ g c1 => decide (c1.p = 32) &&
      decide (c1.s.get CAPO_GATES_COUNT ≤ g)) = true := by decide +kernel

theorem witness_EntrySavesTheBlockAndStartsTheHandler :
    (((eng []).cx 0).enter ((eng []).proc 0) sampleEntry).1 = true ∧ sampleEntry.chain < ((eng []).proc 0).tsb.length ∧
    sampleEntry.chain < ((eng []).proc 0).depth.length ∧ sampleEntry.hpriv < 4 ∧ sampleEntry.ipl.getD ((eng []).proc 0).ipl < 16 ∧
    (((Proc.reset 0).tsb.getD 1 0).toNat : Int) - 24 < (((Proc.reset 0).tsl.getD 1 0).toNat : Int) := by decide +kernel

theorem witness_OctetRows :
    decodesB (engWith [iw 0o500 (0xC * 32 + 28) 1 (sr 28), 0x8103, octWord, octWord] id) 0 0o500 ⟨some .o, some .w, some .w, false, 1⟩
      (fun i c => okB (c.phase1 ⟨some .o, some .w, some .w, false, 1⟩ i) fun o c1 => okB (c1.getOpt o.b (some .w) 2) fun n c2 =>
        okB (c2.octets o.a 0 0 (min n 4)) fun v c3 =>
          anyB (c3.aluEnd ⟨some .o, some .w, some .w, false, 1⟩ o ⟨v, some false, some (decide (v = 0)), none, none, false⟩ i.next)) = true ∧
    decodesB (engWith [iw 0o501 5 1 (0xC * 32 + 28), 0x8800] id) 0 0o501 ⟨some .w, some .w, some .o, false, 1⟩
      (fun i c => okB (c.phase1 ⟨some .w, some .w, some .o, false, 1⟩ i) fun o c1 => okB (c1.getOpt o.a (some .w) 1) fun a c2 =>
        okB (c2.getOpt o.b (some .w) 2) fun n c3 => match o.c with
          | .oct b k => anyB (c3.putOctets b k a (min n 4) 0 (min n 4))
          | _ => false) = true ∧
    decodesB (engWith [iw 0o501 5 1 (sr 28)] id) 0 0o501 ⟨some .w, some .w, some .o, false, 1⟩
      (fun i c => okB (c.phase1 ⟨some .w, some .w, some .o, false, 1⟩ i) fun o c1 => okB (c1.getOpt o.a (some .w) 1) fun a c2 =>
        okB (c2.getOpt o.b (some .w) 2) fun n c3 => decide (o.c = .spr 28) && anyB (c3.put o.c .w (octetsWord a (min n 4) (min n 4)) 3)) = true ∧
    decodesB (engWith [iw 0o502 (0xC * 32 + 28) 0 (sr 28), 0x8103, octWord, octWord] id) 0 0o502 ⟨some .o, none, some .w, false, 3⟩
      (fun i c => okB (c.phase1 ⟨some .o, none, some .w, false, 3⟩ i) fun o c1 => okB (c1.octets o.a 0 0 1) fun x c2 =>
        decide (berUsed x = 2) && okB (c2.octets o.a 0 1 (berUsed x - 1)) fun rest c3 => decide (rest = 5) &&
          anyB (c3.aluEnd ⟨some .o, none, some .w, false, 3⟩ o ⟨2 ^ 24 * 2 + 5, some false, some false, some false, none, false⟩ i.next)) = true := by
  decide +kernel

theorem witness_TickInstructionRows :
    decodesB (eng [iw 0o600 0 0 0]) 0 0o600 (dNone 3) (fun _ _ => true) = true ∧
    decodesB (eng [iw 0o601 0 0 (sr 4)]) 0 0o601 (dC 1) (fun i c => okB (c.phase1 (dC 1) i) fun o c1 =>
      anyB (c1.aluEnd (dC 1) o (outNZ 36 (ofInt 36 ((c1.s.get TICK_WORK_W : Int) -
        (((c1.s.procStart c1.p + c1.cost : Nat) : Int) - c1.s.time.edge))) (some false) none) i.next)) = true ∧
    stageB (eng [iw 0o605 5 1 (sr 4)]) 0o605 4 (fun _ _ _ => true) = true ∧
    stageB (eng [iw 0o606 5 wi (sr 4), 0x8200]) 0o606 6 (fun _ b c' => decide (b < 2 ^ 24) && anyB (c'.readWords b 8)) = true ∧
    stageB ((eng [iw 0o604 5 wi (sr 4), 0x8200]).put (rgMID 5) (midOf 0 3)) 0o604 6 (fun a b c' =>
      decide (a < 1032 ∧ c'.s.ringOwner a = midOf c'.p c'.pr.priv ∧ b < 2 ^ 24) && anyB (c'.readWords b 16)) = true ∧
    stageB (eng [iw 0o603 5 wi (sr 4), 0x8200]) 0o603 8 (fun a b c' => decide (a < 2 ^ 21 ∧ c'.s.reaches c'.p c'.trust a = true ∧ b < 0x10000) &&
      anyB (c'.readWords b 1)) = true ∧
    stageB ((eng [iw 0o603 5 wi (sr 4), 0x8200]).poke (8 * 0x8200) (natToBytes 8 4)) 0o603 8 (fun _ b c' => okB (c'.readWords b 1) fun ws c2 =>
      decide (ws.getD 0 0 % 2 ^ 11 = 4) && anyB (c2.readWords (b + 1) 1)) = true ∧
    decodesB (feeds [iw 0o602 3 5 96, 0x8800] none) 0 0o602 (dBinN 12) (readsABB (dBinN 12) fun _ o a b c' =>
      decide (a < 2 ^ 21 ∧ c'.s.reaches c'.p c'.trust a = true ∧ o.c = .mem 0x8800 ∧ c'.s.cutSet a (decide (b % 2 = 1)) (c'.s.procStart c'.p + c'.cost) = none) &&
        (List.range (2 + c'.s.pullCount a b)).all (fun j => sampleMem (0x8800 + j)) && anyB (c'.putWords 0x8800 [0, 0])) = true ∧
    decodesB (feeds [iw 0o602 3 5 96, 0x8800] (some ⟨7, [], 9, 0⟩)) 0 0o602 (dBinN 12) (readsABB (dBinN 12) fun _ o a b c' =>
      decide (o.c = .mem 0x8800 ∧ (c'.s.cutSet a (decide (b % 2 = 1)) (c'.s.procStart c'.p + c'.cost)).isSome = true) && anyB (c'.putWords 0x8800 [7, 9])) = true ∧
    decodesB (eng [iw 0o607 0 0 0]) 0 0o607 (dNone 1) (fun _ _ => true) = true := by decide +kernel

/-- The state a step of engine 0 goes on to stands, and its staging buffer has room. -/
def runsB (e : Instr × State) : Bool := thenB (exec e.1 e.2) fun t => standsB e.2 0 t && decide ((t.proc 0).staged.length < 512)

/-- The programs of the statements on transfers, loops, stacks, returns, octets and tick opcodes stand. -/
theorem witness_stands_control :
    ([(.nop 0, eng [iw 0o001 0 0 0]), (.add 0, eng [iw 0o101 5 7 (sr 4)]), (.add 0, eng [iw 0o101 5 7 96, 0x8800]), (.add 0, eng [iw 0o101 5 7 (sr 28)]),
      (.dcmp 0, eng [iw 0o407 5 5 0]), (.beq 0, engWith [iw 0o010 wi 0 0, 0x8200] fun p => { p with sw := p.sw ||| 0x400000000 }),
      (.beq 0, eng [iw 0o010 wi 0 0, 0x8200]), (.jmp 0, eng [iw 0o002 wi 0 0, 2 ^ 24 - 1]), (.call 0, eng [iw 0o003 wi 0 0, 0x8200]),
      (.ret 0, eng [iw 0o004 0 0 0]), (.loop 0, eng [iw 0o005 0 wi 0, 0x8200]), (.loop 0, engWith [iw 0o005 wi wi 0, 2 ^ 24 - 1, 0x8200] (inLoop 3)),
      (.lpop 0, eng [iw 0o006 0 0 0]), (.lpop 0, engWith [iw 0o006 0 0 0] (inLoop 1)), (.wait 0, eng [iw 0o024 0 0 0])].all runsB) = true := by
  decide +kernel

theorem witness_stands_stack :
    ([(.push 0, eng [iw 0o040 5 0 0]), (.pop 0, eng [iw 0o041 0 0 (sr 4)]), (.enter 0, eng [iw 0o042 5 0 0]),
      (.leave 0, engWith [iw 0o043 0 0 0] fun p => { p with fp := 0x8102 }), (.retx 0, blocked 0o022 (2 ^ 32 * 3) 3),
      (.retg 0, blocked 0o021 (2 ^ 34 * 2 + 2 ^ 32 * 3) 3), (.gate 0, station 0 [iw 0o020 wi 0 0, 62]),
      (.oget 0, eng [iw 0o500 (0xC * 32 + 28) 1 (sr 28), 0x8103, octWord, octWord]), (.oput 0, eng [iw 0o501 5 1 (0xC * 32 + 28), 0x8800]),
      (.berlen 0, eng [iw 0o502 (0xC * 32 + 28) 0 (sr 28), 0x8103, octWord, octWord])].all runsB) = true := by
  decide +kernel

theorem witness_stands_tick :
    ([(.twait 0, eng [iw 0o600 0 0 0]), (.tleft 0, eng [iw 0o601 0 0 (sr 4)]), (.verdict 0, eng [iw 0o605 5 1 (sr 4)]),
      (.evput 0, eng [iw 0o606 5 wi (sr 4), 0x8200]), (.jobput 0, (eng [iw 0o604 5 wi (sr 4), 0x8200]).put (rgMID 5) (midOf 0 3)),
      (.gosub 0, (eng [iw 0o603 5 wi (sr 4), 0x8200]).poke (8 * 0x8200) (natToBytes 8 4)), (.svpull 0, feeds [iw 0o602 3 5 96, 0x8800] none),
      (.svpull 0, feeds [iw 0o602 3 5 96, 0x8800] (some ⟨7, [], 9, 0⟩)), (.tabandon 0, eng [iw 0o607 0 0 0])].all runsB) = true := by
  decide +kernel

/-! ## The module's registers and memory -/

theorem witness_queue : ({ State.reset with pending := [.tickEdge] } : State).pending = .tickEdge :: [] ∧ State.reset.pending = [] :=
  ⟨rfl, rfl⟩

theorem witness_StepKeepsMemoriesCanonical :
    (State.reset.poke 0x800 [1, 0, 2]).memOk ∧ thenB (exec (.sramWriteback 0x800) (State.reset.poke 0x800 [1, 0, 2])) (fun _ => true) = true := by
  unfold State.memOk; decide +kernel

/-- A narrow write is counted, a write of a plain register stores its fields, an unmapped one is counted (R65, R66). -/
theorem test_registerWrite :
    thenB (exec (.registerWrite 0x40 TICK_RATE .w8 5) State.reset) (fun t => decide (t.topNarrow = 1)) = true ∧
    thenB (exec (.registerWrite 0x40 PTP_CORRMAX .w32 77) State.reset) (fun t => decide (t.get PTP_CORRMAX_NS = 77)) = true ∧
    thenB (exec (.registerWrite 0x40 0x3FFFFFC .w32 5) State.reset) (fun t => decide (t.topUnmapped = 1)) = true := by decide +kernel

theorem test_guardWriteback :
    thenB (exec .guardWriteback (dirty [(3, 7, false)])) (fun t => decide (t.pageVersion 3 = (8, false) ∧ t.mem.guardQueue = [4])) = true := by
  decide +kernel

/-! ## Time, ticks, interrupts -/

theorem test_timeWrites :
    thenB (exec (.timeSecWrite false 1234) State.reset) (fun t => decide (t.taiSec = 1234)) = true ∧
    thenB (exec (.tickRateWrite 999) State.reset) (fun t => decide (t.get TICK_RATE_RATE = State.reset.get TICK_RATE_RATE)) = true ∧
    thenB (exec (.feCtlWrite 3 1) State.reset) (fun t => decide (t.get (FE_CTL_HELD 3) = 1)) = true := by decide +kernel

/-- The first edge after reset is at the next point of the grid, and its tick is number 1 of 4,800 (R24, R27). -/
theorem test_tickEdge : thenB (exec .tickEdge running) (fun t => decide (t.clock = 312500 ∧ t.get TICK_INDEX_N = 1 ∧ t.get TICK_COUNT_LO_COUNT = 0)) = true := by
  decide +kernel

theorem test_interruptEntry : thenB (exec (.interruptEntry 32) irqState) (fun t => decide (t.get (INTC_SRC_ACTIVE 64) = 1 ∧
    (t.proc 32).ipl = 5 ∧ ((t.proc 32).tsb.getD 0 0).toNat = 0x8000 - 24)) = true := by decide +kernel

/-- HOLDOVER_EXPIRED after 30 s; a 1PPS edge half a second off is only counted (R21, R48). -/
theorem test_timebase :
    thenB (exec .holdoverExpiry (st [(TIME_STATE_STATE, tbHoldover)])) (fun t => decide (t.get TIME_STATE_STATE = tbExpired ∧ t.clock = 45000000000)) = true ∧
    thenB (exec (.ppsInEdge false) (timed [] fun t => { t with modTime := thirdsPerSec / 2 })) (fun t => decide (t.get PPS_CTL_IN_REJECT = 1)) = true := by
  decide +kernel

/-! ## Ports, path, associations, releases -/

theorem test_ptp : thenB (exec (.ptpMessageRx 9 0 .malformed) portUp) (fun t => decide (t.get PTP_MALFORMED_COUNT = 1)) = true ∧
    thenB (exec (.ptpMessageRx 9 0 (.pdelay (2 ^ 40))) portUp) (fun t => decide (t.data.demoted.length = 1)) = true := by decide +kernel

/-- Sizes at both ends of the range of R211. -/
theorem test_portFrameRx :
    thenB (exec (.portFrameRx 0 ⟨List.replicate 59 0, 63, true, default⟩) portUp) (fun t => decide (t.get (PORT_RX_SIZE_COUNT 0) = 1)) = true ∧
    thenB (exec (.portFrameRx 0 ⟨List.replicate 60 0, 64, false, default⟩) portUp) (fun t => decide (t.get (PORT_RX_FCSERR_COUNT 0) = 1)) = true ∧
    thenB (exec (.portFrameRx 0 ⟨List.replicate 1533 0, 1537, true, default⟩) portUp) (fun t => decide (t.get (PORT_RX_SIZE_COUNT 0) = 1)) = true := by
  decide +kernel

theorem test_bowVerify :
    thenB (exec (.bowVerify 1 0) (framed (.matched 5))) (fun t => decide (t.data.frames = [])) = true ∧
    thenB (exec (.bowKatRun 3 false) State.reset) (fun t => decide (t.get BOW_LANE_STATUS_ISOLATED = 8)) = true := by decide +kernel

theorem test_assoc :
    thenB (exec .assocRead State.reset) (fun t => decide (t.get ASSOC_CMD_RESULT_STATUS = stNO_ASSOC ∧ t.get (INTC_SRC_LEVEL 109) = 1)) = true ∧
    thenB (exec (.assocCmdUnassigned 15) State.reset) (fun t => decide (t.get ASSOC_CMD_RESULT_STATUS = stBAD_OPCODE)) = true ∧
    thenB (exec .assocResetseq (withEntry { st [(ASSOC_CMD_INDEX_INDEX, 5)] with data := { State.reset.data with hot := [(0, ⟨5, false, 1⟩)] } } svEntry)) (fun t => decide (eon (t.entry 5) eSTARTED = false)) = true := by
  decide +kernel

/-! ## Queues and the Bridge -/

theorem test_doorbell :
    thenB (exec (.doorbellWrite 5 0 .w32 4) (q5 [(BRIDGE_LINK_UP, 1)])) (fun t => decide (t.get (QUEUE_PROD_COUNT 5) = 4)) = true ∧
    thenB (exec (.doorbellWrite 5 0 .w32 5) (q5 [(BRIDGE_LINK_UP, 1)])) (fun t => decide (t.get (QUEUE_STATUS_ERR 5) = qeDbRange ∧ t.on (QUEUE_STATUS_STOPPED 5) = true)) = true ∧
    thenB (exec (.doorbellWrite 5 4 .w32 1) (q5 [(BRIDGE_LINK_UP, 1)])) (fun t => decide (t.get BRIDGE_DBIGN_COUNT = 1)) = true := by decide +kernel

theorem test_bridge :
    thenB (exec (.bridgeLinkUp 6 8) State.reset) (fun t => decide (t.get BRIDGE_LINK_GEN = 6 ∧ t.on BRIDGE_LINK_FLIT = true)) = true ∧
    thenB (exec (.msixUnmask 2047) State.reset) (fun t => decide (t.get (MSIX_VCTL_MASK 2047) = 0)) = true ∧
    thenB (exec (.vfEnableWrite true) State.reset) (fun t => decide (t.data.vfVecs.length = 63)) = true := by decide +kernel

/-! ## Job rings, cells, engines, the entropy array -/

/-- Where a ring offers its head to a cell, the cell takes some ring that does. -/
theorem choice_of_offer (s : State) (n r : Nat) (hr : r < 1024) (h : s.ringOffers n r = true) :
    ∃ b, s.ringChoice n = some b ∧ s.ringOffers n b = true := by
  have key : ∀ (l : List Nat) (best : Option Nat), (∀ b, best = some b → s.ringOffers n b = true) → (r ∈ l ∨ best.isSome = true) →
      ∃ b, l.foldl (fun best r =>
        if s.ringOffers n r then
          match best with
          | none => some r
          | some b =>
            if s.get (rgPRIO b) < s.get (rgPRIO r) ∨
                (s.get (rgPRIO b) = s.get (rgPRIO r) ∧ s.ringDist r < s.ringDist b) then some r else some b
        else best) best = some b ∧ s.ringOffers n b = true := by
    intro l
    induction l with
    | nil =>
      intro best hb hs
      obtain ⟨b, hb'⟩ := Option.isSome_iff_exists.mp (hs.resolve_left (by simp))
      exact ⟨b, hb', hb b hb'⟩
    | cons x l ih =>
      intro best hb hs
      rw [List.foldl_cons]
      by_cases hx : s.ringOffers n x = true
      · simp only [hx, if_true]
        cases best with
        | none => exact ih (some x) (by simp [hx]) (.inr rfl)
        | some b =>
          dsimp only
          split
          · exact ih (some x) (by simp [hx]) (.inr rfl)
          · exact ih (some b) hb (.inr rfl)
      · simp only [hx, Bool.false_eq_true, if_false]
        refine ih best hb ?_
        rcases hs with hs | hs
        · rcases List.mem_cons.mp hs with rfl | hs
          · exact absurd h hx
          · exact .inl hs
        · exact .inr hs
  exact key _ none (by simp) (.inl (List.mem_range.mpr hr))

theorem witness_CellAndRingRows_dispatch :
    (∃ b, (ring2 randomJob []).ringChoice 3 = some b ∧ (ring2 randomJob []).ringOffers 3 b = true) ∧
    ((ring2 randomJob []).get (CELL_STATUS_STATE 3) = 0 ∧ (ring2 randomJob []).jobs.katDue.contains 3 = false ∧ (ring2 randomJob []).noDispatch = false ∧
      (ring2 randomJob []).ringHead 2 = some 0) ∧
    ((ring2 randomJob []).fetchSlot 0x53 2 0).1.any (fun w => ((ring2 randomJob []).jobCheck 2 w).isNone) = true ∧
    ((ring2 [0x7F000000] []).fetchSlot 0x53 2 0).1.any (fun w => decide ((ring2 [0x7F000000] []).jobCheck 2 w = some (stBAD_OPCODE, 0, 0))) = true ∧
    ((ring2 randomJob [(NUT_REGION_CTL_EN 0, 0)]).ringHead 2) = some 0 :=
  ⟨choice_of_offer _ 3 2 (by decide) (by decide +kernel), by decide +kernel, by decide +kernel, by decide +kernel, by decide +kernel⟩

theorem test_jobMemory : thenB (exec (.mldsaVerify 3 0 .buffer) cell3) (fun t => decide (t.jobs.jobs = []) &&
    t.jobs.ending.any fun c => decide (c.status = stABORTED ∧ c.detail = dtMEMORY)) = true := by decide +kernel

theorem test_verification :
    thenB (exec (.ecdsaVerify 3 0x42 (go 1)) (ve3 none)) (fun t => decide (t.get VE_IGN_COUNT = 1)) = true ∧
    thenB (exec (.ecdsaVerify 3 0x41 (go 1)) (ve3 none)) (fun t => decide (t.on (VE_STATUS_REJ 3) = true)) = true ∧
    thenB (exec (.veCommandEnd 3) (ve3 (some (stTIMEOUT, 0, [])))) (fun t => decide (t.get (VE_STATUS_STATUS 3) = stTIMEOUT ∧ t.on (VE_STATUS_BUSY 3) = false)) = true := by
  decide +kernel

/-- MEMCMP of two empty buffers ends OK or with a refusal of its lengths; an unassigned OP ends BAD_OPCODE (R385, R394). -/
theorem test_digest : thenB (exec (.digestOpUnassigned 0) (dring [0x7F000000])) (fun t => t.jobs.ending.any fun c => decide (c.status = stBAD_OPCODE)) = true := by
  decide +kernel

theorem test_rosin :
    thenB (exec (.aptWindowEnd 63 (altBits 1024)) (rosin roReady 0)) (fun t => decide ((tgetD t.rosin.cond 3 []).length = 1)) = true ∧
    thenB (exec (.rosinPullRead 0x42 0) (st [])) (fun t => decide (t.rosin.pullRead = [])) = true := by decide +kernel

/-! ## Key store and ceremonies -/

/-- INFO of an ACTIVE slot ends OK, a master without the permission gets NOT_PERMITTED (R451). -/
theorem test_keyCommands :
    thenB (exec (.infoPeg 0x41) (pegged .active [])) (fun t => decide (t.get KEY_CMD_RESULT_STATUS = stOK ∧ t.get (INTC_SRC_LEVEL 464) = 1)) = true ∧
    thenB (exec (.reservePriv 0x41) (pegged .active [])) (fun t => decide (t.get KEY_CMD_RESULT_STATUS = stNOT_PERMITTED)) = true ∧
    thenB (exec (.erasePeg 0x40) (pegged .active [])) (fun t => decide ((t.peg 3).st = .free)) = true := by decide +kernel

/-- A good first share is kept; one of another identity is not; the second distinct card authorises (R445, R447). -/
theorem test_ceremony :
    thenB (exec (.cerStep 0x40 1 (.share [] 8 2 8 32 [] [])) (ceremony ckIn [])) (fun t => decide (t.get CER_STATE_GOT = 128 ∧ t.get CER_STATE_LASTSTATUS = stOK)) = true ∧
    thenB (exec (.cerStep 0x40 1 (.share [9] 8 2 8 32 [] [])) (ceremony ckIn [])) (fun t => decide (t.get CER_STATE_LASTSTATUS = stBAD_PARAM)) = true ∧
    thenB (exec (.cerStep 0x40 2 (.present 7)) (ceremony ckAuth [⟨[], 6, 0, 0, 0, [], []⟩])) (fun t => decide (t.on CER_AUTHWIN_AUTH = true)) = true ∧
    thenB (exec (.shareIn 0x41 0x80000000) State.reset) (fun t => decide (t.get CER_STATE_STATE = State.reset.get CER_STATE_STATE)) = true := by decide +kernel

/-! ## Case die, event recorder, ledger -/

/-- A read suspends an erase; a program that ends leaves its bytes and the unit behind them erased (R463, R464). -/
theorem test_planes :
    thenB (exec (.casePlaneDispatch 0) (cased [] [readOp] [(0, eraseOp)] [])) (fun t => decide (tget t.die.running 0 = some readOp ∧ tget t.die.asleep 0 = some eraseOp)) = true ∧
    thenB (exec (.caseDieOpDone 0 (.ok 0 0) 3) (cased [(CASE_CMD_RESULT_BUSY, 1)] [] [(0, programOp)] [])) (fun t =>
      decide (t.pageRead 100 0 3 = [1, 2, 0xFF] ∧ t.get CASE_CMD_RESULT_STATUS = stOK)) = true := by decide +kernel

theorem test_eventRecorder_flush :
    thenB (exec (.eventRecordEnter 1 2 3 []) (buffered 191 none)) (fun t => decide (t.ev.buf.length = 192 ∧ t.ev.flushN = some 192)) = true ∧
    thenB (exec .evrecFlush (buffered 3 (some 2))) (fun t => decide (t.ev.buf.length = 1)) = true := by
  refine ⟨by decide +kernel, by decide +kernel⟩

theorem test_eventRecorder_clear :
    thenB (exec (.evrecClear 0x41) (st [(CER_AUTHWIN_AUTH, 1)])) (fun t => decide (t.get EVREC_STATUS_CLRSTATUS = stOK ∧ t.on CER_AUTHWIN_AUTH = false)) = true := by decide +kernel

theorem test_ledger :
    thenB (exec .ledgerGrant (ledger [⟨laROLL, 0, 0, false⟩] [])) (fun t => decide (t.ledHolds laROLL = 1 ∧ t.led.waiting = [])) = true ∧
    thenB (exec (.ledgerRequest 0x40 laROLL) State.reset) (fun t => decide (t.led.waiting = [])) = true ∧
    thenB (exec (.ledgerRelease 0x41 laROLL) (ledger [] [(LEDGER_ACT_HOLDS laROLL, 1)])) (fun t => decide (t.ledHolds laROLL = 0)) = true := by decide +kernel

/-! ## Tamper monitors, faults, watchdogs -/

/-- One event confirms a count of 1; a second of the other detector within the window counts no second time; ring 1 clears nothing (R491, R502). -/
theorem test_tamper :
    thenB (exec (.tamperDetection 23 true 77 []) (quantity 1 [] noEvents)) (fun t => decide (t.on (TSRC_STATUS_LATCHED 23) = true ∧ bitOf t.sticky 46 = true ∧
      t.get (TSRC_READING_VALUE 23) = 77)) = true ∧
    thenB (exec (.tamperDetection 23 true 77 []) (quantity 1 [(TSRC_CFG_COUNT 23, 2)] ⟨[], [(false, 0, false)], 0, 0⟩)) (fun t => decide ((t.qty 23).events = [])) = true ∧
    thenB (exec (.tamperStickyClr 0x41) (st [(CER_AUTHWIN_AUTH, 1)])) (fun t => decide (t.get TAMPER_STICKY_CLR_CLRSTATUS = stNOT_PERMITTED ∧ t.on CER_AUTHWIN_AUTH = true)) = true := by
  decide +kernel

theorem test_faults :
    thenB (exec (.faultNctlRelease 0x40) faulty) (fun t => decide (t.on FAULT_NCTL_ASSERTED = true ∧ t.flt.relHeld = true)) = true ∧
    thenB (exec .faultnPulseEnd faulty) (fun t => decide (t.clock = 900 ∧ t.flt.pulseEnd = none)) = true ∧
    thenB (exec (.wdogCapoKick 0x40 0xA5A5) faulty) (fun t => decide (t.wdog.capoKey = false ∧ t.get WDOG_CAPO_STATUS_BADKICK = 0)) = true ∧
    thenB (exec (.wdogCapoKick 0x41 0xA5A5) faulty) (fun t => decide (t.get WDOG_CAPO_STATUS_BADKICK = 1)) = true := by decide +kernel

/-! ## Pickguard -/

/-- REQA readies an idle tag, and sends an active one back to IDLE (Table 16-3). -/
theorem test_tag :
    thenB (exec .reqa (tagged tgIDLE false false)) (fun t => decide (t.get PICK_STATUS_TAGSTATE = tgREADY ∧ t.pick.answer = [0x04, 0x00])) = true ∧
    thenB (exec .reqa (tagged tgACTIVE false false)) (fun t => decide (t.get PICK_STATUS_TAGSTATE = tgIDLE)) = true ∧
    thenB (exec .reqa { tagged tgIDLE false false with clock := 2999999 }) (fun t => decide (t.get PICK_STATUS_TAGSTATE = tgIDLE)) = true ∧
    thenB (exec (.select [8, 1, 2, 4]) (tagged tgREADY false false)) (fun t => decide (t.get PICK_STATUS_TAGSTATE = tgIDLE)) = true := by decide +kernel

/-- Badges are served in descending order of their bits as sent (Table 16-4's example). -/
theorem test_badgeOrder :
    [[0x2C, 0x3A, 0x5C, 0x11], [0x2C, 0x3A, 0x5C, 0x91]].foldr uidInsert [] = ([[0x2C, 0x3A, 0x5C, 0x91], [0x2C, 0x3A, 0x5C, 0x11]] : List Bytes) := by
  decide +kernel

theorem mirrored_body (m : Word32) (n : Nat) : (mirrored m).pickWords (mirrorBody 0) n = (mirrored 0).pickWords (mirrorBody 0) n := by
  refine pickWords_congr _ _ fun j hj _ => ?_
  have : 18 < j := by simp only [mirrorBody] at hj; omega
  simp [State.pickWord, mirrored, tgetD, tget, show ¬ 16 = j by omega, show ¬ 17 = j by omega, show ¬ 18 = j by omega]

theorem mirrored_valid (m : Word32) (n : Nat) (h : m = markOf ((mirrored 0).pickWords (mirrorBody 0) n ++ [1, 1])) :
    (decide ((mirrored m).pickWord (mirrorHead 0 + 2) ≠ 0) && decide ((mirrored m).pickWord (mirrorHead 0 + 2) =
      markOf ((mirrored m).pickWords (mirrorBody 0) n ++ (mirrored m).pickWords (mirrorHead 0) 2))) = true := by
  have h18 : (mirrored m).pickWord (mirrorHead 0 + 2) = m := rfl
  have h16 : (mirrored m).pickWords (mirrorHead 0) 2 = [1, 1] := rfl
  have h0 : m ≠ 0 := h ▸ markOf_ne_zero _
  rw [mirrored_body, h18, h16, ← h]
  simpa using h0

theorem witness_mirror : ∃ m, (mirrored m).mirrorSlot = some 0 ∧ 0 < (mirrored m).mirrorCount 0 ∧ (mirrored m).tagHears = true := by
  obtain ⟨m, hm⟩ : ∃ m, m = markOf ((mirrored 0).pickWords (mirrorBody 0) 4096 ++ [1, 1]) := ⟨_, rfl⟩
  have h0 : (mirrored m).mirrorValid 0 = true := mirrored_valid m 4096 hm
  have h1 : (mirrored m).mirrorValid 1 = false := rfl
  refine ⟨m, ?_, Nat.one_pos, ?_⟩
  · simp only [State.mirrorSlot, h0, h1]
  · show (tagged tgACTIVE true true).tagHears = true
    decide +kernel

/-! ## Card -/

/-- The answer to reset that the spec gives: its historical bytes hold 3 tries and the card's state 1 (R576). -/
theorem test_atr : (atrParse (cardAtr.map BitVec.toNat)).hist = [0x80, 0xE5, 0x01, 0x08, 0x40, 0x03, 0x01] := by decide +kernel

/-- A removal ends a transfer ABORTED, a third block error with PROTOCOL (R578, R582). -/
theorem test_card :
    thenB (exec (.cardRemoval none) (carded cdBUSY (some (false, [], 0)))) (fun t => decide (t.get CARD_RESULT_STATUS = stABORTED ∧ t.get CARD_STATUS_ERR = ceREMOVED)) = true ∧
    thenB (exec (.t1BlockError false) (carded cdBUSY none)) (fun t => decide (t.get CARD_STATUS_ERR = cePROTOCOL ∧ t.get CARD_T1ERR_COUNT = 1)) = true ∧
    thenB (exec (.cardXfer 0x41 false none) (carded cdIDLE none)) (fun t => decide (t.card.xfer = none)) = true := by decide +kernel

/-! ## Power -/

/-- A wake takes 1,500 cycles a microsecond; a source that is not enabled wakes nothing (R529). -/
theorem test_wake :
    thenB (exec (.wake 3 20) (asleep false)) (fun t => decide (t.pstate = .p0 ∧ t.clock = (asleep false).clock + 30000 ∧ t.get PWR_WAKETIME_US = 20)) = true ∧
    thenB (exec (.wake 7 20) (asleep false)) (fun t => decide (t.pstate = .p2)) = true := by decide +kernel

/-- At 34 V there is no warning, below there is; 32 V without bank is P3 (R526, R527). -/
theorem test_supply :
    thenB (exec (.supplyWarning 34000 5) State.reset) (fun t => decide (t.pwr.dipAt = none)) = true ∧
    thenB (exec (.supplyWarning 33999 5) State.reset) (fun t => decide (t.pwr.dipAt = some (State.reset.clock + 75000) ∧ t.get PWR_STATUS_PHASE = 1)) = true ∧
    thenB (exec (.supplyResetLevel true) (dipped .p0 2 none false)) (fun t => decide (t.pstate = .p3)) = true := by decide +kernel

/-! ## Lifecycle, boot, debug -/

/-- PROVISION, SEAL and RETIRE refuse and take effect as Table 15-9 says (R421, R542, R543). -/
theorem test_lifecycle :
    thenB (exec (.provision 0x40 [1] ⟨[([], 0)], [], []⟩) State.reset) (fun t => decide (t.life = lcBlank ∧ t.get LIFE_CMD_RESULT_STATUS = stNOT_PERMITTED)) = true ∧
    thenB (exec (.provision 0x40 [1] ⟨[([], 0)], [], []⟩) keyed) (fun t => decide (t.life = lcProvisioned ∧ t.get LIFE_CMD_RESULT_STATUS = stOK)) = true ∧
    thenB (exec (.seal 0x40) (aged 1 [])) (fun t => decide (t.life = lcProvisioned ∧ t.get LIFE_CMD_RESULT_STATUS = stNOT_PERMITTED)) = true ∧
    thenB (exec (.retire 0x40) (aged 2 [])) (fun t => decide (t.life = lcSealed)) = true := by decide +kernel

theorem test_debugClose :
    thenB (exec (.debugClose 0x40) (aged lcDebug [])) (fun t => decide (t.life = lcSealed)) = true ∧
    thenB (exec (.debugClose 0x40) (aged 1 [])) (fun t => decide (t.life = lcProvisioned)) = true ∧
    thenB (exec .debugChallengeExpiry trial) (fun t => decide (t.lcs.chalAt = none ∧ t.clock = 7 + 60 * cyclesPerSec)) = true := by decide +kernel

/-- A debug master halts in Blank and is refused and counted in Sealed (R550, R551). -/
theorem test_debug :
    thenB (exec (.debugHalt 0x70 0) State.reset) (fun t => decide ((t.proc 0).halted = true ∧ t.get DEBUG_REFUSED_COUNT = 0)) = true ∧
    thenB (exec (.debugHalt 0x70 0) (aged 2 [])) (fun t => decide ((t.proc 0).halted = false ∧ t.get DEBUG_REFUSED_COUNT = 1)) = true ∧
    thenB (exec (.debugAccess 0x70 (.regWrite 0 0 1 0x1234)) State.reset) (fun t => decide ((t.proc 0).pc = 0x1234)) = true ∧
    thenB (exec (.debugAccess 0x70 (.regWrite 0 0 1 0x1234)) (aged 2 [])) (fun t => decide ((t.proc 0).pc = (State.reset.proc 0).pc)) = true := by decide +kernel

/-! ## Witnesses by lemma -/

/-- The frame buffer with one received frame of some octets. -/
def holding (o : Bytes) : State :=
  { portUp with data := { State.reset.data with frames := [⟨1, 0, o, default, 0, 0, .received⟩] } }

theorem holding_full (o : Bytes) (n : Nat) (h : 2097152 < o.length + n) : (holding o).bufRoom n = false := by
  have : (holding o).bufUsed = o.length := by simp [State.bufUsed, holding, portUp, State.reset, DataState.reset]
  simpa [State.bufRoom, this] using h

theorem witness_PortRows_full :
    ((holding (List.replicate 2097100 0)).on (PORT_CTL_EN 0) = true ∧ (holding (List.replicate 2097100 0)).on (PORT_STATUS_LINK 0) = true) ∧
    (holding (List.replicate 2097100 0)).bufRoom 60 = false :=
  ⟨⟨rfl, rfl⟩, holding_full _ _ (by rw [List.length_replicate]; decide)⟩

theorem aptFails_small {cut : Nat} (h : 1024 < cut) (bs : List Bool) (hb : bs.length ≤ 1024) : aptFails cut bs = false := by
  cases bs with
  | nil => rfl
  | cons b bs =>
    have := List.length_filter_le (fun c => decide (c = b)) (b :: bs)
    simp only [aptFails, decide_eq_false_iff_not]
    omega

theorem aptAll_small {cut : Nat} (h : 1024 < cut) (n : Nat) (bs : List Bool) : aptAll cut n bs = false := by
  induction n generalizing bs with
  | zero => rfl
  | succ n ih => simp [aptAll, ih, aptFails_small h (bs.take 1024) (List.length_take_le 1024 bs)]

theorem bias_small (bs : List Bool) : (biasOf bs).natAbs ≤ bs.length := by
  have := List.length_filter_le (fun b => b) bs
  simp only [biasOf]
  omega

theorem corr_small (k : Nat) (bs : List Bool) : (corrOf k bs).natAbs ≤ bs.length := by
  have h1 := List.length_filter_le (fun p : Bool × Bool => decide (p.1 = p.2)) (bs.zip (bs.drop (64 * k)))
  have h2 : (bs.zip (bs.drop (64 * k))).length ≤ (bs.drop (64 * k)).length := by simp [List.length_zip]
  have h3 : (bs.drop (64 * k)).length ≤ bs.length := by simp
  simp only [corrOf]
  omega

theorem rct_small (cut : Nat) (bs : List Bool) (l : Bool) (n : Nat) (h : n + bs.length < cut) (h1 : 1 < cut) :
    (rctRun cut bs (l, n) false).1 = false := by
  induction bs generalizing l n with
  | nil => rfl
  | cons b bs ih =>
    simp only [List.length_cons] at h
    have hn : ¬ cut ≤ (if b = l then n + 1 else 1) := by split <;> omega
    simp only [rctRun, hn, decide_false, Bool.or_false]
    exact ih _ _ (by split <;> omega)

theorem rct_keeps (cut : Nat) (bs : List Bool) (r : Bool × Nat) : (rctRun cut bs r true).1 = true := by
  induction bs generalizing r with
  | nil => rfl
  | cons b bs ih => obtain ⟨l, n⟩ := r; simp [rctRun, ih]

/-- Bank 63 at its start-up test, with the limits of its window and a bank that failed before. -/
def starting (lim : List Nat) (before : List Nat) : State :=
  let u := rosin roReady 1
  { u with rosin := { u.rosin with limits := [(64 * wkStart + 63, lim)], failedOnce := before } }

theorem startup_passes (bits : List Bool) (h : bits.length ≤ 8192) : startupOk [8192, 9000, 1025] bits = true := by
  have hb := bias_small bits
  have hc := fun k => corr_small k bits
  simp only [startupOk, aptAll_small (show 1024 < ([8192, 9000, 1025] : List Nat).getD 2 0 by decide), Bool.not_false, Bool.true_and,
    Bool.and_eq_true, decide_eq_true_eq, List.all_eq_true]
  exact ⟨Int.ofNat_le.mpr (Nat.le_trans hb h), fun k _ => Int.ofNat_le.mpr (Nat.le_trans (hc (k + 1)) h)⟩

theorem starting_runs (lim before : List Nat) (n : Nat) (h : n < 9000) :
    ((starting lim before).limitsNext wkStart 63 |>.runOn 63 9000 (List.replicate n true)).1 = false :=
  rct_small 9000 _ false 0 (by rwa [List.length_replicate, Nat.zero_add]) (by decide)

theorem starting_stops (lim before : List Nat) (n : Nat) :
    ((starting lim before).limitsNext wkStart 63 |>.runOn 63 1 (List.replicate (n + 1) true)).1 = true := by
  show (rctRun 1 (List.replicate (n + 1) true) (false, 0) false).1 = true
  rw [List.replicate_succ]
  simp [rctRun, rct_keeps]

theorem witness_RosinRows_passes :
    ((starting [8192, 9000, 1025] []).rosinRuns = true ∧ (starting [8192, 9000, 1025] []).get (BANK_STATUS_STATE 63) = 1 ∧
      (starting [8192, 9000, 1025] []).limits wkStart 63 = [8192, 9000, 1025]) ∧ (List.replicate 8192 true).length = 8192 ∧
    startupOk [8192, 9000, 1025] (List.replicate 8192 true) = true ∧
    (((starting [8192, 9000, 1025] []).limitsNext wkStart 63).runOn 63 9000 (List.replicate 8192 true)).1 = false :=
  ⟨by decide +kernel, List.length_replicate, startup_passes _ (Nat.le_of_eq List.length_replicate), starting_runs _ _ _ (by decide)⟩

theorem witness_RosinRows_fails (before : List Nat) :
    (starting [8192, 1, 1025] before).limits wkStart 63 = [8192, 1, 1025] ∧
    (((starting [8192, 1, 1025] before).limitsNext wkStart 63).runOn 63 1 (List.replicate 8192 true)).1 = true ∧
    (starting [8192, 1, 1025] [63]).rosin.failedOnce.contains 63 = true ∧ (starting [8192, 1, 1025] []).rosin.failedOnce.contains 63 = false :=
  ⟨rfl, starting_stops _ _ 8191, rfl, rfl⟩

theorem witness_RosinRows_health :
    ((rosin roReady 0).rosinRuns = true ∧ (rosin roReady 0).get (BANK_STATUS_STATE 63) = 0) ∧ (List.replicate 65536 true).length = 65536 :=
  ⟨by decide +kernel, List.length_replicate⟩

/-! ## States and operands that meet the hypotheses of the statements

One theorem for each clause of a statement that has hypotheses, named by the statement and the clause's place in it, one
conjunct for each of the clause's cases: `let` names the state and the operands, `match` what an equation among the
hypotheses determines. What an opaque constant decides (a signature's check, a random choice) is left out. -/

theorem witness_EmptyQueueLetsOneCyclePass_1 :
    (let s : State := State.reset
    decide (s.pending = [])) = true := by
  decide +kernel

theorem witness_HardwareFieldUpdateTouchesOneField_1 :
    (let s : State := State.reset
    let f : Fld := (KEY_STATE_ROOT)
    let g : Fld := (CER_STATE_STATE)
    let v : Nat := 3
    decide (f.lo ≤ f.hi ∧ f.hi < 32 ∧ g.lo ≤ g.hi ∧ g.hi < 32 ∧ (g.off ≠ f.off ∨ f.hi < g.lo ∨ g.hi < f.lo))) = true := by
  decide +kernel

theorem witness_StatusReadsLowerTheirRequestLine_1 :
    (let s : State := State.reset
    let e : Instr × List Nat := (.pwrStatusRead, [80, 83])
    decide (e ∈ statusReads)) = true := by
  decide +kernel

theorem witness_StatusReadsLowerTheirRequestLine_2 :
    (let s : State := State.reset
    let n : Nat := 15
    decide (n < 16)) = true := by
  decide +kernel

theorem witness_StatusReadsLowerTheirRequestLine_3 :
    (let s : State := State.reset
    let n : Nat := 3
    decide (n < 4)) = true := by
  decide +kernel

theorem witness_StatusReadsLowerTheirRequestLine_4 :
    (let s : State := st [(ASSOC_CMD_RESULT_BUSY, 0)]
    decide (s.on ASSOC_CMD_RESULT_BUSY = false)) = true := by
  decide +kernel

theorem witness_RegisterAccessRows_1 :
    (let mid : Nat := 0x40
    let off : Nat := 1
    let v : Nat := 1
    let s : State := State.reset
    let w : Width := Width.w16
    decide (s.logicUp = true ∧ (w = Width.w8 ∨ w = Width.w16))) = true := by
  decide +kernel

theorem witness_RegisterAccessRows_2 :
    (let mid : Nat := 0x40
    let off : Nat := 0x3FFFFFC
    let v : Nat := 1
    let s : State := State.reset
    decide (s.logicUp = true ∧ off % 4 = 0 ∧ off < 0x4000000 ∧ s.hostReaches mid off = true ∧ regDescAt off = none)) = true := by
  decide +kernel

theorem witness_RegisterAccessRows_3 :
    (let mid : Nat := 0x40
    let off : Nat := MEM_SCRUB_CTL
    let v : Nat := 1
    let s : State := State.reset
    decide (s.logicUp = true ∧ off % 4 = 0 ∧ off + 4 < 0x4000000)) = true := by
  decide +kernel

theorem witness_RegisterAccessRows_4 :
    (let mid : Nat := 0x7F
    let v : Nat := 2 ^ 31 + 60000
    let s : State := State.reset
    decide (s.logicUp = true ∧ mid < 0x80 ∧ 100 ≤ v % 2 ^ 16 ∧ v % 2 ^ 16 ≤ 60000)) = true := by
  decide +kernel

theorem witness_RegisterAccessRows_5 :
    (let mid : Nat := 0x40
    let off : Nat := TIME_SEC_LO
    let s : State := State.reset
    decide (s.logicUp = true ∧ counterLo off = true ∧ s.hostReaches mid off = true ∧ dualStored off = false ∧ dualStored (off + 4) = false ∧
    tget s.hiLatch (latchKey mid off) = none ∧ ¬ (ROSIN_PULL 0 ≤ off ∧ off < ROSIN_PULL 16)) &&
    (match regDescAt off with
     | some d =>
      (match regDescAt (off + 4) with
       | some e =>
        true
       | _ => false)
     | _ => false)) = true := by
  decide +kernel

theorem witness_RegisterAccessRows_6 :
    (let mid : Nat := 0x40
    let off : Nat := NUT_REGION_CTL 255
    let s : State := State.reset
    decide (s.logicUp = true ∧ dualStored off = true ∧ counterLo off = false ∧ s.hostReaches mid off = true ∧ tget s.hiLatch (latchKey mid off) = none ∧
    s.dualDiffers off = false) &&
    (match regDescAt off with
     | some d =>
      true
     | _ => false)) = true ∧
    (let mid : Nat := 0x40
    let off : Nat := NUT_REGION_CTL 255
    let s : State := ({ State.reset with dual := [(NUT_REGION_CTL 255, 4)] } : State)
    decide (s.logicUp = true ∧ dualStored off = true ∧ counterLo off = false ∧ s.hostReaches mid off = true ∧ tget s.hiLatch (latchKey mid off) = none ∧
    s.dualDiffers off = true) && calmB s SRC_DUAL_MISMATCH &&
    (match regDescAt off with
     | some d =>
      true
     | _ => false)) = true := by
  decide +kernel

theorem witness_RegisterAccessRows_7 :
    (let mid : Nat := 0x40
    let a : Nat := 0
    let op : FabOp := .read 4096
    let env : FabEnv := default
    let s : State := State.reset
    decide ((s.disturb env).logicUp = true ∧ 1 ≤ opLen op ∧ opLen op ≤ 4096 ∧ (s.disturb env).issues mid (.internal a) = true)) = true ∧
    (let mid : Nat := 0x80
    let a : Nat := 0
    let op : FabOp := .write [1]
    let env : FabEnv := default
    let s : State := hosted
    let b : Nat := 0
    let off : Nat := 0
    decide ((s.disturb env).logicUp = true ∧ 1 ≤ opLen op ∧ opLen op ≤ 4096 ∧ (s.disturb env).issues mid (.bar b off) = true)) = true := by
  decide +kernel

theorem witness_RegisterAccessRows_8 :
    (let mid : Nat := 0x40
    let a : Nat := 0x40800
    let n : Nat := 4096
    let s : State := State.reset
    decide (s.logicUp = true ∧ s.issues mid (.internal a) = true ∧ 1 ≤ n ∧ n ≤ 4096 ∧ s.accParts mid a n false false = [⟨a, n, true⟩]) && sramCleanB s a n) = true := by
  decide +kernel

theorem witness_RegisterAccessRows_9 :
    (let mid : Nat := 0x40
    let a : Nat := 0x40800
    let bs : Bytes := (List.replicate 64 5)
    let s : State := State.reset
    decide (s.logicUp = true ∧ s.issues mid (.internal a) = true ∧ 1 ≤ bs.length ∧ bs.length ≤ 4096 ∧
    s.accParts mid a bs.length true false = [⟨a, bs.length, true⟩]) && sramCleanB s a bs.length) = true := by
  decide +kernel

theorem witness_MemoryGuardRows_2 :
    (let p : Nat := 0
    let a : Nat := 0x40807
    let s : State := st [(MEM_SCRUB_CTL_EN, 1)]
    decide (s.on MEM_SCRUB_CTL_EN = true ∧ sramPart a = some p ∧ p ≠ 7 ∧ s.upsetsIn (wordAddr a) 8 = [] ∧ s.poisoned (wordAddr a) 8 = false) && calmB s (SRC_SRAM_CE p)) = true ∧
    (let p : Nat := 0
    let a : Nat := 0x40807
    let s : State := st [(MEM_SCRUB_CTL_EN, 1)]
    decide (s.on MEM_SCRUB_CTL_EN = true ∧ sramPart a = some p ∧ p ≠ 7 ∧ s.upsetsIn (wordAddr a) 8 = [] ∧ s.poisoned (wordAddr a) 8 = false) && calmB s (SRC_SRAM_UE p)) = true := by
  decide +kernel

theorem witness_MemoryGuardRows_3 :
    (let a : Nat := 1
    let s : State := st [(MEM_SCRUB_CTL_EN, 1)]
    decide (s.on MEM_SCRUB_CTL_EN = true)) = true := by
  decide +kernel

theorem witness_MemoryGuardRows_5 :
    (let s : State := dirty [(3, (2 ^ 32 - 2, false))]
    let p : Nat := 3
    let v : Nat := 2 ^ 32 - 2
    let rest : List Nat := [4]
    decide (s.mem.guardQueue = p :: rest ∧ s.pageVersion p = (v, s.on GUARD_STATE_GEN) ∧ v < 2 ^ 32 - 1)) = true := by
  decide +kernel

theorem witness_MemoryGuardRows_6 :
    (let s : State := dirty [(3, (7, true))]
    let p : Nat := 3
    let rest : List Nat := [4]
    decide (s.mem.guardQueue = p :: rest ∧ (s.pageVersion p).2 ≠ s.on GUARD_STATE_GEN)) = true := by
  decide +kernel

theorem witness_MemoryGuardRows_7 :
    (let s : State := st [(GUARD_STATE_SWEEP, 1)]
    decide (s.on GUARD_STATE_SWEEP = true)) = true := by
  decide +kernel

theorem witness_NutCommitFollowsItsChecks_1 :
    (let n : Nat := 255
    let s : State := st [((NUT_REGION_CTL_LOCK 255), 1)]
    decide (n < 256 ∧ s.on (NUT_REGION_CTL_LOCK n) = true)) = true ∧
    (let n : Nat := 255
    let s : State := staged 3 2 1 []
    decide (n < 256 ∧ s.on (NUT_REGION_CTL_LOCK n) = false ∧ s.stageEnd < s.stageStart)) = true ∧
    (let n : Nat := 255
    let s : State := st ((NUT_REGION_END_LO_ADDR 7, 9) :: (NUT_REGION_CTL_EN 7, 1) :: [(NUT_STAGE_END_LO_ADDR, 9), (NUT_STAGE_CTL_EN, 1)])
    decide (n < 256 ∧ s.on (NUT_REGION_CTL_LOCK n) = false ∧ s.stageStart ≤ s.stageEnd ∧ s.on NUT_STAGE_CTL_EN = true) &&
    (match s.nutOverlap n with
     | some k =>
      true
     | _ => false)) = true ∧
    (let n : Nat := 255
    let s : State := st [((NUT_REGION_CTL_LOCK 255), 0)]
    decide (n < 256 ∧ s.on (NUT_REGION_CTL_LOCK n) = false ∧ s.stageStart ≤ s.stageEnd ∧ (s.on NUT_STAGE_CTL_EN = false ∨ s.nutOverlap n = none))) = true := by
  decide +kernel

theorem witness_ShiftRule_1 :
    (let x : Nat := 68719476735
    let b : Nat := 36
    decide (x < 2 ^ 36 ∧ 1 ≤ b ∧ b ≤ 36)) = true ∧
    (let x : Nat := 68719476735
    let b : Nat := 37
    decide (x < 2 ^ 36 ∧ 36 < b)) = true ∧
    (let x : Nat := 68719476735
    let b : Nat := 36
    decide (x < 2 ^ 36 ∧ 36 ≤ b)) = true ∧
    (let x : Nat := 68719476735
    let b : Nat := 35
    decide (x < 2 ^ 36 ∧ 1 ≤ b ∧ b < 36)) = true := by
  decide +kernel

theorem witness_ArithmeticValues_1 :
    (let a : Nat := 68719476735
    let b : Nat := 68719476735
    let k : Nat := 1
    decide (a < 2 ^ 36 ∧ b < 2 ^ 36 ∧ k < 2)) = true := by
  decide +kernel

theorem witness_ArithmeticValues_2 :
    (let a : Nat := 68719476735
    let b : Nat := 68719476735
    decide (a < 2 ^ 36 ∧ b < 2 ^ 36)) = true := by
  decide +kernel

theorem witness_ArithmeticValues_3 :
    (let a : Nat := 68719476735
    let b : Nat := 68719476735
    decide (a < 2 ^ 36 ∧ b < 2 ^ 36 ∧ b ≠ 0 ∧ ¬ (a = 2 ^ 35 ∧ b = 2 ^ 36 - 1))) = true := by
  decide +kernel

theorem witness_TickRateValues_1 :
    (let s : State := State.reset
    let r : Nat := 96000
    decide (1000 ≤ r ∧ r ≤ 96000)) = true := by
  decide +kernel

theorem witness_TickRateValues_2 :
    (let s : State := st [(TIME_CTL_RUN, 0)]
    let v : Word32 := (BitVec.ofNat 32 96000 : Word32)
    decide (s.on TIME_CTL_RUN = false ∧ 1000 ≤ wordField v 16 0 ∧ wordField v 16 0 ≤ 96000)) = true := by
  decide +kernel

theorem witness_TickRateValues_3 :
    (let s : State := st [(TICK_RATE_PENDING, 1)]
    decide (s.on TICK_RATE_PENDING = true)) = true := by
  decide +kernel

theorem witness_TickRateAndTimeWrites_1 :
    (let s : State := st [(TIME_CTL_RUN, 1)]
    let v : Word32 := (BitVec.ofNat 32 1000 : Word32)
    decide (s.on TIME_CTL_RUN = true ∧ 1000 ≤ wordField v 16 0 ∧ wordField v 16 0 ≤ 96000)) = true := by
  decide +kernel

theorem witness_TickRateAndTimeWrites_2 :
    (let s : State := State.reset
    let v : Word32 := (0 : Word32)
    decide (wordField v 16 0 < 1000 ∨ 96000 < wordField v 16 0)) = true := by
  decide +kernel

theorem witness_TickRateAndTimeWrites_3 :
    (let s : State := st [(TIME_CTL_RUN, 1)]
    let v : Word32 := (0 : Word32)
    let hi : Bool := false
    decide (s.on TIME_CTL_RUN = true)) = true := by
  decide +kernel

theorem witness_TickRateAndTimeWrites_4 :
    (let s : State := st [(TIME_CTL_RUN, 0)]
    let v : Word32 := (0 : Word32)
    decide (s.on TIME_CTL_RUN = false)) = true := by
  decide +kernel

theorem witness_TickRateAndTimeWrites_5 :
    (let s : State := st [(TIME_CTL_RUN, 0)]
    let v : Word32 := (0 : Word32)
    decide (s.on TIME_CTL_RUN = false)) = true := by
  decide +kernel

theorem witness_TickRateAndTimeWrites_7 :
    (let s : State := (let u := st [(TIME_CTL_RUN, 0)]; { u with flt := { u.flt with zeroizeDue := false } } : State)
    let v : Word32 := (8 : Word32)
    decide (s.on TIME_CTL_RUN = false ∧ wordField v 0 0 = 0 ∧ wordField v 3 2 ≤ 2 ∧ wordField v 3 2 ≠ s.get TIME_CTL_SRC ∧ s.flt.zeroizeDue = false)) = true := by
  decide +kernel

theorem witness_TickRateAndTimeWrites_8 :
    (let s : State := (let u := st [(TIME_CTL_RUN, 0)]; { u with flt := { u.flt with zeroizeDue := false } } : State)
    let v : Word32 := (0 : Word32)
    decide (s.on TIME_CTL_RUN = false ∧ wordField v 3 2 = s.get TIME_CTL_SRC ∧ s.get TIME_CTL_SRC ≤ 2 ∧ s.flt.zeroizeDue = false)) = true := by
  decide +kernel

theorem witness_TickRateAndTimeWrites_9 :
    (let s : State := st [(TIME_CTL_RUN, 1)]
    let v : Word32 := (0 : Word32)
    decide (s.on TIME_CTL_RUN = true ∧ wordField v 3 2 = s.get TIME_CTL_SRC ∧ s.get TIME_CTL_SRC ≤ 2)) = true := by
  decide +kernel

theorem witness_TickRateAndTimeWrites_10 :
    (let s : State := State.reset
    let n : Nat := 31
    let v : Word32 := (0 : Word32)
    decide (n < 32 ∧ (s.on TIME_CTL_RUN = false ∨ s.on (FE_CTL_HELD n) = true))) = true := by
  decide +kernel

theorem witness_TickRateAndTimeWrites_11 :
    (let s : State := State.reset
    let n : Nat := 31
    let v : Word32 := (0 : Word32)
    decide (n < 32)) = true := by
  decide +kernel

theorem witness_TickRateAndTimeWrites_12 :
    (let s : State := st [(TIME_CTL_RUN, 1), ((FE_CTL_HELD 31), 0)]
    let n : Nat := 31
    let r : Nat := 0x08
    let v : Word32 := (0 : Word32)
    decide (n < 32 ∧ feGuarded r = true ∧ s.on TIME_CTL_RUN = true ∧ s.on (FE_CTL_HELD n) = false)) = true := by
  decide +kernel

theorem witness_TickEdgeRow_1 :
    (let s : State := (let u := State.reset; { u with time := { u.time with ticking := true } } : State)
    decide (s.time.ticking = true ∧ s.logicUp = true)) = true := by
  decide +kernel

theorem witness_TickEdgeRow_2 :
    (let s : State := running
    let k : Nat := 312499
    decide (0 < s.time.rate ∧ 0 < s.perCycle ∧ k < s.edgeCycle - s.clock)) = true := by
  decide +kernel

theorem witness_TickEdgeRow_3 :
    (let s : State := State.reset
    let n : Nat := 95999
    decide (n < 96000)) = true := by
  decide +kernel

theorem witness_TickEdgeRow_4 :
    (let s : State := (let u := State.reset; { u with data := { u.data with feBWaits := true } } : State)
    decide (s.data.feBWaits = true)) = true := by
  decide +kernel

theorem witness_TickEdgeRow_5 :
    (let s : State := (let u := (let u := State.reset; { u with time := { u.time with ticking := true } } : State); { u with time := { u.time with stopPend := false } } : State)
    decide (s.time.ticking = true ∧ s.logicUp = true ∧ s.time.stopPend = false ∧ 0 < s.time.rate ∧ s.time.rate ≤ 96000)) = true := by
  decide +kernel

theorem witness_TickEdgeRow_6 :
    (let s : State := (let u := State.reset; { u with data := { u.data with feBWaits := true } } : State)
    let n : Nat := 1
    decide (s.data.feBWaits = true ∧ n = s.get REL_CTL_FE_B)) = true := by
  decide +kernel

theorem witness_TickEdgeRow_7 :
    (let s : State := State.reset
    let n : Nat := 31
    decide (n < 32)) = true := by
  decide +kernel

theorem witness_AbandonAndInterrupts_1 :
    (let s : State := irqState
    let p : Nat := 32
    let i : Nat := 64
    decide (s.logicUp = true ∧ p ≤ 32 ∧ s.budgetDue p = false ∧ (s.proc p).halted = false ∧ s.irqChoice p = some i) &&
    (match (s.cx p).enter (s.proc p) (s.irqEntry p i) with
     | (true, t) =>
      decide (t.lcs.haltReq = [] ∧ t.lcs.stepReq = [] ∧ t.lcs.breaks = [])
     | _ => false)) = true := by
  decide +kernel

theorem witness_AbandonAndInterrupts_2 :
    (let s : State := irqState
    let p : Nat := 32
    let i : Nat := 64
    let j : Nat := 64
    decide (s.irqChoice p = some i ∧ j ∈ s.irqSources ∧ s.irqDeliverable j p = true)) = true := by
  decide +kernel

theorem witness_AbandonAndInterrupts_3 :
    (let s : State := irqState
    let p : Nat := 32
    let i : Nat := 64
    decide (s.irqDeliverable i p = true)) = true := by
  decide +kernel

theorem witness_AbandonAndInterrupts_4 :
    (let s : State := irqState
    let g : Nat := 9
    let c : Nat := 5000
    decide (tget s.holdoffs g = some c)) = true := by
  decide +kernel

theorem witness_AbandonAndInterrupts_5 :
    (let s : State := ({ (engWith [] fun p => { p with tsb := [0, 0] }) with time := { State.reset.time with inTick := true } } : State)
    let n : Nat := 0
    decide (n < 32 ∧ s.time.inTick = true ∧ (s.proc n).budgetGiven = false ∧ ((s.proc n).run = .running ∨ (s.proc n).run = .wait) ∧
    (s.proc n).halted = false) &&
    (match (s.passTo (s.time.edge + s.get TICK_WORK_W)).setProc n { s.proc n with budgetGiven := true } with
     | s1 =>
      (match (s1.cx n).enter (s1.proc n) ⟨0, some vBUDGET, (s.proc n).priv, worldOf n (s.proc n).priv, none, (s.proc n).pc.toNat, 0x80, 0, 0, 0, 0⟩ with
       | (b, u) =>
        decide (b = false)))) = true ∧
    (let s : State := ({ (engWith [] fun p => { p with budgetGiven := false }) with time := { State.reset.time with inTick := true } } : State)
    let n : Nat := 0
    decide (n < 32 ∧ s.time.inTick = true ∧ (s.proc n).budgetGiven = false ∧ ((s.proc n).run = .running ∨ (s.proc n).run = .wait) ∧
    (s.proc n).halted = false) &&
    (match (s.passTo (s.time.edge + s.get TICK_WORK_W)).setProc n { s.proc n with budgetGiven := true } with
     | s1 =>
      (match (s1.cx n).enter (s1.proc n) ⟨0, some vBUDGET, (s.proc n).priv, worldOf n (s.proc n).priv, none, (s.proc n).pc.toNat, 0x80, 0, 0, 0, 0⟩ with
       | (b, u) =>
        decide (b = true ∧
      u.lcs.haltReq = [] ∧ u.lcs.stepReq = [] ∧ u.lcs.breaks = [])))) = true := by
  decide +kernel

theorem witness_AbandonAndInterrupts_6 :
    (let s : State := State.reset
    let n : Nat := 31
    let cause : AbandonCause := .edge
    decide (n < 32)) = true := by
  decide +kernel

theorem witness_TimebaseRows_1 :
    (let s : State := st [(TIME_STATE_STATE, tbLocked)]
    decide (s.get TIME_STATE_STATE = tbLocked ∧ s.get TIME_CTL_SRC ≠ srcFree)) = true := by
  decide +kernel

theorem witness_TimebaseRows_2 :
    (let s : State := st [(TIME_STATE_STATE, tbLocking)]
    decide (s.get TIME_STATE_STATE = tbLocking ∧ s.get TIME_CTL_SRC ≠ srcFree)) = true := by
  decide +kernel

theorem witness_TimebaseRows_3 :
    (let s : State := st [(TIME_STATE_STATE, tbHoldover)]
    decide (s.get TIME_STATE_STATE = tbHoldover)) = true := by
  decide +kernel

theorem witness_TimebaseRows_4 :
    (let s : State := timed [] fun t => { t with modTime := thirdsPerSec / 3 }
    let falling : Bool := false
    decide (s.on PPS_CTL_IN_EDGE = falling ∧ 100000000 * thirdsPerNs < s.ppsOffset.natAbs)) = true ∧
    (let s : State := st [(PPS_CTL_IN_EDGE, 0), (TIME_CTL_SRC, srcPps), (TIME_CTL_RUN, 0), (TIME_STATE_STATE, tbFreerun)]
    let falling : Bool := false
    decide (s.on PPS_CTL_IN_EDGE = falling ∧ s.ppsOffset.natAbs ≤ 100000000 * thirdsPerNs ∧ s.get TIME_CTL_SRC = srcPps ∧ s.on TIME_CTL_RUN = false ∧
    0 ≤ (s.time.modTime : Int) + s.ppsOffset ∧ s.get TIME_STATE_STATE = tbFreerun)) = true := by
  decide +kernel

theorem witness_TimebaseRows_5 :
    (let s : State := st [(PPS_CTL_OUT_EN, 1), (TIME_STATE_STATE, 2)]
    decide (s.on PPS_CTL_OUT_EN = true ∧ (s.taiOk = true ∨ s.on PPS_CTL_OUT_ALWAYS = true))) = true := by
  decide +kernel

theorem witness_TimebaseRows_7 :
    (let s : State := st [(TIME_CTL_RUN, 1)]
    decide (s.on TIME_CTL_RUN = true)) = true ∧
    (let s : State := st [(TIME_CTL_RUN, 0)]
    let d : Int := 5
    decide (s.on TIME_CTL_RUN = false ∧ 0 ≤ (s.time.modTime : Int) + d)) = true := by
  decide +kernel

theorem witness_PtpRows_1 :
    (let s : State := ({ portUp with data := { State.reset.data with master := some ⟨9, 0⟩ } } : State)
    let ident : Nat := 9
    let port : Nat := 0
    let m : PtpMsg := .malformed
    let c : Int := 0
    let o : Int := 5
    decide (s.ptpPorts.contains port = true ∧ s.on (PORT_CTL_EN port) = true ∧ s.on (PORT_STATUS_LINK port) = true ∧ s.data.demoted = [] ∧
    s.get TIME_CTL_SRC = srcPtp ∧ s.data.master = some ⟨ident, port⟩ ∧ port = s.get TIME_CTL_PTP_PORT ∧ s.get PTP_CTL_TYPE ≠ ptTC ∧
    s.badCorrection c = false)) = true ∧
    (let s : State := portUp
    let ident : Nat := 9
    let port : Nat := 0
    let m : PtpMsg := .malformed
    let c : Int := -1
    let o : Int := 5
    let two : Bool := false
    decide (s.ptpPorts.contains port = true ∧ s.on (PORT_CTL_EN port) = true ∧ s.on (PORT_STATUS_LINK port) = true ∧ s.data.demoted = []) && calmB s SRC_PTP_DEMOTE && decide (s.badCorrection c = true)) = true ∧
    (let s : State := ({ portUp with data := { State.reset.data with master := some ⟨9, 0⟩, demoted := [(⟨9, 0⟩, 7)] } } : State)
    let ident : Nat := 9
    let port : Nat := 0
    let m : PtpMsg := .pdelayReq
    decide (s.ptpPorts.contains port = true ∧ s.on (PORT_CTL_EN port) = true ∧ s.on (PORT_STATUS_LINK port) = true ∧ m ≠ .malformed ∧
    (⟨ident, port⟩, 7) ∈ s.data.demoted)) = true := by
  decide +kernel

theorem witness_PtpRows_2 :
    (let s : State := State.reset
    let q : Partner := ⟨9, 0⟩
    let c : Int := -1
    let o : Int := 0
    let two : Bool := false
    decide (c < 0 ∨ (s.get PTP_CORRMAX_NS : Int) < c)) = true := by
  decide +kernel

theorem witness_PtpRows_3 :
    (let s : State := State.reset
    let q : Partner := ⟨9, 0⟩
    let m : Int := 2 ^ 32
    decide ((s.get PTP_PDELAYMAX_NS : Int) < m)) = true ∧
    (let s : State := State.reset
    let q : Partner := ⟨9, 0⟩
    let m : Int := 0
    decide (0 ≤ m ∧ m ≤ s.get PTP_PDELAYMAX_NS)) = true := by
  decide +kernel

theorem witness_PtpRows_4 :
    (let s : State := ({ portUp with data := { State.reset.data with master := some ⟨9, 0⟩, demoted := [(⟨9, 0⟩, 7)] } } : State)
    let e : Partner × Nat := (⟨9, 0⟩, 7)
    let rest : List (Partner × Nat) := []
    decide (s.data.demoted = e :: rest)) = true := by
  decide +kernel

theorem witness_PtpRows_5 :
    (let s : State := portUp
    let n : Nat := 0
    decide (n < 4 ∧ s.masterPorts.contains n = true ∧ s.on (PORT_CTL_EN n) = true ∧ s.on (PORT_STATUS_LINK n) = true)) = true := by
  decide +kernel

theorem witness_PtpRows_6 :
    (let s : State := portUp
    let n : Nat := 0
    decide (n < 4 ∧ s.ptpPorts.contains n = true ∧ s.on (PORT_CTL_EN n) = true ∧ s.on (PORT_STATUS_LINK n) = true)) = true := by
  decide +kernel

theorem witness_PortRows_1 :
    (let s : State := st [((PORT_CTL_EN 3), 1), ((PORT_STATUS_LINK 3), 0)]
    let n : Nat := 3
    let l : LinkSense := ⟨true, ⟨false, false, false⟩⟩
    decide (n < 4 ∧ l.up = true ∧ sfpClear l.pins = true ∧ s.on (PORT_CTL_EN n) = true ∧ s.on (PORT_STATUS_LINK n) = false)) = true := by
  decide +kernel

theorem witness_PortRows_2 :
    (let s : State := st [((PORT_STATUS_LINK 3), 1)]
    let n : Nat := 3
    let l : LinkSense := ⟨false, ⟨true, false, false⟩⟩
    decide (n < 4 ∧ (l.up = false ∨ sfpClear l.pins = false ∨ s.on (PORT_CTL_EN n) = false) ∧ s.on (PORT_STATUS_LINK n) = true) && calmB s (SRC_PORT_LINK n)) = true := by
  decide +kernel

theorem witness_PortRows_3 :
    (let s : State := State.reset
    let n : Nat := 3
    let v : Word32 := (0x80000001 : Word32)
    decide (n < 4 ∧ wordField v 1 0 ≤ 2 ∧ wordField v 7 6 ≤ 2 ∧ (wordField v 7 6 ≠ 2 ∨ wordField v 1 0 = 0)) && calmB s (SRC_PORT_LINK n)) = true := by
  decide +kernel

theorem witness_PortRows_4 :
    (let s : State := portUp
    let n : Nat := 0
    let f : WireFrame := ⟨List.replicate 60 0, 63, true, default⟩
    decide (n < 4 ∧ s.on (PORT_CTL_EN n) = true ∧ s.on (PORT_STATUS_LINK n) = true ∧ s.bufRoom f.octets.length = true ∧
    (f.wireLen < 64 ∨ 1536 < f.wireLen))) = true ∧
    (let s : State := portUp
    let n : Nat := 0
    let f : WireFrame := ⟨List.replicate 1532 0, 1536, false, default⟩
    decide (n < 4 ∧ s.on (PORT_CTL_EN n) = true ∧ s.on (PORT_STATUS_LINK n) = true ∧ s.bufRoom f.octets.length = true ∧ 64 ≤ f.wireLen ∧
    f.wireLen ≤ 1536 ∧ f.fcsOk = false)) = true ∧
    (let s : State := portUp
    let n : Nat := 0
    let f : WireFrame := ⟨List.replicate 60 0, 64, true, default⟩
    decide (n < 4 ∧ s.on (PORT_CTL_EN n) = true ∧ s.on (PORT_STATUS_LINK n) = true ∧ s.bufRoom f.octets.length = true ∧ 64 ≤ f.wireLen ∧
    f.wireLen ≤ 1536 ∧ f.fcsOk = true ∧ s.get (PAIR_CTL_MODE (n / 2)) = pmNONE ∧ f.view.red = none ∧ s.dupHas (s.dupKey n f.octets f.view) = false)) = true := by
  decide +kernel

theorem witness_PortRows_5 :
    (let s : State := State.reset
    let k : Nat := 1
    let v : Word32 := (0 : Word32)
    decide (k < 2 ∧ wordField v 1 0 ≤ 2) && calmB s (SRC_PORT_LINK (2 * k)) && calmB s (SRC_PORT_LINK (2 * k + 1))) = true := by
  decide +kernel

theorem witness_PortRows_6 :
    (let s : State := ({ st [(PAIR_CTL_MODE 1, 1)] with data := { State.reset.data with pairRx := [(1, 5)], dups := [⟨1, 7, 9, 100⟩] } } : State)
    let k : Nat := 1
    decide (k < 2 ∧ s.get (PAIR_CTL_MODE k) ≠ pmNONE ∧ (tget s.data.pairRx k).isSome = true)) = true := by
  decide +kernel

theorem witness_PortRows_7 :
    (let s : State := ({ st [(PAIR_CTL_MODE 1, 1)] with data := { State.reset.data with pairRx := [(1, 5)], dups := [⟨1, 7, 9, 100⟩] } } : State)
    let k : Nat := 1
    decide (k < 2 ∧ s.get (PAIR_CTL_MODE k) ≠ pmNONE)) = true := by
  decide +kernel

theorem witness_PortRows_8 :
    (let s : State := ({ st [(PAIR_CTL_MODE 1, 1)] with data := { State.reset.data with pairRx := [(1, 5)], dups := [⟨1, 7, 9, 100⟩] } } : State)
    let k : Nat := 1
    let d : DupEntry := ⟨1, 7, 9, 100⟩
    decide (s.data.dups.find? (fun d => decide (d.pair = k)) = some d)) = true := by
  decide +kernel

theorem witness_ReplayWindowNeverAcceptsTwice_1 :
    (let hi : Nat := 200
    let win : Nat := 1
    let x : Nat := 201
    let m : Nat := 2 ^ 32
    let hi' : Nat := 201
    let win' : Nat := 3
    let y : Nat := 100
    decide (2 ≤ m ∧ m ≤ 2 ^ 32 ∧ hi < m ∧ x < m ∧ win < 2 ^ 64 ∧ window hi win x m = some (hi', win') ∧ y < m ∧ ceilDiv m 2 ≤ fwd m y hi' ∧
    63 < m - fwd m y hi')) = true := by
  decide +kernel

theorem witness_ReplayWindowNeverAcceptsTwice_2 :
    (let hi : Nat := 5
    let win : Nat := 1
    let x : Nat := 6
    let m : Nat := 65536
    decide (0 < fwd m x hi ∧ fwd m x hi < ceilDiv m 2)) = true := by
  decide +kernel

theorem witness_ReplayWindowNeverAcceptsTwice_3 :
    (let e : TableEntry := svEntry
    let v : MsgView := plainView
    decide (16 ≤ e.length ∧ eon e eSTARTED = true ∧ eget e eTYPE = tyRSV ∧ v.seqNo < 2 ^ 32) &&
    (match sequenceStep e v with
     | some e' =>
      true
     | _ => false)) = true := by
  decide +kernel

theorem witness_PathRows_1 :
    (let s : State := ({ State.reset with data := { State.reset.data with frames := [⟨1, 0, (List.replicate 12 0 ++ [0x88, 0xBA] ++ List.replicate 46 0), plainView, 0, 0, .received⟩] } } : State)
    let i : Nat := 5
    decide (s.hotWay i = none) &&
    (match s.data.frames.find? (fun g => decide (g.stage = .received)) with
     | some f =>
      (match s.classOf f.octets f.view with
       | c =>
        decide ((c = .goose ∨ c = .sv ∨ c = .rgoose ∨ c = .rsv) ∧
      viewKeyed f.view (c.type?.getD 0) = true))
     | _ => false)) = true := by
  decide +kernel

theorem witness_PathRows_2 :
    (let s : State := framed5 svEntry default (.fill 5)
    let id : Nat := 1
    let i : Nat := 5
    let env : FabEnv := default
    decide ((s.disturb env).entryValid i = true ∧ (s.disturb env).hotWay i = none) &&
    (match (s.disturb env).data.frames.find? (fun g => decide (g.id = id)) with
     | some f =>
      decide (f.stage = .fill i) &&
      (match (s.disturb env).wayFor i with
       | some (w, s1) =>
        (match s1.dramRead (entryAddr i) 128 with
         | (some img, s2) =>
          true
         | _ => false)
       | _ => false)
     | _ => false)) = true ∧
    (let s : State := framed5 svEntry default (.fill 6)
    let id : Nat := 1
    let i : Nat := 6
    let env : FabEnv := default
    decide ((s.disturb env).entryValid i = false) &&
    (match (s.disturb env).data.frames.find? (fun g => decide (g.id = id)) with
     | some f =>
      decide (f.stage = .fill i)
     | _ => false)) = true := by
  decide +kernel

theorem witness_PathRows_3 :
    (let s : State := framed (.matched 5)
    let id : Nat := 1
    let lane : Nat := 7
    let i : Nat := 5
    decide (s.laneUp lane = true ∧ s.entryValid i = false) &&
    (match s.data.frames.find? (fun g => decide (g.id = id)) with
     | some f =>
      decide (f.stage = .matched i)
     | _ => false)) = true ∧
    (let s : State := framed5 svEntry default (.matched 5)
    let id : Nat := 1
    let lane : Nat := 7
    let i : Nat := 5
    decide (s.laneUp lane = true ∧ s.entryValid i = true) &&
    (match s.data.frames.find? (fun g => decide (g.id = id)) with
     | some f =>
      decide (f.stage = .matched i) &&
      (match s.entryRead i with
       | (true, u) =>
        decide (frameMalformed (u.entry i) f.view = true)
       | _ => false)
     | _ => false)) = true ∧
    (let s : State := framed5 svEntry plainView (.matched 5)
    let id : Nat := 1
    let lane : Nat := 7
    let i : Nat := 5
    decide (s.laneUp lane = true ∧ s.entryValid i = true) &&
    (match s.data.frames.find? (fun g => decide (g.id = id)) with
     | some f =>
      decide (f.stage = .matched i ∧ f.view.ext = none) &&
      (match s.entryRead i with
       | (true, u) =>
        decide (frameMalformed (u.entry i) f.view = false)
       | _ => false)
     | _ => false)) = true ∧
    (let s : State := peg7 (framed5 subEntry { plainView with ext := some ⟨2, [], []⟩ } (.matched 5))
    let id : Nat := 1
    let lane : Nat := 7
    let i : Nat := 5
    decide (s.laneUp lane = true ∧ s.entryValid i = true) &&
    (match s.data.frames.find? (fun g => decide (g.id = id)) with
     | some f =>
      decide (f.stage = .matched i) &&
      (match s.entryRead i with
       | (true, u) =>
        decide (frameMalformed (u.entry i) f.view = false) &&
        (match f.view.ext with
         | some x =>
          decide (x.tag.length = eget (u.entry i) eTAGLEN) &&
          (match selectKey (u.entry i) x.keyId with
           | some (slot, epoch, b) =>
            decide (u.laneKey slot epoch (eget (u.entry i) eALG) useVERIFY = true ∧
          u.pegHere slot = true) &&
            (match u.pegUse slot with
             | (true, v) =>
              true
             | _ => false)
           | _ => false)
         | _ => false)
       | _ => false)
     | _ => false)) = true := by
  decide +kernel

theorem witness_PathRows_4 :
    (let s : State := withEntry State.reset subEntry
    let f : Frame := ⟨1, 0, List.replicate 64 0, plainView, 0, 0, .received⟩
    let i : Nat := 5
    let lane : Nat := 0
    let x : ExtView := ⟨2, [1], []⟩
    decide (x.tag.length ≠ eget (s.entry i) eTAGLEN)) = true ∧
    (let s : State := withEntry State.reset svEntry
    let f : Frame := ⟨1, 0, List.replicate 64 0, plainView, 0, 0, .received⟩
    let i : Nat := 5
    let lane : Nat := 0
    let x : ExtView := ⟨2, [], []⟩
    decide (x.tag.length = eget (s.entry i) eTAGLEN ∧ selectKey (s.entry i) x.keyId = none)) = true := by
  decide +kernel

theorem witness_PathRows_5 :
    (let s : State := framed (.verified 5 0 true)
    let id : Nat := 1
    let i : Nat := 5
    let epoch : Nat := 0
    let b : Bool := true
    decide ((s.data.frames.find? (fun g => decide (g.stage.entry? = some i))).map (fun g => g.id) = some id ∧ s.entryValid i = false) &&
    (match s.data.frames.find? (fun g => decide (g.id = id)) with
     | some f =>
      decide (f.stage = .verified i epoch b)
     | _ => false)) = true ∧
    (let s : State := framed5 svEntry plainView (.verified 5 0 true)
    let id : Nat := 1
    let i : Nat := 5
    let epoch : Nat := 0
    let b : Bool := true
    decide ((s.data.frames.find? (fun g => decide (g.stage.entry? = some i))).map (fun g => g.id) = some id ∧ s.entryValid i = true) &&
    (match s.data.frames.find? (fun g => decide (g.id = id)) with
     | some f =>
      decide (f.stage = .verified i epoch b) &&
      (match s.entryRead i with
       | (true, u) =>
        true
       | _ => false)
     | _ => false)) = true := by
  decide +kernel

theorem witness_PathRows_6 :
    (let s : State := State.reset
    let lane : Nat := 7
    decide (lane < 8 ∧ bitOf (s.get BOW_LANE_STATUS_ISOLATED) lane = false)) = true := by
  decide +kernel

theorem witness_AssocRows_1 :
    (let s : State := st [(ASSOC_CMD_RESULT_BUSY, 0)]
    let op : Nat := 15
    decide (op < 16 ∧ (op = 0 ∨ 8 ≤ op) ∧ s.on ASSOC_CMD_RESULT_BUSY = false)) = true := by
  decide +kernel

theorem witness_AssocRows_2 :
    (let s : State := st [(ASSOC_CMD_RESULT_BUSY, 0)]
    let c : Instr := .assocRead
    decide (s.on ASSOC_CMD_RESULT_BUSY = false ∧ s.entryValid (s.get ASSOC_CMD_INDEX_INDEX) = false ∧
    c ∈ [Instr.assocRead, .assocUpdate, .assocDelete, .assocResetseq, .assocClrcnt])) = true := by
  decide +kernel

theorem witness_AssocRows_3 :
    (let s : State := st [(ASSOC_CMD_RESULT_BUSY, 0)]
    decide (s.on ASSOC_CMD_RESULT_BUSY = false)) = true := by
  decide +kernel

theorem witness_AssocRows_4 :
    (let s : State := st [(ASSOC_CMD_RESULT_BUSY, 0)]
    decide (s.on ASSOC_CMD_RESULT_BUSY = false) &&
    (match s.imageBad s.stageImage (eon s.stageImage ePIN && s.pinFull (s.mix (s.stageKey s.stageImage)).2.2) with
     | b =>
      true)) = true := by
  decide +kernel

theorem witness_AssocRows_5 :
    (let s : State := withEntry (st [(ASSOC_CMD_INDEX_INDEX, 5)]) svEntry
    let i : Nat := 5
    decide (s.on ASSOC_CMD_RESULT_BUSY = false ∧ i = s.get ASSOC_CMD_INDEX_INDEX ∧ s.entryValid i = true) &&
    (match s.bring i with
     | (true, u) =>
      true
     | _ => false)) = true := by
  decide +kernel

theorem witness_AssocRows_6 :
    (let s : State := withEntry (st [(ASSOC_CMD_INDEX_INDEX, 5)]) svEntry
    let i : Nat := 5
    decide (s.on ASSOC_CMD_RESULT_BUSY = false ∧ i = s.get ASSOC_CMD_INDEX_INDEX ∧ s.entryValid i = true)) = true := by
  decide +kernel

theorem witness_AssocRows_7 :
    (let s : State := (let u := withEntry (st [(ASSOC_CMD_INDEX_INDEX, 5)]) svEntry; { u with mem := { u.mem with dramPoison := [entryAddr 5] } } : State)
    let i : Nat := 5
    let op : Nat := 7
    decide (s.on ASSOC_CMD_RESULT_BUSY = false ∧ i = s.get ASSOC_CMD_INDEX_INDEX ∧ s.entryValid i = true ∧ (op = 3 ∨ op = 4 ∨ op = 6 ∨ op = 7)) &&
    (match s.bring i with
     | (false, u) =>
      true
     | _ => false)) = true := by
  decide +kernel

theorem witness_AssocRows_8 :
    (let s : State := State.reset
    let st : Nat := 255
    let w : Nat := 15
    decide (st < 256 ∧ w < 16)) = true := by
  decide +kernel

theorem witness_AssocRows_10 :
    (let s : State := withEntry (st [(TICK_COUNT_LO_COUNT, 100)]) (eput svEntry eSUPTO 1)
    let i : Nat := 5
    decide (s.hotWay i = none ∧ eon (s.entry i) eV = true ∧ eget (s.entry i) eROLE = rlSUBSCRIBE ∧ eon (s.entry i) eSTARTED = true ∧
    eon (s.entry i) eLOST = false ∧ s.expired (s.entry i) = true ∧ i < 2 ^ 20)) = true := by
  decide +kernel

theorem witness_AssocRows_11 :
    (let a : Nat := 1
    let f : EFld := eV
    let g : EFld := eSLOTA
    let e : TableEntry := svEntry
    decide (e.length = 16 ∧ f.word < 16 ∧ f.lo ≤ f.hi ∧ f.hi < 64 ∧ g.word ≠ f.word)) = true := by
  decide +kernel

theorem witness_ReleaseRows_1 :
    (let s : State := ({ State.reset with data := { State.reset.data with held := [(3, ⟨5, 0, 0, 1000, 0, 0, [], 0, 0, 0, 0⟩)] } } : State)
    let k : Nat := 3
    (match tget s.data.held k with
     | some h =>
      decide (s.get ASSOC_CTL_HOLD_TICKS ≤ h.edges)
     | _ => false)) = true := by
  decide +kernel

theorem witness_ReleaseRows_2 :
    (let s : State := request 5 cwRELEASE cwDENY true 0
    let k : Nat := 3
    let lane : Nat := 0
    let w : Nat := 0
    (match tget s.data.rel k with
     | some r =>
      decide (r.badWord = some w)
     | _ => false)) = true := by
  decide +kernel

theorem witness_ReleaseRows_3 :
    (let s : State := request cwPENDING cwRELEASE cwDENY true 1000
    let k : Nat := 3
    (match tget s.data.rel k with
     | some r =>
      decide (r.badWord = none ∧ r.stateW = cwPENDING ∧ r.hold = true ∧ s.get REL_CTL_MAXTICKS ≤ r.presented)
     | _ => false)) = true := by
  decide +kernel

theorem witness_ReleaseRows_4 :
    (let s : State := request cwRELEASING cwRELEASE cwRELEASE true 0
    let k : Nat := 3
    let lane : Nat := 7
    decide (s.laneUp lane = true) &&
    (match tget s.data.rel k with
     | some r =>
      decide (r.badWord = none ∧ (r.stateW = cwRELEASING ∨ (r.hold = false ∧ r.stateW = cwPENDING)))
     | _ => false)) = true := by
  decide +kernel

theorem witness_ReleaseRows_5 :
    (let s : State := peg7 (withEntry (request cwRELEASING cwRELEASE cwRELEASE true 0) pubEntry)
    let k : Nat := 3
    let lane : Nat := 7
    decide (s.laneUp lane = true ∧ s.flt.zeroizeDue = false) &&
    (match tget s.data.rel k with
     | some r =>
      decide (r.badWord = none ∧ ((r.stateW = cwRELEASING ∧ r.va = cwRELEASE ∧ r.vb = cwRELEASE) ∨ (r.hold = false ∧
      r.stateW = cwPENDING)) ∧
      s.entryValid r.assoc = true ∧ eget (s.entry r.assoc) eROLE = rlPUBLISH) &&
      (match currentKey (s.entry r.assoc) with
       | some (slot, epoch) =>
        decide (s.laneKey slot epoch (eget (s.entry r.assoc) eALG) useSIGN = true ∧
      s.pegHere slot = true) &&
        (match s.pegUse slot with
         | (true, u) =>
          true
         | _ => false)
       | _ => false)
     | _ => false)) = true := by
  decide +kernel

theorem witness_ReleaseRows_6 :
    (let s : State := State.reset
    let k : Nat := 1
    let r : RelReq := ⟨cwPENDING, cwRELEASE, cwRELEASE, 5, [], default, none, 0, true, 0, 0⟩
    decide (r.va = cwRELEASE ∧ r.vb = cwRELEASE)) = true ∧
    (let s : State := State.reset
    let k : Nat := 1
    let r : RelReq := ⟨cwPENDING, cwDENY, cwDENY, 5, [], default, none, 0, true, 0, 0⟩
    decide (r.va = cwDENY ∧ r.vb = cwDENY)) = true ∧
    (let s : State := State.reset
    let k : Nat := 1
    let r : RelReq := ⟨cwPENDING, cwRELEASE, cwDENY, 5, [], default, none, 0, true, 0, 0⟩
    decide (¬ (r.va = cwRELEASE ∧ r.vb = cwRELEASE) ∧ ¬ (r.va = cwDENY ∧ r.vb = cwDENY))) = true := by
  decide +kernel

theorem witness_ReleaseRows_7 :
    (let s : State := st [(TIME_CTL_RUN, 1), (FE_CTL_HELD 1, 0)]
    let v : Word32 := (0x100 : Word32)
    decide (s.on TIME_CTL_RUN = true ∧
    ([s.get REL_CTL_FE_A, s.get REL_CTL_FE_B, wordField v 4 0, wordField v 12 8].all fun n => s.on (FE_CTL_HELD n)) = false)) = true ∧
    (let s : State := st [(TIME_CTL_RUN, 0)]
    let v : Word32 := (0x10100 : Word32)
    decide (s.on TIME_CTL_RUN = false ∧ wordField v 4 0 ≠ wordField v 12 8 ∧ wordField v 19 16 ≠ 0)) = true ∧
    (let s : State := st [(TIME_CTL_RUN, 0)]
    let v : Word32 := (0 : Word32)
    decide (s.on TIME_CTL_RUN = false ∧ wordField v 4 0 = wordField v 12 8)) = true := by
  decide +kernel

theorem witness_NoReleaseWithoutBothVerdicts_1 :
    (let s : State := request cwPENDING cwRELEASE cwDENY true 0
    let k : Nat := 3
    let lane : Nat := 7
    let n : Nat := 5
    (match tget s.data.rel k with
     | some r =>
      decide (r.hold = true ∧ ¬ (r.stateW = cwRELEASING ∧ r.va = cwRELEASE ∧ r.vb = cwRELEASE)) &&
      (match exec (.releaseSignSend k lane) s with
       | .next t =>
        true
       | _ => false)
     | _ => false)) = true := by
  decide +kernel

theorem witness_QueueRows_1 :
    (let s : State := st [(BRIDGE_LINK_UP, 1)]
    let q : Nat := 1
    let v : Nat := 4294967295
    decide (q < queueCount ∧ v < 2 ^ 32 ∧ s.hostLink = true ∧
    (s.on (QUEUE_CFG_EN q) = false ∨ s.on (QUEUE_STATUS_STOPPED q) = true ∨ (s.queueOwner q).isNone = true))) = true ∧
    (let s : State := st [(BRIDGE_LINK_UP, 1), ((QUEUE_CFG_EN 1), 1), ((QUEUE_STATUS_STOPPED 1), 0)]
    let q : Nat := 1
    let v : Nat := 4294967295
    decide (q < queueCount ∧ v < 2 ^ 32 ∧ s.hostLink = true ∧ s.on (QUEUE_CFG_EN q) = true ∧ s.on (QUEUE_STATUS_STOPPED q) = false ∧
    (s.queueOwner q).isNone = false ∧ 2 ^ 31 ≤ cdiff v (s.get (QUEUE_PROD_COUNT q)))) = true ∧
    (let s : State := q5 [(BRIDGE_LINK_UP, 1), (QUEUE_PROD_COUNT 5, 0), (QUEUE_CONS_COUNT 5, 0)]
    let q : Nat := 5
    let v : Nat := 5
    decide (q < queueCount ∧ v < 2 ^ 32 ∧ s.hostLink = true ∧ s.on (QUEUE_CFG_EN q) = true ∧ s.on (QUEUE_STATUS_STOPPED q) = false ∧
    (s.queueOwner q).isNone = false ∧ cdiff v (s.get (QUEUE_PROD_COUNT q)) < 2 ^ 31 ∧ s.get (QUEUE_CFG_SIZE q) < cdiff v (s.get (QUEUE_CONS_COUNT q)))) = true ∧
    (let s : State := q5 [(BRIDGE_LINK_UP, 1), (QUEUE_PROD_COUNT 5, 0), (QUEUE_CONS_COUNT 5, 0)]
    let q : Nat := 5
    let v : Nat := 4
    decide (q < queueCount ∧ v < 2 ^ 32 ∧ s.hostLink = true ∧ s.on (QUEUE_CFG_EN q) = true ∧ s.on (QUEUE_STATUS_STOPPED q) = false ∧
    (s.queueOwner q).isNone = false ∧ cdiff v (s.get (QUEUE_PROD_COUNT q)) < 2 ^ 31 ∧ cdiff v (s.get (QUEUE_CONS_COUNT q)) ≤ s.get (QUEUE_CFG_SIZE q))) = true := by
  decide +kernel

theorem witness_QueueRows_2 :
    (let s : State := hosted
    let q : Nat := 65535
    let off : Nat := 4
    let v : Nat := 0
    let w : Width := .w32
    decide (q < queueCount ∧ s.hostLink = true ∧ (w = .w8 ∨ w = .w16 ∨ (w = .w32 ∧ off ≠ 0)))) = true := by
  decide +kernel

theorem witness_QueueRows_3 :
    (let s : State := q5 [(BRIDGE_LINK_UP, 1), (QUEUE_PROD_COUNT 5, 1), (QUEUE_CONS_COUNT 5, 0)]
    let q : Nat := 5
    decide (q < queueCount ∧ s.on (QUEUE_CFG_EN q) = true ∧ s.on (QUEUE_STATUS_STOPPED q) = false ∧ s.on (QUEUE_CFG_DIR q) = false ∧
    (s.queueOwner q).isSome = true ∧ (s.queue q).slot = none ∧ s.hostLink = true ∧ s.get (QUEUE_PROD_COUNT q) ≠ s.get (QUEUE_CONS_COUNT q))) = true := by
  decide +kernel

theorem witness_QueueRows_4 :
    (let s : State := (q5 [(BRIDGE_LINK_UP, 1), (QUEUE_PROD_COUNT 5, 1), (QUEUE_CONS_COUNT 5, 0)]).setQueue 5 ⟨[⟨some [1, 2], 0, none, 0, 0, 0, 0, 0⟩], some (64, 64), [], 0⟩
    (match s.takeTurn false with
     | some (q, s1) =>
      decide (q < queueCount) &&
      (match (s1.queue q).items with
       | i :: rest =>
        (match (s1.queue q).slot with
         | some (addr, len) =>
          decide (addr % 64 = 0) &&
          (match i.octets with
           | some o =>
            decide (o.length ≤ len)
           | _ => false)
         | _ => false)
       | _ => false)
     | _ => false)) = true := by
  decide +kernel

theorem witness_QueueRows_5 :
    (let s : State := (let u := q5 [(BRIDGE_LINK_UP, 1), (QUEUE_CFG_DIR 5, 1), (QUEUE_PROD_COUNT 5, 1)]; { u with mem := { u.mem with host := [(9, 0x30)] } } : State)
    decide (s.flt.zeroizeDue = false) &&
    (match s.takeTurn true with
     | some (q, s1) =>
      (match s1.hostRead (s1.queueSlot q (s1.queue q).nextFetch) 32 with
       | b =>
        (match bytesToNat ((b.drop 8).take 8) with
         | w1 =>
          decide (3 ≤ w1 / 2 ^ 12 % 16)))
     | _ => false)) = true := by
  decide +kernel

theorem witness_QueueRows_6 :
    (let s : State := (q5 [(BRIDGE_LINK_UP, 1), (QUEUE_PROD_COUNT 5, 1), (QUEUE_CONS_COUNT 5, 0)]).setQueue 5 ⟨[], none, [⟨0, 7, true, .done 0 none 0 0 0 0 0⟩], 1⟩
    let q : Nat := 5
    decide (q < queueCount ∧ s.hostLink = true) &&
    (match (s.queue q).subs with
     | ⟨n, ck, b, .done st assoc epoch len sec ns tick⟩ :: rest =>
      true
     | _ => false)) = true := by
  decide +kernel

theorem witness_QueueRows_7 :
    (let s : State := st [((QUEUE_CFG_EN 1), 1), ((QUEUE_STATUS_STOPPED 1), 0)]
    let q : Nat := 1
    let timeout : Bool := false
    decide (q < queueCount ∧ s.on (QUEUE_CFG_EN q) = true ∧ s.on (QUEUE_STATUS_STOPPED q) = false) && calmB s SRC_EVREC_LOST) = true := by
  decide +kernel

theorem witness_QueueRows_8 :
    (let s : State := State.reset
    let q : Nat := 1
    let a : Nat := 1
    let sec : Nat := 1
    let ns : Nat := 1
    let tick : Nat := 1
    let src : Nat := 1
    let st : Nat := 1
    let epoch : Nat := 1
    let len : Nat := 1
    decide (q < queueCount)) = true := by
  decide +kernel

theorem witness_QueueRows_9 :
    (let s : State := State.reset
    let q : Nat := 1
    let v : Word32 := (0 : Word32)
    decide (q < queueCount)) = true := by
  decide +kernel

theorem witness_QueueRows_10 :
    (let s : State := q5 []
    let q : Nat := 5
    let v : Word32 := (0x80000000 : Word32)
    decide (q < queueCount ∧ s.on (QUEUE_CFG_EN q) = true ∧ wordField v 31 31 = 1)) = true := by
  decide +kernel

theorem witness_QueueRows_11 :
    (let s : State := q5 [(QUEUE_CFG_EN 5, 0)]
    let q : Nat := 5
    let v : Word32 := (0x80000010 : Word32)
    decide (q < queueCount ∧ s.on (QUEUE_CFG_EN q) = false ∧ wordField v 31 31 = 1 ∧ sizeOk (wordField v 16 0) = true ∧ wordField v 29 29 = 0)) = true := by
  decide +kernel

theorem witness_BridgeRows_1 :
    (let s : State := (let u := State.reset; { u with pwr := { u.pwr with perstLow := false } } : State)
    let gen : Nat := 6
    let width : Nat := 1
    decide (s.pwr.perstLow = false ∧ 1 ≤ gen ∧ gen ≤ 6 ∧ (width = 1 ∨ width = 2 ∨ width = 4 ∨ width = 8))) = true := by
  decide +kernel

theorem witness_BridgeRows_2 :
    (let s : State := st [(BRIDGE_LINK_UP, 1)]
    decide (s.on BRIDGE_LINK_UP = true)) = true := by
  decide +kernel

theorem witness_BridgeRows_3 :
    (let s : State := st [(BRIDGE_LINK_UP, 1)]
    decide (s.on BRIDGE_LINK_UP = true) && calmB s SRC_BRIDGE_LINK) = true := by
  decide +kernel

theorem witness_BridgeRows_4 :
    (let s : State := State.reset
    let f : Nat := 63
    let vec : Bool := false
    let v : Word32 := (0 : Word32)
    decide (f < 64)) = true := by
  decide +kernel

theorem witness_BridgeRows_5 :
    (let s : State := st [(FN_QG_QG_COUNT 0, 0), (FN_QG_COUNTHI 0, 0)]
    let f : Nat := 0
    let v : Word32 := (0x04000000 : Word32)
    decide (f < 64 ∧ (f = 0 ∨ s.data.vfEnable = false) ∧ s.fnBusy f = false ∧ wordField v 9 0 + (wordField v 25 16 + 1024 * wordField v 26 26) ≤ 1024 ∧
    ((List.range 64).all fun k => decide (k = f) || !(rangesMeet (wordField v 9 0) (wordField v 25 16 + 1024 * wordField v 26 26) (s.fnGroups k).1 (s.fnGroups k).2)) = true)) = true := by
  decide +kernel

theorem witness_BridgeRows_7 :
    (let s : State := State.reset
    let f : Nat := 63
    decide (f < 64)) = true := by
  decide +kernel

theorem witness_BridgeRows_8 :
    (let s : State := st [((FN_CTL_FLR 63), 1)]
    let f : Nat := 63
    decide (f < 64 ∧ s.on (FN_CTL_FLR f) = true)) = true := by
  decide +kernel

theorem witness_BridgeRows_9 :
    (let s : State := ({ State.reset with data := { State.reset.data with due := [(5, [(9, 9)])] } } : State)
    let v : Nat := 5
    decide (v < 2048) &&
    (match tget s.data.due v with
     | some l =>
      true
     | _ => false)) = true := by
  decide +kernel

theorem witness_BridgeRows_10 :
    (let s : State := State.reset
    let v : Nat := 2047
    decide (v < 2048 ∧ bitOf (s.get (MSIX_PBA_PEND (v / 32))) (v % 32) = false)) = true := by
  decide +kernel

theorem witness_BridgeRows_13 :
    (let s : State := st [(LIFE_BOOT_STAGE, stRUNNING)]
    let code : Nat := 1
    let m : Bytes := []
    decide (s.get LIFE_BOOT_STAGE = stRUNNING)) = true := by
  decide +kernel

theorem witness_BridgeRows_14 :
    (let s : State := ({ st [(LIFE_BOOT_STAGE, stRUNNING)] with data := { State.reset.data with spdm := { State.reset.data.spdm with session := some (1, true, 0) }, ide := [(4, (262112, none))] } } : State).setPeg 262112 { Peg.free with st := .active, kalg := kaBRIDGE }
    let stream : Nat := 4
    decide (s.get LIFE_BOOT_STAGE = stRUNNING ∧ stream < 5) &&
    (match s.data.spdm.session with
     | some (id, true, gen) =>
      (match tget s.data.ide stream with
       | some (slot, used) =>
        decide (s.bridgeKey slot = true)
       | _ => false)
     | _ => false)) = true := by
  decide +kernel

theorem witness_BridgeRows_15 :
    (let s : State := st [(BRIDGE_IDE_SECURE, 31)]
    let stream : Nat := 4
    decide (stream < 5 ∧ bitOf (s.get BRIDGE_IDE_SECURE) stream = true ∧ s.on BRIDGE_IDE_REQUIRE = false ∧ s.flt.zeroizeDue = false)) = true := by
  decide +kernel

theorem witness_JobRows_1 :
    (let r : (Nat → Nat → JobErr → Instr) × Nat := (.mldsaVerify, 0x0A)
    let s : State := cell3
    let n : Nat := 3
    let used : Nat := 0
    decide (s.get (CELL_STATUS_STATE n) = 1 ∧ used ≤ tgetD s.jobs.fill n 0) &&
    (match tget s.jobs.jobs n with
     | some j =>
      decide (jOp j.words = r.2 ∧ j.waitsIndex = false ∧ entropyOk j.words j.order (j.drew + used) true = true) &&
      (match opSpec r.2 with
       | some o =>
        decide (s.endWaits j.words o = false) &&
        (match (s.cellDraw n used).bufRead (jobMid j.ring n) (jAddr j.words 2) (jLen j.words 2) with
         | (some a, s2) =>
          (match s2.bufRead (jobMid j.ring n) (jAddr j.words 5) (jLen j.words 5) with
           | (some b, s3) =>
            true
           | _ => false)
         | _ => false)
       | _ => false)
     | _ => false)) = true := by
  decide +kernel

theorem witness_JobRows_2 :
    (let r : (Nat → Nat → JobErr → Instr) × Nat := (.mldsaVerify, 0x0A)
    let s : State := cell3
    let n : Nat := 3
    let used : Nat := 0
    let err : JobErr := .buffer
    decide (s.get (CELL_STATUS_STATE n) = 1 ∧ used ≤ tgetD s.jobs.fill n 0 ∧ err ≠ .none) && calmB s (SRC_SRAM_UE 5) &&
    (match tget s.jobs.jobs n with
     | some j =>
      decide (jOp j.words = r.2 ∧ j.waitsIndex = false ∧ entropyOk j.words j.order (j.drew + used) false = true) &&
      (match opSpec r.2 with
       | some o =>
        decide (s.endWaits j.words o = false)
       | _ => false)
     | _ => false)) = true := by
  decide +kernel

theorem witness_JobRows_3 :
    (let r : (Nat → Nat → JobErr → Instr) × Nat := (.random, 0x3D)
    decide (True)) = true := by
  decide +kernel

theorem witness_JobRows_4 :
    (let s : State := cell3
    let n : Nat := 3
    let op : Nat := 0x0A
    let j : Job := verifyJob
    let a : Bytes := []
    let b : Bytes := []
    decide (jOp j.words = op ∧ (op = 0x0A ∨ op = 0x12 ∨ op = 0x1A ∨ op = 0x38)) &&
    (match opSpec op with
     | some o =>
      true
     | _ => false)) = true := by
  decide +kernel

theorem witness_JobRows_5 :
    (let s : State := cell3
    let n : Nat := 3
    let st : Nat := 1
    let det : Nat := 1
    let l : Nat := 1
    let res : Nat := 1
    let j : Job := verifyJob
    decide (n < 16 ∧ j.ring < 1024 ∧ s.get (CELL_STATUS_STATE n) ≠ 5)) = true := by
  decide +kernel

theorem witness_SecretsLeaveOnlyWhereAllowed_1 :
    (let s : State := ring2 [] [(rgSECOUT 2, 1)]
    let r : Nat := 2
    let w : List Nat := kemJob 0
    decide (s.jobCheck r w = none ∧ jDest w = false) &&
    (match opSpec (jOp w) with
     | some o =>
      decide (o.secret = true)
     | _ => false)) = true ∧
    (let s : State := (ring2 [] [(rgSECOUT 2, 1)]).setPeg 7 { Peg.free with st := .reserved, kalg := kaAES256, users := 2 ^ userBit 0x41 }
    let r : Nat := 2
    let w : List Nat := kemJob (2 ^ 31 + 7)
    decide (s.jobCheck r w = none ∧ jDest w = true) &&
    (match opSpec (jOp w) with
     | some o =>
      decide (o.secret = true)
     | _ => false)) = true := by
  decide +kernel

theorem witness_CellAndRingRows_2 :
    (let s : State := (let u := ring2 [] []; { u with jobs := { u.jobs with ending := [⟨2, 0, 0, 0, 0, 3, true, 0, 0, false, none⟩] } } : State)
    let r : Nat := 2
    let count : Nat := 0
    let c : Compl := ⟨2, 0, 0, 0, 0, 3, true, 0, 0, false, none⟩
    decide (s.jobs.ending.find? (fun c => decide (c.ring = r) && ((decide (1024 ≤ r) || s.on (rgSERIAL r)) || decide (c.count = count))) = some c ∧
    c.count = count)) = true := by
  decide +kernel

theorem witness_CellAndRingRows_3 :
    (let s : State := ring2 [] []
    let mid : Nat := 0x40
    let r : Nat := 2
    let v : Word32 := (0 : Word32)
    decide (r < 1032 ∧ (mid ≠ s.ringOwner r ∨ s.ringOwner r < 0x40))) = true ∧
    (let s : State := ring2 [] [(rgPROD 2, 5)]
    let mid : Nat := 0x41
    let r : Nat := 2
    let v : Word32 := (0 : Word32)
    decide (r < 1032 ∧ mid = s.ringOwner r ∧ 0x40 ≤ s.ringOwner r ∧ s.on (rgEN r) = true ∧ 2 ^ 31 ≤ cdiff v.toNat (s.get (rgPROD r)))) = true ∧
    (let s : State := ring2 [] []
    let mid : Nat := 0x41
    let r : Nat := 2
    let v : Word32 := (5 : Word32)
    decide (r < 1032 ∧ mid = s.ringOwner r ∧ 0x40 ≤ s.ringOwner r ∧ s.on (rgEN r) = true ∧ cdiff v.toNat (s.get (rgPROD r)) < 2 ^ 31 ∧
    s.ringSize r < cdiff v.toNat (s.get (rgCONS r)))) = true ∧
    (let s : State := st [((rgEN 1031), 1)]
    let mid : Nat := 0x40
    let r : Nat := 1031
    let v : Word32 := (0 : Word32)
    decide (r < 1032 ∧ mid = s.ringOwner r ∧ 0x40 ≤ s.ringOwner r ∧ s.on (rgEN r) = true ∧ cdiff v.toNat (s.get (rgPROD r)) < 2 ^ 31 ∧
    cdiff v.toNat (s.get (rgCONS r)) ≤ s.ringSize r)) = true := by
  decide +kernel

theorem witness_CellAndRingRows_4 :
    (let s : State := st [((rgEN 1031), 1)]
    let r : Nat := 1031
    decide (r < 1032 ∧ s.on (rgEN r) = true)) = true := by
  decide +kernel

theorem witness_CellAndRingRows_5 :
    (let s : State := st [((rgEN 1031), 1)]
    let mid : Nat := 0x40
    let r : Nat := 1031
    let off : Nat := 1
    let v : Word32 := (0 : Word32)
    decide (r < 1032 ∧ ringGuarded off = true ∧ s.on (rgEN r) = true ∧ off ≠ 0x08)) = true := by
  decide +kernel

theorem witness_CellAndRingRows_6 :
    (let s : State := ring2 [] [(rgEN 2, 0), (NUT_REGION_RMASK_MASK 0 2, 0xFFFFFFFF), (NUT_REGION_WMASK_MASK 0 2, 0xFFFFFFFF)]
    let mid : Nat := 0x41
    let r : Nat := 2
    let v : Word32 := (0x80040000 : Word32)
    decide (r < 1032 ∧ s.on (rgEN r) = false ∧ wordField v 31 31 = 1) &&
    (match (if mid = 0x40 then v else wordSet v 29 29 (s.get (rgSECOUT r))) with
     | v1 =>
      decide ((s.regStore (ringBase r + 8) (wordSet v1 31 31 0)).ringPlaced r = true))) = true := by
  decide +kernel

theorem witness_CellAndRingRows_7 :
    (let s : State := (let u := cell3; u.put (rgTIMEOUT 2) 9)
    let r : Nat := 2
    let count : Nat := 0
    let n : Nat := 3
    let j : Job := verifyJob
    decide (r < 1032 ∧ s.get (rgTIMEOUT r) ≠ 0 ∧ tget s.jobs.jobs n = some j ∧ (s.ringJobs r).find? (fun e => decide (e.2.count = count)) = some (n, j))) = true := by
  decide +kernel

theorem witness_CellAndRingRows_8 :
    (let s : State := st [((CELL_STATUS_STATE 15), 2)]
    let n : Nat := 15
    decide (n < 16 ∧ s.get (CELL_STATUS_STATE n) = 2)) = true := by
  decide +kernel

theorem witness_CellAndRingRows_9 :
    (let s : State := st [(CELL_STATUS_STATE 15, 2)]
    let n : Nat := 15
    let pass : Bool := true
    decide (n < 16 ∧ (s.get (CELL_STATUS_STATE n) = 1 ∨ s.get (CELL_STATUS_STATE n) = 2))) = true := by
  decide +kernel

theorem witness_CellAndRingRows_10 :
    (let s : State := State.reset
    let n : Nat := 15
    decide (n < 16 ∧ (s.get (CELL_STATUS_STATE n) = 0 ∨ s.get (CELL_STATUS_STATE n) = 3))) = true := by
  decide +kernel

theorem witness_CellAndRingRows_11 :
    (let s : State := State.reset
    let n : Nat := 15
    let v : Word32 := (0 : Word32)
    decide (n < 16)) = true := by
  decide +kernel

theorem witness_CellAndRingRows_12 :
    (let s : State := st [(CELL_STATUS_STATE 15, 0)]
    let n : Nat := 15
    let v : Word32 := (0xFFFFFFFF : Word32)
    decide (n < 16 ∧ s.get (CELL_STATUS_STATE n) = 0 ∧ wordField v (CELL_CTL_OFFLINE n).hi (CELL_CTL_OFFLINE n).lo = 1)) = true := by
  decide +kernel

theorem witness_CellAndRingRows_13 :
    (let s : State := ({ cell3 with jobs := { cell3.jobs with jobs := [] } } : State)
    let n : Nat := 0
    decide (s.jobs.grants ≠ 0 ∧ tget s.jobs.jobs n = none ∧ (s.cellDraw n 0).cellTurn = some n)) = true := by
  decide +kernel

theorem witness_CellAndRingRows_14 :
    (let s : State := st [(ROSIN_STATE_STATE, roStopped)]
    decide (s.delivStopped = true)) = true := by
  decide +kernel

theorem witness_VerificationEngineRows_1 :
    (let r : (Nat → Nat → Word32 → Instr) × Nat := (.ecdsaVerify, 1)
    let s : State := ve3 none
    let e : Nat := 3
    let mid : Nat := 0x40
    let v : Word32 := go 1
    decide (e < 4 ∧ wordField v 31 31 = 1 ∧ vcOp v = r.2 ∧ mid ≠ s.get (VE_OWNER_MID e))) = true ∧
    (let r : (Nat → Nat → Word32 → Instr) × Nat := (.ecdsaVerify, 1)
    let s : State := ve3 none
    let e : Nat := 3
    let mid : Nat := 0x41
    let v : Word32 := go 1
    decide (e < 4 ∧ wordField v 31 31 = 1 ∧ vcOp v = r.2 ∧ mid = s.get (VE_OWNER_MID e) ∧ s.on (VE_STATUS_BUSY e) = true)) = true ∧
    (let r : (Nat → Nat → Word32 → Instr) × Nat := (.ecdsaVerify, 1)
    let s : State := (ve3 none).put (VE_STATUS_BUSY 3) 0
    let e : Nat := 3
    let mid : Nat := 0x41
    let v : Word32 := go 1
    decide (e < 4 ∧ wordField v 31 31 = 1 ∧ vcOp v = r.2 ∧ mid = s.get (VE_OWNER_MID e) ∧ s.on (VE_STATUS_BUSY e) = false ∧ vcHash v ≠ 3)) = true := by
  decide +kernel

theorem witness_VerificationEngineRows_2 :
    (let s : State := (ve3 none).put (VE_STATUS_BUSY 3) 0
    let e : Nat := 3
    let mid : Nat := 0x41
    let v : Word32 := go 7
    decide (e < 4 ∧ wordField v 31 31 = 1 ∧ veAssigned (vcOp v) = false ∧ vcHash v ≠ 3 ∧ mid = s.get (VE_OWNER_MID e) ∧ s.on (VE_STATUS_BUSY e) = false)) = true := by
  decide +kernel

theorem witness_VerificationEngineRows_3 :
    (let s : State := ve3 (some (0, 0, []))
    let e : Nat := 3
    decide (e < 4) &&
    (match s.veCmd e with
     | some c =>
      (match c.result with
       | some (st, det, out) =>
        decide ((s.veHeld c = false ∨ st = stABORTED) ∧ st < 256 ∧
      det < 256)
       | _ => false)
     | _ => false)) = true := by
  decide +kernel

theorem witness_VerificationEngineRows_4 :
    (let s : State := ve3 none
    let e : Nat := 3
    decide (s.get (VE_TIMEOUT_MS e) ≠ 0) &&
    (match s.veCmd e with
     | some c =>
      decide (c.decided = false)
     | _ => false)) = true := by
  decide +kernel

theorem witness_VerificationEngineRows_5 :
    (let s : State := ve3 none
    let e : Nat := 3
    let mid : Nat := 0x40
    decide (e < 4 ∧ mid ≠ s.get (VE_OWNER_MID e)) &&
    (match s.veCmd e with
     | some c =>
      true
     | _ => false)) = true ∧
    (let s : State := ve3 (some (0, 0, []))
    let e : Nat := 3
    let mid : Nat := 0x41
    decide (e < 4 ∧ mid = s.get (VE_OWNER_MID e)) &&
    (match s.veCmd e with
     | some c =>
      decide (c.decided = true)
     | _ => false)) = true ∧
    (let s : State := ve3 none
    let e : Nat := 3
    let mid : Nat := 0x41
    decide (e < 4 ∧ mid = s.get (VE_OWNER_MID e)) &&
    (match s.veCmd e with
     | some c =>
      decide (c.decided = false)
     | _ => false)) = true := by
  decide +kernel

theorem witness_VerificationEngineRows_6 :
    (let s : State := ve3 none
    let mid : Nat := 0x40
    let e : Nat := 3
    let off : Nat := 0x34
    let v : Word32 := (0 : Word32)
    decide (e < 4 ∧ (off = 0 ∨ off = 0x28 ∨ off = 0x2C ∨ off = 0x30 ∨ off = 0x34) ∧ (mid ≠ 0x40 ∨ s.on (VE_STATUS_BUSY e) = true))) = true := by
  decide +kernel

theorem witness_VerificationEngineRows_7 :
    (let s : State := (ve3 none).put (VE_STATUS_BUSY 3) 0
    let e : Nat := 3
    let v : Word32 := (0x80 : Word32)
    decide (e < 4 ∧ s.on (VE_STATUS_BUSY e) = false ∧ ((0x40 ≤ wordField v 7 0 ∧ wordField v 7 0 ≤ 0x43) ∨ wordField v 7 0 = 0x80))) = true := by
  decide +kernel

theorem witness_VerificationEngineRows_8 :
    (let s : State := st [((VE_STATUS_BUSY 3), 0)]
    let e : Nat := 3
    decide (e < 4 ∧ s.on (VE_STATUS_BUSY e) = false) &&
    (match (s.passTo (s.katDueAt (SRC_VE_KAT e) 60)).katRun (SRC_VE_KAT e) with
     | s1 =>
      true)) = true := by
  decide +kernel

theorem witness_DigestRows_1 :
    (let r : (Nat → Bool → Instr) × Nat := (.memcmp, doMEMCMP)
    let s : State := (dring [2 ^ 24 * doMEMCMP]).put (NUT_REGION_CTL_EN 0) 0
    let k : Nat := 0
    let w : List Nat := []
    let err : Bool := false
    decide (k < 8 ∧ s.get (CORE_STATUS_STATE k) = 0 ∧ s.on (rgEN (1024 + k)) = true ∧ s.on (rgSTOPPED (1024 + k)) = false ∧ s.noDispatch = false) &&
    (match s.ringHead (1024 + k) with
     | some count =>
      decide (jOp (s.peekSlot (1024 + k) count) = r.2) &&
      (match s.fetchSlot (0x60 + k) (1024 + k) count with
       | (none, s1) =>
        true
       | _ => false)
     | _ => false)) = true ∧
    (let r : (Nat → Bool → Instr) × Nat := (.memcmp, doMEMCMP)
    let s : State := dring [2 ^ 24 * doMEMCMP]
    let k : Nat := 0
    let err : Bool := false
    decide (k < 8 ∧ s.get (CORE_STATUS_STATE k) = 0 ∧ s.on (rgEN (1024 + k)) = true ∧ s.on (rgSTOPPED (1024 + k)) = false ∧ s.noDispatch = false) &&
    (match s.ringHead (1024 + k) with
     | some count =>
      decide (jOp (s.peekSlot (1024 + k) count) = r.2) &&
      (match s.fetchSlot (0x60 + k) (1024 + k) count with
       | (some w, s1) =>
        decide (jOp w = r.2) &&
        (match (s1.ringPop (1024 + k)).digRun k count w err with
         | some u =>
          decide (u.flt.zeroizeDue = false)
         | _ => false)
       | _ => false)
     | _ => false)) = true := by
  decide +kernel

theorem witness_DigestRows_2 :
    (let s : State := dring [0x7F000000]
    let k : Nat := 0
    decide (k < 8 ∧ s.get (CORE_STATUS_STATE k) = 0 ∧ s.on (rgEN (1024 + k)) = true ∧ s.on (rgSTOPPED (1024 + k)) = false ∧ s.noDispatch = false) &&
    (match s.ringHead (1024 + k) with
     | some count =>
      decide (digOpAssigned (jOp (s.peekSlot (1024 + k) count)) = false) &&
      (match s.fetchSlot (0x60 + k) (1024 + k) count with
       | (some w, s1) =>
        decide (digOpAssigned (jOp w) = false)
       | _ => false)
     | _ => false)) = true := by
  decide +kernel

theorem witness_DigestRows_3 :
    (let s : State := dring []
    let k : Nat := 1
    let count : Nat := 1
    let w : List Nat := [2 ^ 24 * doMEMCMP]
    let a : Bytes := []
    let b : Bytes := []
    decide (jOp w = doMEMCMP)) = true := by
  decide +kernel

theorem witness_DigestRows_4 :
    (let s : State := State.reset
    let k : Nat := 7
    decide (k < 8 ∧ (s.get (CORE_STATUS_STATE k) = 0 ∨ s.get (CORE_STATUS_STATE k) = 3)) &&
    (match (if s.get (CORE_STATUS_STATE k) = 3 then s else s.passTo (s.katDueAt (SRC_DIG_KAT k) 60)).katRun (SRC_DIG_KAT k) with
     | s1 =>
      true)) = true := by
  decide +kernel

theorem witness_RosinRows_1 :
    (let s : State := rosin roReady 0
    let b : Nat := 63
    let bits : List Bool := altBits 1024
    decide (b < 64 ∧ s.rosinRuns = true ∧ s.get (BANK_STATUS_STATE b) = 0 ∧ bits.length = 1024 ∧
    (rctRun ((s.limits wkApt b).getD 0 0) bits (tgetD s.rosin.run b (false, 0)) false).1 = false ∧
    aptFails ((s.limits wkApt b).getD 1 0) bits = false)) = true := by
  decide +kernel

theorem witness_RosinRows_2 :
    (let s : State := rosin roReady 0
    let b : Nat := 63
    let bits : List Bool := List.replicate 1024 true
    decide (b < 64 ∧ s.rosinRuns = true ∧ s.get (BANK_STATUS_STATE b) = 0 ∧ bits.length = 1024 ∧
    ((rctRun ((s.limits wkApt b).getD 0 0) bits (tgetD s.rosin.run b (false, 0)) false).1 = true ∨ aptFails ((s.limits wkApt b).getD 1 0) bits = true))) = true := by
  decide +kernel

theorem witness_RosinRows_4 :
    (let s : State := rosin roReady 0
    let b : Nat := 63
    decide (b < 64 ∧ s.rosinRuns = true ∧ s.get (BANK_STATUS_STATE b) = 0 ∧ s.on (BANK_STATUS_TRIMLIM b) = false) &&
    (match (s.put (BANK_STATUS_TRIMLIM b) 1).bankFail b bfTrim with
     | u =>
      decide (u.flt.zeroizeDue = false))) = true := by
  decide +kernel

theorem witness_RosinRows_6 :
    (let s : State := (let u := rosin roReady 0; { u with rosin := { u.rosin with cond := [(3, [[1], [2]])] } } : State)
    let c : Nat := 3
    let w : Bytes := [1]
    let ws : List Bytes := [[2]]
    decide (c < 4 ∧ s.rosinRuns = true ∧ s.on (ROSIN_COND_ISOLATED c) = false ∧ s.rosin.reserve.length < 65536 ∧ tgetD s.rosin.cond c [] = w :: ws ∧
    s.get ROSIN_STATE_STATE = roReady ∧ s.flt.zeroizeDue = false)) = true := by
  decide +kernel

theorem witness_RosinRows_7 :
    (let s : State := (let u := reserved; { u with rosin := { u.rosin with keyload := [0] } } : State)
    decide (s.get ROSIN_STATE_STATE = roReady ∧ s.rosin.keyload ≠ [])) = true := by
  decide +kernel

theorem witness_RosinRows_8 :
    (let s : State := (let u := reserved; { u with rosin := { u.rosin with reserve := List.replicate 1024 1 } } : State)
    decide (s.get ROSIN_STATE_STATE = roReady ∧ s.rosin.keyload = []) &&
    (match s.portTurn with
     | some (3, left) =>
      true
     | _ => false)) = true := by
  decide +kernel

theorem witness_RosinRows_9 :
    (let s : State := State.reset
    let mid : Nat := 0x40
    let k : Nat := 15
    decide (k < 16 ∧ (mid = 0x40 ∨ mid = 0x41))) = true := by
  decide +kernel

theorem witness_RosinRows_10 :
    (let s : State := State.reset
    let mid : Nat := 0x42
    let k : Nat := 15
    decide (k < 16 ∧ mid ≠ 0x40 ∧ mid ≠ 0x41)) = true := by
  decide +kernel

theorem witness_RosinRows_11 :
    (let s : State := st [(ROSIN_PULL_CTL_PENDING, 0)]
    let mid : Nat := 0x40
    decide ((mid = 0x40 ∨ mid = 0x41) ∧ s.on ROSIN_PULL_CTL_PENDING = false ∧ s.entropyGone = false)) = true := by
  decide +kernel

theorem witness_RosinRows_12 :
    (let s : State := st [(ROSIN_STATE_STATE, roStopped), (ROSIN_PULL_CTL_PENDING, 1)]
    decide (s.delivStopped = true ∧ s.on ROSIN_PULL_CTL_PENDING = true)) = true := by
  decide +kernel

theorem witness_KeyCommandRows_1 :
    (let s : State := st [(KEY_CMD_RESULT_BUSY, 1)]
    let i : Instr := .reservePeg 0x40
    let mid : Nat := 0x40
    let op : Nat := 1
    decide (keyRow i = some (mid, op) ∧ s.on KEY_CMD_RESULT_BUSY = true)) = true ∧
    (let s : State := st [(KEY_CMD_RESULT_BUSY, 0)]
    let i : Instr := .rekeyRoot 0x41
    let mid : Nat := 0x41
    let op : Nat := 15
    decide (keyRow i = some (mid, op) ∧ s.on KEY_CMD_RESULT_BUSY = false ∧ keyMay mid op = false)) = true ∧
    (let s : State := pegged .active []
    let i : Instr := .infoPeg 0x41
    let mid : Nat := 0x41
    let op : Nat := 4
    decide (keyRow i = some (mid, op) ∧ s.on KEY_CMD_RESULT_BUSY = false ∧ keyMay mid op = true ∧ s.on KEY_STATE_ZEROIZED = false ∧ s.life ≠ lcRetired) &&
    (match s.keyBegin.keyRun (s.keyStaged mid op) with
     | .fin st det u =>
      decide (u.flt.zeroizeDue = false ∧ st < 256 ∧ det < 256)
     | _ => false)) = true ∧
    (let s : State := st [(KEY_STATE_VAULT_READY, 0), (KEY_CMD_SLOT_SLOT, 9)]
    let i : Instr := .reservePriv 0x40
    let mid : Nat := 0x40
    let op : Nat := 8
    decide (keyRow i = some (mid, op) ∧ s.on KEY_CMD_RESULT_BUSY = false ∧ keyMay mid op = true ∧ s.on KEY_STATE_ZEROIZED = false ∧ s.life ≠ lcRetired ∧
    s.keyBegin.keyRun (s.keyStaged mid op) = .wait)) = true := by
  decide +kernel

theorem witness_KeyCommandRows_2 :
    (let s : State := st [(KEY_CMD_RESULT_BUSY, 0)]
    let mid : Nat := 0x40
    let op : Nat := 7
    decide (op < 16 ∧ keyOpAssigned op = false ∧ s.on KEY_CMD_RESULT_BUSY = false)) = true := by
  decide +kernel

theorem witness_KeyCommandRows_3 :
    (let s : State := State.reset
    let c : KeyCmd := ⟨1, 0x40, 262095, 2 ^ 16, 1, 0, 0, 0, 0, 0⟩
    decide (c.slot < 262096 ∧ c.op = 1 ∧ (s.peg c.slot).st = .free ∧ c.attr / 2 ^ 28 < kaBRIDGE ∧
    useFits (c.attr / 2 ^ 28) (c.attr / 2 ^ 16 % 64) = true ∧ bitOf (c.attr / 2 ^ 16 % 64) usePICK = false ∧ bitOf c.attr 27 = false ∧ c.limit = 0)) = true := by
  decide +kernel

theorem witness_KeyCommandRows_4 :
    (let s : State := pegged .active []
    let c : KeyCmd := ⟨3, 0x40, 3, 0, 1, 0, 0, 0, 0, 0⟩
    decide (c.op = 3)) = true := by
  decide +kernel

theorem witness_KeyCommandRows_6 :
    (let s : State := (let u := reserved; { u.put KEY_STATE_ROOT 0 with rosin := { u.rosin with reserve := List.replicate 640 1 } } : State)
    let c : KeyCmd := ⟨15, 0x40, 0, 0, 1, 0, 0, 0, 0, 0⟩
    decide (c.op = 15 ∧ s.get KEY_STATE_ROOT = 0 ∧ s.life ≠ lcDebug ∧ s.life ≠ lcRetired ∧ (s.life = lcSealed → s.on CER_AUTHWIN_AUTH = true) ∧
    s.entropyGone = false ∧ s.canDraw 2 = true ∧ s.vaultHeld = false)) = true := by
  decide +kernel

theorem witness_KeyCommandRows_7 :
    (let s : State := ({ State.reset with key := { State.reset.key with waiting := some ⟨15, 0x40, 0, 0, 1, 0, 0, 0, 0, 0⟩ } } : State)
    (match s.key.waiting with
     | some c =>
      true
     | _ => false)) = true := by
  decide +kernel

theorem witness_KeyCommandRows_8 :
    (let s : State := st [(ROSIN_STATE_STATE, roReady), (KEY_STATE_VAULT_READY, 0)]
    decide (s.get ROSIN_STATE_STATE = roReady ∧ s.on KEY_STATE_VAULT_READY = false)) = true := by
  decide +kernel

theorem witness_KeyCommandRows_9 :
    (let s : State := rosin roReady 0
    decide (s.get ROSIN_STATE_STATE = roReady ∧ s.on KEY_STATE_VAULT_READY = false ∧ s.key.waiting = none ∧ s.key.privs = [])) = true := by
  decide +kernel

theorem witness_KeyCommandRows_10 :
    (let s : State := (let u := ({ State.reset with key := { State.reset.key with pegs := [(5, { Peg.free with st := .active })] } } : State); u.poke (blobAddr 5) (u.pegBlob 5 (u.peg 5)))
    let i : Nat := 5
    let env : FabEnv := default
    (match s.disturb env with
     | u =>
      decide ((u.peg i).resident = false ∧ ((u.peg i).st = .active ∨ (u.peg i).st = .spent) ∧ u.pegRoom = true) &&
      (match u.inc64 KEY_PEG_MISS_LO KEY_PEG_MISS_HI 1 with
       | s1 =>
        (match s1.dramRead (blobAddr i) 64 with
         | (b, s2) =>
          decide (b ≠ none))))) = true ∧
    (let s : State := ({ State.reset with key := { State.reset.key with pegs := [(5, { Peg.free with st := .active })] } } : State)
    let i : Nat := 5
    let env : FabEnv := default
    (match s.disturb env with
     | u =>
      decide ((u.peg i).resident = false ∧ ((u.peg i).st = .active ∨ (u.peg i).st = .spent) ∧ u.pegRoom = true) &&
      (match u.inc64 KEY_PEG_MISS_LO KEY_PEG_MISS_HI 1 with
       | s1 =>
        (match s1.dramRead (blobAddr i) 64 with
         | (b, s2) =>
          decide (b ≠ some (s2.pegBlob i (u.peg i))))))) = true := by
  decide +kernel

theorem witness_LowerLimitRule_1 :
    (let s : State := pegged .active [(KEY_CMD_LIMIT_LO_LIM, 3)]
    let mid : Nat := 0x41
    decide ((mid = 0x40 ∨ mid = 0x41) ∧ s.on KEY_CMD_RESULT_BUSY = false ∧ s.on KEY_STATE_ZEROIZED = false ∧ s.life ≠ lcRetired ∧
    s.flt.zeroizeDue = false) &&
    (match s.get KEY_CMD_SLOT_SLOT with
     | i =>
      decide ((s.peg i).st = .active ∨ (s.peg i).st = .spent) &&
      (match s.get64 KEY_CMD_LIMIT_LO KEY_CMD_LIMIT_HI with
       | m =>
        true))) = true := by
  decide +kernel

theorem witness_CeremonyRows_1 :
    (let s : State := State.reset
    let mid : Nat := 0x40
    let v : Word32 := (0x80000000 : Word32)
    decide (wordField v 31 31 = 1 ∧ wordField v 29 28 = ckIn)) = true ∧
    (let s : State := State.reset
    let mid : Nat := 0x40
    let v : Word32 := (0x90000000 : Word32)
    decide (wordField v 31 31 = 1 ∧ wordField v 29 28 = ckOut)) = true ∧
    (let s : State := State.reset
    let mid : Nat := 0x40
    let v : Word32 := (0xA0000000 : Word32)
    decide (wordField v 31 31 = 1 ∧ wordField v 29 28 = ckAuth)) = true ∧
    (let s : State := State.reset
    let mid : Nat := 0x40
    let v : Word32 := (0x40000000 : Word32)
    decide (wordField v 30 30 = 1)) = true ∧
    (let s : State := State.reset
    let mid : Nat := 0x42
    let v : Word32 := (0 : Word32)
    decide (mid ≠ 0x40)) = true := by
  decide +kernel

theorem witness_CeremonyRows_2 :
    (let s : State := reserved
    let v : Word32 := (0x82300000 : Word32)
    decide (wordField v 31 31 = 1 ∧ wordField v 30 30 = 0 ∧ wordField v 29 28 = ckIn) &&
    (match s.regStore CER_CTL v with
     | s1 =>
      decide (s1.get CER_STATE_STATE = 0 ∧ 2 ≤ s1.get CER_CTL_K ∧ s1.get CER_CTL_K ≤ s1.get CER_CTL_N ∧
      s1.on CER_CTL_SECLEN64 = false ∧
      s1.accepted CER_CTL_KIND v = wordField v 29 28))) = true ∧
    (let s : State := reserved
    let v : Word32 := (0xA2300000 : Word32)
    decide (wordField v 31 31 = 1 ∧ wordField v 30 30 = 0 ∧ wordField v 29 28 = ckAuth) &&
    (match s.regStore CER_CTL v with
     | s1 =>
      decide (s1.get CER_STATE_STATE = 0 ∧ 2 ≤ s1.get CER_CTL_K ∧ s1.get CER_CTL_K ≤ s1.get CER_CTL_N ∧
      s1.on CER_CTL_SECLEN64 = false ∧
      s1.accepted CER_CTL_KIND v = wordField v 29 28))) = true ∧
    (let s : State := reserved
    let v : Word32 := (0x92300000 : Word32)
    decide (wordField v 31 31 = 1 ∧ wordField v 30 30 = 0 ∧ wordField v 29 28 = ckOut) &&
    (match s.regStore CER_CTL v with
     | s1 =>
      decide (s1.get CER_STATE_STATE = 0 ∧ 2 ≤ s1.get CER_CTL_K ∧ s1.get CER_CTL_K ≤ s1.get CER_CTL_N ∧
      s1.on CER_CTL_SECLEN64 = false ∧
      s1.accepted CER_CTL_KIND v = wordField v 29 28 ∧ s1.entropyGone = false))) = true := by
  decide +kernel

theorem witness_CeremonyRows_3 :
    (let s : State := ceremony ckIn []
    let v : Word32 := (0x40000000 : Word32)
    decide (wordField v 31 31 = 0 ∧ wordField v 30 30 = 1) && calmB s (cfgSource CER_CTL) &&
    (match s.key.cer with
     | some c =>
      true
     | _ => false)) = true := by
  decide +kernel

theorem witness_CeremonyRows_4 :
    (let s : State := st [(CER_CTL_K, 2), (CER_CTL_N, 2), (CER_CTL_KIND, ckIn)]
    decide (s.get CER_STATE_STATE ≠ 1 ∧ s.get CER_STATE_STATE ≠ 2 ∧ 2 ≤ s.get CER_CTL_K ∧ s.get CER_CTL_K ≤ s.get CER_CTL_N ∧
    (s.on CER_CTL_SECLEN64 = true → s.get CER_CTL_KIND = ckAuth ∨ (s.peg (s.get CER_TARGET_SLOT)).kalg = kaSECRET) ∧
    (s.get CER_CTL_KIND = ckOut → s.entropyGone = false))) = true := by
  decide +kernel

theorem witness_CeremonyRows_5 :
    (let s : State := ceremony ckIn []
    (match s.key.cer with
     | some c =>
      true
     | _ => false)) = true := by
  decide +kernel

theorem witness_CeremonyRows_6 :
    (let s : State := ceremony ckIn []
    let index : Nat := 1
    let id : Bytes := []
    let bs : Bytes := []
    let chk : Bytes := []
    let x : Nat := 9
    let k : Nat := 2
    let n : Nat := 8
    let len : Nat := 32
    decide (s.on CARD_STATUS_SESSION = true ∧ s.on CARD_STATUS_PINOK = true) &&
    (match s.key.cer with
     | some c =>
      decide (c.kind = ckIn ∧ (id ≠ c.id ∨ k ≠ c.k ∨ n ≠ c.n ∨ len ≠ c.seclen ∨ x < 1 ∨ c.n < x ∨ c.shares.any (fun t => decide (t.x = x)) = true))
     | _ => false)) = true ∧
    (let s : State := ceremony ckIn []
    let index : Nat := 1
    let bs : Bytes := []
    let chk : Bytes := []
    let x : Nat := 8
    let k : Nat := 2
    let n : Nat := 8
    let len : Nat := 32
    decide (s.on CARD_STATUS_SESSION = true ∧ s.on CARD_STATUS_PINOK = true ∧ 1 ≤ x) &&
    (match s.key.cer with
     | some c =>
      decide (c.kind = ckIn ∧ k = c.k ∧ n = c.n ∧ len = c.seclen ∧ x ≤ c.n ∧ c.n ≤ 8 ∧
      c.shares.any (fun t => decide (t.x = x)) = false ∧
      c.shares.length + 1 < c.k) &&
      (match c.id with
       | id =>
        true)
     | _ => false)) = true := by
  decide +kernel

theorem witness_CeremonyRows_7 :
    (let s : State := ceremony ckAuth [⟨[], 6, 0, 0, 0, [], []⟩]
    let index : Nat := 1
    let card : Nat := 7
    decide (s.on CARD_STATUS_SESSION = true ∧ s.on CARD_STATUS_PINOK = true) &&
    (match s.key.cer with
     | some c =>
      decide (c.kind = ckAuth ∧ c.shares.any (fun t => decide (t.x = card)) = false ∧ c.k ≤ c.shares.length + 1)
     | _ => false)) = true := by
  decide +kernel

theorem witness_CeremonyRows_8 :
    (let s : State := (let u := ceremony ckOut []; { u with key := { u.key with cer := some ⟨ckOut, 2, 8, 32, 3, 0, [], [], [], [1]⟩ } } : State)
    let index : Nat := 8
    decide (s.on CARD_STATUS_SESSION = true ∧ s.on CARD_STATUS_PINOK = true ∧ 1 ≤ index) &&
    (match s.key.cer with
     | some c =>
      decide (c.kind = ckOut ∧ c.secret ≠ [] ∧ index ≤ c.n ∧ c.n ≤ 8 ∧ (s.get CER_STATE_GOT ||| 2 ^ (index - 1)) ≠ 2 ^ c.n - 1)
     | _ => false)) = true := by
  decide +kernel

theorem witness_CeremonyRows_9 :
    (let s : State := ceremony ckIn []
    (match s.key.cer with
     | some c =>
      true
     | _ => false)) = true := by
  decide +kernel

theorem witness_CeremonyRows_10 :
    (let s : State := st [(CER_AUTHWIN_AUTH, 1)]
    decide (s.on CER_AUTHWIN_AUTH = true)) = true := by
  decide +kernel

theorem witness_CaseRows_1 :
    (let s : State := st [(CASE_CMD_RESULT_BUSY, 1)]
    let i : Instr := .caseRead 0x40
    let mid : Nat := 0x40
    let op : Nat := coREAD
    decide (caseRow i = some (mid, op) ∧ s.on CASE_CMD_RESULT_BUSY = true)) = true ∧
    (let s : State := st [(CASE_CMD_RESULT_BUSY, 0)]
    let i : Instr := .caseRead 0x44
    let mid : Nat := 0x44
    let op : Nat := coREAD
    decide (caseRow i = some (mid, op) ∧ s.on CASE_CMD_RESULT_BUSY = false) &&
    (match s.caseBegin.caseRefuse mid op with
     | some (st, det) =>
      decide (det ≠ dtXIP ∧ st < 256 ∧ det < 256)
     | _ => false)) = true ∧
    (let s : State := st [(CASE_GEN_RANGE_EN 7, 1), (CASE_GEN_RANGE_FIRST 7, 208), (CASE_GEN_RANGE_COUNT 7, 304), (CASE_GEN_RINGS_READ 7, 15), (CASE_GEN_RINGS_WRITE 7, 15), (CASE_CMD_BUF_LO_ADDR, 0x2000000), (CASE_CMD_ADDR_BLOCK, 511), (CASE_CMD_LEN_LEN, 4096)]
    let i : Instr := .caseRead 0x40
    let mid : Nat := 0x40
    let op : Nat := coREAD
    let bs : Bytes := []
    decide (caseRow i = some (mid, op) ∧ s.on CASE_CMD_RESULT_BUSY = false ∧ s.caseBegin.caseRefuse mid op = none ∧ op ≠ coPROGRAM) &&
    (match s.caseStaged op bs with
     | some o =>
      true
     | _ => false)) = true ∧
    (let s : State := st [(CASE_GEN_RANGE_EN 7, 1), (CASE_GEN_RANGE_FIRST 7, 208), (CASE_GEN_RANGE_COUNT 7, 304), (CASE_GEN_RINGS_READ 7, 15), (CASE_GEN_RINGS_WRITE 7, 15), (CASE_CMD_BUF_LO_ADDR, 0x2000000), (CASE_CMD_ADDR_BLOCK, 511), (CASE_CMD_LEN_LEN, 4096)]
    let i : Instr := .caseProgram 0x40
    let mid : Nat := 0x40
    let op : Nat := coPROGRAM
    decide (caseRow i = some (mid, op) ∧ s.on CASE_CMD_RESULT_BUSY = false ∧ s.caseBegin.caseRefuse mid op = none ∧ op = coPROGRAM) &&
    (match { s.caseBegin with die := { s.caseBegin.die with cmd := some (mid, s.addr40 CASE_CMD_BUF_LO) } } with
     | s1 =>
      (match State.keyRead s1 (s.addr40 CASE_CMD_BUF_LO) (s.get CASE_CMD_LEN_LEN) with
       | (b, s2) =>
        (match b with
         | some bs =>
          (match s.caseStaged op bs with
           | some o =>
            true
           | _ => false)
         | _ => false)))) = true ∧
    (let s : State := (let u := st [(CASE_GEN_RANGE_EN 7, 1), (CASE_GEN_RANGE_FIRST 7, 208), (CASE_GEN_RANGE_COUNT 7, 304), (CASE_GEN_RINGS_READ 7, 15), (CASE_GEN_RINGS_WRITE 7, 15), (CASE_CMD_BUF_LO_ADDR, 0x2000000), (CASE_CMD_ADDR_BLOCK, 511), (CASE_CMD_LEN_LEN, 4096)]; { u with mem := { u.mem with poison := [0x2000000] } } : State)
    let i : Instr := .caseProgram 0x40
    let mid : Nat := 0x40
    let op : Nat := coPROGRAM
    decide (caseRow i = some (mid, op) ∧ s.on CASE_CMD_RESULT_BUSY = false ∧ s.caseBegin.caseRefuse mid op = none ∧ op = coPROGRAM) &&
    (match { s.caseBegin with die := { s.caseBegin.die with cmd := some (mid, s.addr40 CASE_CMD_BUF_LO) } } with
     | s1 =>
      (match State.keyRead s1 (s.addr40 CASE_CMD_BUF_LO) (s.get CASE_CMD_LEN_LEN) with
       | (b, s2) =>
        decide (b = none)))) = true ∧
    (let s : State := st [(CASE_GEN_RANGE_EN 7, 1), (CASE_GEN_RANGE_FIRST 7, 208), (CASE_GEN_RANGE_COUNT 7, 304), (CASE_GEN_RINGS_READ 7, 15), (CASE_GEN_RINGS_WRITE 7, 15), (CASE_CMD_BUF_LO_ADDR, 0x2000000), (CASE_CMD_ADDR_BLOCK, 511), (CASE_CMD_LEN_LEN, 4096)]
    let i : Instr := .readTuning 0x40
    let mid : Nat := 0x40
    let op : Nat := coTUNING
    decide (caseRow i = some (mid, op) ∧ s.on CASE_CMD_RESULT_BUSY = false ∧ s.caseBegin.caseRefuse mid op = none ∧ op = coTUNING)) = true ∧
    (let s : State := st [(CASE_GEN_RANGE_EN 7, 1), (CASE_GEN_RANGE_FIRST 7, 208), (CASE_GEN_RANGE_COUNT 7, 304), (CASE_GEN_RINGS_READ 7, 15), (CASE_GEN_RINGS_WRITE 7, 15), (CASE_CMD_BUF_LO_ADDR, 0x2000000), (CASE_CMD_ADDR_BLOCK, 511), (CASE_CMD_LEN_LEN, 0)]
    let i : Instr := .blockinfo 0x40
    let mid : Nat := 0x40
    let op : Nat := coINFO
    decide (caseRow i = some (mid, op) ∧ s.on CASE_CMD_RESULT_BUSY = false ∧ s.caseBegin.caseRefuse mid op = none ∧ op = coINFO)) = true := by
  decide +kernel

theorem witness_CaseRows_2 :
    (let s : State := st [(CASE_CMD_RESULT_BUSY, 0)]
    let mid : Nat := 0x40
    let op : Nat := 15
    decide (op < 16 ∧ (op = 0 ∨ 7 ≤ op) ∧ s.on CASE_CMD_RESULT_BUSY = false)) = true := by
  decide +kernel

theorem witness_CaseRows_3 :
    (let s : State := cased [] [readOp] [] []
    let plane : Nat := 0
    decide (plane < 4 ∧ tget s.die.running plane = none ∧ s.flt.zeroizeDue = false ∧ tget s.die.asleep plane = none) &&
    (match s.dieChoice plane with
     | some o =>
      decide ((match o.work with | .read _ => true | .erase => true | _ => false) = true)
     | _ => false)) = true ∧
    (let s : State := cased [] [] [] [(0, eraseOp)]
    let plane : Nat := 0
    decide (plane < 4 ∧ tget s.die.running plane = none ∧ s.flt.zeroizeDue = false ∧ (s.dieChoice plane).any (fun o => decide (o.cls = 0)) = false ∧
    s.on CASE_STATUS_SUSPENDED = false) &&
    (match tget s.die.asleep plane with
     | some e =>
      true
     | _ => false)) = true := by
  decide +kernel

theorem witness_CaseRows_4 :
    (let s : State := cased [] [readOp] [(0, eraseOp)] []
    let plane : Nat := 0
    let o : DieOp := readOp
    let e : DieOp := eraseOp
    decide (plane < 4 ∧ tget s.die.running plane = some e ∧ e.work = .erase ∧ s.dieChoice plane = some o ∧ o.cls = 0 ∧
    (match o.work with | .read _ => true | _ => false) = true ∧ s.flt.zeroizeDue = false)) = true := by
  decide +kernel

theorem witness_CaseRows_5 :
    (let s : State := cased [] [] [(0, eraseOp)] []
    let plane : Nat := 0
    let step : Nat := 1
    let corr : Nat := 0
    let resends : Nat := 0
    let o : DieOp := eraseOp
    decide (tget s.die.running plane = some o ∧ s.flt.zeroizeDue = false ∧ o.work = .erase)) = true ∧
    (let s : State := cased [] [] [(0, programOp)] []
    let plane : Nat := 0
    let step : Nat := 1
    let corr : Nat := 0
    let resends : Nat := 3
    let o : DieOp := programOp
    decide (tget s.die.running plane = some o ∧ s.flt.zeroizeDue = false ∧ resends < 4) &&
    (match o.work with
     | .program u bs =>
      (match s.caseZone o.block with
       | some z =>
        true
       | _ => false)
     | _ => false)) = true ∧
    (let s : State := cased [] [] [(0, readOp)] []
    let plane : Nat := 0
    let step : Nat := 1
    let corr : Nat := 0
    let resends : Nat := 3
    let o : DieOp := readOp
    decide (tget s.die.running plane = some o ∧ s.flt.zeroizeDue = false ∧ resends < 4) &&
    (match o.work with
     | .read n =>
      true
     | _ => false)) = true ∧
    (let s : State := cased [] [] [(0, readOp)] []
    let plane : Nat := 0
    let step : Nat := 1
    let corr : Nat := 0
    let resends : Nat := 4
    let o : DieOp := readOp
    decide (tget s.die.running plane = some o ∧ s.flt.zeroizeDue = false ∧ 4 ≤ resends) &&
    (match o.work with
     | .read n =>
      true
     | _ => false)) = true := by
  decide +kernel

theorem witness_CaseRows_6 :
    (let s : State := (let u := State.reset; { u with flt := { u.flt with zeroizeDue := false } } : State)
    let page : Nat := 2047
    let step : Nat := 1
    let corr : Nat := 1
    let resends : Nat := 3
    let stall : Nat := 1
    decide (page < 2048 ∧ resends < 4 ∧ s.flt.zeroizeDue = false)) = true := by
  decide +kernel

theorem witness_CaseRows_7 :
    (let s : State := flagged
    let block : Nat := 100
    decide (0 < s.ledHolds laREFRESH ∧ s.led.block = some block ∧ (s.blk block).flagged = true ∧
    s.die.waiting.contains ⟨4, block, 0, .relocate false⟩ = false ∧ tget s.die.running (block % 4) ≠ some ⟨4, block, 0, .relocate false⟩)) = true := by
  decide +kernel

theorem witness_CaseRows_8 :
    (let s : State := (let u := State.reset.setBlk 100 { CaseBlk.empty with next := 4 }; { u with time := { u.time with opTime := 86400000 * 1000 } } : State)
    let block : Nat := 100
    decide (block < 512 ∧ (s.blk block).next ≠ 0 ∧ (s.blk block).flagged = false ∧
    (s.blk block).since + 86400000 * s.get CASE_REFRESH_CFG_DAYS < s.time.opTime)) = true := by
  decide +kernel

theorem witness_CaseRows_9 :
    (let s : State := aged 3 []
    let k : Nat := 7
    let word : Nat := 2
    let v : Word32 := (0 : Word32)
    decide (k < 8 ∧ word < 3 ∧ s.slOpen = false)) = true ∧
    (let s : State := (aged 1 []).put (CASE_GEN_RANGE_EN 3) 1 |>.put (CASE_GEN_RANGE_FIRST 3) 208 |>.put (CASE_GEN_RANGE_COUNT 3) 4
    let k : Nat := 7
    let word : Nat := 0
    let v : Word32 := (0x80D00001 : Word32)
    decide (k < 8 ∧ word < 3 ∧ s.slOpen = true ∧ s.genOverlap k (if word = 0 then v else s.rd (CASE_GEN_RANGE k)) = true)) = true ∧
    (let s : State := st [((CASE_GEN_RANGE_EN 7), 0)]
    let k : Nat := 7
    let word : Nat := 2
    let v : Word32 := (0 : Word32)
    decide (k < 8 ∧ word < 3 ∧ s.slOpen = true ∧ word = 2 ∧ s.on (CASE_GEN_RANGE_EN k) = false)) = true := by
  decide +kernel

theorem witness_EventRecorderRows_1 :
    (let s : State := buffered 239 none
    let source : Nat := 1
    let code : Nat := 1
    let status : Nat := 1
    let payload : Bytes := []
    decide (s.ev.buf.length < 240 ∧ s.flt.zeroizeDue = false)) = true := by
  decide +kernel

theorem witness_EventRecorderRows_2 :
    (let s : State := buffered 256 none
    let source : Nat := 1
    let code : Nat := 1
    let status : Nat := 1
    let payload : Bytes := []
    decide (240 ≤ s.ev.buf.length)) = true := by
  decide +kernel

theorem witness_EventRecorderRows_3 :
    (let s : State := State.reset
    let source : Nat := 1
    let code : Nat := 1
    let status : Nat := 1
    let origin : Nat := 1
    let pl : Bytes := []
    let flush : Bool := false
    decide (s.ev.buf.length < 256)) = true := by
  decide +kernel

theorem witness_EventRecorderRows_4 :
    (let s : State := buffered 4 (some 3)
    let n : Nat := 3
    decide (s.ev.flushN = some n ∧ n ≤ 256 ∧ s.ev.wp < ringRecs)) = true := by
  decide +kernel

theorem witness_EventRecorderRows_5 :
    (let s : State := State.reset
    let v : Word32 := (0x80000000 : Word32)
    decide (wordField v 31 31 = 1)) = true := by
  decide +kernel

theorem witness_EventRecorderRows_6 :
    (let s : State := (let u := State.reset; { u with ev := { u.ev with flushN := none } } : State)
    decide (s.ev.flushN = none)) = true ∧
    (let s : State := buffered 4 (some 3)
    decide (s.ev.flushN.isSome = true)) = true := by
  decide +kernel

theorem witness_EventRecorderRows_7 :
    (let s : State := buffered 4 none
    (match s.ev.buf with
     | e :: rest =>
      true
     | _ => false)) = true := by
  decide +kernel

theorem witness_EventRecorderRows_8 :
    (let s : State := State.reset
    let mid : Nat := 0x43
    let v : Word32 := (0x80000001 : Word32)
    decide (wordField v 31 31 = 1 ∧ 0x40 ≤ mid ∧ mid ≤ 0x43 ∧ s.ev.buf.length < 240 ∧ s.flt.zeroizeDue = false)) = true := by
  decide +kernel

theorem witness_EventRecorderRows_9 :
    (let s : State := st [(CER_AUTHWIN_AUTH, 1)]
    decide (s.on CER_AUTHWIN_AUTH = true)) = true := by
  decide +kernel

theorem witness_EventRecorderRows_10 :
    (let s : State := State.reset
    let mid : Nat := 0x40
    decide (mid ≠ 0x41 ∨ s.on CER_AUTHWIN_AUTH = false)) = true := by
  decide +kernel

theorem witness_EventRecorderRows_11 :
    (let s : State := State.reset
    let mid : Nat := 0x40
    let i : Nat := 65535
    decide (i < 65536)) = true := by
  decide +kernel

theorem witness_LedgerRows_1 :
    (let s : State := State.reset
    let mid : Nat := 0x41
    let a : Nat := laROLL
    decide ((a = laROLL ∧ mid = 0x41) ∨ (a = laCOMMIT ∧ mid = 0x40 ∧ s.led.waiting.any (fun r => decide (r.act = laCOMMIT ∧ r.block = 0)) = false))) = true ∧
    (let s : State := st [(LEDGER_ACT_HOLDS laCOMMIT, 1)]
    let mid : Nat := 0x40
    let a : Nat := laCOMMIT
    decide (((a = laROLL ∧ mid = 0x41) ∨ (a = laCOMMIT ∧ mid = 0x40)) ∧ 0 < s.ledHolds a)) = true ∧
    (let s : State := State.reset
    let mid : Nat := 0x40
    let a : Nat := 1
    decide (¬ ((a = laROLL ∧ mid = 0x41) ∨ (a = laCOMMIT ∧ mid = 0x40)))) = true := by
  decide +kernel

theorem witness_LedgerRows_2 :
    (let s : State := ledger [⟨laLMS, 0, 0, false⟩, ⟨laREFRESH, 0, 300, false⟩] [(LEDGER_ACT_HOLDS laLMS, 1)]
    let r : LedReq := ⟨laREFRESH, 0, 300, false⟩
    let q : LedReq := ⟨laLMS, 0, 0, false⟩
    decide (s.ledNext = some r ∧ r.act = laREFRESH ∧ q ∈ s.led.waiting ∧ q.act = laLMS)) = true := by
  decide +kernel

theorem witness_LedgerRows_3 :
    (let s : State := ledger [⟨laROLL, 0, 0, false⟩] []
    (match s.ledNext with
     | some r =>
      decide (r.act < 7)
     | _ => false)) = true := by
  decide +kernel

theorem witness_LedgerRows_4 :
    (let s : State := ledger [⟨laROLL, 0, 0, false⟩] []
    let r : LedReq := ⟨laROLL, 0, 0, false⟩
    decide (s.led.waiting.find? (fun r => !r.noted) = some r)) = true := by
  decide +kernel

theorem witness_LedgerRows_5 :
    (let s : State := (let u := ledger [] []; { u with pwr := { u.pwr with shed := true } } : State)
    (match (s.passTo (s.ledDue laTABLE)).ledEnter laTABLE 0 with
     | (b, s2) =>
      decide (b = false))) = true ∧
    (let s : State := State.reset
    let b : Bool := true
    decide (b = true) &&
    (match (s.passTo (s.ledDue laTABLE)).ledEnter laTABLE 0 with
     | (b, s2) =>
      (match s2.tableEntries.foldl (fun t i => t.scrubEntry i) s2 with
       | u =>
        decide (u.flt.zeroizeDue = false)))) = true := by
  decide +kernel

theorem witness_LedgerRows_6 :
    (let s : State := State.reset
    let i : Nat := 1
    decide (s.inRollRange i = true ∨ eon (s.entry i) eV = false)) = true := by
  decide +kernel

theorem witness_LedgerRows_7 :
    (let s : State := (let u := ledger [] []; { u with pwr := { u.pwr with shed := true } } : State)
    let env : FabEnv := default
    (match ((s.disturb env).passTo (s.ledDue laDRAM)).ledEnter laDRAM 0 with
     | (b, s2) =>
      decide (b = false))) = true ∧
    (let s : State := ledger [] []
    let env : FabEnv := default
    (match ((s.disturb env).passTo (s.ledDue laDRAM)).ledEnter laDRAM 0 with
     | (b, s2) =>
      decide (b = true ∧ s2.ledHolds laTABLE = 0) &&
      (match s2 with
       | u =>
        decide (u.flt.zeroizeDue = false)))) = true := by
  decide +kernel

theorem witness_LedgerRows_8 :
    (let s : State := ({ State.reset with key := { State.reset.key with privs := [(9, { Priv.free with st := .active, scheme := scLMS, reserving := true })] } } : State)
    let slot : Nat := 9
    decide (slot < 4096 ∧ (s.priv slot).st = .active ∧ (s.priv slot).scheme = scLMS ∧ (s.priv slot).reserving = true ∧ s.jobs.jobs = [] ∧
    s.flt.zeroizeDue = false) &&
    (match s.ledEnter laLMS 0 with
     | (true, s1) =>
      decide (s1.vaultHeld = false)
     | _ => false)) = true := by
  decide +kernel

theorem witness_LedgerRows_9 :
    (let s : State := (let u := ledger [] [(ROSIN_STATE_STATE, roReady)]; { u with pwr := { u.pwr with shed := true } } : State)
    decide (s.get ROSIN_STATE_STATE = roReady ∧ s.get ROSIN_PST_PERIOD ≠ 0) &&
    (match (s.passTo (s.rosin.pstAt + cyclesPerSec * s.get ROSIN_PST_PERIOD)).ledEnter laPST 0 with
     | (b, s2) =>
      decide (b = false))) = true ∧
    (let s : State := ledger [] [(ROSIN_STATE_STATE, roReady)]
    decide (s.get ROSIN_STATE_STATE = roReady ∧ s.get ROSIN_PST_PERIOD ≠ 0 ∧ s.flt.zeroizeDue = false) &&
    (match (s.passTo (s.rosin.pstAt + cyclesPerSec * s.get ROSIN_PST_PERIOD)).ledEnter laPST 0 with
     | (b, s2) =>
      decide (b = true))) = true := by
  decide +kernel

theorem witness_TamperRows_1 :
    (let s : State := st [((TSRC_CFG_EN 23), 1)]
    let q : Nat := 23
    let reading : Nat := 1
    let detB : Bool := false
    let frame : List Bool := []
    decide (q < 24 ∧ s.on (TSRC_CFG_EN q) = true ∧ s.pstate ≠ .p3 ∧ (8 ≤ q ∨ detB = true ∨ 4 ≤ (mismatches (s.loopDriven q) frame).length))) = true := by
  decide +kernel

theorem witness_TamperRows_2 :
    (let s : State := (let u := st [((TSRC_CFG_EN 7), 1)]; { u with flt := { u.flt with zeroizeDue := false } } : State)
    let q : Nat := 7
    let reading : Nat := 1
    let frame : List Bool := []
    decide (q < 8 ∧ s.on (TSRC_CFG_EN q) = true ∧ s.pstate ≠ .p3 ∧ (mismatches (s.loopDriven q) frame).length < 4 ∧ s.flt.zeroizeDue = false)) = true := by
  decide +kernel

theorem witness_TamperRows_3 :
    (let s : State := st [(FAULT_CTL_FORCEFULL, 0)]
    let q : Nat := 23
    let n : Nat := 1
    let det : Nat := 1
    let extra : Nat := 1
    decide (q < 24 ∧ s.on FAULT_CTL_FORCEFULL = false)) = true := by
  decide +kernel

theorem witness_TamperRows_4 :
    (let s : State := quantity 1 [(TSRC_CFG_COUNT 23, 9)] noEvents
    let q : Nat := 23
    let v : Word32 := (1 : Word32)
    decide (q < 24 ∧ wordField v 0 0 = 1 ∧ wordField v 1 1 = 0 ∧ s.on (TSRC_CFG_EN q) = true ∧ s.pstate ≠ .p3 ∧
    (s.tamperEvent q false (s.get (TSRC_READING_VALUE q)) 0 true).flt.zeroizeDue = false)) = true := by
  decide +kernel

theorem witness_TamperRows_5 :
    (let s : State := st [((TSRC_STATUS_LATCHED 23), 1)]
    let q : Nat := 23
    decide (q < 24 ∧ s.on (TSRC_STATUS_LATCHED q) = true)) = true := by
  decide +kernel

theorem witness_TamperRows_6 :
    (let s : State := quantity 2 [] ⟨[], [(false, 0, false)], 0, 0⟩
    let q : Nat := 23
    let detB : Bool := false
    let l : Bool × Nat × Bool := (false, 0, false)
    decide (q < 24 ∧ (s.qty q).lone.find? (fun l => decide (l.1 = detB)) = some l)) = true := by
  decide +kernel

theorem witness_TamperRows_7 :
    (let s : State := (let u := State.reset; { u with flt := { u.flt with zeroizeDue := false } } : State)
    decide (s.logicOn = true ∧ s.flt.zeroizeDue = false)) = true := by
  decide +kernel

theorem witness_TamperRows_8 :
    (let s : State := st [((TSRC_CFG_EN 23), 1)]
    let q : Nat := 23
    let det : Nat := 1
    decide (q < 24 ∧ s.on (TSRC_CFG_EN q) = true ∧ det % 4 ≠ 0)) = true := by
  decide +kernel

theorem witness_TamperRows_9 :
    (let s : State := ({ State.reset with tamp := { State.reset.tamp with log := [List.replicate 28 7] } } : State)
    let e : Bytes := List.replicate 28 7
    let es : List Bytes := []
    decide (s.logicOn = true ∧ e.length = 28 ∧ s.get TAMPER_LOGCOUNT_COUNT < 65536 ∧ (s.tamp.evid = e :: es ∨ (s.tamp.evid = [] ∧ s.tamp.log = e :: es))) &&
    (match s.get TAMPER_LOGCOUNT_COUNT with
     | n =>
      true)) = true := by
  decide +kernel

theorem witness_TamperRows_10 :
    (let s : State := st [(CER_AUTHWIN_AUTH, 1)]
    let mid : Nat := 0x40
    decide (mid = 0x40 ∧ s.on CER_AUTHWIN_AUTH = true)) = true ∧
    (let s : State := State.reset
    let mid : Nat := 0x40
    decide (mid ≠ 0x40 ∨ s.on CER_AUTHWIN_AUTH = false)) = true := by
  decide +kernel

theorem witness_TamperRows_11 :
    (let s : State := ({ State.reset with pstate := .p3 } : State)
    decide (s.pstate = .p3)) = true := by
  decide +kernel

theorem witness_TamperRows_12 :
    (let s : State := quantity 2 [(TSRC_CFG_P3COUNT 23, 1)] noEvents
    let q : Nat := 23
    let det : Nat := 1
    decide (q < 24 ∧ det % 4 ≠ 0 ∧ s.on (TSRC_STATUS_LATCHED q) = false ∧ s.get (TSRC_CFG_P3COUNT q) ≤ (s.qty q).watch + 1)) = true := by
  decide +kernel

theorem witness_FaultAndWatchdogRows_1 :
    (let s : State := (let u := State.reset; { u with flt := { u.flt with open_ := none } } : State)
    let src : Nat := 319
    let info : Nat := 1
    let forced : Bool := false
    decide (src < 320 ∧ s.flt.open_ = none)) = true ∧
    (let s : State := faulty
    let src : Nat := 4
    let info : Nat := 0
    let forced : Bool := false
    decide (src < 320) &&
    (match s.flt.open_ with
     | some r =>
      true
     | _ => false)) = true ∧
    (let s : State := st [(FAULT_CTL_FORCEFULL, 0)]
    let src : Nat := 319
    let info : Nat := 1
    let forced : Bool := true
    decide (src < 320 ∧ forced = true ∧ s.on FAULT_CTL_FORCEFULL = false)) = true := by
  decide +kernel

theorem witness_FaultAndWatchdogRows_2 :
    (let s : State := faulty
    let res : SelfTest := .pass
    decide (s.ev.buf.length < 240 ∧ s.flt.logNext < 16 ∧ s.flt.zeroizeDue = false) &&
    (match s.flt.open_ with
     | some r =>
      decide (r.cls < 4)
     | _ => false)) = true := by
  decide +kernel

theorem witness_FaultAndWatchdogRows_3 :
    (let s : State := State.reset
    let k : Nat := 9
    let j : Nat := 31
    decide (k < 10 ∧ j < 32)) = true := by
  decide +kernel

theorem witness_FaultAndWatchdogRows_4 :
    (let s : State := faulty
    (match s.flt.pulseEnd with
     | some c =>
      true
     | _ => false)) = true := by
  decide +kernel

theorem witness_FaultAndWatchdogRows_5 :
    (let s : State := st [(FAULT_NCTL_ASSERTED, 1)]
    decide (s.on FAULT_NCTL_ASSERTED = true)) = true := by
  decide +kernel

theorem witness_FaultAndWatchdogRows_6 :
    (let s : State := State.reset
    let mid : Nat := 0x41
    decide (mid ≠ 0x40)) = true := by
  decide +kernel

theorem witness_FaultAndWatchdogRows_7 :
    (let s : State := faulty
    let v : Word32 := (0xA5A5 : Word32)
    decide (wordField v 15 0 = 0xA5A5 ∧ s.wdog.capoKey = true)) = true := by
  decide +kernel

theorem witness_FaultAndWatchdogRows_8 :
    (let s : State := State.reset
    let v : Word32 := (0x5A5A : Word32)
    decide (wordField v 15 0 = 0x5A5A ∧ s.wdog.capoKey = false)) = true := by
  decide +kernel

theorem witness_FaultAndWatchdogRows_9 :
    (let s : State := State.reset
    let mid : Nat := 0x40
    let v : Word32 := (0 : Word32)
    decide (mid ≠ 0x40 ∨ (wordField v 15 0 ≠ 0x5A5A ∧ (wordField v 15 0 ≠ 0xA5A5 ∨ s.wdog.capoKey = false)))) = true := by
  decide +kernel

theorem witness_FaultAndWatchdogRows_10 :
    (let s : State := faulty
    let v : Word32 := (0xA5A5 : Word32)
    decide (wordField v 15 0 = 0xA5A5 ∧ s.wdog.modKey = true)) = true := by
  decide +kernel

theorem witness_FaultAndWatchdogRows_11 :
    (let s : State := State.reset
    let mid : Nat := 0x40
    let v : Word32 := (0 : Word32)
    decide (mid ≠ 0x40 ∨ (wordField v 15 0 ≠ 0x5A5A ∧ (wordField v 15 0 ≠ 0xA5A5 ∨ s.wdog.modKey = false)))) = true := by
  decide +kernel

theorem witness_FaultAndWatchdogRows_12 :
    (let s : State := (let u := faulty; { u.put LIFE_BOOT_STAGE stRUNNING with wdog := u.wdog } : State)
    decide (s.capoCounts = true)) = true := by
  decide +kernel

theorem witness_FaultAndWatchdogRows_13 :
    (let s : State := State.reset
    decide (s.modCounts = true)) = true := by
  decide +kernel

theorem witness_PickguardRows_1 :
    (let s : State := (let u := mirrored 0; { u with pick := { u.pick with copyReq := true, reading := some u.mirrorTarget, isoDep := true } } : State)
    let resends : Nat := 1
    decide (s.pick.copyReq = true ∧ s.pstate ≠ .p3 ∧ s.on PICK_MIRROR_DEFERRED = false ∧ s.mirrorHeld = true)) = true ∧
    (let s : State := (let u := st [(PICK_MIRROR_DEFERRED, 0)]; { u with pick := { u.pick with copyReq := true } } : State)
    let resends : Nat := 3
    decide (s.pick.copyReq = true ∧ s.pstate ≠ .p3 ∧ s.on PICK_MIRROR_DEFERRED = false ∧ s.mirrorHeld = false ∧ resends < 4)) = true := by
  decide +kernel

theorem witness_PickguardRows_3 :
    (let s : State := st [(PICK_MIRROR_DEFERRED, 1)]
    decide (s.on PICK_MIRROR_DEFERRED = true)) = true := by
  decide +kernel

theorem witness_PickguardRows_4 :
    (let s : State := (let u := (let u := State.reset; { u with pick := { u.pick with fdet := false } } : State); { u with pick := { u.pick with rdrField := false } } : State)
    decide (s.pick.fdet = false ∧ s.pick.rdrField = false)) = true := by
  decide +kernel

theorem witness_PickguardRows_5 :
    (let s : State := (let u := State.reset; { u with pick := { u.pick with fdet := true } } : State)
    decide (s.pick.fdet = true)) = true := by
  decide +kernel

theorem witness_PickguardRows_6 :
    (let s : State := tagged tgIDLE false true
    decide (s.tagHears = true ∧ s.get PICK_STATUS_TAGSTATE = tgIDLE)) = true ∧
    (let s : State := tagged tgHALTED false true
    decide (s.tagHears = true ∧ (s.get PICK_STATUS_TAGSTATE = tgIDLE ∨ s.get PICK_STATUS_TAGSTATE = tgHALTED))) = true ∧
    (let s : State := tagged tgREADY false true
    let known : Nat := 0
    let value : Nat := 0
    decide (s.tagHears = true ∧ s.get PICK_STATUS_TAGSTATE = tgREADY ∧ known ≤ 32 ∧
    value % 2 ^ known = bytesToNat (s.pick.uid ++ [uidBcc s.pick.uid]) % 2 ^ known)) = true ∧
    (let s : State := tagged tgACTIVE false true
    decide (s.tagHears = true ∧ s.get PICK_STATUS_TAGSTATE = tgACTIVE)) = true ∧
    (let s : State := tagged tgREADY false true
    decide (s.tagHears = true ∧ s.get PICK_STATUS_TAGSTATE ≠ tgIDLE)) = true := by
  decide +kernel

theorem witness_PickguardRows_7 :
    (let s : State := tagged tgACTIVE true true
    decide (s.tagHears = true ∧ s.pick.isoDep = true)) = true := by
  decide +kernel

theorem witness_PickguardRows_8 :
    (let s : State := talking 1 true
    let m : Bytes := [2, 1, 0, 0]
    decide (s.pickOn = true ∧ s.get PICK_SESS_STATE = 1 ∧ s.pegRoom = true) &&
    (match s.pick.sess with
     | some x =>
      true
     | _ => false)) = true ∧
    (let s : State := talking 1 true
    let m : Bytes := [2, 1, 0, 0]
    let st := 0
    decide (s.pickOn = true ∧ s.get PICK_SESS_STATE = 1 ∧ s.pegRoom = true ∧ st < 256) &&
    (match s.pick.sess with
     | some x =>
      true
     | _ => false)) = true ∧
    (let s : State := talking 3 true
    decide (s.pickOn = true ∧ s.get PICK_SESS_STATE = 3) &&
    (match s.pick.sess with
     | some x =>
      (match [4, 1, 0, 0] ++ kmac256 x.kmac x.t custConfirmP 32 with
       | m =>
        true)
     | _ => false)) = true ∧
    (let s : State := talking 4 true
    let m : Bytes := [5, 1, 0, 0]
    decide (s.pickOn = true ∧ s.get PICK_SESS_STATE = 4) &&
    (match s.pick.sess with
     | some x =>
      true
     | _ => false)) = true ∧
    (let s : State := talking 4 true
    let m : Bytes := [5, 1, 0, 0]
    decide (s.pickOn = true ∧ s.get PICK_SESS_STATE = 4) &&
    (match s.pick.sess with
     | some x =>
      true
     | _ => false)) = true := by
  decide +kernel

theorem witness_PickguardRows_9 :
    (let s : State := talking 3 true
    decide (s.get PICK_SESS_STATE = 1 ∨ s.get PICK_SESS_STATE = 3) &&
    (match s.pick.sess with
     | some x =>
      true
     | _ => false)) = true := by
  decide +kernel

theorem witness_PickguardRows_10 :
    (let s : State := (let u := waits 2; { u with pick := { u.pick with rdrField := true, badges := [[1, 2, 3, 4]], sess := none } } : State)
    decide (s.pick.sess = none ∧ s.pickOn = true ∧ s.pick.rdrField = true ∧ s.pick.badges ≠ [] ∧ s.pick.failed = none)) = true := by
  decide +kernel

theorem witness_PickguardRows_11 :
    (let s : State := waits 1
    let delta : Nat := 11
    decide (s.readerWaits = true ∧ s.get PICK_WAIT_CAPTHRESH < delta)) = true := by
  decide +kernel

theorem witness_PickguardRows_12 :
    (let s : State := waits 1
    let shift : Bool := false
    decide (s.readerWaits = true ∧ s.on PICK_CTL_PING_EN = true)) = true := by
  decide +kernel

theorem witness_PickguardRows_13 :
    (let s : State := waits 2
    let missed : Nat := 0
    let uids : List Bytes := [[1, 2, 3, 4, 5, 6, 7], [1, 2, 3, 4]]
    decide (s.pickOn = true ∧ s.on PICK_CTL_RDR_EN = true ∧ s.get PICK_STATUS_MODE = 2 ∧ s.pick.rdrField = false ∧ s.pwr.shed = false ∧
    s.pick.fdet = false ∧ missed < s.get PICK_RDR_POLLS) &&
    (match (((uids.filter (fun u => decide (u.length = 4 ∨ u.length = 7 ∨ u.length = 10) && !((s.pass (s.get PICK_RDR_GUARD * (cyclesPerMs / 10))).inBackoff u))).foldr uidInsert []).take (s.get PICK_RDR_MAXTAGS)) with
     | u :: rest =>
      decide (u.length ≤ 12)
     | _ => false)) = true := by
  decide +kernel

theorem witness_PickguardRows_14 :
    (let s : State := ({ State.reset with pick := { State.reset.pick with failed := some 7 } } : State)
    (match s.pick.failed with
     | some st =>
      true
     | _ => false)) = true := by
  decide +kernel

theorem witness_CardRows_1 :
    (let s : State := st [(CARD_STATUS_PRESENT, 0)]
    decide (s.cardOn = true ∧ s.on CARD_STATUS_PRESENT = false)) = true := by
  decide +kernel

theorem witness_CardRows_2 :
    (let s : State := carded cdACTIVATING none
    let atr : Bytes := cardAtr
    let pps : PpsEnd := .ok
    decide (s.get CARD_STATUS_STATE = cdACTIVATING ∧ s.cardOn = true ∧ atr.length ≤ 32 ∧ atrOk (atr.map BitVec.toNat) = true ∧ pps ≠ .twice)) = true ∧
    (let s : State := st [(CARD_STATUS_STATE, cdACTIVATING)]
    let atr : Bytes := []
    decide (s.get CARD_STATUS_STATE = cdACTIVATING ∧ s.cardOn = true ∧ atr.length ≤ 32 ∧ atrOk (atr.map BitVec.toNat) = false)) = true := by
  decide +kernel

theorem witness_CardRows_3 :
    (let s : State := (let u := st [(CARD_STATUS_STATE, cdACTIVATING), (CARD_CTL_CLASS, 0)]; { u with card := { u.card with triedB := false } } : State)
    decide (s.get CARD_STATUS_STATE = cdACTIVATING ∧ s.cardOn = true ∧ s.get CARD_CTL_CLASS = 0 ∧ s.card.triedB = false)) = true ∧
    (let s : State := (carded cdACTIVATING none).put CARD_CTL_CLASS 1
    decide (s.get CARD_STATUS_STATE = cdACTIVATING ∧ s.cardOn = true ∧ (s.get CARD_CTL_CLASS ≠ 0 ∨ s.card.triedB = true))) = true := by
  decide +kernel

theorem witness_CardRows_4 :
    (let s : State := st [(CARD_STATUS_PRESENT, 1)]
    decide (s.on CARD_STATUS_PRESENT = true)) = true := by
  decide +kernel

theorem witness_CardRows_5 :
    (let s : State := carded cdIDLE none
    decide (s.get CARD_STATUS_STATE ≠ cdOFF) && calmB s SRC_CARD_POWER) = true := by
  decide +kernel

theorem witness_CardRows_6 :
    (let s : State := (let u := carded cdIDLE none; { u with card := { u.card with t1errs := 1 } } : State)
    decide ((s.get CARD_STATUS_STATE = cdIDLE ∨ s.get CARD_STATUS_STATE = cdBUSY) ∧ s.card.t1errs < 2)) = true ∧
    (let s : State := carded cdBUSY none
    decide ((s.get CARD_STATUS_STATE = cdIDLE ∨ s.get CARD_STATUS_STATE = cdBUSY) ∧ 2 ≤ s.card.t1errs)) = true := by
  decide +kernel

theorem witness_CardRows_7 :
    (let s : State := carded cdBUSY (some (true, [1], 5))
    (match s.card.xfer with
     | some x =>
      true
     | _ => false)) = true := by
  decide +kernel

theorem witness_CardRows_8 :
    (let s : State := (let u := (let u := st [(CARD_STATUS_STATE, cdIDLE)]; { u with card := { u.card with clockStop := true } } : State); { u with card := { u.card with stopped := false } } : State)
    decide (s.get CARD_STATUS_STATE = cdIDLE ∧ s.card.clockStop = true ∧ s.get CARD_TIME_IDLESTOP ≠ 0 ∧ s.card.stopped = false)) = true := by
  decide +kernel

theorem witness_CardRows_9 :
    (let s : State := State.reset
    let mid : Nat := 0x41
    let sealed : Bool := false
    decide (mid ≠ 0x40 ∨ s.on CARD_RESULT_BUSY = true)) = true := by
  decide +kernel

theorem witness_CardRows_10 :
    (let s : State := (let u := peg7 ((carded cdIDLE none).poke 0x2000000 [0x80, 0x16, 0, 0]); u.put CARD_SESS_SLOT 7)
    let sealed : Bool := false
    decide (s.on CARD_RESULT_BUSY = false ∧ s.get CARD_STATUS_STATE = cdIDLE ∧ s.cardBufOk (s.addr40 CARD_BUF_LO) (s.get CARD_CMDLEN_LEN) = true) &&
    (match s.keyRead (s.addr40 CARD_BUF_LO) (s.get CARD_CMDLEN_LEN) with
     | (some apdu, u) =>
      decide (apduOp apdu = 0x8014 ∨ apduOp apdu = 0x8016)
     | _ => false)) = true ∧
    (let s : State := ((carded cdIDLE none).poke 0x2000000 [0x80, 0x18, 0, 0])
    let sealed : Bool := false
    decide (s.on CARD_RESULT_BUSY = false ∧ s.get CARD_STATUS_STATE = cdIDLE ∧ s.cardBufOk (s.addr40 CARD_BUF_LO) (s.get CARD_CMDLEN_LEN) = true) &&
    (match s.keyRead (s.addr40 CARD_BUF_LO) (s.get CARD_CMDLEN_LEN) with
     | (some apdu, u) =>
      decide (apduOp apdu ≠ 0x8014 ∧ apduOp apdu ≠ 0x8016 ∧
      (sealed = true → u.card.sess.isSome = true) ∧
      (apduOp apdu = 0x8012 → u.pickKeyOk (u.get CARD_SESS_SLOT) = true))
     | _ => false)) = true := by
  decide +kernel

theorem witness_CardRows_11 :
    (let s : State := State.reset
    let sw : Nat := 0x63C0
    let apdu : Bytes := []
    let data : Bytes := []
    decide (sw / 16 = 0x63C ∧ sw % 16 = 0)) = true := by
  decide +kernel

theorem witness_PowerRows_1 :
    (let s : State := State.reset
    decide (s.logicUp = true)) = true := by
  decide +kernel

theorem witness_PowerRows_2 :
    (let s : State := (let u := ({ State.reset with pstate := .p1 } : State); { u with time := { u.time with ticking := true } } : State)
    let n : Nat := 31
    decide (n < 32 ∧ s.pstate = .p1 ∧ s.time.ticking = true)) = true := by
  decide +kernel

theorem witness_PowerRows_3 :
    (let s : State := ({ State.reset with resetPend := none } : State)
    decide (s.resetPend = none)) = true := by
  decide +kernel

theorem witness_PowerRows_4 :
    (let s : State := State.reset
    let mid : Nat := 0x41
    decide (mid ≠ 0x40)) = true := by
  decide +kernel

theorem witness_PowerRows_5 :
    (let s : State := (let u := dozing [(TIME_CTL_RUN, 1)]; u.put LIFE_BOOT_STAGE stRUNNING)
    let l12 : Bool := false
    decide (s.pwr.retainReq = true ∧ (s.proc 32).run = .wait ∧ (s.proc 32).priv = 0 ∧ s.logicUp = true ∧ s.retainRefused l12 ≠ 0)) = true ∧
    (let s : State := (let u := dozing [(TIME_CTL_RUN, 0)]; u.put LIFE_BOOT_STAGE stRUNNING)
    let l12 : Bool := true
    decide (s.pwr.retainReq = true ∧ (s.proc 32).run = .wait ∧ (s.proc 32).priv = 0 ∧ s.logicUp = true ∧ s.retainRefused l12 = 0)) = true := by
  decide +kernel

theorem witness_PowerRows_6 :
    (let s : State := ({ State.reset with pwr := { State.reset.pwr with draining := some 12 } } : State)
    decide (s.jobs.jobs = []) &&
    (match s.pwr.draining with
     | some c =>
      (match s.jobs.jobs.foldl (fun t e => t.cellEnd e.1 stABORTED 0) (s.passTo (c + cyclesPerMs * s.get PWR_RETAIN_DRAIN)) with
       | u =>
        true)
     | _ => false)) = true := by
  decide +kernel

theorem witness_PowerRows_7 :
    (let s : State := ({ State.reset with pwr := { State.reset.pwr with draining := some 12 } } : State)
    decide (s.pwr.draining.isSome = true ∧ s.jobs.jobs = [] ∧ s.ve.cmds.all (fun e => s.veHeld e.2) = true ∧ s.die.running = [] ∧ s.die.asleep = [])) = true := by
  decide +kernel

theorem witness_PowerRows_8 :
    (let s : State := State.reset
    let input : Nat := 33999
    let bank : Nat := 1
    decide (input < 34000 ∧ s.pstate ≠ .p3 ∧ (s.pwr.dipAt = none ∨ s.pwr.restoredAt.isSome = true))) = true := by
  decide +kernel

theorem witness_PowerRows_9 :
    (let s : State := dipped .p0 1 none false
    let bank : Nat := 100
    decide (s.get PWR_STATUS_PHASE = 1 ∧ s.pwr.restoredAt = none) &&
    (match s.pwr.dipAt with
     | some c =>
      true
     | _ => false)) = true := by
  decide +kernel

theorem witness_PowerRows_10 :
    (let s : State := dipped .p0 2 none false
    decide (s.pwr.dipAt.isSome = true ∧ (s.get PWR_STATUS_PHASE = 1 ∨ s.get PWR_STATUS_PHASE = 2))) = true := by
  decide +kernel

theorem witness_PowerRows_11 :
    (let s : State := dipped .p1 2 none false
    decide (s.pwr.dipAt.isSome = true ∧ s.pstate ≠ .p3)) = true := by
  decide +kernel

theorem witness_PowerRows_12 :
    (let s : State := dipped .p0 2 none false
    let input : Nat := 35500
    let bank : Nat := 0
    decide (s.pwr.dipAt.isSome = true ∧ 35500 ≤ input ∧ s.pstate ≠ .p3)) = true := by
  decide +kernel

theorem witness_PowerRows_13 :
    (let s : State := dipped .p0 2 (some 8) true
    decide (s.pwr.stopped = true ∨ s.pwr.resetHeld = true) &&
    (match s.pwr.dipAt with
     | some d =>
      (match s.pwr.restoredAt with
       | some r =>
        true
       | _ => false)
     | _ => false)) = true ∧
    (let s : State := dipped .p0 1 (some 8) false
    decide (s.pwr.stopped = false ∧ s.pwr.resetHeld = false) &&
    (match s.pwr.dipAt with
     | some d =>
      (match s.pwr.restoredAt with
       | some r =>
        true
       | _ => false)
     | _ => false)) = true := by
  decide +kernel

theorem witness_PowerRows_14 :
    (let s : State := State.reset
    let bank : Nat := 131071
    decide (s.logicUp = true ∧ s.clock ≤ s.pwr.restoreAt + 2 * cyclesPerSec ∧ 65000 ≤ bank ∧ bank < 2 ^ 17)) = true ∧
    (let s : State := State.reset
    let bank : Nat := 64999
    decide (s.logicUp = true ∧ s.clock ≤ s.pwr.restoreAt + 2 * cyclesPerSec ∧ bank < 65000) && calmB s SRC_PWR_HOLDUP) = true := by
  decide +kernel

theorem witness_PowerRows_15 :
    (let s : State := State.reset
    let input : Nat := 131071
    decide (s.logicUp = true ∧ 75000 < input) && calmB s SRC_PWR_OVERVOLT && decide (input < 2 ^ 17)) = true := by
  decide +kernel

theorem witness_PowerRows_17 :
    (let s : State := (let u := asleep false; { u with pick := { u.pick with fdet := true } } : State)
    let src : Nat := 4
    let us : Nat := 1
    decide (s.pstate = .p2 ∧ s.wakes src = true ∧ s.pwr.alarmReset = false ∧ s.pwr.dipAt = none)) = true ∧
    (let s : State := asleep true
    let src : Nat := 7
    let us : Nat := 1
    decide (s.pstate = .p2 ∧ s.wakes src = true ∧ s.pwr.alarmReset = true)) = true := by
  decide +kernel

theorem witness_PowerRows_18 :
    (let s : State := (let u := (let u := ({ State.reset with pstate := .p2 } : State); { u with pwr := { u.pwr with alarmReset := false } } : State); { u with pwr := { u.pwr with dipAt := none } } : State)
    let us : Nat := 1
    decide (s.pstate = .p2 ∧ s.wakes 2 = true ∧ s.pwr.alarmReset = false ∧ s.pwr.dipAt = none)) = true := by
  decide +kernel

theorem witness_PowerRows_19 :
    (let s : State := State.reset
    decide (s.pstate ≠ .p3)) = true := by
  decide +kernel

theorem witness_PowerRows_20 :
    (let s : State := st [(BRIDGE_LINK_UP, 0)]
    decide (s.on BRIDGE_LINK_UP = false)) = true ∧
    (let s : State := st [(BRIDGE_LINK_UP, 1)]
    decide (s.on BRIDGE_LINK_UP = true) && calmB s SRC_BRIDGE_LINK) = true := by
  decide +kernel

theorem witness_LifecycleRows_1 :
    (let s : State := State.reset
    let i : Instr := .seal 0x41
    let mid : Nat := 0x41
    let r : LifeReq := ⟨2, default⟩
    decide (lifeRow i = some (mid, r) ∧ (mid ≠ 0x40 ∨ s.on LIFE_CMD_RESULT_BUSY = true))) = true ∧
    (let s : State := aged 1 []
    let i : Instr := .debugClose 0x40
    let mid : Nat := 0x40
    let r : LifeReq := ⟨6, default⟩
    decide (lifeRow i = some (mid, r) ∧ mid = 0x40 ∧ s.on LIFE_CMD_RESULT_BUSY = false ∧ (s.on CASE_STATUS_SUSPENDED = false ∨ r.op = 4))) = true ∧
    (let s : State := st [(CASE_STATUS_SUSPENDED, 1)]
    let i : Instr := .commitImage 0x40
    let mid : Nat := 0x40
    let r : LifeReq := ⟨7, default⟩
    decide (lifeRow i = some (mid, r) ∧ mid = 0x40 ∧ s.on LIFE_CMD_RESULT_BUSY = false ∧ s.on CASE_STATUS_SUSPENDED = true ∧ r.op ≠ 4)) = true := by
  decide +kernel

theorem witness_LifecycleRows_2 :
    (let s : State := st [(LIFE_CMD_RESULT_BUSY, 0)]
    let op : Nat := 15
    decide (op < 16 ∧ (op = 0 ∨ 10 ≤ op) ∧ s.on LIFE_CMD_RESULT_BUSY = false)) = true := by
  decide +kernel

theorem witness_LifecycleRows_3 :
    (let s : State := keyed
    let p : ProvData := ⟨[1], [([1], 0)], [], []⟩
    decide (s.life = lcBlank ∧ s.get KEY_STATE_ROOT = 1 ∧ s.moduleKeys = true ∧ p.chain ≠ [] ∧ 1 ≤ p.keys.length ∧ p.keys.length ≤ 4)) = true ∧
    (let s : State := aged 1 []
    let p : ProvData := ⟨[1], [([1], 0)], [], []⟩
    decide (s.life ≠ lcBlank ∨ s.get KEY_STATE_ROOT ≠ 1 ∨ s.moduleKeys = false ∨ p.chain = [] ∨ p.keys.length = 0 ∨ 4 < p.keys.length)) = true := by
  decide +kernel

theorem witness_LifecycleRows_4 :
    (let s : State := (let u := (aged lcProvisioned [(CER_AUTHWIN_AUTH, 1), (LIFE_BOOT_TRIAL, 0)]); { u with lcs := { u.lcs with preset := noPreset, running := some 3 } } : State)
    decide (s.life = lcProvisioned ∧ s.on CER_AUTHWIN_AUTH = true ∧ presetOk s.lcs.preset = true ∧ s.lcs.running.isSome = true ∧
    s.on LIFE_BOOT_TRIAL = false)) = true ∧
    (let s : State := State.reset
    decide (s.life ≠ lcProvisioned ∨ s.on CER_AUTHWIN_AUTH = false)) = true := by
  decide +kernel

theorem witness_LifecycleRows_5 :
    (let s : State := State.reset
    decide (s.life ≠ lcRetired ∧ (s.life = lcBlank ∨ s.on CER_AUTHWIN_AUTH = true))) = true ∧
    (let s : State := aged lcRetired []
    decide (s.life = lcRetired ∨ (s.life ≠ lcBlank ∧ s.on CER_AUTHWIN_AUTH = false))) = true := by
  decide +kernel

theorem witness_LifecycleRows_6 :
    (let s : State := drawn
    decide (s.entropyGone = false ∧ s.canDraw 2 = true)) = true := by
  decide +kernel

theorem witness_LifecycleRows_7 :
    (let s : State := (let u := (aged lcSealed [(LIFE_BUF_LO_ADDR, 0x2000000), (LIFE_BUF_LEN_LEN, 8)]); { u with lcs := { u.lcs with chalAt := some 7 } } : State)
    decide (s.life = lcSealed) &&
    (match s.lcs.chalAt with
     | some c =>
      decide (s.clock ≤ c + 60 * cyclesPerSec) &&
      (match s.lifeBuf with
       | (some b, u) =>
        true
       | _ => false)
     | _ => false)) = true ∧
    (let s : State := State.reset
    decide (s.life ≠ lcSealed ∨ s.lcs.chalAt = none)) = true := by
  decide +kernel

theorem witness_LifecycleRows_8 :
    (let s : State := aged lcDebug []
    decide (s.life = lcDebug)) = true ∧
    (let s : State := State.reset
    decide (s.life ≠ lcDebug)) = true := by
  decide +kernel

theorem witness_LifecycleRows_9 :
    (let s : State := trial
    decide (0 < s.ledHolds laCOMMIT) &&
    (match s.get LIFE_CMD_ARG_SLOT with
     | slot =>
      decide (slot ≠ s.get LIFE_BOOT_SLOT))) = true ∧
    (let s : State := st [(LIFE_CMD_ARG_SLOT, 0)]
    (match s.get LIFE_CMD_ARG_SLOT with
     | slot =>
      decide (slot = s.get LIFE_BOOT_SLOT ∨ s.ledHolds laCOMMIT = 0 ∨ s.imageSigned slot = false ∨ (s.imageOf slot).1 < s.get LIFE_MINVER_VER))) = true := by
  decide +kernel

theorem witness_LifecycleRows_10 :
    (let s : State := trial
    let c : Commit := ⟨ckCOMMIT, 0, 3, 1, 1, 8, []⟩
    decide (c.minver < 2 ^ 32 ∧ s.on LIFE_BOOT_TRIAL = true) &&
    (match s.lcs.running with
     | some q =>
      decide (s.lcs.commits.find? (fun c => decide (c.kind = ckCOMMIT ∧ c.seq = q)) = some c)
     | _ => false)) = true := by
  decide +kernel

theorem witness_LifecycleRows_11 :
    (let s : State := trial
    decide (s.life ≤ lcProvisioned ∧ s.get LIFE_BUF_LEN_LEN ≤ 20 + 8 * 8190) &&
    (match s.lifeBuf with
     | (some b, u) =>
      true
     | _ => false)) = true ∧
    (let s : State := aged lcSealed []
    let u : State := State.reset
    let b : Bytes := []
    decide (lcProvisioned < s.life)) = true := by
  decide +kernel

theorem witness_LifecycleRows_12 :
    (let s : State := keyed
    let chain : Bytes := [1]
    let k : ProvKeys := ⟨[([1], 0)], [], []⟩
    decide (s.on LIFE_CMD_RESULT_BUSY = false ∧ s.on CASE_STATUS_SUSPENDED = false ∧ s.life = lcBlank ∧ s.get KEY_STATE_ROOT = 1 ∧ s.moduleKeys = true ∧
    chain ≠ [] ∧ 1 ≤ k.keys.length ∧ k.keys.length ≤ 4)) = true ∧
    (let s : State := (let u := (aged lcProvisioned [(CER_AUTHWIN_AUTH, 1), (LIFE_BOOT_TRIAL, 0)]); { u with lcs := { u.lcs with preset := noPreset, running := some 3 } } : State)
    decide (s.on LIFE_CMD_RESULT_BUSY = false ∧ s.on CASE_STATUS_SUSPENDED = false ∧ s.life = lcProvisioned ∧ s.on CER_AUTHWIN_AUTH = true ∧
    presetOk s.lcs.preset = true ∧ s.lcs.running.isSome = true ∧ s.on LIFE_BOOT_TRIAL = false)) = true ∧
    (let s : State := st [(LIFE_CMD_RESULT_BUSY, 0), (CASE_STATUS_SUSPENDED, 0)]
    decide (s.on LIFE_CMD_RESULT_BUSY = false ∧ s.on CASE_STATUS_SUSPENDED = false ∧ s.life ≠ lcRetired ∧
    (s.life = lcBlank ∨ s.on CER_AUTHWIN_AUTH = true))) = true ∧
    (let s : State := drawn
    decide (s.on LIFE_CMD_RESULT_BUSY = false ∧ s.on CASE_STATUS_SUSPENDED = false ∧ s.entropyGone = false ∧ s.canDraw 2 = true)) = true ∧
    (let s : State := (let u := (aged lcSealed [(LIFE_BUF_LO_ADDR, 0x2000000), (LIFE_BUF_LEN_LEN, 8)]); { u with lcs := { u.lcs with chalAt := some 7 } } : State)
    decide (s.on LIFE_CMD_RESULT_BUSY = false ∧ s.on CASE_STATUS_SUSPENDED = false ∧ s.life = lcSealed) &&
    (match s.lcs.chalAt with
     | some c =>
      decide (s.clock ≤ c + 60 * cyclesPerSec) &&
      (match s.lifeBegin.lifeBuf with
       | (some b, u) =>
        true
       | _ => false)
     | _ => false)) = true ∧
    (let s : State := aged lcDebug []
    decide (s.on LIFE_CMD_RESULT_BUSY = false ∧ s.on CASE_STATUS_SUSPENDED = false ∧ s.life = lcDebug)) = true ∧
    (let s : State := trial
    decide (s.on LIFE_CMD_RESULT_BUSY = false ∧ s.on CASE_STATUS_SUSPENDED = false ∧ 0 < s.ledHolds laCOMMIT) &&
    (match s.get LIFE_CMD_ARG_SLOT with
     | slot =>
      decide (slot ≠ s.get LIFE_BOOT_SLOT))) = true ∧
    (let s : State := trial
    let c : Commit := ⟨ckCOMMIT, 0, 3, 1, 1, 8, []⟩
    decide (s.on LIFE_CMD_RESULT_BUSY = false ∧ s.on CASE_STATUS_SUSPENDED = false ∧ c.minver < 2 ^ 32 ∧ s.on LIFE_BOOT_TRIAL = true) &&
    (match s.lcs.running with
     | some q =>
      decide (s.lcs.commits.find? (fun c => decide (c.kind = ckCOMMIT ∧ c.seq = q)) = some c)
     | _ => false)) = true ∧
    (let s : State := trial
    decide (s.on LIFE_CMD_RESULT_BUSY = false ∧ s.on CASE_STATUS_SUSPENDED = false ∧ s.life ≤ lcProvisioned ∧ s.get LIFE_BUF_LEN_LEN ≤ 20 + 8 * 8190) &&
    (match s.lifeBegin.lifeBuf with
     | (some b, u) =>
      true
     | _ => false)) = true := by
  decide +kernel

theorem witness_LifecycleRows_13 :
    (let s : State := aged lcDebug []
    decide (s.life = lcDebug)) = true := by
  decide +kernel

theorem witness_LifecycleRows_14 :
    (let s : State := trial
    (match s.lcs.chalAt with
     | some c =>
      true
     | _ => false)) = true := by
  decide +kernel

theorem witness_BootAndDebugRows_1 :
    (let s : State := aged 1 []
    let l : List Commit := [⟨ckCOMMIT, 0, 3, 1, 1, 8, []⟩]
    let q : Nat := 3
    decide (s.lcs.running = none)) = true := by
  decide +kernel

theorem witness_BootAndDebugRows_2 :
    (let s : State := (let u := State.reset; { u with pwr := { u.pwr with rstLow := false } } : State)
    let input : Nat := 35500
    let bank : Nat := 1
    decide (s.powerEnters = true ∧ 35500 ≤ input ∧ s.pwr.rstLow = false)) = true := by
  decide +kernel

theorem witness_BootAndDebugRows_3 :
    (let s : State := (let u := State.reset; { u with pwr := { u.pwr with rstLow := true } } : State)
    let input : Nat := 35500
    let bank : Nat := 1
    decide (s.powerEnters = true ∧ 35500 ≤ input ∧ s.pwr.rstLow = true)) = true := by
  decide +kernel

theorem witness_BootAndDebugRows_4 :
    (let s : State := (let u := State.reset; { u with pwr := { u.pwr with coldWaits := false } } : State)
    decide (s.pwr.coldWaits = false) &&
    (match ({ s with pwr := { s.pwr with rstLow := false } } : State) with
     | s1 =>
      true)) = true := by
  decide +kernel

theorem witness_BootAndDebugRows_5 :
    (let s : State := ({ State.reset with resetPend := some .software } : State)
    let c : ResetCause := .software
    let env : BootEnv := default
    decide (s.resetPend = some c ∧ s.pwr.rstLow = false ∧ s.pwr.resetHeld = false ∧ s.pstate ≠ .p3)) = true := by
  decide +kernel

theorem witness_BootAndDebugRows_7 :
    (let s : State := (let u := aged lcProvisioned []; u.put LIFE_BOOT_STAGE stRUNNING)
    let mid : Nat := 0x70
    let p : Nat := 0
    let bank : Nat := 0
    let n : Nat := 0
    let v : Nat := 5
    decide ((mid = 0x70 ∨ mid = 0x71) ∧ s.logicUp = true ∧ p ≤ 32 ∧ s.seesNow p false = true)) = true ∧
    (let s : State := (let u := aged lcProvisioned []; u.put LIFE_BOOT_STAGE stRUNNING)
    let mid : Nat := 0x70
    let p : Nat := 0
    let bank : Nat := 0
    let n : Nat := 0
    let v : Nat := 5
    decide ((mid = 0x70 ∨ mid = 0x71) ∧ s.logicUp = true ∧ p ≤ 32 ∧ s.seesNow p true = true)) = true ∧
    (let s : State := (let u := aged lcBlank []; u.put LIFE_BOOT_STAGE stRUNNING)
    let mid : Nat := 0x70
    let p : Nat := 32
    let bank : Nat := 0
    let n : Nat := 0
    let v : Nat := 5
    decide ((mid = 0x70 ∨ mid = 0x71) ∧ s.logicUp = true ∧ p ≤ 32 ∧ s.mayHalt p = true ∧ s.sees p (s.proc p).priv = .full)) = true := by
  decide +kernel

theorem witness_BootAndDebugRows_8 :
    (let s : State := (let u := aged lcSealed []; u.put LIFE_BOOT_STAGE stRUNNING)
    let mid : Nat := 0x70
    let a : Nat := 0x2000000
    let op : FabOp := .read 4
    let env : FabEnv := default
    decide ((mid = 0x70 ∨ mid = 0x71) ∧ s.logicUp = true ∧ opLen op ≠ 0 ∧ s.seesFabric a op = false)) = true ∧
    (let s : State := (let u := aged lcDebug []; u.put LIFE_BOOT_STAGE stRUNNING)
    let mid : Nat := 0x70
    let a : Nat := 0x2000000
    let op : FabOp := .write [1]
    let env : FabEnv := default
    decide ((mid = 0x70 ∨ mid = 0x71) ∧ s.logicUp = true ∧ opLen op ≠ 0 ∧ s.seesFabric a op = true)) = true := by
  decide +kernel

end Sys2Proof.Tests
end

section
/-! The step lemma of the dispatch: every command keeps the queue, the clock's direction and the memories' canonical form;
the statements about what every command keeps follow from it. -/

namespace Sys2Proof.Machine

/-- Every command keeps what its own meaning keeps (`Keeps`): one arm per arm of `exec`, each the `_keeps` law of the meaning
that arm calls. -/
theorem exec_keeps {s0 : State} (c : Instr) (s : State) (h : Keeps s0 s) : OutKeeps s0 (exec c s) :=
  match c with
  | .tickEdge => execTickEdge_keeps s h
  | .enginePreWake n => execEnginePreWake_keeps n s h
  | .feBStart => execFeBStart_keeps s h
  | .budgetExceeded n => execBudgetExceeded_keeps n s h
  | .requestTimeout k => execRequestTimeout_keeps k s h
  | .holdExpiry k => execHoldExpiry_keeps k s h
  | .timeSrcWrite v => execTimeSrcWrite_keeps v s h
  | .tickRunSet v => execTickRunSet_keeps v s h
  | .tickRunClear v => execTickRunClear_keeps v s h
  | .timeSecWrite hi v => execTimeSecWrite_keeps hi v s h
  | .tickRateWrite v => execTickRateWrite_keeps v s h
  | .ptpMessageRx ident port m => execPtpMessageRx_keeps ident port m s h
  | .ptpDemoteExpiry => execPtpDemoteExpiry_keeps s h
  | .ptpSyncTx port => execPtpSyncTx_keeps port s h
  | .sourceLost => execSourceLost_keeps s h
  | .holdoverExpiry => execHoldoverExpiry_keeps s h
  | .ppsInEdge falling => execPpsInEdge_keeps falling s h
  | .ppsOutPulse => execPpsOutPulse_keeps s h
  | .optimeMirror => execOptimeMirror_keeps s h
  | .registerWrite mid off w v => execRegisterWrite_keeps mid off w v s h
  | .counterLoRead mid off => execCounterLoRead_keeps mid off s h
  | .dualStoredRead mid off upset => execDualStoredRead_keeps mid off upset s h
  | .fabricAccess mid at_ op env => execFabricAccess_keeps mid at_ op env s h
  | .sramWriteback a => execSramWriteback_keeps a s h
  | .scrubRead p a ecc => execScrubRead_keeps p a ecc s h
  | .dramInitComplete => execDramInitComplete_keeps s h
  | .guardWriteback => execGuardWriteback_keeps s h
  | .guardSweepComplete => execGuardSweepComplete_keeps s h
  | .nutCommit region => execNutCommit_keeps region s h
  | .nop p => execNop_keeps p s h
  | .jmp p => execJmp_keeps p s h
  | .call p => execCall_keeps p s h
  | .ret p => execRet_keeps p s h
  | .loop p => execLoop_keeps p s h
  | .lpop p => execLpop_keeps p s h
  | .beq p => execBeq_keeps p s h
  | .bne p => execBne_keeps p s h
  | .blt p => execBlt_keeps p s h
  | .bge p => execBge_keeps p s h
  | .bltu p => execBltu_keeps p s h
  | .bgeu p => execBgeu_keeps p s h
  | .bmi p => execBmi_keeps p s h
  | .bpl p => execBpl_keeps p s h
  | .bgt p => execBgt_keeps p s h
  | .ble p => execBle_keeps p s h
  | .bhi p => execBhi_keeps p s h
  | .bls p => execBls_keeps p s h
  | .bvs p => execBvs_keeps p s h
  | .bvc p => execBvc_keeps p s h
  | .bts p => execBts_keeps p s h
  | .btc p => execBtc_keeps p s h
  | .gate p => execGate_keeps p s h
  | .retg p => execRetg_keeps p s h
  | .retx p => execRetx_keeps p s h
  | .wait p => execWait_keeps p s h
  | .push p => execPush_keeps p s h
  | .pop p => execPop_keeps p s h
  | .enter p => execEnter_keeps p s h
  | .leave p => execLeave_keeps p s h
  | .mov p => execMov_keeps p s h
  | .add p => execAdd_keeps p s h
  | .sub p => execSub_keeps p s h
  | .adc p => execAdc_keeps p s h
  | .sbc p => execSbc_keeps p s h
  | .neg p => execNeg_keeps p s h
  | .abs p => execAbs_keeps p s h
  | .mul p => execMul_keeps p s h
  | .muld p => execMuld_keeps p s h
  | .div p => execDiv_keeps p s h
  | .rem p => execRem_keeps p s h
  | .divu p => execDivu_keeps p s h
  | .remu p => execRemu_keeps p s h
  | .min p => execMin_keeps p s h
  | .max p => execMax_keeps p s h
  | .macd p => execMacd_keeps p s h
  | .and p => execAnd_keeps p s h
  | .or p => execOr_keeps p s h
  | .xor p => execXor_keeps p s h
  | .andn p => execAndn_keeps p s h
  | .not p => execNot_keeps p s h
  | .shl p => execShl_keeps p s h
  | .shr p => execShr_keeps p s h
  | .sar p => execSar_keeps p s h
  | .rol p => execRol_keeps p s h
  | .ext p => execExt_keeps p s h
  | .exts p => execExts_keeps p s h
  | .ins p => execIns_keeps p s h
  | .hadd p => execHadd_keeps p s h
  | .hsub p => execHsub_keeps p s h
  | .hmul p => execHmul_keeps p s h
  | .hpack p => execHpack_keeps p s h
  | .hhi p => execHhi_keeps p s h
  | .hlo p => execHlo_keeps p s h
  | .hswp p => execHswp_keeps p s h
  | .dmov p => execDmov_keeps p s h
  | .dadd p => execDadd_keeps p s h
  | .dsub p => execDsub_keeps p s h
  | .dneg p => execDneg_keeps p s h
  | .dcvt p => execDcvt_keeps p s h
  | .dsat p => execDsat_keeps p s h
  | .dsar p => execDsar_keeps p s h
  | .dcmp p => execDcmp_keeps p s h
  | .oget p => execOget_keeps p s h
  | .oput p => execOput_keeps p s h
  | .berlen p => execBerlen_keeps p s h
  | .ocnt p => execOcnt_keeps p s h
  | .twait p => execTwait_keeps p s h
  | .tleft p => execTleft_keeps p s h
  | .svpull p => execSvpull_keeps p s h
  | .gosub p => execGosub_keeps p s h
  | .jobput p => execJobput_keeps p s h
  | .verdict p => execVerdict_keeps p s h
  | .evput p => execEvput_keeps p s h
  | .tabandon p => execTabandon_keeps p s h
  | .interruptEntry p => execInterruptEntry_keeps p s h
  | .intcHoldoffExpiry g => execIntcHoldoffExpiry_keeps g s h
  | .feCtlWrite n v => execFeCtlWrite_keeps n v s h
  | .feConfigWrite n r v => execFeConfigWrite_keeps n r v s h
  | .portCtlWrite n v => execPortCtlWrite_keeps n v s h
  | .portLinkChange n link => execPortLinkChange_keeps n link s h
  | .pairCtlWrite k v => execPairCtlWrite_keeps k v s h
  | .portFrameRx n f => execPortFrameRx_keeps n f s h
  | .prpSupervisionTx k => execPrpSupervisionTx_keeps k s h
  | .dupEntryForget k => execDupEntryForget_keeps k s h
  | .pairSupvTimeout k => execPairSupvTimeout_keeps k s h
  | .frameClassify => execFrameClassify_keeps s h
  | .hotCacheFill id env => execHotCacheFill_keeps id env s h
  | .bowVerify id lane => execBowVerify_keeps id lane s h
  | .pegBlobLoad slot env => execPegBlobLoad_keeps slot env s h
  | .replayStep id => execReplayStep_keeps id s h
  | .supervisionSweep => execSupervisionSweep_keeps s h
  | .assocInsert => execAssocInsert_keeps s h
  | .assocFind => execAssocFind_keeps s h
  | .assocRead => execAssocRead_keeps s h
  | .assocUpdate => execAssocUpdate_keeps s h
  | .assocDelete => execAssocDelete_keeps s h
  | .assocResetseq => execAssocResetseq_keeps s h
  | .assocClrcnt => execAssocClrcnt_keeps s h
  | .assocCmdUnassigned op => execAssocCmdUnassigned_keeps op s h
  | .assocCmdResultRead => execAssocCmdResultRead_keeps s h
  | .assocSuplostIdxRead => execAssocSuplostIdxRead_keeps s h
  | .bowSpentSlotRead => execBowSpentSlotRead_keeps s h
  | .bowWarnSlotRead => execBowWarnSlotRead_keeps s h
  | .portStatusRead n => execPortStatusRead_keeps n s h
  | .ptpDemotedRead => execPtpDemotedRead_keeps s h
  | .bowKatRun lane pass => execBowKatRun_keeps lane pass s h
  | .bridgeLinkUp gen width => execBridgeLinkUp_keeps gen width s h
  | .bridgeLinkDown => execBridgeLinkDown_keeps s h
  | .fnSplitWrite f vec v => execFnSplitWrite_keeps f vec v s h
  | .functionLevelReset f => execFunctionLevelReset_keeps f s h
  | .flrComplete f => execFlrComplete_keeps f s h
  | .queueCfgWrite q v => execQueueCfgWrite_keeps q v s h
  | .doorbellWrite q off w v => execDoorbellWrite_keeps q off w v s h
  | .deliverySlotFetch q => execDeliverySlotFetch_keeps q s h
  | .queueDeliver => execQueueDeliver_keeps s h
  | .submissionFetch => execSubmissionFetch_keeps s h
  | .submissionComplete q => execSubmissionComplete_keeps q s h
  | .hostReadError q timeout => execHostReadError_keeps q timeout s h
  | .msixFire v => execMsixFire_keeps v s h
  | .gatingRecompute => execGatingRecompute_keeps s h
  | .doeRequest r => execDoeRequest_keeps r s h
  | .ideInsecure stream => execIdeInsecure_keeps stream s h
  | .bridgeErrRead => execBridgeErrRead_keeps s h
  | .relCtlWrite v => execRelCtlWrite_keeps v s h
  | .releaseSignSend k lane => execReleaseSignSend_keeps k lane s h
  | .cellDispatch n err => execCellDispatch_keeps n err s h
  | .mlkemKeygen n used err => execMlkemKeygen_keeps n used err s h
  | .mlkemEncaps n used err => execMlkemEncaps_keeps n used err s h
  | .mlkemDecaps n used err => execMlkemDecaps_keeps n used err s h
  | .mldsaKeygen n used err => execMldsaKeygen_keeps n used err s h
  | .mldsaSign n used err => execMldsaSign_keeps n used err s h
  | .mldsaVerify n used err => execMldsaVerify_keeps n used err s h
  | .slhdsaKeygen n used err => execSlhdsaKeygen_keeps n used err s h
  | .slhdsaSign n used err => execSlhdsaSign_keeps n used err s h
  | .slhdsaVerify n used err => execSlhdsaVerify_keeps n used err s h
  | .lmsKeygen n used err => execLmsKeygen_keeps n used err s h
  | .lmsSign n used err => execLmsSign_keeps n used err s h
  | .lmsVerify n used err => execLmsVerify_keeps n used err s h
  | .lmsInfo n used err => execLmsInfo_keeps n used err s h
  | .mceEncaps n used err => execMceEncaps_keeps n used err s h
  | .mceDecaps n used err => execMceDecaps_keeps n used err s h
  | .hqcKeygen n used err => execHqcKeygen_keeps n used err s h
  | .hqcEncaps n used err => execHqcEncaps_keeps n used err s h
  | .hqcDecaps n used err => execHqcDecaps_keeps n used err s h
  | .ecKeygen n used err => execEcKeygen_keeps n used err s h
  | .ecdsaSign n used err => execEcdsaSign_keeps n used err s h
  | .ecdh n used err => execEcdh_keeps n used err s h
  | .x25519Keygen n used err => execX25519Keygen_keeps n used err s h
  | .x25519 n used err => execX25519_keeps n used err s h
  | .ed25519Keygen n used err => execEd25519Keygen_keeps n used err s h
  | .ed25519Sign n used err => execEd25519Sign_keeps n used err s h
  | .ed25519Verify n used err => execEd25519Verify_keeps n used err s h
  | .pubexport n used err => execPubexport_keeps n used err s h
  | .random n used err => execRandom_keeps n used err s h
  | .jobCompletion r count => execJobCompletion_keeps r count s h
  | .cellClearDone n => execCellClearDone_keeps n s h
  | .cellKatRun n pass => execCellKatRun_keeps n pass s h
  | .cellOfflineWrite n v => execCellOfflineWrite_keeps n v s h
  | .cellStatusRead n => execCellStatusRead_keeps n s h
  | .jrProdWrite mid r v => execJrProdWrite_keeps mid r v s h
  | .jrCfgWrite mid r off v => execJrCfgWrite_keeps mid r off v s h
  | .ringAbort r => execRingAbort_keeps r s h
  | .jobTimeout r count => execJobTimeout_keeps r count s h
  | .entropyRefill n used stalled => execEntropyRefill_keeps n used stalled s h
  | .entropyWaitTimeout => execEntropyWaitTimeout_keeps s h
  | .lmsReserve slot => execLmsReserve_keeps slot s h
  | .soundErrRead => execSoundErrRead_keeps s h
  | .soundLmswarnSlotRead => execSoundLmswarnSlotRead_keeps s h
  | .veOwnerWrite mid e off v => execVeOwnerWrite_keeps mid e off v s h
  | .ecdsaVerify e mid v => execEcdsaVerify_keeps e mid v s h
  | .pointValidate e mid v => execPointValidate_keeps e mid v s h
  | .rsaPkcs1 e mid v => execRsaPkcs1_keeps e mid v s h
  | .rsaPss e mid v => execRsaPss_keeps e mid v s h
  | .rsaPublic e mid v => execRsaPublic_keeps e mid v s h
  | .loadCurve e mid v => execLoadCurve_keeps e mid v s h
  | .clearCurve e mid v => execClearCurve_keeps e mid v s h
  | .veOpUnassigned e mid v => execVeOpUnassigned_keeps e mid v s h
  | .veCommandEnd e => execVeCommandEnd_keeps e s h
  | .veTimeout e => execVeTimeout_keeps e s h
  | .veAbort e mid => execVeAbort_keeps e mid s h
  | .veKatRun e pass => execVeKatRun_keeps e pass s h
  | .digest k err => execDigest_keeps k err s h
  | .hmac k err => execHmac_keeps k err s h
  | .kmac k err => execKmac_keeps k err s h
  | .memcmp k err => execMemcmp_keeps k err s h
  | .digestOpUnassigned k => execDigestOpUnassigned_keeps k s h
  | .digKatRun k pass => execDigKatRun_keeps k pass s h
  | .digErrRead => execDigErrRead_keeps s h
  | .startupWindowEnd b bits => execStartupWindowEnd_keeps b bits s h
  | .aptWindowEnd b bits => execAptWindowEnd_keeps b bits s h
  | .healthWindowEnd b bits => execHealthWindowEnd_keeps b bits s h
  | .trimLimit b => execTrimLimit_keeps b s h
  | .conditionerBlock c => execConditionerBlock_keeps c s h
  | .rosinWaitTimeout => execRosinWaitTimeout_keeps s h
  | .entropyGrant p => execEntropyGrant_keeps p s h
  | .rosinPullGo mid => execRosinPullGo_keeps mid s h
  | .rosinPullRead mid k => execRosinPullRead_keeps mid k s h
  | .rosinPst tests kat => execRosinPst_keeps tests kat s h
  | .rosinStateRead => execRosinStateRead_keeps s h
  | .rosinRetiredLoRead => execRosinRetiredLoRead_keeps s h
  | .reservePeg mid => execReservePeg_keeps mid s h
  | .importGke mid => execImportGke_keeps mid s h
  | .erasePeg mid => execErasePeg_keeps mid s h
  | .infoPeg mid => execInfoPeg_keeps mid s h
  | .lowerLimit mid => execLowerLimit_keeps mid s h
  | .derive mid => execDerive_keeps mid s h
  | .reservePriv mid => execReservePriv_keeps mid s h
  | .importPriv mid => execImportPriv_keeps mid s h
  | .destroyPriv mid => execDestroyPriv_keeps mid s h
  | .infoPriv mid => execInfoPriv_keeps mid s h
  | .rekeyRoot mid => execRekeyRoot_keeps mid s h
  | .keyCmdUnassigned mid op => execKeyCmdUnassigned_keeps mid op s h
  | .keyCmdTimeout => execKeyCmdTimeout_keeps s h
  | .vaultCopy bad => execVaultCopy_keeps bad s h
  | .keyCmdResultRead => execKeyCmdResultRead_keeps s h
  | .keyFaultSlotRead => execKeyFaultSlotRead_keeps s h
  | .shareIn mid v => execShareIn_keeps mid v s h
  | .shareOut mid v => execShareOut_keeps mid v s h
  | .authorise mid v => execAuthorise_keeps mid v s h
  | .cerStep mid index ans => execCerStep_keeps mid index ans s h
  | .cerAbort mid v => execCerAbort_keeps mid v s h
  | .cerTimeout => execCerTimeout_keeps s h
  | .authwinExpiry => execAuthwinExpiry_keeps s h
  | .cerStateRead => execCerStateRead_keeps s h
  | .caseRead mid => execCaseRead_keeps mid s h
  | .caseProgram mid => execCaseProgram_keeps mid s h
  | .caseErase mid => execCaseErase_keeps mid s h
  | .readTuning mid => execReadTuning_keeps mid s h
  | .blockinfo mid => execBlockinfo_keeps mid s h
  | .relocate mid => execRelocate_keeps mid s h
  | .caseCmdUnassigned mid op => execCaseCmdUnassigned_keeps mid op s h
  | .casePlaneDispatch plane => execCasePlaneDispatch_keeps plane s h
  | .caseDieOpDone plane e resends => execCaseDieOpDone_keeps plane e resends s h
  | .readCacheFill page e resends stall => execReadCacheFill_keeps page e resends stall s h
  | .caseRefresh block => execCaseRefresh_keeps block s h
  | .caseCmdResultRead => execCaseCmdResultRead_keeps s h
  | .caseFailAddrRead => execCaseFailAddrRead_keeps s h
  | .caseGenWrite k word v => execCaseGenWrite_keeps k word v s h
  | .eventRecordEnter source code status payload => execEventRecordEnter_keeps source code status payload s h
  | .evrecFlush => execEvrecFlush_keeps s h
  | .evrecFlushWrite v => execEvrecFlushWrite_keeps v s h
  | .evrecMaxageExpiry => execEvrecMaxageExpiry_keeps s h
  | .evrecPut mid v => execEvrecPut_keeps mid v s h
  | .evrecClear mid => execEvrecClear_keeps mid s h
  | .evrecWindowRead mid word => execEvrecWindowRead_keeps mid word s h
  | .evrecStatusRead => execEvrecStatusRead_keeps s h
  | .mirrorCopy resends torn bad => execMirrorCopy_keeps resends torn bad s h
  | .ledgerRequest mid a => execLedgerRequest_keeps mid a s h
  | .ledgerRelease mid a => execLedgerRelease_keeps mid a s h
  | .ledgerGrant => execLedgerGrant_keeps s h
  | .ledgerMaxwait => execLedgerMaxwait_keeps s h
  | .ledgerStatusRead => execLedgerStatusRead_keeps s h
  | .tableScrub => execTableScrub_keeps s h
  | .dramScrub env => execDramScrub_keeps env s h
  | .tamperDetection q detB reading frame => execTamperDetection_keeps q detB reading frame s h
  | .tamperRearm q => execTamperRearm_keeps q s h
  | .pairDisagreement q detB => execPairDisagreement_keeps q detB s h
  | .detectorBist run => execDetectorBist_keeps run s h
  | .tamperLogAppend => execTamperLogAppend_keeps s h
  | .tamperStickyClr mid => execTamperStickyClr_keeps mid s h
  | .tamperForce q v => execTamperForce_keeps q v s h
  | .tamperStickyLoRead => execTamperStickyLoRead_keeps s h
  | .tamperLogcountRead => execTamperLogcountRead_keeps s h
  | .watchCycle events => execWatchCycle_keeps events s h
  | .faultRecordClose t => execFaultRecordClose_keeps t s h
  | .faultForce k v => execFaultForce_keeps k v s h
  | .faultnPulseEnd => execFaultnPulseEnd_keeps s h
  | .faultNctlRelease mid => execFaultNctlRelease_keeps mid s h
  | .wdogCapoKick mid v => execWdogCapoKick_keeps mid v s h
  | .wdogModKick mid v => execWdogModKick_keeps mid v s h
  | .wdogCapoWarn => execWdogCapoWarn_keeps s h
  | .wdogCapoExpiry => execWdogCapoExpiry_keeps s h
  | .wdogModuleWarn => execWdogModuleWarn_keeps s h
  | .wdogModuleExpiry => execWdogModuleExpiry_keeps s h
  | .retainRequest l12 => execRetainRequest_keeps l12 s h
  | .retainDrainExpiry => execRetainDrainExpiry_keeps s h
  | .wake src us => execWake_keeps src us s h
  | .wakeFail src => execWakeFail_keeps src s h
  | .unitGateWake => execUnitGateWake_keeps s h
  | .supplyWarning input bank => execSupplyWarning_keeps input bank s h
  | .supplyShed bank => execSupplyShed_keeps bank s h
  | .supplyStopping => execSupplyStopping_keeps s h
  | .supplyResetLevel absent => execSupplyResetLevel_keeps absent s h
  | .inputRestored input bank => execInputRestored_keeps input bank s h
  | .shedLift => execShedLift_keeps s h
  | .powerTotalLoss => execPowerTotalLoss_keeps s h
  | .overvoltage input => execOvervoltage_keeps input s h
  | .coldBoot input bank env => execColdBoot_keeps input bank env s h
  | .moduleReset env => execModuleReset_keeps env s h
  | .softwareReset mid => execSoftwareReset_keeps mid s h
  | .rstNLow => execRstNLow_keeps s h
  | .perstNLow => execPerstNLow_keeps s h
  | .provision mid chain keys => execProvision_keeps mid chain keys s h
  | .seal mid => execSeal_keeps mid s h
  | .retire mid => execRetire_keeps mid s h
  | .debugChallenge mid => execDebugChallenge_keeps mid s h
  | .debugOpen mid => execDebugOpen_keeps mid s h
  | .debugClose mid => execDebugClose_keeps mid s h
  | .debugExpiry => execDebugExpiry_keeps s h
  | .debugChallengeExpiry => execDebugChallengeExpiry_keeps s h
  | .commitImage mid => execCommitImage_keeps mid s h
  | .confirmImage mid => execConfirmImage_keeps mid s h
  | .writePreset mid => execWritePreset_keeps mid s h
  | .lifeCmdUnassigned mid op => execLifeCmdUnassigned_keeps mid op s h
  | .pwrStatusRead => execPwrStatusRead_keeps s h
  | .debugAccess mid op => execDebugAccess_keeps mid op s h
  | .debugHalt mid p => execDebugHalt_keeps mid p s h
  | .externalFieldOn => execExternalFieldOn_keeps s h
  | .fieldLoss => execFieldLoss_keeps s h
  | .reqa => execReqa_keeps s h
  | .wupa => execWupa_keeps s h
  | .anticollision known value => execAnticollision_keeps known value s h
  | .select uid => execSelect_keeps uid s h
  | .hlta => execHlta_keeps s h
  | .rats => execRats_keeps s h
  | .tagSelectAid p1 aid => execTagSelectAid_keeps p1 aid s h
  | .readMirror first => execReadMirror_keeps first s h
  | .readHeader => execReadHeader_keeps s h
  | .tagSession m => execTagSession_keeps m s h
  | .tagData m => execTagData_keeps m s h
  | .writeVisit body strong torn => execWriteVisit_keeps body strong torn s h
  | .capSense delta => execCapSense_keeps delta s h
  | .detuningPing shift => execDetuningPing_keeps shift s h
  | .badgePoll ext field => execBadgePoll_keeps ext field s h
  | .badgeRefuse => execBadgeRefuse_keeps s h
  | .pickSessGo => execPickSessGo_keeps s h
  | .pickSessAbort => execPickSessAbort_keeps s h
  | .answer m => execAnswer_keeps m s h
  | .finish m => execFinish_keeps m s h
  | .data m => execData_keeps m s h
  | .abort st => execAbort_keeps st s h
  | .sessionStepTimeout => execSessionStepTimeout_keeps s h
  | .sessionLifetimeExpiry => execSessionLifetimeExpiry_keeps s h
  | .pickStatusRead => execPickStatusRead_keeps s h
  | .pickMirrorRead => execPickMirrorRead_keeps s h
  | .cardInsert => execCardInsert_keeps s h
  | .atrReceived atr pps => execAtrReceived_keeps atr pps s h
  | .atrTimeout => execAtrTimeout_keeps s h
  | .cardRemoval share => execCardRemoval_keeps share s h
  | .cardOvercurrent => execCardOvercurrent_keeps s h
  | .t1BlockError resync => execT1BlockError_keeps resync s h
  | .cardMaxwaitExpiry => execCardMaxwaitExpiry_keeps s h
  | .cardClockStop => execCardClockStop_keeps s h
  | .cardXfer mid sealed ans => execCardXfer_keeps mid sealed ans s h
  | .cardResultRead => execCardResultRead_keeps s h
  | .cardStatusRead => execCardStatusRead_keeps s h
  | .wakeNLow us => execWakeNLow_keeps us s h
  | .unassignedOpcode p => execUnassignedOpcode_keeps p s h
  | .rstNRise env => execRstNRise_keeps env s h
  | .perstNRise => execPerstNRise_keeps s h
  | .holdupCheck bank => execHoldupCheck_keeps bank s h
  | .refreshAgeFlag block => execRefreshAgeFlag_keeps block s h
  | .msixUnmask v => execMsixUnmask_keeps v s h
  | .vfEnableWrite on => execVfEnableWrite_keeps on s h
  | .linkL12Entry => execLinkL12Entry_keeps s h
  | .mirrorDeferEnd => execMirrorDeferEnd_keeps s h
  | .pdelayReqTx port => execPdelayReqTx_keeps port s h

/-- What a command's next state owes to the state the command found. -/
theorem keeps_of_exec_eq_next {c : Instr} {s t : State} (h : exec c s = .next t) : Keeps s t :=
  (exec_keeps c s (.refl s)).run t h

/-- Settles O4: no command touches the queue or turns the clock back, since the meaning `exec` dispatches it to keeps both
(R7). -/
theorem commandsKeepQueueAndClockRises : Obligations.CommandsKeepQueueAndClockRises := by
  intro c s t h
  have hk : Keeps s t := keeps_of_exec_eq_next h
  exact ⟨hk.pending, hk.clock⟩

end Sys2Proof.Machine
end

section
/-! SUPPORT. What a step does with the queue, and the statements about steps, the reset state and the update of one field:
a step takes the front command, reset meets the memory invariant and every step keeps it. -/

namespace Sys2Proof.Machine

/-- With a command in front of the queue a step is that command's meaning. -/
theorem step_cons {c : Instr} {rest : List Instr} {s : State} (h : s.pending = c :: rest) :
    step s = exec c { s with pending := rest } := by
  unfold step; rw [h]

/-- On an empty queue a step lets one cycle pass. -/
theorem step_nil {s : State} (h : s.pending = []) : step s = .next s.idle := by
  unfold step; rw [h]

/-- Settles O1: `step` reads the queue's front and dispatches it. -/
theorem stepRunsFrontCommand : Obligations.StepRunsFrontCommand := by
  intro c rest s h
  exact step_cons h

/-- Settles O6: the reset state lists no byte and no command, and the empty list is canonical. -/
theorem resetMeetsMemoryInvariant : Obligations.ResetMeetsMemoryInvariant :=
  ⟨⟨rfl, rfl⟩, rfl, rfl, rfl⟩

/-- A cycle without a command keeps what every operation keeps: time passes, and a disturbance stands in lists of its own
beside the memories' cells (log entry 90). -/
theorem State.idle_keeps (s : State) : Keeps s s.idle :=
  State.disturb_keeps _ _ (keeps_upd (State.pass_keeps s 1 (.refl s)))

/-- Settles O5: a step is the meaning of one command or one idle cycle, and both keep the memories canonical. -/
theorem stepKeepsMemoriesCanonical : Obligations.StepKeepsMemoriesCanonical := by
  intro s t hs h
  cases hq : s.pending with
  | nil =>
    rw [step_nil hq] at h
    cases h
    exact (State.idle_keeps s).mem hs
  | cons c rest =>
    rw [step_cons hq] at h
    exact (keeps_of_exec_eq_next h).mem hs

/-- Settles O8: the field reads back cut to its width, and the frames of `State.put` give the rest (R65, R75). -/
theorem hardwareFieldUpdateTouchesOneField : Obligations.HardwareFieldUpdateTouchesOneField := by
  intro s f g v hf hf' hg hg'
  have hother : g.off ≠ f.off ∨ f.hi < g.lo ∨ g.hi < f.lo → (s.put f v).get g = s.get g := by
    rintro (hne | hdisj)
    · exact State.get_put_of_ne s f g v hne
    · exact State.get_put_of_disjoint s f g v hf hg hg' hdisj
  exact ⟨State.get_put_self s f v hf hf', hother, .of_eq rfl, .of_eq rfl, rfl, rfl⟩

end Sys2Proof.Machine
end

section
/-! SUPPORT. What raising a fault source that resets and zeroizes nothing leaves as it was: both memories, the latched
counter halves, and every register below the interrupt controller's block, in which the TIME, NUT, MEM and DRAM blocks
lie (Table 2-6). -/

namespace Sys2Proof.Machine

/-- What a raise, an isolation and the end of an interrupt request leave as they were: the memories, the latched _HI
values, whether a zeroize is due, and the registers below the interrupt controller's block. -/
structure LowSame (s t : State) : Prop where
  mem : t.mem = s.mem
  hiLatch : t.hiLatch = s.hiLatch
  due : t.flt.zeroizeDue = s.flt.zeroizeDue
  rd : ∀ off, off < INTC_SRC 0 → t.rd off = s.rd off

namespace LowSame

variable {s t : State}

theorem refl (s : State) : LowSame s s := ⟨rfl, rfl, rfl, fun _ _ => rfl⟩

theorem get (h : LowSame s t) {f : Fld} (hf : f.off < INTC_SRC 0) : t.get f = s.get f := by
  unfold State.get; rw [h.rd _ hf]

/-- A field of the interrupt controller's block or above is updated. -/
theorem put (h : LowSame s t) {f : Fld} {v : Nat} (hf : INTC_SRC 0 ≤ f.off) : LowSame s (t.put f v) :=
  ⟨h.mem, h.hiLatch, h.due, fun off ho => by rw [State.rd_put_of_ne _ _ _ _ (by omega), h.rd off ho]⟩

theorem inc (h : LowSame s t) {f : Fld} (hf : INTC_SRC 0 ≤ f.off) : LowSame s (t.inc f) := h.put hf

theorem setIrq (h : LowSame s t) (i : Nat) : LowSame s (t.setIrq i) := h.put (by simp only [INTC_SRC]; omega)

theorem clrIrq (h : LowSame s t) (i : Nat) : LowSame s (t.clrIrq i) := h.put (by simp only [INTC_SRC]; omega)

/-- The fault collector changes, but for the zeroize that is due. -/
theorem flt (h : LowSame s t) {x : FaultState} (hx : x.zeroizeDue = t.flt.zeroizeDue) :
    LowSame s { t with flt := x } :=
  ⟨h.mem, h.hiLatch, hx.trans h.due, h.rd⟩

theorem ite {c : Prop} [Decidable c] {u : State} (h : LowSame s t) (h' : LowSame s u) :
    LowSame s (if c then t else u) := by split <;> assumption

theorem openOrMerge (h : LowSame s t) (src info : Nat) (forced : Bool) (cls acts : Nat) :
    LowSame s (t.openOrMerge src info forced cls acts) := by
  unfold State.openOrMerge
  split
  · exact ((h.flt (by rfl)).put (by decide)).put (by decide)
  · exact h.flt (by rfl)

theorem faultN (h : LowSame s t) : LowSame s t.faultN :=
  (h.put (f := FAULT_NCTL_ASSERTED) (v := 1) (by decide)).flt (by rfl)

theorem isolate (h : LowSame s t) (src : Nat) : LowSame s (t.isolate src) := by
  unfold State.isolate
  refine ite (h.put (by decide)) (ite ?cell (ite (h.put ?ve) (ite ?core (ite (h.put ?rosin) (h.flt (by rfl))))))
  case cell => exact ((h.put (by simp only [INTC_SRC, CELL_STATUS]; omega)).put (by decide)).put (by decide)
  case core => exact (h.put (by simp only [INTC_SRC, CORE_STATUS]; omega)).put (by decide)
  case ve => simp only [INTC_SRC, VE_STATUS]; omega
  case rosin => simp only [INTC_SRC, ROSIN_COND]; omega

/-- The actions of a source but RESET and ZEROIZE (bits 4 and 5 of Table 14-4). -/
theorem actions (h : LowSame s t) (src cls : Nat) {acts : Nat} (ha : acts < 16) :
    LowSame s (t.actions src cls acts) := by
  unfold State.actions
  have hreset : ¬ acts / 16 % 2 = 1 := by omega
  have hzero : ¬ acts / 32 % 2 = 1 := by omega
  simp only [hreset, hzero, if_false]
  have h1 : LowSame s (if acts / 2 % 2 = 1 then
      (t.put FAULT_PEND_CLASS (t.get FAULT_PEND_CLASS ||| 2 ^ cls)).setIrq cls else t) :=
    ite ((h.put (by decide)).setIrq cls) h
  have h2 := ite (c := acts / 4 % 2 = 1) h1.faultN h1
  exact ite (h2.isolate src) h2

end LowSame

variable {s : State}

/-- The condition `State.calm` does not look at registers below the interrupt controller's block. -/
theorem State.calm.put {src : Nat} (h : s.calm src) {f : Fld} (hf : f.off < INTC_SRC 0) (v : Nat) :
    (s.put f v).calm src := by
  obtain ⟨hdue, hsrc, hlost⟩ := h
  refine ⟨hdue, ?_, ?_⟩
  · rw [State.get_put_of_ne _ _ _ _ (by simp only [INTC_SRC, FAULT_SRC] at hf ⊢; omega)]; exact hsrc
  · rw [State.get_put_of_ne _ _ _ _ (by simp only [INTC_SRC, FAULT_SRC] at hf ⊢; omega)]; exact hlost

/-- Counting a raise leaves the source's ACTION, which shares its register. -/
theorem State.get_action_inc_raised (s : State) (src : Nat) :
    (s.inc (FAULT_SRC_RAISED src)).get (FAULT_SRC_ACTION src) = s.get (FAULT_SRC_ACTION src) :=
  State.get_put_of_disjoint _ _ _ _ (by simp) (by simp) (by simp) (.inr (by simp))

/-- A source whose class is not fatal, and that resets and zeroizes nothing, is recorded and its actions taken; no
zeroize follows (R508, R509). -/
theorem State.raise_lowSame {src : Nat} (info : Nat) (hc : s.calm src) (hcls : faultClass src ≠ 3) :
    LowSame s (s.raise src info) := by
  obtain ⟨hdue, hact, -⟩ := hc
  have hcore : LowSame s (s.raiseCore src info false) := by
    unfold State.raiseCore
    simp only [Bool.false_and, Bool.false_eq_true, if_false]
    exact (((LowSame.refl s).inc (by simp only [INTC_SRC, FAULT_SRC]; omega)).openOrMerge ..).actions _ _
      (by rw [State.get_action_inc_raised]; exact hact)
  have hbase : s.raiseBase src info false = s.raiseCore src info false := by
    simp [State.raiseBase, hcls]
  unfold State.raise State.settle
  rw [hbase, if_neg (by rw [hcore.due, hdue]; simp)]
  exact hcore

end Sys2Proof.Machine
end

section
/-! SUPPORT. On-die SRAM under the patrol scrubber and DRAM under the version guard, and the statement about their rows
(R70 to R72, R77, R81 to R84). -/

namespace Sys2Proof.Machine

/-! ## Tables -/

theorem mem_of_tget {α : Type} {t : List (Nat × α)} {k : Nat} {v : α} (h : tget t k = some v) : (k, v) ∈ t := by
  induction t with
  | nil => simp [tget] at h
  | cons e t ih =>
    obtain ⟨j, w⟩ := e
    unfold tget at h
    split at h
    next hjk => cases h; exact hjk ▸ List.mem_cons_self
    next => exact List.mem_cons_of_mem _ (ih h)

/-- Of a table that lists nothing a test passes, the test passes the one pair that is put in. -/
theorem filter_tset {α : Type} {t : List (Nat × α)} {k : Nat} {v : α} {q : Nat × α → Bool} (hq : q (k, v) = true)
    (h : t.filter q = []) : (tset t k v).filter q = [(k, v)] := by
  have insert (u : List (Nat × α)) (hu : u.filter q = []) : (tinsert u k v).filter q = [(k, v)] := by
    induction u with
    | nil => simp [tinsert, hq]
    | cons e u ih =>
      have hqe : q e = false := by simpa using List.filter_eq_nil_iff.mp hu e List.mem_cons_self
      have hqu : u.filter q = [] := by simpa [List.filter_cons, hqe] using hu
      unfold tinsert
      split
      · simp only [List.filter_cons, hq, hqe, hqu]; simp
      · simp only [List.filter_cons, hqe, ih hqu]; simp
  refine insert _ ?_
  rw [terase_eq_filter, List.filter_eq_nil_iff]
  exact fun e he => List.filter_eq_nil_iff.mp h e (List.mem_filter.mp he).1

/-- The frame of a state whose memories list the same cells. -/
theorem SameMem.of_cells {s t : State} (h : t.mem.cells = s.mem.cells) (h' : t.mem.host = s.mem.host) : SameMem s t := by
  intro a; rw [h, h']; exact ⟨rfl, rfl⟩

/-! ## SRAM words -/

@[simp] theorem wordAddr_wordAddr (a : Nat) : wordAddr (wordAddr a) = wordAddr a := by unfold wordAddr; omega

theorem overlaps_self (w : Nat) : overlaps 8 w w 8 = true := by unfold overlaps; simp

/-- An address of a partition lies below the end of the last one, the partitions with addresses are 0 to 6. -/
theorem sramPart_lt {a p : Nat} (h : sramPart a = some p) : p < 7 ∧ a < 0x8200000 := by
  unfold sramPart inRange at h
  simp only [Bool.and_eq_true, decide_eq_true_eq] at h
  repeat' split at h
  all_goals cases h
  all_goals omega

/-- A range that begins and ends at words holds the address of a word where it holds a byte of it. -/
theorem inRange_wordAddr {lo hi : Nat} (a : Nat) (hlo : lo % 8 = 0) (hhi : hi % 8 = 7) :
    inRange (wordAddr a) lo hi = inRange a lo hi := by
  have hbelow : lo ≤ wordAddr a ↔ lo ≤ a := by unfold wordAddr; omega
  have habove : wordAddr a ≤ hi ↔ a ≤ hi := by unfold wordAddr; omega
  unfold inRange
  rw [decide_eq_decide.mpr hbelow, decide_eq_decide.mpr habove]

/-- Partitions begin and end at words. -/
theorem sramPart_wordAddr (a : Nat) : sramPart (wordAddr a) = sramPart a := by
  have hlt (k : Nat) (hk : k % 8 = 0) : wordAddr a < k ↔ a < k := by unfold wordAddr; omega
  simp only [sramPart, hlt, inRange_wordAddr]

variable {s : State}

/-- A disturbance of a word that is neither poisoned nor disturbed already: it is listed with what the code can do. -/
theorem State.sramUpset_of_clean {a p : Nat} (hp : sramPart a = some p) (hup : s.upsetsIn (wordAddr a) 8 = [])
    (hpo : s.poisoned (wordAddr a) 8 = false) (hard : Bool) :
    s.sramUpset a hard = { s with mem := { s.mem with upsets := tset s.mem.upsets (wordAddr a) hard } } := by
  have hnot : s.mem.poison.contains (wordAddr a) = false :=
    Bool.eq_false_iff.mpr fun hc => List.any_eq_false.mp hpo _ (List.contains_iff_mem.mp hc) (overlaps_self _)
  have hold : tgetD s.mem.upsets (wordAddr a) false = false := by
    unfold tgetD
    cases hg : tget s.mem.upsets (wordAddr a) with
    | none => rfl
    | some b => exact absurd (overlaps_self _) (List.filter_eq_nil_iff.mp hup _ (mem_of_tget hg))
  unfold State.sramUpset
  simp only [sramPart_wordAddr, hp, hnot, hold, Option.isSome_some, Bool.not_false, Bool.and_self, if_true, Bool.or_false]

/-- The scrubber's read of a word that a disturbance has just changed reports that one error. -/
theorem State.sramRead_after_upset {a p : Nat} (hp : sramPart a = some p) (hup : s.upsetsIn (wordAddr a) 8 = [])
    (hpo : s.poisoned (wordAddr a) 8 = false) (hard : Bool) :
    ((s.sramUpset a hard).sramRead (wordAddr a) 8).2 =
      if hard then (s.sramUpset a hard).sramUe p (wordAddr a) else (s.sramUpset a hard).sramCe p (wordAddr a) := by
  have hbad : (s.sramUpset a hard).upsetsIn (wordAddr a) 8 = [(wordAddr a, hard)] := by
    rw [State.sramUpset_of_clean hp hup hpo]
    exact filter_tset (overlaps_self _) hup
  simp only [State.sramRead, hbad, List.foldl_cons, List.foldl_nil, sramPart_wordAddr, hp, Option.getD_some]

/-- A read of a word without an error changes nothing. -/
theorem State.sramRead_of_clean {a n : Nat} (hup : s.upsetsIn a n = []) (hpo : s.poisoned a n = false) :
    s.sramRead a n = (some (s.peek a n), s) := by
  simp [State.sramRead, hup, hpo]

theorem faultClass_sramCe {p : Nat} (hp : p < 7) : faultClass (SRC_SRAM_CE p) ≠ 3 :=
  (by decide : ∀ q < 7, faultClass (SRC_SRAM_CE q) ≠ 3) p hp

theorem faultClass_sramUe {p : Nat} (hp : p < 7) : faultClass (SRC_SRAM_UE p) ≠ 3 :=
  (by decide : ∀ q < 7, faultClass (SRC_SRAM_UE q) ≠ 3) p hp

/-- A correctable error of a word (R70): its write-back waits and it is counted. -/
theorem State.sramCe_effect {a p : Nat} (hp : p < 7) (hc : s.calm (SRC_SRAM_CE p)) :
    wordAddr a ∈ (s.sramCe p a).mem.writebacks ∧
      (s.sramCe p a).get (MEM_PART_CE_COUNT p) = (s.inc (MEM_PART_CE_COUNT p)).get (MEM_PART_CE_COUNT p) ∧
      SameMem s (s.sramCe p a) := by
  have hne : p ≠ 7 := by omega
  let s1 : State := { s with mem := { s.mem with
    writebacks := wordAddr a :: s.mem.writebacks.filter (· ≠ wordAddr a) } }
  have hlow : (MEM_PART_CE_COUNT p).off < INTC_SRC 0 := by simp only [MEM_PART_CE, INTC_SRC]; omega
  have hraise : LowSame (s1.inc (MEM_PART_CE_COUNT p)) (s.sramCe p a) := by
    unfold State.sramCe
    simp only [hne, if_false]
    exact State.raise_lowSame _ (State.calm.put (s := s1) hc hlow _) (faultClass_sramCe hp)
  refine ⟨?_, hraise.get hlow, .of_cells ?_ ?_⟩
  · rw [hraise.mem]; exact List.mem_cons_self
  · rw [hraise.mem]; rfl
  · rw [hraise.mem]; rfl

/-- An uncorrectable error of a word (R71): it is poisoned and counted, and its address recorded. -/
theorem State.sramUe_effect {a p : Nat} (hp : p < 7) (ha : a < 2 ^ 32) (hc : s.calm (SRC_SRAM_UE p)) :
    wordAddr a ∈ (s.sramUe p a).mem.poison ∧
      (s.sramUe p a).get (MEM_PART_UE_COUNT p) = (s.inc (MEM_PART_UE_COUNT p)).get (MEM_PART_UE_COUNT p) ∧
      (s.sramUe p a).get (MEM_PART_ADDR_LO_ADDR p) = wordAddr a % 2 ^ 32 ∧
      (s.sramUe p a).get (MEM_PART_ADDR_HI_ADDR p) = wordAddr a / 2 ^ 32 ∧ SameMem s (s.sramUe p a) := by
  have hne : p ≠ 7 := by omega
  let s1 : State := { s with mem := { s.mem with
    upsets := terase s.mem.upsets (wordAddr a), poison := wordAddr a :: s.mem.poison.filter (· ≠ wordAddr a) } }
  let s2 : State := ((s1.inc (MEM_PART_UE_COUNT p)).put (MEM_PART_ADDR_LO_ADDR p) (wordAddr a)).put
    (MEM_PART_ADDR_HI_ADDR p) (wordAddr a / 2 ^ 32)
  have hlowUe : (MEM_PART_UE_COUNT p).off < INTC_SRC 0 := by simp only [MEM_PART_UE, INTC_SRC]; omega
  have hlowLo : (MEM_PART_ADDR_LO_ADDR p).off < INTC_SRC 0 := by simp only [MEM_PART_ADDR_LO, INTC_SRC]; omega
  have hlowHi : (MEM_PART_ADDR_HI_ADDR p).off < INTC_SRC 0 := by simp only [MEM_PART_ADDR_HI, INTC_SRC]; omega
  have hraise : LowSame s2 (s.sramUe p a) := by
    unfold State.sramUe
    simp only [hne, if_false]
    exact State.raise_lowSame _
      (((State.calm.put (s := s1) hc hlowUe _).put hlowLo _).put hlowHi _) (faultClass_sramUe hp)
  refine ⟨?_, ?_, ?_, ?_, .of_cells ?_ ?_⟩
  · rw [hraise.mem]; exact List.mem_cons_self
  · rw [hraise.get hlowUe, State.get_put_of_ne _ _ _ _ (by simp), State.get_put_of_ne _ _ _ _ (by simp)]
    rfl
  · rw [hraise.get hlowLo, State.get_put_of_ne _ _ _ _ (by simp)]
    exact State.get_put_self _ _ _ (by simp) (by simp)
  · rw [hraise.get hlowHi, State.get_put_self _ _ _ (by simp) (by simp)]
    have hzero : wordAddr a / 2 ^ 32 = 0 := by unfold wordAddr; omega
    rw [hzero]; rfl
  · rw [hraise.mem]; rfl
  · rw [hraise.mem]; rfl

theorem exec_sramWriteback (a : Nat) (s : State) : exec (.sramWriteback a) s = execSramWriteback a s := rfl

theorem exec_scrubRead (p a : Nat) (ecc : Ecc) (s : State) : exec (.scrubRead p a ecc) s = execScrubRead p a ecc s := rfl

/-- SRAM_WRITEBACK takes its word, and no other, off the list of those that wait (R70). -/
theorem sramWriteback_row (a : Nat) (s : State) :
    ∃ t, exec (.sramWriteback a) s = .next t ∧ a ∉ t.mem.writebacks ∧
      (∀ b, b ≠ a → (b ∈ t.mem.writebacks ↔ b ∈ s.mem.writebacks)) ∧ SameRegs [] s t ∧ SameMem s t := by
  rw [exec_sramWriteback]
  unfold execSramWriteback
  split
  · exact ⟨_, rfl, by simp, by simp +contextual, .of_eq rfl rfl (.refl s []), .of_cells rfl rfl⟩
  next hnot => exact ⟨s, rfl, by simpa using hnot, fun _ _ => .rfl, .refl s [], .of_eq rfl⟩

/-- SCRUB_READ of a word of the partition that has no error yet: what the read finds is what the disturbance left. -/
theorem scrubRead_row {a p : Nat} (hen : s.on MEM_SCRUB_CTL_EN = true) (hp : sramPart a = some p)
    (hup : s.upsetsIn (wordAddr a) 8 = []) (hpo : s.poisoned (wordAddr a) 8 = false) :
    exec (.scrubRead p a .clean) s = .next s ∧
      exec (.scrubRead p a .correctable) s = .next ((s.sramUpset a false).sramCe p (wordAddr a)) ∧
      exec (.scrubRead p a .uncorrectable) s = .next ((s.sramUpset a true).sramUe p (wordAddr a)) := by
  have hne : p ≠ 7 := by have := (sramPart_lt hp).1; omega
  refine ⟨?_, ?_, ?_⟩ <;>
    simp only [exec_scrubRead, execScrubRead, hen, hne, hp, decide_false, decide_true, Bool.and_false, Bool.and_self,
      Bool.false_eq_true, if_false, if_true]
  · rw [State.sramRead_of_clean hup hpo]
  · rw [State.sramRead_after_upset hp hup hpo]; rfl
  · rw [State.sramRead_after_upset hp hup hpo]; rfl

/-- What the scrubber makes of a correctable error (R70, R72). -/
theorem scrubRead_correctable {a p : Nat} (hen : s.on MEM_SCRUB_CTL_EN = true) (hp : sramPart a = some p)
    (hup : s.upsetsIn (wordAddr a) 8 = []) (hpo : s.poisoned (wordAddr a) 8 = false) (hc : s.calm (SRC_SRAM_CE p)) :
    ∃ t, exec (.scrubRead p a .correctable) s = .next t ∧ wordAddr a ∈ t.mem.writebacks ∧
      t.get (MEM_PART_CE_COUNT p) = (s.inc (MEM_PART_CE_COUNT p)).get (MEM_PART_CE_COUNT p) ∧ SameMem s t := by
  refine ⟨_, (scrubRead_row hen hp hup hpo).2.1, ?_⟩
  rw [State.sramUpset_of_clean hp hup hpo]
  let s1 : State := { s with mem := { s.mem with upsets := tset s.mem.upsets (wordAddr a) false } }
  obtain ⟨hwb, hcount, hmem⟩ := State.sramCe_effect (s := s1) (a := wordAddr a) (sramPart_lt hp).1 hc
  rw [wordAddr_wordAddr] at hwb
  exact ⟨hwb, hcount, hmem⟩

/-- What the scrubber makes of an uncorrectable error (R71, R72). -/
theorem scrubRead_uncorrectable {a p : Nat} (hen : s.on MEM_SCRUB_CTL_EN = true) (hp : sramPart a = some p)
    (hup : s.upsetsIn (wordAddr a) 8 = []) (hpo : s.poisoned (wordAddr a) 8 = false) (hc : s.calm (SRC_SRAM_UE p)) :
    ∃ t, exec (.scrubRead p a .uncorrectable) s = .next t ∧ wordAddr a ∈ t.mem.poison ∧
      t.get (MEM_PART_UE_COUNT p) = (s.inc (MEM_PART_UE_COUNT p)).get (MEM_PART_UE_COUNT p) ∧
      t.get (MEM_PART_ADDR_LO_ADDR p) = wordAddr a % 2 ^ 32 ∧ t.get (MEM_PART_ADDR_HI_ADDR p) = wordAddr a / 2 ^ 32 ∧
      SameMem s t := by
  refine ⟨_, (scrubRead_row hen hp hup hpo).2.2, ?_⟩
  rw [State.sramUpset_of_clean hp hup hpo]
  let s1 : State := { s with mem := { s.mem with upsets := tset s.mem.upsets (wordAddr a) true } }
  have hlt : wordAddr a < 2 ^ 32 := by have := (sramPart_lt ((sramPart_wordAddr a).trans hp)).2; omega
  obtain ⟨hpoison, hcount, hlo, hhi, hmem⟩ :=
    State.sramUe_effect (s := s1) (a := wordAddr a) (sramPart_lt hp).1 hlt hc
  rw [wordAddr_wordAddr] at hpoison hlo hhi
  exact ⟨hpoison, hcount, hlo, hhi, hmem⟩

/-! ## The version guard -/

/-- The version of a page is the same in states with the same time, guard lists and GUARD_STATE. -/
theorem State.pageVersion_congr {t : State} (p : Nat) (hrd : t.rd GUARD_STATE = s.rd GUARD_STATE)
    (hclock : t.clock = s.clock) (hsweep : t.mem.sweepAt = s.mem.sweepAt) (hver : t.mem.versions = s.mem.versions) :
    t.pageVersion p = s.pageVersion p := by
  unfold State.pageVersion State.sweepPage State.on State.get
  rw [hrd, hclock, hsweep, hver]

/-- The module once the oldest page has left the guard's queue, counted. -/
def State.guardTake (s : State) (rest : List Nat) : State :=
  ({ s with mem := { s.mem with guardQueue := rest } }).inc GUARD_WB_COUNT

theorem State.guardTake_pageVersion (rest : List Nat) (p : Nat) : (s.guardTake rest).pageVersion p = s.pageVersion p :=
  State.pageVersion_congr p (State.rd_put_of_ne _ _ _ _ (by decide)) rfl rfl rfl

theorem State.guardTake_gen (rest : List Nat) : (s.guardTake rest).on GUARD_STATE_GEN = s.on GUARD_STATE_GEN :=
  State.on_put_of_ne _ _ _ _ (by decide)

/-- A page that needs no new key leaves the queue with its next version: 0 for one of the old generation, one more
otherwise (R81, R84). -/
theorem State.guardWriteback_eq {p : Nat} {rest : List Nat} (hq : s.mem.guardQueue = p :: rest)
    (hv : s.pageVersion p ≠ (2 ^ 32 - 1, s.on GUARD_STATE_GEN)) :
    s.guardWriteback = (s.guardTake rest).putVersion p
      (if (s.pageVersion p).2 = s.on GUARD_STATE_GEN then (s.pageVersion p).1 + 1 else 0) := by
  have hstall : s.guardStalls = false := by
    unfold State.guardStalls
    simp only [hq, hv, decide_false, Bool.false_and]
  have htake : ({ s with mem := { s.mem with guardQueue := rest } } : State).inc GUARD_WB_COUNT = s.guardTake rest := rfl
  unfold State.guardWriteback
  simp only [hstall, hq, Bool.false_eq_true, if_false, htake, State.guardTake_pageVersion, State.guardTake_gen]
  by_cases hg : (s.pageVersion p).2 = s.on GUARD_STATE_GEN
  · have hlast : (s.pageVersion p).1 ≠ 2 ^ 32 - 1 := fun h => hv (Prod.ext h hg)
    rw [if_neg (not_not_intro hg), if_neg hlast, if_pos hg]
  · rw [if_pos hg, if_neg hg]

theorem exec_guardWriteback (s : State) : exec .guardWriteback s = .next s.guardWriteback := rfl

theorem exec_guardSweepComplete (s : State) : exec .guardSweepComplete s = execGuardSweepComplete s := rfl

/-- A page's version put after it has left the queue: what the row's statement says of the state. -/
theorem guardWriteback_row {p n : Nat} {rest : List Nat} (hq : s.mem.guardQueue = p :: rest)
    (hv : s.pageVersion p ≠ (2 ^ 32 - 1, s.on GUARD_STATE_GEN))
    (hn : (if (s.pageVersion p).2 = s.on GUARD_STATE_GEN then (s.pageVersion p).1 + 1 else 0) = n) :
    ∃ t, exec .guardWriteback s = .next t ∧ t.mem.guardQueue = rest ∧
      tget t.mem.versions p = some (n, s.on GUARD_STATE_GEN) ∧ SameMem s t ∧ SameRegs [GUARD_WB_COUNT.off] s t := by
  refine ⟨(s.guardTake rest).putVersion p n, ?_, rfl, ?_, .of_cells rfl rfl, ?_⟩
  · rw [exec_guardWriteback, State.guardWriteback_eq hq hv, hn]
  · show tget (tset s.mem.versions p (n, (s.guardTake rest).on GUARD_STATE_GEN)) p = _
    rw [tget_tset, if_pos rfl, State.guardTake_gen]
  · let s1 : State := { s with mem := { s.mem with guardQueue := rest } }
    exact .of_eq rfl rfl (SameRegs.put (t := s1) GUARD_WB_COUNT _ (by simp) (.refl s _))

/-- GUARD_SWEEP_COMPLETE of a running sweep (R84). -/
theorem guardSweepComplete_row (hsweep : s.on GUARD_STATE_SWEEP = true) :
    ∃ t, exec .guardSweepComplete s = .next t ∧
      t.on GUARD_STATE_SWEEP = false ∧ t.sweepPage = 0 ∧ t.clock = max s.clock (s.mem.sweepAt + sweepLen) ∧
      (∀ p, (t.pageVersion p).2 = t.on GUARD_STATE_GEN) ∧ SameMem s t ∧ SameRegs [GUARD_STATE] s t := by
  let s1 := s.passTo (s.mem.sweepAt + sweepLen)
  let s2 : State := { s1 with mem := { s1.mem with
    versions := s1.mem.versions.filter (fun e => decide (e.2.2 = s1.on GUARD_STATE_GEN) && decide (e.2.1 ≠ 0)) } }
  let t := s2.put GUARD_STATE_SWEEP 0
  have hrun : exec .guardSweepComplete s = .next t := by
    rw [exec_guardSweepComplete]
    unfold execGuardSweepComplete
    rw [if_pos hsweep]
  have hoff : t.on GUARD_STATE_SWEEP = false := by
    rw [State.on_put_self _ _ _ (by decide) (by decide)]; rfl
  have hgen : t.on GUARD_STATE_GEN = s1.on GUARD_STATE_GEN :=
    State.on_put_of_disjoint s2 _ _ _ (by decide) (by decide) (by decide) (.inr (by decide))
  have hpage : t.sweepPage = 0 := by unfold State.sweepPage; rw [hoff]; rfl
  refine ⟨t, hrun, hoff, hpage, ?_, ?_, .of_cells rfl rfl, ?_⟩
  · show s.clock + (s.mem.sweepAt + sweepLen - s.clock) = _
    omega
  · intro p
    have hlisted : (tgetD t.mem.versions p (0, t.on GUARD_STATE_GEN)).2 = t.on GUARD_STATE_GEN := by
      unfold tgetD
      cases hg : tget t.mem.versions p with
      | none => rfl
      | some v =>
        have := (List.mem_filter.mp (mem_of_tget hg)).2
        simp only [Bool.and_eq_true, decide_eq_true_eq] at this
        exact this.1.trans hgen.symm
    unfold State.pageVersion
    simp only [hpage, hoff, Nat.not_lt_zero, and_false, if_false, Bool.false_eq_true]
    exact hlisted
  · exact SameRegs.put (t := s2) GUARD_STATE_SWEEP 0 (by simp) (.of_eq rfl rfl (.refl s _))

/-- Settles O11: each row completes as its lemma above says; the end of DRAM initialisation puts one field (R77). -/
theorem memoryGuardRows : Obligations.MemoryGuardRows := by
  refine ⟨sramWriteback_row, ?scrub, ?noAddress, ?init, ?next, ?retag, fun s h => guardSweepComplete_row h⟩
  case scrub =>
    intro p a s hen hp _ hup hpo
    exact ⟨(scrubRead_row hen hp hup hpo).1, scrubRead_correctable hen hp hup hpo,
      scrubRead_uncorrectable hen hp hup hpo⟩
  case noAddress =>
    intro a s hen
    simp [exec_scrubRead, execScrubRead, hen]
  case init =>
    intro s
    exact ⟨s.put DRAM_INFO_INIT_DONE 1, rfl, State.get_put_self _ _ _ (by decide) (by decide),
      .put _ _ (by simp) (.refl s _), .of_eq rfl⟩
  case next =>
    intro s p v rest hq hv hlt
    exact guardWriteback_row hq (by rw [hv]; intro h; cases h; omega) (by rw [hv, if_pos rfl])
  case retag =>
    intro s p rest hq hold
    exact guardWriteback_row hq (fun h => hold (by rw [h])) (if_neg hold)

end Sys2Proof.Machine
end

section
/-! SUPPORT. Register writes and reads and accesses over the fabric, and the statement about their rows (R65 to R67, R70,
R75, R86, R94). -/

namespace Sys2Proof.Machine

variable {s : State}

/-! ## Register writes -/

/-- REGISTER_WRITE while the logic runs, at an aligned offset of the window. -/
theorem exec_registerWrite (mid : Nat) {off : Nat} (w : Width) (v : Nat) (hup : s.logicUp = true) (hal : off % 4 = 0)
    (hlt : off < 0x4000000) : exec (.registerWrite mid off w v) s = .next (s.regWidthWrite mid off w v) := by
  show execRegisterWrite mid off w v s = _
  have hoff : off % 0x4000000 / 4 * 4 = off := by omega
  rw [execRegisterWrite, if_pos hup, hoff]

/-- A narrow write is discarded and counted, whatever its offset (R65). -/
theorem exec_registerWrite_narrow (mid off v : Nat) {w : Width} (hup : s.logicUp = true) (hw : w = .w8 ∨ w = .w16) :
    exec (.registerWrite mid off w v) s = .next s.narrowWrite := by
  show execRegisterWrite mid off w v s = _
  rw [execRegisterWrite, if_pos hup]
  obtain rfl | rfl := hw <;> rfl

/-- A 32-bit write that reaches its block. -/
theorem exec_registerWrite_w32 {mid off : Nat} (v : Nat) (hup : s.logicUp = true) (hal : off % 4 = 0)
    (hlt : off < 0x4000000) (hreach : s.hostReaches mid off = true) :
    exec (.registerWrite mid off .w32 v) s = .next (s.regWrite mid off (BitVec.ofNat 32 v)) := by
  rw [exec_registerWrite mid .w32 v hup hal hlt]
  show Host.Outcome.next (s.regAccessWrite mid off (BitVec.ofNat 32 v)) = _
  rw [State.regAccessWrite, if_pos hreach]

theorem SameRegs.wr {l : List Nat} {s t : State} (o : Nat) (w : Word32) (hm : o ∈ l) (h : SameRegs l s t) :
    SameRegs l s (t.wr o w) := by
  intro off ho
  have hne : off ≠ o := fun e => ho (e ▸ hm)
  rw [State.rd_wr, if_neg hne, State.wr_dual, tget_terase, if_neg hne]
  exact h off ho

theorem regWrite_of_unmapped {mid off : Nat} (v : Word32) (h : regDescAt off = none) :
    s.regWrite mid off v = s.unmappedAccess := by unfold State.regWrite; rw [h]

/-- The table's row of MEM_SCRUB_CTL (Table 2-14). -/
theorem regDescAt_memScrubCtl : regDescAt MEM_SCRUB_CTL =
    some ⟨MEM_SCRUB_CTL, 1, 4, 1, 4, false, [⟨31, 31, .rw, 1, .any⟩, ⟨15, 0, .rw, 1000, .range 100 60000⟩]⟩ := by
  rfl

/-- A write of MEM_SCRUB_CTL whose PERIOD is in range stores both fields. -/
theorem regWrite_memScrubCtl (mid : Nat) (v : Word32) (hlo : 100 ≤ wordField v 15 0)
    (hhi : wordField v 15 0 ≤ 60000) :
    s.regWrite mid MEM_SCRUB_CTL v = s.wr MEM_SCRUB_CTL
      (wordSet (wordSet (s.rd MEM_SCRUB_CTL) 31 31 (wordField v 31 31)) 15 0 (wordField v 15 0)) := by
  have hwrite : s.regWrite mid MEM_SCRUB_CTL v = s.regStore MEM_SCRUB_CTL v := by
    unfold State.regWrite; rw [regDescAt_memScrubCtl]; rfl
  have heffect : s.regEffect MEM_SCRUB_CTL v =
      ⟨wordSet (wordSet (s.rd MEM_SCRUB_CTL) 31 31 (wordField v 31 31)) 15 0 (wordField v 15 0), true, false⟩ := by
    unfold State.regEffect
    rw [regDescAt_memScrubCtl]
    simp [FieldDesc.write, Allow.ok, hlo, hhi]
  rw [hwrite, State.regStore, heffect]
  rfl

theorem registerWrite_memScrubCtl_row {mid : Nat} {v : Nat} (hup : s.logicUp = true) (hmid : mid < 0x80)
    (hlo : 100 ≤ v % 2 ^ 16) (hhi : v % 2 ^ 16 ≤ 60000) :
    ∃ t, exec (.registerWrite mid MEM_SCRUB_CTL .w32 v) s = .next t ∧ t.on MEM_SCRUB_CTL_EN = bitOf v 31 ∧
      t.get MEM_SCRUB_CTL_PERIOD = v % 2 ^ 16 ∧ SameRegs [MEM_SCRUB_CTL] s t ∧ SameMem s t := by
  have hreach : s.hostReaches mid MEM_SCRUB_CTL = true := by simp [State.hostReaches, hmid]
  have hperiod : wordField (BitVec.ofNat 32 v) 15 0 = v % 2 ^ 16 := by
    simp only [wordField, BitVec.toNat_ofNat]; omega
  have hen : wordField (BitVec.ofNat 32 v) 31 31 = v / 2 ^ 31 % 2 := by
    simp only [wordField, BitVec.toNat_ofNat]; omega
  refine ⟨_, (exec_registerWrite_w32 v hup (by decide) (by decide) hreach).trans
    (congrArg _ (regWrite_memScrubCtl mid _ (hperiod ▸ hlo) (hperiod ▸ hhi))), ?_, ?_, ?_, .of_eq rfl⟩
  · unfold State.on State.get bitOf
    rw [State.rd_wr, if_pos rfl, wordField_wordSet_of_disjoint _ _ _ _ _ _ (by decide) (by decide) (by decide) (by decide),
      wordField_wordSet_self _ _ _ _ (by decide) (by decide), hen]
    simp
  · unfold State.get
    rw [State.rd_wr, if_pos rfl, wordField_wordSet_self _ _ _ _ (by decide) (by decide), hperiod]
    simp
  · exact SameRegs.wr _ _ (by simp) (.refl s _)

/-! ## Register reads -/

/-- The request lines a read lowers lie in the interrupt controller's block, and what else it leaves in its unit is no
memory. -/
theorem State.readEffect_lowSame (s : State) (off : Nat) : LowSame s (s.readEffect off) := by
  have hlines (l : List Nat) (t : State) (ht : LowSame s t) : LowSame s (l.foldl (fun t i => t.clrIrq i) t) := by
    induction l generalizing t with
    | nil => exact ht
    | cons i l ih => exact ih _ (ht.clrIrq i)
  obtain ⟨hmem, hlatch, hdue, hrd⟩ := hlines (readClears off) s (.refl s)
  unfold State.readEffect
  dsimp only
  split
  · exact ⟨hmem, hlatch, hdue, hrd⟩
  · split <;> exact ⟨hmem, hlatch, hdue, hrd⟩

/-- The copies of a register that is not dual-stored cannot differ. -/
theorem State.dualDiffers_of_single {off : Nat} (h : dualStored off = false) : s.dualDiffers off = false := by
  unfold State.dualDiffers; rw [h]; rfl

/-- A register whose copies agree is read as it shows, in the types of its fields (R11). -/
theorem State.comparedRead_of_agree {off : Nat} {d : RegDesc} (hd : regDescAt off = some d)
    (hsame : s.dualDiffers off = false) : s.comparedRead off = (readMask d (s.regView off), s) := by
  unfold State.comparedRead; rw [hsame, hd]; rfl

/-- A read that reaches a mapped register which no latch and no entropy word answers. -/
theorem State.regAccessRead_eq {mid off : Nat} {d : RegDesc} (hreach : s.hostReaches mid off = true)
    (hd : regDescAt off = some d) (hlatch : tget s.hiLatch (latchKey mid off) = none)
    (hpull : ¬ (ROSIN_PULL 0 ≤ off ∧ off < ROSIN_PULL 16)) :
    s.regAccessRead mid off = ((s.comparedRead off).1,
      (if counterLo off then (s.comparedRead off).2.latchHi mid off else (s.comparedRead off).2).readEffect off) := by
  unfold State.regAccessRead State.regRead
  simp only [hreach, hd, hlatch, hpull, if_true, if_false]

/-- The answer to the reader is no memory. -/
theorem SameMem.replyWord {s t : State} (h : t.mem = s.mem) (off : Nat) (w : Word32) : SameMem s (t.replyWord off w) :=
  .of_cells (s := s) (t := t.replyWord off w) (by rw [← h]; rfl) (by rw [← h]; rfl)

theorem State.replyWord_reply (s : State) (off : Nat) (w : Word32) :
    (s.replyWord off w).mem.reply = [⟨regWindow + off, 4, true, false, natToBytes 4 w.toNat⟩] := rfl

theorem State.replyWord_get (s : State) (off : Nat) (w : Word32) (f : Fld) : (s.replyWord off w).get f = s.get f := rfl

theorem exec_counterLoRead {mid off : Nat} (hup : s.logicUp = true) (hlo : counterLo off = true) :
    exec (.counterLoRead mid off) s =
      .next ((s.regAccessRead mid off).2.replyWord off (s.regAccessRead mid off).1) := by
  show execCounterLoRead mid off s = _
  simp only [execCounterLoRead, hup, hlo, Bool.and_self, if_true]

theorem exec_dualStoredRead {mid off : Nat} (hup : s.logicUp = true) (hdual : dualStored off = true) :
    exec (.dualStoredRead mid off none) s =
      .next ((s.regAccessRead mid off).2.replyWord off (s.regAccessRead mid off).1) := by
  show execDualStoredRead mid off none s = _
  simp only [execDualStoredRead, hup, hdual, Bool.and_self, if_true]

/-- COUNTER_LO_READ (R67): the low half answered, the high half latched for the reader. -/
theorem counterLoRead_row {mid off : Nat} {d e : RegDesc} (hup : s.logicUp = true) (hlo : counterLo off = true)
    (hreach : s.hostReaches mid off = true) (hsingle : dualStored off = false) (hsingle' : dualStored (off + 4) = false)
    (hlatch : tget s.hiLatch (latchKey mid off) = none) (hpull : ¬ (ROSIN_PULL 0 ≤ off ∧ off < ROSIN_PULL 16))
    (hd : regDescAt off = some d) (he : regDescAt (off + 4) = some e) :
    ∃ t, exec (.counterLoRead mid off) s = .next t ∧
      t.mem.reply = [⟨regWindow + off, 4, true, false, natToBytes 4 (readMask d (s.regView off)).toNat⟩] ∧
      tget t.hiLatch (latchKey mid (off + 4)) = some (readMask e (s.regView (off + 4))) ∧ SameMem s t := by
  let s1 : State := { s with
    hiLatch := tset s.hiLatch (latchKey mid (off + 4)) (readMask e (s.regView (off + 4))) }
  have hlatchHi : s.latchHi mid off = s1 := by
    unfold State.latchHi
    rw [State.comparedRead_of_agree he (State.dualDiffers_of_single hsingle')]
  have hread : s.regAccessRead mid off = (readMask d (s.regView off), s1.readEffect off) := by
    rw [State.regAccessRead_eq hreach hd hlatch hpull, State.comparedRead_of_agree hd (State.dualDiffers_of_single hsingle),
      if_pos hlo]
    dsimp only
    rw [hlatchHi]
  have hsame := State.readEffect_lowSame s1 off
  rw [exec_counterLoRead hup hlo, hread]
  refine ⟨(s1.readEffect off).replyWord off _, rfl, State.replyWord_reply _ _ _, ?_, .replyWord (s := s) hsame.mem _ _⟩
  show tget (s1.readEffect off).hiLatch _ = _
  rw [hsame.hiLatch, tget_tset, if_pos rfl]

/-- The words of the pull port are not dual-stored (Table 11-7). -/
theorem dualStored_rosinPull {off : Nat} (h : ROSIN_PULL 0 ≤ off ∧ off < ROSIN_PULL 16) : dualStored off = false := by
  have hall : ∀ i < 64, dualStored (ROSIN_PULL 0 + i) = false := by decide
  obtain ⟨hlo, hhi⟩ := h
  have := hall (off - ROSIN_PULL 0) (by simp only [ROSIN_PULL] at *; omega)
  rwa [show ROSIN_PULL 0 + (off - ROSIN_PULL 0) = off by omega] at this

/-- Every register of the map lies in one of its blocks, below 2^26. -/
theorem off_lt_of_regDescAt {off : Nat} {d : RegDesc} (h : regDescAt off = some d) : off < 2 ^ 26 := by
  unfold regDescAt at h
  split at h
  next b hb =>
    have hend : ∀ b ∈ regBlocks, b.base + b.size ≤ 2 ^ 26 := by decide
    have hin := List.find?_some hb
    simp only [Bool.and_eq_true, decide_eq_true_eq] at hin
    exact Nat.lt_of_lt_of_le hin.2 (hend b (List.mem_of_find?_eq_some hb))
  next => cases h

/-- A mismatch of a dual-stored register that resets and zeroizes nothing: it is counted and its offset recorded (R75). -/
theorem State.dualMismatch_effect {off : Nat} (hc : s.calm SRC_DUAL_MISMATCH) (hoff : off < 2 ^ 26) :
    (s.dualMismatch off).mem = s.mem ∧
      (s.dualMismatch off).get DUAL_MISMATCH_COUNT = (s.inc DUAL_MISMATCH_COUNT).get DUAL_MISMATCH_COUNT ∧
      (s.dualMismatch off).get DUAL_MISMATCH_ADDR = off := by
  let s1 : State := (s.inc DUAL_MISMATCH_COUNT).put DUAL_MISMATCH_ADDR off
  have hraise : LowSame s1 (s1.raise SRC_DUAL_MISMATCH 0) :=
    State.raise_lowSame 0 (State.calm.put (State.calm.put hc (by decide) _) (by decide) _) (by decide)
  have hsame : LowSame s1 (s.dualMismatch off) := .ite (hraise.isolate _) hraise
  refine ⟨hsame.mem, ?_, ?_⟩
  · rw [hsame.get (by decide)]
    exact State.get_put_of_disjoint _ _ _ _ (by decide) (by decide) (by decide) (.inl (by decide))
  · rw [hsame.get (by decide), State.get_put_self _ _ _ (by decide) (by decide)]
    exact Nat.mod_eq_of_lt hoff

/-- DUAL_STORED_READ of copies that agree, and of copies that differ (R75). -/
theorem dualStoredRead_row {mid off : Nat} {d : RegDesc} (hup : s.logicUp = true) (hdual : dualStored off = true)
    (hlo : counterLo off = false) (hreach : s.hostReaches mid off = true)
    (hlatch : tget s.hiLatch (latchKey mid off) = none) (hd : regDescAt off = some d) :
    (s.dualDiffers off = false → ∃ t, exec (.dualStoredRead mid off none) s = .next t ∧
      t.mem.reply = [⟨regWindow + off, 4, true, false, natToBytes 4 (readMask d (s.regView off)).toNat⟩] ∧ SameMem s t) ∧
    (s.dualDiffers off = true → s.calm SRC_DUAL_MISMATCH → ∃ t, exec (.dualStoredRead mid off none) s = .next t ∧
      t.mem.reply = [⟨regWindow + off, 4, true, false, [0xFF, 0xFF, 0xFF, 0xFF]⟩] ∧
      t.get DUAL_MISMATCH_COUNT = (s.inc DUAL_MISMATCH_COUNT).get DUAL_MISMATCH_COUNT ∧
      t.get DUAL_MISMATCH_ADDR = off ∧ SameMem s t) := by
  have hpull : ¬ (ROSIN_PULL 0 ≤ off ∧ off < ROSIN_PULL 16) := fun h => by
    rw [dualStored_rosinPull h] at hdual; cases hdual
  have hread : s.regAccessRead mid off = ((s.comparedRead off).1, (s.comparedRead off).2.readEffect off) := by
    rw [State.regAccessRead_eq hreach hd hlatch hpull, hlo]; rfl
  rw [exec_dualStoredRead hup hdual, hread]
  constructor
  · intro hagree
    have hsame := State.readEffect_lowSame s off
    rw [State.comparedRead_of_agree hd hagree]
    exact ⟨(s.readEffect off).replyWord off _, rfl, State.replyWord_reply _ _ _, .replyWord hsame.mem _ _⟩
  · intro hdiff hc
    have hcompared : s.comparedRead off = (allOnes, s.dualMismatch off) := by
      unfold State.comparedRead; rw [if_pos hdiff]
    obtain ⟨hmem, hcount, haddr⟩ := State.dualMismatch_effect hc (off_lt_of_regDescAt hd)
    have hsame := State.readEffect_lowSame (s.dualMismatch off) off
    rw [hcompared]
    refine ⟨((s.dualMismatch off).readEffect off).replyWord off allOnes, rfl, State.replyWord_reply _ _ _, ?_, ?_,
      .replyWord (hsame.mem.trans hmem) _ _⟩
    · rw [State.replyWord_get, hsame.get (by decide), hcount]
    · rw [State.replyWord_get, hsame.get (by decide), haddr]

/-! ## Accesses over the fabric -/

/-- FABRIC_ACCESS by an internal address, by a master that issues it in the state the disturbance leaves. -/
theorem exec_fabricAccess_internal {mid a : Nat} {op : FabOp} {env : FabEnv} (hup : (s.disturb env).logicUp = true)
    (hiss : (s.disturb env).issues mid (.internal a) = true) (hlo : 1 ≤ opLen op) (hhi : opLen op ≤ 4096) :
    exec (.fabricAccess mid (.internal a) op env) s = .next ((s.disturb env).fabricAccess mid a op) := by
  show execFabricAccess mid (.internal a) op env s = _
  simp only [execFabricAccess, hup, hiss, hlo, hhi, and_self, decide_true, Bool.and_self, if_true]

/-- FABRIC_ACCESS through a BAR, by a function that issues it in the state the disturbance leaves. -/
theorem exec_fabricAccess_bar {mid b off : Nat} {op : FabOp} {env : FabEnv} (hup : (s.disturb env).logicUp = true)
    (hiss : (s.disturb env).issues mid (.bar b off) = true) (hlo : 1 ≤ opLen op) (hhi : opLen op ≤ 4096) :
    exec (.fabricAccess mid (.bar b off) op env) s = .next ((s.disturb env).barAccess mid b off op) := by
  show execFabricAccess mid (.bar b off) op env s = _
  simp only [execFabricAccess, hup, hiss, hlo, hhi, and_self, decide_true, Bool.and_self, if_true]

/-- Without a disturbance the state stays. -/
theorem State.disturb_default (s : State) : s.disturb default = s := by
  show ({ s with mem := { s.mem with hostFails := s.mem.hostFails || false } } : State) = s
  rw [Bool.or_false]

/-- FABRIC_ACCESS by an internal address with nothing disturbed. -/
theorem exec_fabricAccess_undisturbed {mid a : Nat} {op : FabOp} (hup : s.logicUp = true)
    (hiss : s.issues mid (.internal a) = true) (hlo : 1 ≤ opLen op) (hhi : opLen op ≤ 4096) :
    exec (.fabricAccess mid (.internal a) op default) s = .next (s.fabricAccess mid a op) := by
  have hrun := exec_fabricAccess_internal (s := s) (mid := mid) (a := a) (op := op) (env := default)
  rw [State.disturb_default] at hrun
  exact hrun hup hiss hlo hhi

/-- An access by an internal address whose whole range the Nut grants as one part. -/
theorem State.fabricAccess_granted {mid a n : Nat} {op : FabOp} (hlen : opLen op = n) (hdec : s.decodes a = true)
    (hparts : s.accParts mid a n (opWrites op) (opFetches op) = [⟨a, n, true⟩]) :
    s.fabricAccess mid a op =
      (s.carryPart mid op ⟨0, .addr a, n, true⟩).2.replyParts [(s.carryPart mid op ⟨0, .addr a, n, true⟩).1] := by
  unfold State.fabricAccess State.carryRequest State.reqParts
  simp [hdec, hlen, hparts, untilDenied, State.carryParts]

/-- An address of on-die SRAM lies in no other window of the internal map (Table 2-4). -/
theorem windows_of_sram {a : Nat} (h : (sramPart a).isSome = true) :
    inRegs a = false ∧ inDoorbells a = false ∧ inBar4 a = false ∧ inXip a = false ∧ inRom a = false ∧
      inOutbound a = false ∧ ¬ dramBase ≤ a := by
  obtain ⟨p, hp⟩ := Option.isSome_iff_exists.mp h
  have hlt := (sramPart_lt hp).2
  simp only [inRegs, inDoorbells, inBar4, inXip, inRom, inOutbound, inRange, obwBase, dramBase, Bool.and_eq_false_iff,
    decide_eq_false_iff_not]
  omega

theorem State.decodes_of_sram {a : Nat} (h : (sramPart a).isSome = true) : s.decodes a = true := by
  simp [State.decodes, h]

theorem State.writeDecodes_of_sram {a : Nat} (h : (sramPart a).isSome = true) : s.writeDecodes a = true := by
  obtain ⟨-, -, -, hxip, hrom, hout, -⟩ := windows_of_sram h
  simp [State.writeDecodes, State.decodes_of_sram h, hxip, hrom, hout]

theorem State.transfer_of_clean {a : Nat} (h : s.mem.parityNext = 0) : s.transfer a = (true, s) := by
  simp [State.transfer, h]

/-- A read of clean SRAM answers the bytes stored there and leaves the state (R70). -/
theorem State.partRead_of_clean {mid a n : Nat} (h : s.sramClean a n) : s.partRead mid a n = (some (s.peek a n), s) := by
  obtain ⟨hfirst, hlast, hparity, hup, hpo⟩ := h
  obtain ⟨hregs, hdb, hbar, hxip, hrom, hout, hdram⟩ := windows_of_sram hfirst
  unfold State.partRead
  simp only [State.decodes_of_sram hfirst, State.decodes_of_sram hlast, State.transfer_of_clean hparity, Bool.not_true,
    Bool.or_self, Bool.false_eq_true, if_false, if_true]
  unfold State.targetBytes State.memRead
  simp only [hregs, hdb, hbar, hxip, hrom, hout, hdram, Bool.false_eq_true, if_false]
  exact State.sramRead_of_clean hup hpo

/-- A write of clean SRAM stores the bytes as the memory takes them. -/
theorem State.partWrite_of_clean {mid a : Nat} {bs : Bytes} (h : s.sramClean a bs.length) :
    s.partWrite mid a bs = (true, (s.poke a (imageBytes a bs)).sramStored a (imageBytes a bs).length) := by
  obtain ⟨hfirst, hlast, hparity, -, -⟩ := h
  obtain ⟨hregs, hdb, hbar, -, -, hout, hdram⟩ := windows_of_sram hfirst
  unfold State.partWrite
  simp only [State.writeDecodes_of_sram hfirst, State.writeDecodes_of_sram hlast, State.transfer_of_clean hparity,
    Bool.not_true, Bool.or_self, Bool.false_eq_true, if_false, if_true]
  unfold State.targetStore State.memStore
  simp only [hregs, hdb, hbar, hout, hdram, Bool.or_self, Bool.false_eq_true, if_false]

@[simp] theorem length_imageBytes (a : Nat) (bs : Bytes) : (imageBytes a bs).length = bs.length := by
  induction bs generalizing a with
  | nil => rfl
  | cons b bs ih => simp [imageBytes, ih]

/-- Written bytes read back together. -/
theorem cellsRead_cellsWrite (m : List Host.Cell) (a : Nat) (bs : Bytes) :
    cellsRead (cellsWrite m a bs) a bs.length = bs := by
  induction bs generalizing m a with
  | nil => rfl
  | cons b bs ih =>
    have hhead : cellRead (cellsWrite (cellWrite m a b) (a + 1) bs) a = b := by
      rw [cellRead_cellsWrite_out _ _ _ _ (by omega), cellRead_cellWrite, if_pos rfl]
    simp only [cellsWrite, List.length_cons, cellsRead, hhead, ih]

/-- A granted read of clean SRAM (R70, R94). -/
theorem fabricAccess_read_row {mid a n : Nat} (hup : s.logicUp = true) (hiss : s.issues mid (.internal a) = true)
    (hlo : 1 ≤ n) (hhi : n ≤ 4096) (hparts : s.accParts mid a n false false = [⟨a, n, true⟩]) (hclean : s.sramClean a n) :
    ∃ t, exec (.fabricAccess mid (.internal a) (.read n) default) s = .next t ∧
      t.mem.reply = [⟨a, n, true, false, s.peek a n⟩] ∧ SameRegs [] s t ∧ SameMem s t := by
  have hcarry : s.carryPart mid (.read n) ⟨0, .addr a, n, true⟩ = (⟨a, n, true, false, s.peek a n⟩, s) := by
    simp [State.carryPart, State.partRead_of_clean hclean]
  have hacc := State.fabricAccess_granted (n := n) (op := .read n) rfl (State.decodes_of_sram hclean.1) hparts
  rw [hcarry] at hacc
  refine ⟨s.replyParts [⟨a, n, true, false, s.peek a n⟩], ?_, rfl, .of_eq rfl rfl (.refl s []), .of_cells rfl rfl⟩
  rw [exec_fabricAccess_undisturbed (op := .read n) hup hiss hlo hhi, hacc]

/-- A granted write of clean SRAM. -/
theorem fabricAccess_write_row {mid a : Nat} {bs : Bytes} (hup : s.logicUp = true)
    (hiss : s.issues mid (.internal a) = true) (hlo : 1 ≤ bs.length) (hhi : bs.length ≤ 4096)
    (hparts : s.accParts mid a bs.length true false = [⟨a, bs.length, true⟩]) (hclean : s.sramClean a bs.length) :
    ∃ t, exec (.fabricAccess mid (.internal a) (.write bs) default) s = .next t ∧
      t.mem.reply = [⟨a, bs.length, true, false, []⟩] ∧ SameRegs [] s t ∧ t.peek a bs.length = imageBytes a bs ∧
      ∀ x, x < a ∨ a + bs.length ≤ x → cellRead t.mem.cells x = cellRead s.mem.cells x := by
  let s1 := (s.poke a (imageBytes a bs)).sramStored a (imageBytes a bs).length
  have hcarry : s.carryPart mid (.write bs) ⟨0, .addr a, bs.length, true⟩ = (⟨a, bs.length, true, false, []⟩, s1) := by
    simp [State.carryPart, State.partWrite_of_clean hclean, s1]
  have hacc := State.fabricAccess_granted (n := bs.length) (op := .write bs) rfl (State.decodes_of_sram hclean.1) hparts
  rw [hcarry] at hacc
  refine ⟨s1.replyParts [⟨a, bs.length, true, false, []⟩], ?_, rfl, .of_eq rfl rfl (.refl s []), ?_, ?_⟩
  · rw [exec_fabricAccess_undisturbed (op := .write bs) hup hiss hlo hhi, hacc]
  · show cellsRead (cellsWrite s.mem.cells a (imageBytes a bs)) a bs.length = _
    rw [← length_imageBytes a bs]
    exact cellsRead_cellsWrite _ _ _
  · intro x hx
    exact cellRead_cellsWrite_out _ _ _ _ (by rwa [length_imageBytes])

/-- Settles O10: one row lemma above for each kind of access. -/
theorem registerAccessRows : Obligations.RegisterAccessRows := by
  refine ⟨?narrow, ?word, ?double, fun mid v s hup hmid hlo hhi => registerWrite_memScrubCtl_row hup hmid hlo hhi,
    ?counter, ?dual, ?fabric, ?read, ?write⟩
  case narrow =>
    intro mid off v s hup w hw
    exact ⟨exec_registerWrite_narrow mid off v hup hw, .refl s [], .of_eq rfl, rfl⟩
  case word =>
    intro mid off v s hup hal hlt hreach
    have hrun := exec_registerWrite_w32 v hup hal hlt hreach
    exact ⟨hrun, fun hnone => hrun.trans (congrArg _ (regWrite_of_unmapped _ hnone))⟩
  case double =>
    intro mid off v s hup hal hlt
    refine ⟨_, exec_registerWrite mid .w32 v hup hal (by omega), fun hup' => ?_⟩
    rw [exec_registerWrite mid .w64 v hup hal (by omega), exec_registerWrite mid .w32 _ hup' (by omega) hlt]
    rfl
  case counter =>
    intro mid off s hup hlo hreach hsingle hsingle' hlatch hpull d e hd he
    exact counterLoRead_row hup hlo hreach hsingle hsingle' hlatch hpull hd he
  case dual =>
    intro mid off s hup hdual hlo hreach hlatch d hd
    exact dualStoredRead_row hup hdual hlo hreach hlatch hd
  case fabric =>
    intro mid a op env s hup hlo hhi
    exact ⟨fun hiss => exec_fabricAccess_internal hup hiss hlo hhi,
      fun b off hiss => exec_fabricAccess_bar hup hiss hlo hhi⟩
  case read =>
    intro mid a n s hup hiss hlo hhi hparts hclean
    exact fabricAccess_read_row hup hiss hlo hhi hparts hclean
  case write =>
    intro mid a bs s hup hiss hlo hhi hparts hclean
    exact fabricAccess_write_row hup hiss hlo hhi hparts hclean

end Sys2Proof.Machine
end

section
/-! SUPPORT. The registers of a Diurn processor after an update: fields of the status word (Table 3-4), the flags that an
operation sets, one processor put back beside the others. -/

namespace Sys2Proof.Machine

/-! ## Fields of the status word -/

/-- A field of the status word is a quotient of its low bits. -/
theorem swGet_eq_mod_div (w : Word36) {hi lo : Nat} (h : lo ≤ hi + 1) :
    swGet w hi lo = w.toNat % 2 ^ (hi + 1) / 2 ^ lo := by
  rw [swGet, ← Nat.mod_mul_right_div_self, ← Nat.pow_add, Nat.add_sub_cancel' h]

/-- Setting a field leaves every field below it. -/
theorem swGet_swSet_of_lt (w : Word36) {hi lo hi' lo' : Nat} (v : Nat) (h : lo ≤ hi + 1) (h' : lo' ≤ hi' + 1)
    (hlt : hi' < lo) (hlo : lo ≤ 36) : swGet (swSet w hi lo v) hi' lo' = swGet w hi' lo' := by
  have hd (n : Nat) (hn : lo ≤ n) : 2 ^ (hi' + 1) ∣ 2 ^ n := Nat.pow_dvd_pow 2 (by omega)
  have hhigh : 2 ^ (hi' + 1) ∣ 2 ^ (hi + 1) * (w.toNat / 2 ^ (hi + 1)) + 2 ^ lo * (v % 2 ^ (hi + 1 - lo)) :=
    Nat.dvd_add (Nat.dvd_mul_right_of_dvd (hd _ h) _) (Nat.dvd_mul_right_of_dvd (hd lo (Nat.le_refl lo)) _)
  rw [swGet_eq_mod_div _ h', swGet_eq_mod_div _ h', swSet, BitVec.toNat_ofNat, Nat.mod_mod_of_dvd _ (hd 36 hlo),
    Nat.add_mod, Nat.mod_eq_zero_of_dvd hhigh, Nat.zero_add, Nat.mod_mod, Nat.mod_mod_of_dvd _ (hd lo (Nat.le_refl lo))]

/-! ## Banks and addresses -/

theorem a24_toNat_of_lt {n : Nat} (h : n < 2 ^ 24) : (a24 n).toNat = n := by
  rw [a24, BitVec.toNat_ofNat, Nat.mod_eq_of_lt h]

/-- An entry of a bank that has been set reads back. -/
theorem getD_set_self {α : Type} {l : List α} {k : Nat} (h : k < l.length) (v d : α) : (l.set k v).getD k d = v := by
  rw [List.getD_eq_getElem?_getD, List.getElem?_set_self h, Option.getD_some]

/-! ## Registers of one processor -/

namespace Proc

variable {pr : Proc}

/-- LDEPTH after bits 19:17 are set. -/
theorem ldepth_set {d : Nat} (hd : d < 8) (pr : Proc) : ({ pr with sw := swSet pr.sw 19 17 d } : Proc).ldepth = d := by
  have hw := pr.sw.isLt
  simp only [ldepth, swGet, swSet, BitVec.toNat_ofNat]
  omega

/-- The flags and enables lie above LDEPTH. -/
theorem setBit_ldepth {i : Nat} (hi : 19 < i) (hi' : i ≤ 36) (b : Bool) : (pr.setBit i b).ldepth = pr.ldepth :=
  swGet_swSet_of_lt _ _ (by omega) (by omega) hi hi'

theorem setBit_priv {i : Nat} (hi : 1 < i) (hi' : i ≤ 36) (b : Bool) : (pr.setBit i b).priv = pr.priv :=
  swGet_swSet_of_lt _ _ (by omega) (by omega) hi hi'

/-- The stack pointer of the current privilege state does not depend on the flags. -/
theorem setBit_spv {i : Nat} (hi : 1 < i) (hi' : i ≤ 36) (b : Bool) : (pr.setBit i b).spv = pr.spv := by
  rw [spv, setBit_priv hi hi']; rfl

theorem setBit_fp (i : Nat) (b : Bool) : (pr.setBit i b).fp = pr.fp := rfl
theorem setBit_le (i : Nat) (b : Bool) : (pr.setBit i b).le = pr.le := rfl
theorem setBit_lc (i : Nat) (b : Bool) : (pr.setBit i b).lc = pr.lc := rfl
theorem setBit_ix (i : Nat) (b : Bool) : (pr.setBit i b).ix = pr.ix := rfl

theorem setBit?_ldepth {i : Nat} (hi : 19 < i) (hi' : i ≤ 36) (b : Option Bool) : (pr.setBit? i b).ldepth = pr.ldepth := by
  cases b with
  | none => rfl
  | some b => exact setBit_ldepth hi hi' b

theorem setBit?_ix (i : Nat) (b : Option Bool) : (pr.setBit? i b).ix = pr.ix := by cases b <;> rfl

/-- The flags of an operation leave LDEPTH. -/
theorem setFlags_ldepth (pr : Proc) (r : AluOut) : (pr.setFlags r).ldepth = pr.ldepth := by
  have h : ((((pr.setBit? 35 r.n).setBit? 34 r.z).setBit? 33 r.v).setBit? 32 r.c).ldepth = pr.ldepth := by
    simp only [setBit?_ldepth (show 19 < 35 by decide), setBit?_ldepth (show 19 < 34 by decide),
      setBit?_ldepth (show 19 < 33 by decide), setBit?_ldepth (show 19 < 32 by decide), Nat.reduceLeDiff]
  rw [setFlags]
  split
  · rwa [setBit_ldepth (by decide) (by decide)]
  · exact h

/-- The flags of an operation leave the index registers. -/
theorem setFlags_ix (pr : Proc) (r : AluOut) : (pr.setFlags r).ix = pr.ix := by
  have h : ((((pr.setBit? 35 r.n).setBit? 34 r.z).setBit? 33 r.v).setBit? 32 r.c).ix = pr.ix := by simp only [setBit?_ix]
  rw [setFlags]
  split
  · rwa [setBit_ix]
  · exact h

/-- Special registers 28 to 31 are IX0 to IX3 (Table 3-3). -/
theorem srRead_ix (p : Nat) {k : Nat} (hk : 28 ≤ k) (hk' : k ≤ 31) : pr.srRead p k = (pr.ix.getD (k - 28) 0).toNat := by
  obtain rfl | rfl | rfl | rfl : k = 28 ∨ k = 29 ∨ k = 30 ∨ k = 31 := by omega
  all_goals rfl

theorem srPut_ix (p v : Nat) {k : Nat} (hk : 28 ≤ k) (hk' : k ≤ 31) :
    pr.srPut p k v = { pr with ix := pr.ix.set (k - 28) (BitVec.ofNat 36 v) } := by
  obtain rfl | rfl | rfl | rfl : k = 28 ∨ k = 29 ∨ k = 30 ∨ k = 31 := by omega
  all_goals rfl

/-- SP reads what is put there, cut to 24 bits. -/
theorem srPut_spv (p v : Nat) (h : pr.priv < pr.sp.length) : (pr.srPut p 3 v).spv = v % 2 ^ 24 := by
  show ((pr.sp.set pr.priv (a24 v)).getD pr.priv 0).toNat = _
  rw [getD_set_self h, a24, BitVec.toNat_ofNat]

end Proc

/-! ## One processor among the others -/

@[simp] theorem State.proc_setProc_self (s : State) (p : Nat) (pr : Proc) : (s.setProc p pr).proc p = pr := by
  rw [State.proc, State.setProc, tgetD_tset, if_pos rfl]

/-- Replacing a processor leaves the others. -/
theorem SameProcs.setProc (s : State) (p : Nat) (pr : Proc) : SameProcs [p] s (s.setProc p pr) := by
  intro q hq
  rw [State.proc, State.setProc, tgetD_tset, if_neg (by simpa using hq)]
  rfl

end Sys2Proof.Machine
end

section
/-! SUPPORT. What an instruction keeps while it is fetched, decoded and executed: the processor it runs on and, until it
writes a special register, that processor's registers (R129, R130). -/

namespace Sys2Proof.Machine

/-- The instruction runs on the same processor, whose registers it has left as they were. -/
structure Cx.SameUnit (c c' : Cx) : Prop where
  p : c'.p = c.p
  pr : c'.pr = c.pr

/-- The instruction has not done more than fetch words: besides, it has written no word of memory. -/
structure Cx.Fetched (c c' : Cx) : Prop extends c.SameUnit c' where
  writes : c'.writes = c.writes

/-- Where a step goes on, it does so in a context with a property. -/
def Res.OkIn {α : Type} (P : Cx → Prop) (r : Res α) : Prop := ∀ a c, r = .ok a c → P c

namespace Res

variable {α β : Type} {P Q : Cx → Prop}

theorem okIn_ok {a : α} {c : Cx} : (Res.ok a c).OkIn P ↔ P c :=
  ⟨fun h => h a c rfl, fun h _ _ e => by cases e; exact h⟩

theorem okIn_exc {e : Exc} {c : Cx} : (Res.exc e c : Res α).OkIn P := fun _ _ h => by cases h

theorem okIn_andThen {r : Res α} {f : α → Cx → Res β} (hr : r.OkIn P) (hf : ∀ a c, P c → (f a c).OkIn Q) :
    (r.andThen f).OkIn Q := by
  cases r with
  | ok a c => exact hf a c (hr a c rfl)
  | exc e c => exact okIn_exc

theorem okIn_ite {b : Prop} [Decidable b] {r r' : Res α} (h : r.OkIn P) (h' : r'.OkIn P) :
    (if b then r else r').OkIn P := by split <;> assumption

theorem OkIn.mono {r : Res α} (h : r.OkIn P) (hPQ : ∀ c, P c → Q c) : r.OkIn Q := fun a c e => hPQ c (h a c e)

end Res

namespace Cx

variable {c0 c : Cx}

theorem SameUnit.refl (c : Cx) : c.SameUnit c := ⟨rfl, rfl⟩

theorem SameUnit.trans {c1 c2 : Cx} (h : c0.SameUnit c1) (h' : c1.SameUnit c2) : c0.SameUnit c2 :=
  ⟨h'.p.trans h.p, h'.pr.trans h.pr⟩

theorem Fetched.refl (c : Cx) : c.Fetched c := ⟨⟨rfl, rfl⟩, rfl⟩

theorem Fetched.trans {c1 c2 : Cx} (h : c0.Fetched c1) (h' : c1.Fetched c2) : c0.Fetched c2 :=
  ⟨h.toSameUnit.trans h'.toSameUnit, h'.writes.trans h.writes⟩

theorem SameUnit.cost (h : c0.SameUnit c) (k : Nat) : c0.SameUnit { c with cost := k } := ⟨h.p, h.pr⟩

/-- A double that is one access costs one (R100). -/
theorem SameUnit.keptCost (h : c0.SameUnit c) (one : Bool) (k : Nat) :
    c0.SameUnit (if one then { c with cost := k } else c) := by
  split
  · exact h.cost k
  · exact h

theorem Fetched.cost (h : c0.Fetched c) (k : Nat) : c0.Fetched { c with cost := k } := ⟨⟨h.p, h.pr⟩, h.writes⟩

/-! ## Fetch and decode -/

/-- The wait of a read cache miss costs cycles and counts (R472). -/
theorem afterMiss_fetched (c : Cx) (s : State) (miss : Bool) : c.Fetched (({ c with s := s } : Cx).afterMiss miss) := by
  unfold afterMiss
  split <;> exact ⟨⟨rfl, rfl⟩, rfl⟩

theorem fetch_okIn (c : Cx) (w : Nat) : (c.fetch w).OkIn c.Fetched := by
  unfold fetch
  split
  · exact Res.okIn_exc
  · dsimp only
    split
    · split
      · exact Res.okIn_ok.2 ⟨⟨rfl, rfl⟩, rfl⟩
      · exact Res.okIn_exc
    · split
      · exact Res.okIn_ok.2 ((c.afterMiss_fetched _ _).cost _)
      · exact Res.okIn_exc
    · exact Res.okIn_exc

theorem fetchN_okIn (c : Cx) (w n : Nat) : (c.fetchN w n).OkIn c.Fetched := by
  induction n generalizing c w with
  | zero => exact Res.okIn_ok.2 (.refl c)
  | succ n ih =>
    exact Res.okIn_andThen (c.fetch_okIn w) fun _ c1 h1 =>
      Res.okIn_andThen (ih c1 (w + 1)) fun _ _ h2 => Res.okIn_ok.2 (h1.trans h2)

theorem decode_okIn (c : Cx) (w : Nat) (d : OpDesc) : (c.decode w d).OkIn c.Fetched := by
  unfold decode
  dsimp only
  split
  · exact Res.okIn_exc
  split
  · exact Res.okIn_exc
  split
  · exact Res.okIn_exc
  refine Res.okIn_ite Res.okIn_exc (Res.okIn_andThen (c.fetchN_okIn _ _) fun ext c1 h1 => ?_)
  refine Res.okIn_ite Res.okIn_exc (Res.okIn_ite Res.okIn_exc (Res.okIn_ite Res.okIn_exc ?_))
  refine Res.okIn_ite ?_ (Res.okIn_ok.2 h1)
  split
  · exact Res.okIn_exc
  · exact Res.okIn_ok.2 h1

/-! ## Reads and writes of words -/

theorem readAs_okIn (c : Cx) (priv w spec : Nat) : (c.readAs priv w spec).OkIn c.SameUnit := by
  unfold readAs
  split
  · exact Res.okIn_ok.2 (.refl c)
  split
  · refine Res.okIn_ite Res.okIn_exc ?_
    split
    · exact Res.okIn_ok.2 ⟨rfl, rfl⟩
    · exact Res.okIn_exc
  · split
    · exact Res.okIn_ok.2 (c.afterMiss_fetched _ _).toSameUnit
    · exact Res.okIn_exc
  · split
    · exact Res.okIn_ok.2 (.refl c)
    · exact Res.okIn_exc
  · exact Res.okIn_exc

theorem read_okIn (h : c0.SameUnit c) (w spec : Nat) : (c.read w spec).OkIn c0.SameUnit :=
  Res.okIn_andThen (c.readAs_okIn _ w spec) fun _ _ h1 => Res.okIn_ok.2 ((h.trans h1).cost _)

theorem writeAs_okIn (c : Cx) (priv w v spec : Nat) : (c.writeAs priv w v spec).OkIn c.SameUnit := by
  unfold writeAs
  dsimp only
  split
  · exact Res.okIn_ite Res.okIn_exc (Res.okIn_ok.2 ⟨rfl, rfl⟩)
  · split
    · exact Res.okIn_ok.2 ⟨rfl, rfl⟩
    · exact Res.okIn_exc
  · exact Res.okIn_ite (Res.okIn_ok.2 ⟨rfl, rfl⟩) Res.okIn_exc
  · exact Res.okIn_exc

theorem write_okIn (h : c0.SameUnit c) (w v spec : Nat) : (c.write w v spec).OkIn c0.SameUnit :=
  Res.okIn_andThen (c.writeAs_okIn _ w v spec) fun _ _ h1 => Res.okIn_ok.2 ((h.trans h1).cost _)

/-! ## Operands -/

theorem ea_okIn (h : c0.SameUnit c) (spec : Nat) (sz : Sz) (sum : Int) : (c.ea spec sz sum).OkIn c0.SameUnit :=
  Res.okIn_ite Res.okIn_exc (Res.okIn_ite Res.okIn_exc (Res.okIn_ok.2 h))

theorem ptr_okIn (h : c0.SameUnit c) (spec : Nat) (sz : Sz) (v : Nat) : (c.ptr spec sz v).OkIn c0.SameUnit :=
  Res.okIn_ite Res.okIn_exc (ea_okIn h _ _ _)

/-- Phase 1 of a specifier, by its mode (Table 3-6): AINC and ADEC write their pointer back to memory. -/
theorem evalSpec_okIn (h : c0.SameUnit c) (x : Nat) (ext : List Nat) (sz : Sz) (spec : Nat) :
    (c.evalSpec x ext sz spec).OkIn c0.SameUnit := by
  have hind (w : Nat) : ((c.read w spec).andThen fun v c => c.ptr spec sz v).OkIn c0.SameUnit :=
    Res.okIn_andThen (read_okIn h _ _) fun _ _ h1 => ptr_okIn h1 _ _ _
  unfold evalSpec
  refine Res.okIn_ite (Res.okIn_ok.2 h) <| Res.okIn_ite (Res.okIn_ok.2 h) <| Res.okIn_ite (Res.okIn_ok.2 h) <|
    Res.okIn_ite (ea_okIn h _ _ _) <| Res.okIn_ite (hind _) <| Res.okIn_ite (ea_okIn h _ _ _) <|
    Res.okIn_ite ?ainc <| Res.okIn_ite ?adec <| Res.okIn_ite (ea_okIn h _ _ _) <| Res.okIn_ite (ea_okIn h _ _ _) <|
    Res.okIn_ite (ea_okIn h _ _ _) <| Res.okIn_ite (ea_okIn h _ _ _) ?octet
  case ainc =>
    exact Res.okIn_andThen (read_okIn h _ _) fun _ _ h1 => Res.okIn_andThen (ptr_okIn h1 _ _ _) fun _ _ h2 =>
      Res.okIn_andThen (write_okIn h2 _ _ _) fun _ _ h3 => Res.okIn_ok.2 h3
  case adec =>
    exact Res.okIn_andThen (read_okIn h _ _) fun _ _ h1 => Res.okIn_andThen (write_okIn h1 _ _ _) fun _ _ h2 =>
      ptr_okIn h2 _ _ _
  case octet =>
    exact Res.okIn_ite Res.okIn_exc (Res.okIn_andThen (ea_okIn h _ _ _) fun _ _ h1 => Res.okIn_ok.2 h1)

theorem evalOpt_okIn (h : c0.SameUnit c) (x : Nat) (ext : List Nat) (sz : Option Sz) (spec : Nat) :
    (c.evalOpt x ext sz spec).OkIn c0.SameUnit := by
  cases sz with
  | none => exact Res.okIn_ok.2 h
  | some z => exact Res.okIn_ite (Res.okIn_ok.2 h) (evalSpec_okIn h _ _ _ _)

theorem phase1_okIn (c : Cx) (d : OpDesc) (i : Dec) : (c.phase1 d i).OkIn c.SameUnit :=
  Res.okIn_andThen (evalOpt_okIn (.refl c) _ _ _ _) fun _ _ h1 => Res.okIn_andThen (evalOpt_okIn h1 _ _ _ _) fun _ _ h2 =>
    Res.okIn_andThen (evalOpt_okIn h2 _ _ _ _) fun _ _ h3 => Res.okIn_ok.2 h3

theorem readOctet_okIn (h : c0.SameUnit c) (base o spec : Nat) : (c.readOctet base o spec).OkIn c0.SameUnit :=
  Res.okIn_ite Res.okIn_exc <| Res.okIn_andThen (read_okIn h _ _) fun _ _ h1 =>
    Res.okIn_ite (Res.okIn_ok.2 h1) (Res.okIn_ok.2 ⟨h1.p, h1.pr⟩)

theorem readDouble_okIn (h : c0.SameUnit c) (w spec : Nat) : (c.readDouble w spec).OkIn c0.SameUnit :=
  Res.okIn_andThen (read_okIn h _ _) fun _ _ h1 => Res.okIn_andThen (read_okIn h1 _ _) fun _ _ h2 =>
    Res.okIn_ok.2 (h2.keptCost _ _)

/-- Phase 2 of an operand that the opcode has. -/
theorem getOpt_okIn (h : c0.SameUnit c) (o : Opnd) (sz : Option Sz) (spec : Nat) :
    (c.getOpt o sz spec).OkIn c0.SameUnit := by
  cases sz with
  | none => exact Res.okIn_ok.2 h
  | some z =>
    cases o with
    | imm v => exact Res.okIn_ok.2 h
    | spr s => exact Res.okIn_ok.2 h
    | mem w => exact Res.okIn_ite (readDouble_okIn h _ _) (read_okIn h _ _)
    | oct b k => exact readOctet_okIn h _ _ _

theorem rmwRead_okIn (c : Cx) (w spec : Nat) : (c.rmwRead w spec).OkIn c.SameUnit := by
  unfold rmwRead
  split
  · split
    · exact Res.okIn_exc
    · split
      · exact Res.okIn_ok.2 ⟨rfl, rfl⟩
      · exact Res.okIn_exc
  · exact c.readAs_okIn _ _ _

theorem writeOctet_okIn (c : Cx) (base o v spec : Nat) : (c.writeOctet base o v spec).OkIn c.SameUnit :=
  Res.okIn_ite Res.okIn_exc <| Res.okIn_andThen (c.rmwRead_okIn _ _) fun _ _ h1 => write_okIn h1 _ _ _

/-- A write of C stays on its processor; a special register alone changes the processor's registers. -/
theorem put_okIn (c : Cx) (o : Opnd) (sz : Sz) (v spec : Nat) : (c.put o sz v spec).OkIn fun c' => c'.p = c.p := by
  cases o with
  | imm v => exact Res.okIn_ok.2 rfl
  | spr s => exact Res.okIn_ite Res.okIn_exc (Res.okIn_ite Res.okIn_exc (Res.okIn_ok.2 rfl))
  | mem w =>
    refine Res.okIn_ite ?_ ((write_okIn (.refl c) _ _ _).mono fun _ h => h.p)
    exact Res.okIn_andThen (write_okIn (.refl c) _ _ _) fun _ _ h1 => Res.okIn_andThen (write_okIn h1 _ _ _) fun _ _ h2 =>
      Res.okIn_ok.2 (h2.keptCost _ _).p
  | oct b k => exact (c.writeOctet_okIn _ _ _ _).mono fun _ h => h.p

theorem push_okIn (c : Cx) (v : Nat) : (c.push v).OkIn c.SameUnit :=
  Res.okIn_ite Res.okIn_exc <| Res.okIn_andThen (write_okIn (.refl c) _ _ _) fun _ _ h => Res.okIn_ok.2 h

theorem pop_okIn (c : Cx) (sp : Nat) : (c.pop sp).OkIn c.SameUnit :=
  Res.okIn_ite Res.okIn_exc (read_okIn (.refl c) _ _)

/-! ## Whole operand phases -/

theorem ReadsA.sameUnit {d : OpDesc} {i : Dec} {o : Opnds} {a : Nat} {c' : Cx} (h : c.ReadsA d i o a c') :
    c.SameUnit c' := by
  obtain ⟨c1, h1, h2⟩ := h
  exact getOpt_okIn (phase1_okIn _ _ _ _ _ h1) _ _ _ _ _ h2

theorem ReadsAB.sameUnit {d : OpDesc} {i : Dec} {o : Opnds} {a b : Nat} {c' : Cx} (h : c.ReadsAB d i o a b c') :
    c.SameUnit c' := by
  obtain ⟨c1, c2, h1, h2, h3⟩ := h
  exact getOpt_okIn (getOpt_okIn (phase1_okIn _ _ _ _ _ h1) _ _ _ _ _ h2) _ _ _ _ _ h3

end Cx

theorem AluRow.Reads.sameUnit {r : AluRow} {i : Dec} {c c' : Cx} {o : Opnds} {a b cv : Nat}
    (h : r.Reads i c o a b cv c') : c.SameUnit c' := by
  obtain ⟨c1, c2, c3, h1, h2, h3, h4⟩ := h
  have h03 := Cx.getOpt_okIn (Cx.getOpt_okIn (Cx.phase1_okIn _ _ _ _ _ h1) _ _ _ _ _ h2) _ _ _ _ _ h3
  split at h4
  · exact Cx.getOpt_okIn h03 _ _ _ _ _ h4
  · cases h4; exact h03

/-- A decoded instruction runs on its processor, with that processor's registers, and has written nothing. -/
theorem State.Decodes.fetched {s : State} {p code : Nat} {d : OpDesc} {i : Dec} {c : Cx} (h : s.Decodes p code d i c) :
    (s.cx p).Fetched c := by
  obtain ⟨-, w, c1, h1, -, -, h2⟩ := h
  obtain ⟨⟨hp, hpr⟩, hw⟩ := Cx.decode_okIn _ _ _ _ _ h2
  exact (Cx.fetch_okIn _ _ _ _ h1).trans ⟨⟨hp, hpr⟩, hw⟩

theorem State.Decodes.p_eq {s : State} {p code : Nat} {d : OpDesc} {i : Dec} {c : Cx} (h : s.Decodes p code d i c) :
    c.p = p := h.fetched.p

end Sys2Proof.Machine
end

section
/-! SUPPORT. The end of an instruction: its processor's registers once it has completed (R136), what the runner comes to
for a body that goes through or raises an exception (R129 to R131), and when that stands (R35, R550). -/

namespace Sys2Proof.Machine

/-! ## Completion -/

namespace Cx

variable {c : Cx}

theorem store_sameUnit (c : Cx) (e : Nat × Nat) : c.SameUnit (c.store e) := by
  unfold store
  split <;> exact ⟨rfl, rfl⟩

theorem foldl_store_sameUnit (c : Cx) (l : List (Nat × Nat)) : c.SameUnit (l.foldl store c) := by
  induction l generalizing c with
  | nil => exact .refl c
  | cons e l ih => exact (c.store_sameUnit e).trans (ih _)

/-- Storing the words that an instruction writes leaves its registers. -/
theorem storeAll_sameUnit (c : Cx) : c.SameUnit c.storeAll :=
  ⟨(c.foldl_store_sameUnit _).p, (c.foldl_store_sameUnit _).pr⟩

theorem storeAll_of_no_writes (h : c.writes = []) : c.storeAll = c := by
  rw [storeAll, h, List.foldl_nil, ← h]

/-- The registers with the T flag of a missing octet (R124). -/
def flagged (c : Cx) : Proc := if c.tset then c.pr.setBit 30 true else c.pr

/-- What does not depend on the T flag is as before. -/
theorem flagged_of (c : Cx) {α : Type} {f : Proc → α} (hbit : f (c.pr.setBit 30 true) = f c.pr) : f c.flagged = f c.pr := by
  rw [flagged]
  split
  · exact hbit
  · rfl

/-- The processor once the instruction has completed with `pc` as the next address. -/
def ended (c : Cx) (pc opCost : Nat) : Proc :=
  { c.flagged with pc := a24 pc, parkEntry := false, now := c.s.procStart c.p + c.cost + opCost }

/-- What depends neither on the T flag nor on the fields that the end of an instruction sets is as before. -/
theorem ended_of (c : Cx) {α : Type} {f : Proc → α} (hbit : f (c.pr.setBit 30 true) = f c.pr)
    (hend : ∀ pr pc now, f { pr with pc := pc, parkEntry := false, now := now } = f pr) (pc opCost : Nat) :
    f (c.ended pc opCost) = f c.pr := by
  rw [ended, hend, c.flagged_of hbit]

theorem ended_ldepth (c : Cx) (pc opCost : Nat) : (c.ended pc opCost).ldepth = c.pr.ldepth :=
  c.ended_of (f := Proc.ldepth) (Proc.setBit_ldepth (by decide) (by decide) true) (fun _ _ _ => rfl) pc opCost

theorem ended_spv (c : Cx) (pc opCost : Nat) : (c.ended pc opCost).spv = c.pr.spv :=
  c.ended_of (f := Proc.spv) (Proc.setBit_spv (by decide) (by decide) true) (fun _ _ _ => rfl) pc opCost

theorem ended_fp (c : Cx) (pc opCost : Nat) : (c.ended pc opCost).fp = c.pr.fp :=
  c.ended_of (f := Proc.fp) (Proc.setBit_fp 30 true) (fun _ _ _ => rfl) pc opCost

theorem ended_lc (c : Cx) (pc opCost : Nat) : (c.ended pc opCost).lc = c.pr.lc :=
  c.ended_of (f := Proc.lc) (Proc.setBit_lc 30 true) (fun _ _ _ => rfl) pc opCost

theorem ended_ix (c : Cx) (pc opCost : Nat) : (c.ended pc opCost).ix = c.pr.ix :=
  c.ended_of (f := Proc.ix) (Proc.setBit_ix 30 true) (fun _ _ _ => rfl) pc opCost

theorem flagged_ldepth (c : Cx) : c.flagged.ldepth = c.pr.ldepth :=
  c.flagged_of (Proc.setBit_ldepth (by decide) (by decide) true)

theorem flagged_le (c : Cx) : c.flagged.le = c.pr.le := c.flagged_of (f := Proc.le) (Proc.setBit_le 30 true)

/-- A taken branch makes no end check (R136). -/
theorem finish_taken_proc {p : Nat} (hp : c.p = p) (next v opCost : Nat) :
    (c.finish next (some v) opCost).proc p = c.ended v opCost := by
  rw [← hp, finish, State.proc_setProc_self, c.storeAll_sameUnit.pr]
  rfl

/-- An end check that closes no level leaves the next address. -/
theorem finish_none_proc {p : Nat} (hp : c.p = p) {next : Nat} (h : Proc.endCheck 4 c.flagged next = (c.flagged, next))
    (opCost : Nat) : (c.finish next none opCost).proc p = c.ended next opCost := by
  rw [← hp, finish, State.proc_setProc_self, c.storeAll_sameUnit.pr]
  show ({ (Proc.endCheck 4 c.flagged next).1 with pc := a24 (Proc.endCheck 4 c.flagged next).2, parkEntry := _, now := _ } : Proc) = _
  rw [h]
  rfl

/-- With no loop level open an instruction goes on at the next address. -/
theorem finish_proc_of_no_loop {p : Nat} (hp : c.p = p) (h : c.pr.ldepth = 0) (next opCost : Nat) :
    (c.finish next none opCost).proc p = c.ended next opCost :=
  finish_none_proc hp (by rw [Proc.endCheck, if_pos (c.flagged_ldepth.trans h)]) opCost

/-- So it does where the next address is not the innermost level's end. -/
theorem finish_proc_of_ne_end {p d : Nat} (hp : c.p = p) (h : c.pr.ldepth = d + 1) {next : Nat}
    (hne : (c.pr.le.getD d 0).toNat ≠ next) (opCost : Nat) :
    (c.finish next none opCost).proc p = c.ended next opCost := by
  refine finish_none_proc hp ?_ opCost
  have hd := c.flagged_ldepth.trans h
  rw [Proc.endCheck]
  simp only [hd, Nat.succ_ne_zero, if_false, Nat.add_sub_cancel, flagged_le, hne]

/-- Without a word to store an instruction changes its processor alone. -/
theorem finish_frame (h : c.writes = []) (next : Nat) (taken : Option Nat) (opCost : Nat) :
    ∃ pr, c.finish next taken opCost = c.s.setProc c.p pr := by
  unfold finish
  rw [storeAll_of_no_writes h]
  exact ⟨_, rfl⟩

end Cx

/-! ## The runner -/

section Runner

variable {s : State} {p code : Nat} {d : OpDesc} {body : Dec → Cx → Res State} {I : Instr} {i : Dec} {c c' : Cx} {t : State}

theorem State.retires_of_stands (h : s.stands p t) : s.retires p t = t := by
  obtain ⟨hedge, hhalt, hstep, hbreak⟩ := h
  have hbefore : s.beforeEdge p t = t := by
    rw [State.beforeEdge, if_neg]
    simp only [Bool.and_eq_true, decide_eq_true_eq]
    rintro ⟨⟨hp, ht⟩, hlt⟩
    exact absurd (hedge hp ht) (by omega)
  rw [State.retires, hbefore, State.debugCatch, hhalt, hstep, hbreak]
  rfl

/-- The command `I` is one instruction of processor `p`. -/
def RunsAs (I : Instr) (p code : Nat) (d : OpDesc) (body : Dec → Cx → Res State) : Prop :=
  ∀ s, exec I s = .next (s.runInstr p code d body)

namespace RunsAs

variable (hI : RunsAs I p code d body)
include hI

theorem exec_of_ok (hd : s.Decodes p code d i c) (hb : body i c = .ok t c') : exec I s = .next (s.retires p t) := by
  obtain ⟨hstep, w, c1, hf, rfl, hop, hdec⟩ := hd
  simp only [hI s, State.runInstr, hstep, hf, hop, hdec, hb, Res.andThen, decide_true, Bool.and_true, if_true]
  rfl

theorem exec_of_exc {e : Exc} (hd : s.Decodes p code d i c) (hb : body i c = .exc e c') :
    exec I s = .next (s.raises p e c') := by
  obtain ⟨hstep, w, c1, hf, rfl, hop, hdec⟩ := hd
  simp only [hI s, State.runInstr, hstep, hf, hop, hdec, hb, Res.andThen, decide_true, Bool.and_true, if_true]
  rfl

theorem exec_of_fetch_exc {e : Exc} (hstep : s.canStep p = true) (hf : (s.cx p).fetch (s.proc p).pc.toNat = .exc e c') :
    exec I s = .next (s.raises p e c') := by
  simp only [hI s, State.runInstr, hstep, hf, if_true]
  rfl

theorem exec_of_decode_exc {e : Exc} {w : Nat} {c1 : Cx} (hstep : s.canStep p = true)
    (hf : (s.cx p).fetch (s.proc p).pc.toNat = .ok w c1) (hw : w / 2 ^ 27 = code)
    (hop : opAssigned p (s.proc p).priv code = true) (hdec : ({ c1 with first := w } : Cx).decode w d = .exc e c') :
    exec I s = .next (s.raises p e c') := by
  simp only [hI s, State.runInstr, hstep, hf, hw, hop, hdec, Res.andThen, decide_true, Bool.and_true, if_true]
  rfl

end RunsAs

/-- What stands is what the command answers. -/
theorem exec_of_stands (h : exec I s = .next (s.retires p t)) (hs : s.stands p t) : exec I s = .next t := by
  rw [h, State.retires_of_stands hs]

/-- Where it stands, what is true of the processor's registers is true of the answer's. -/
theorem exec_regs_of_stands {pr : Proc} {Q : Proc → Prop} (h : exec I s = .next (s.retires p t)) (hpr : t.proc p = pr)
    (hQ : Q pr) (hs : s.stands p t) : ∃ t, exec I s = .next t ∧ Q (t.proc p) :=
  ⟨t, exec_of_stands h hs, hpr ▸ hQ⟩

end Runner

/-! ## The rows of the instruction set -/

theorem DiurnRow.runsAs {p : Nat} {r : DiurnRow} (h : r ∈ diurnRows p) : RunsAs r.instr p r.code r.desc r.body := by
  intro s
  simp only [diurnRows, List.mem_append] at h
  rcases h with ((h | h) | h) | h
  all_goals repeat (rcases h with _ | ⟨_, h⟩; · rfl)
  all_goals exact nomatch h

theorem AluRow.runsAs {p : Nat} {r : AluRow} (h : r ∈ aluRows p) :
    RunsAs r.instr p r.code r.desc (aluBody r.desc r.readC r.f) := by
  intro s
  simp only [aluRows, List.mem_append] at h
  rcases h with h | h
  all_goals repeat (rcases h with _ | ⟨_, h⟩; · rfl)
  all_goals exact nomatch h

/-- Settles O13: every row is one instruction of its processor, whose runner fetches, decodes and executes. -/
theorem diurnInstructionsRun : Obligations.DiurnInstructionsRun := by
  intro p s r hr
  have hI := DiurnRow.runsAs hr
  refine ⟨fun i c hd => ⟨fun t c' hb => ?_, fun e c' hb => hI.exec_of_exc hd hb⟩, fun hstep => ⟨?_, ?_⟩⟩
  · exact ⟨hI.exec_of_ok hd hb, exec_of_stands (hI.exec_of_ok hd hb)⟩
  · intro e c' hf
    exact hI.exec_of_fetch_exc hstep hf
  · intro w c1 hf hw hop e c' hdec
    exact hI.exec_of_decode_exc hstep hf hw hop hdec

end Sys2Proof.Machine
end

section
/-! SUPPORT. The opcodes that compute C from A, B and C (R129, R144, R145), and the statement about their rows. -/

namespace Sys2Proof.Machine

section AluEnd

variable {c k : Cx} {d : OpDesc} {o : Opnds} {r : AluOut} {e : Exc} {z : Sz}

theorem Cx.aluEnd_of_exc (he : aluExc c.pr r = some e) (next : Nat) : c.aluEnd d o r next = .exc e c := by
  rw [aluEnd, he]

theorem Cx.aluEnd_without_c (he : aluExc c.pr r = none) (hd : d.c = none) (next : Nat) :
    c.aluEnd d o r next = .ok (({ c with pr := c.pr.setFlags r } : Cx).finish next none d.cost) c := by
  simp only [aluEnd, he, hd]

theorem Cx.aluEnd_of_put (he : aluExc c.pr r = none) (hd : d.c = some z) (ho : o.c ≠ .spr 2)
    (hput : c.put o.c z r.val 3 = .ok () k) (next : Nat) :
    c.aluEnd d o r next = .ok (({ k with pr := k.pr.setFlags r } : Cx).finish next none d.cost) k := by
  simp only [aluEnd, he, hd, if_neg ho, hput, Res.andThen]

theorem Cx.aluEnd_of_put_exc (he : aluExc c.pr r = none) (hd : d.c = some z) (ho : o.c ≠ .spr 2)
    (hput : c.put o.c z r.val 3 = .exc e k) (next : Nat) : c.aluEnd d o r next = .exc e k := by
  simp only [aluEnd, he, hd, if_neg ho, hput, Res.andThen]

/-- A result written to SW keeps the operation's flags out (R111). -/
theorem Cx.aluEnd_of_sw (he : aluExc c.pr r = none) (hd : d.c = some z) (ho : o.c = .spr 2)
    (hput : ({ c with tset := false } : Cx).put o.c z r.val 3 = .ok () k) (next : Nat) :
    c.aluEnd d o r next = .ok (k.finish next none d.cost) k := by
  simp only [aluEnd, he, hd, if_pos ho, hput, Res.andThen]

/-- An index register takes every word. -/
theorem Cx.put_ix (c : Cx) {s : Nat} (hs : 28 ≤ s) (z : Sz) (v : Nat) :
    c.put (.spr s) z v 3 = .ok () { c with pr := c.pr.srPut c.p s (v % 2 ^ 36) } := by
  rw [put, srWrite, if_neg (by omega), if_neg (by omega)]

/-- An operation that leaves LDEPTH 0 goes on at the next address. -/
theorem Cx.finish_setFlags_proc {p : Nat} (hp : c.p = p) (h : c.pr.ldepth = 0) (r : AluOut) (next opCost : Nat) :
    (({ c with pr := c.pr.setFlags r } : Cx).finish next none opCost).proc p =
      ({ c with pr := c.pr.setFlags r } : Cx).ended next opCost :=
  Cx.finish_proc_of_no_loop (c := { c with pr := c.pr.setFlags r }) hp ((c.pr.setFlags_ldepth r).trans h) next opCost

end AluEnd

theorem AluRow.Reads.body_eq {r : AluRow} {i : Dec} {c c' : Cx} {o : Opnds} {a b cv : Nat}
    (h : r.Reads i c o a b cv c') :
    aluBody r.desc r.readC r.f i c = c'.aluEnd r.desc o (r.f a b cv c'.pr) i.next := by
  obtain ⟨c1, c2, c3, h1, h2, h3, h4⟩ := h
  simp only [aluBody, Res.andThen, h1, h2, h3, h4]

/-- Settles O15: the operand phases lead to `Cx.aluEnd`, whose cases are the lemmas above. -/
theorem aluRowsCompute : Obligations.AluRowsCompute := by
  intro p s r hr i c c' o a b cv hd hreads
  have hI := AluRow.runsAs hr
  have hbody := hreads.body_eq
  have hp : c'.p = p := hreads.sameUnit.p.trans hd.p_eq
  generalize r.f a b cv c'.pr = x at hbody ⊢
  refine ⟨fun e he => hI.exec_of_exc hd (hbody.trans (Cx.aluEnd_of_exc he _)), fun he => ⟨?noC, ?index, ?mem, ?put⟩⟩
  case noC =>
    intro hc
    have hrun := hI.exec_of_ok hd (hbody.trans (Cx.aluEnd_without_c he hc _))
    exact ⟨hrun, fun hst hl => exec_regs_of_stands (Q := fun q => q.pc = a24 i.next) hrun
      (Cx.finish_setFlags_proc hp hl _ _ _) rfl hst⟩
  case index =>
    intro k hc ho hk hk' hix hl hst
    have hsw : o.c ≠ .spr 2 := by rw [ho]; intro h; injection h; omega
    have hput := Cx.aluEnd_of_put he hc hsw (ho ▸ c'.put_ix hk .w x.val) i.next
    have hix' := Proc.srPut_ix (pr := c'.pr) c'.p (x.val % 2 ^ 36) hk hk'
    have hpc := Cx.finish_setFlags_proc (c := { c' with pr := c'.pr.srPut c'.p k (x.val % 2 ^ 36) })
      hp (by rw [hix']; exact hl) x i.next r.desc.cost
    refine exec_regs_of_stands (Q := fun q => q.pc = a24 i.next ∧ q.srRead p k = x.val % 2 ^ 36)
      (hI.exec_of_ok hd (hbody.trans hput)) hpc ⟨rfl, ?_⟩ hst
    rw [Proc.srRead_ix _ hk hk', Cx.ended_ix, Proc.setFlags_ix, hix']
    rw [getD_set_self hix, BitVec.toNat_ofNat, Nat.mod_mod]
  case mem =>
    intro k hc ho hl c2 hput hst
    have hsw : o.c ≠ .spr 2 := by rw [ho]; nofun
    have hsame : c'.SameUnit c2 := Cx.write_okIn (.refl c') k x.val 3 () c2 (by rwa [ho] at hput)
    have hpc := Cx.finish_setFlags_proc (hsame.p.trans hp) (by rwa [hsame.pr]) x i.next r.desc.cost
    exact exec_regs_of_stands (Q := fun q => q.pc = a24 i.next)
      (hI.exec_of_ok hd (hbody.trans (Cx.aluEnd_of_put he hc hsw hput i.next))) hpc rfl hst
  case put =>
    intro z hc
    refine ⟨fun ho => ⟨fun k hput => ?_, fun e k hput => ?_⟩, fun ho k hput => ?_⟩
    · exact hI.exec_of_ok hd (hbody.trans (Cx.aluEnd_of_put he hc ho hput _))
    · exact hI.exec_of_exc hd (hbody.trans (Cx.aluEnd_of_put_exc he hc ho hput _))
    · exact hI.exec_of_ok hd (hbody.trans (Cx.aluEnd_of_sw he hc ho hput _))

end Sys2Proof.Machine
end

section
/-! SUPPORT. An instruction whose word in tick memory has a changed bit: the fetch corrects it and counts it (R70), so that
the statement about what a computing opcode leaves unchanged fails. -/

namespace Sys2Proof.Machine

/-- The word of `ADD 5, 7` with FP, special register 4, as C (opcode 0o101). -/
def addWord : Nat := 2 ^ 27 * 0o101 + 2 ^ 18 * 5 + 2 ^ 9 * 7 + 68

/-- What that word decodes to at address 0. -/
def addDec : Dec := ⟨5, 7, 68, [], [], [], 1⟩

/-- The row of ADD on engine 0. -/
def addRow0 : AluRow := ⟨.add 0, 0o101, dBin 1, false, fun a b _ _ => aluAdd 36 a b 0⟩

/-- Engine 0 at word 0 of its tick memory in Station supervisor; that word holds the instruction with an error that the
code corrects. -/
def upsetEngine : State :=
  (({ State.reset with procs := [(0, { Proc.reset 0 with run := .running, sw := 1 })] } : State).poke 0
    (natToBytes 8 addWord)).sramUpset 0 false

/-- The instruction once its word has been fetched and decoded. -/
def upsetFetched : Cx := { upsetEngine.cx 0 with s := upsetEngine.sramCe 0 0, cost := 1, first := addWord }

theorem upsetEngine_decodes : upsetEngine.Decodes 0 0o101 (dBin 1) addDec upsetFetched :=
  ⟨by decide +kernel, addWord, _, rfl, by decide, by decide, rfl⟩

/-- Refutes O16: ADD on short immediates and FP completes, and the fetch of its word has counted a corrected error in
MEM_PART_CE[0] (R70). -/
theorem not_aluRegisterFormFrame : ¬ Obligations.AluRegisterFormFrame := by
  intro h
  have hmem : addRow0 ∈ aluRows 0 := .tail _ (.head _)
  obtain ⟨-, hregs, -⟩ := h 0 upsetEngine addRow0 addDec upsetFetched _ _ (by decide) hmem upsetEngine_decodes
    (.inr (.inr (by decide))) (.inr (by decide)) (.inr (by decide)) rfl
  exact absurd (hregs (MEM_PART_CE 0) (by decide)).1 (by decide +kernel)

end Sys2Proof.Machine
end

section
/-! SUPPORT. The processors at reset and at a tick entry (R108, R181), and the statement about them. -/

namespace Sys2Proof.Machine

/-- At reset each special register but SW reads zero, whatever privilege state SW gives: the banks hold zeros alone. -/
theorem Proc.reset_srRead (p q : Nat) {r : Nat} (h : r ≠ 2) : (Proc.reset q).srRead p r = 0 := by
  have h0 (n : Nat) : (0 : BitVec n).toNat = 0 := BitVec.toNat_zero
  have h2 (k : Nat) : ([0, 0] : List Addr24).getD k 0 = 0 := match k with
    | 0 | 1 | _ + 2 => rfl
  have h4 (n k : Nat) : ([0, 0, 0, 0] : List (BitVec n)).getD k 0 = 0 := match k with
    | 0 | 1 | 2 | 3 | _ + 4 => rfl
  simp only [srRead, spv, h, reset, h0, h2, h4, if_false, ite_self]

/-- Settles O7: no processor has been written at reset, and a tick entry loads the FE_INIT values. -/
theorem resetProcessorsReadZeroButSw : Obligations.ResetProcessorsReadZeroButSw := by
  refine ⟨fun p _ => ⟨fun r _ hr => Proc.reset_srRead p p hr, rfl, ?_⟩, fun s n _ => ⟨rfl, fun k hk => ?_, fun w hw => ?_⟩⟩
  · show (if p < 32 then 3 else 0 : Word36).toNat = _
    split <;> rfl
  · obtain rfl | rfl | rfl | rfl : k = 0 ∨ k = 1 ∨ k = 2 ∨ k = 3 := by omega
    all_goals rfl
  · obtain rfl | rfl : w = 0 ∨ w = 1 := by omega
    all_goals rfl

end Sys2Proof.Machine
end

section
/-! SUPPORT. LOOP, LPOP and the end check (R135, R136, R151), NOP and WAIT (R142, R152), and the statement about them. -/

namespace Sys2Proof.Machine

/-- The operands of LOOP. -/
abbrev dLoop : OpDesc := ⟨some .w, some .w, none, false, 2⟩

/-- The registers with a level opened at `d`: from `next` to `e`, `n` times (R135). -/
def Proc.openLevel (pr : Proc) (d next e n : Nat) : Proc :=
  { pr with
    ls := pr.ls.set d (a24 next), le := pr.le.set d (a24 e), lc := pr.lc.set d (a24 n), lx := pr.lx.set d 0
    sw := swSet pr.sw 19 17 (d + 1) }

/-- The registers with level `d` closed (R151). -/
def Proc.closeLevel (pr : Proc) (d : Nat) : Proc :=
  { pr with lc := pr.lc.set d 0, lx := pr.lx.set d 0, sw := swSet pr.sw 19 17 d }

/-! ## LOOP, case by case -/

section Loop

variable {i : Dec} {c c' : Cx} {o : Opnds} {n e : Nat} (hr : c.ReadsAB dLoop i o n e c')
include hr

theorem loopBody_of_nested (hd : 4 ≤ c'.pr.ldepth) : loopBody i c = .exc ⟨vLOOP, 0x30, 0, 0⟩ c' := by
  obtain ⟨c1, c2, h1, h2, h3⟩ := hr
  simp only [loopBody, Res.andThen, h1, h2, h3, hd, if_true]

theorem loopBody_of_count_range (hd : c'.pr.ldepth < 4) (hn : 2 ^ 24 ≤ n) :
    loopBody i c = .exc ⟨vLOOP, 0x31, 1, 0⟩ c' := by
  obtain ⟨c1, c2, h1, h2, h3⟩ := hr
  simp only [loopBody, Res.andThen, h1, h2, h3, Nat.not_le.2 hd, hn, if_true, if_false]

theorem loopBody_of_empty_body (hd : c'.pr.ldepth < 4) (hn : n < 2 ^ 24) (he : 2 ^ 24 ≤ e ∨ e ≤ i.next) :
    loopBody i c = .exc ⟨vLOOP, 0x32, 2, 0⟩ c' := by
  obtain ⟨c1, c2, h1, h2, h3⟩ := hr
  simp only [loopBody, Res.andThen, h1, h2, h3, Nat.not_le.2 hd, Nat.not_le.2 hn, he, if_true, if_false]

/-- The operands of a LOOP that raises nothing. -/
theorem loopBody_of_checked (hd : c'.pr.ldepth < 4) (hn : n < 2 ^ 24) (he : e < 2 ^ 24) (hi : i.next < e) :
    loopBody i c = .ok (if n = 0 then c'.finish i.next (some e) 2
      else ({ c' with pr := c'.pr.openLevel c'.pr.ldepth i.next e n } : Cx).finish i.next none 2) c' := by
  obtain ⟨c1, c2, h1, h2, h3⟩ := hr
  have hbody : ¬ (2 ^ 24 ≤ e ∨ e ≤ i.next) := by omega
  simp only [loopBody, Res.andThen, h1, h2, h3, Nat.not_le.2 hd, Nat.not_le.2 hn, hbody, if_false]
  split <;> rfl

end Loop

/-- A level opened above its start is not closed by the end check of its own LOOP. -/
theorem openLevel_finish_proc {c : Cx} {p next e n : Nat} (hp : c.p = p) (hd : c.pr.ldepth < 4) (he : e < 2 ^ 24)
    (hi : next < e) (hle : c.pr.ldepth < c.pr.le.length) (opCost : Nat) :
    (({ c with pr := c.pr.openLevel c.pr.ldepth next e n } : Cx).finish next none opCost).proc p =
      ({ c with pr := c.pr.openLevel c.pr.ldepth next e n } : Cx).ended next opCost := by
  refine Cx.finish_proc_of_ne_end (c := { c with pr := c.pr.openLevel c.pr.ldepth next e n }) (d := c.pr.ldepth) hp
    (Proc.ldepth_set (by omega) _) ?_ opCost
  show ((c.pr.le.set c.pr.ldepth (a24 e)).getD c.pr.ldepth 0).toNat ≠ next
  rw [getD_set_self hle, a24_toNat_of_lt he]
  omega

theorem lpopBody_of_no_loop {i : Dec} {c : Cx} (h : c.pr.ldepth = 0) :
    lpopBody i c = .ok (c.finish i.next none 1) c := by
  simp only [lpopBody, h, if_true]

theorem lpopBody_of_loop {i : Dec} {c : Cx} (h : 0 < c.pr.ldepth) :
    lpopBody i c = .ok (({ c with pr := c.pr.closeLevel (c.pr.ldepth - 1) } : Cx).finish i.next none 1) c := by
  simp only [lpopBody, Nat.ne_of_gt h, if_false]
  rfl

/-- At the end of the innermost level with more than one pass left the end check goes back to its start and counts
(R136). -/
theorem endCheck_of_more_passes {k d next : Nat} {pr : Proc} (hd : pr.ldepth = d + 1)
    (hle : (pr.le.getD d 0).toNat = next) (hlc : 1 < (pr.lc.getD d 0).toNat) :
    Proc.endCheck (k + 1) pr next =
      ({ pr with
        lc := pr.lc.set d (a24 ((pr.lc.getD d 0).toNat - 1)), lx := pr.lx.set d (a24 ((pr.lx.getD d 0).toNat + 1)) },
        (pr.ls.getD d 0).toNat) := by
  rw [Proc.endCheck]
  simp only [hd, Nat.succ_ne_zero, if_false, Nat.add_sub_cancel, hle, hlc, if_true]

/-- An instruction that has only been fetched and decoded ends with the memory and the registers it found, its own
processor apart. -/
theorem State.Decodes.finish_frame {s : State} {p code : Nat} {d : OpDesc} {i : Dec} {c : Cx} (h : s.Decodes p code d i c)
    (next : Nat) (taken : Option Nat) (opCost : Nat) :
    SameMem c.s (c.finish next taken opCost) ∧ SameRegs [] c.s (c.finish next taken opCost) ∧
      SameProcs [p] c.s (c.finish next taken opCost) := by
  obtain ⟨pr, hpr⟩ := Cx.finish_frame h.fetched.writes next taken opCost
  rw [hpr]
  exact ⟨.of_eq rfl, .of_eq rfl rfl (.refl c.s []), h.p_eq ▸ .setProc c.s c.p pr⟩

/-- Settles O22: the cases of LOOP and LPOP, and the processor's registers at each one's end. -/
theorem loopRows : Obligations.LoopRows := by
  refine ⟨?loop, ?lpop, ?nop, ?wait, ?endCheck⟩
  case loop =>
    intro p s i c c' o n e hd hr
    have hI : RunsAs (.loop p) p 0o005 dLoop loopBody := fun _ => rfl
    have hp : c'.p = p := hr.sameUnit.p.trans hd.p_eq
    refine ⟨fun h => hI.exec_of_exc hd (loopBody_of_nested hr h), fun h hn => hI.exec_of_exc hd (loopBody_of_count_range hr h hn),
      fun h hn he => hI.exec_of_exc hd (loopBody_of_empty_body hr h hn he), ?zero, ?opened⟩
    case zero =>
      intro h hn he hi
      have hrun := hI.exec_of_ok hd (loopBody_of_checked hr h (by omega) he hi)
      rw [if_pos hn] at hrun
      exact ⟨hrun, exec_regs_of_stands (Q := fun q => q.pc.toNat = e) hrun (Cx.finish_taken_proc hp _ _ _)
        (a24_toNat_of_lt he)⟩
    case opened =>
      intro h hpos hn he hi
      have hrun := hI.exec_of_ok hd (loopBody_of_checked hr h hn he hi)
      rw [if_neg (by omega)] at hrun
      refine ⟨hrun, ?_⟩
      rintro u rfl hst - hle hlc
      refine exec_regs_of_stands (Q := fun q => q.ldepth = c'.pr.ldepth + 1 ∧ q.lc.getD c'.pr.ldepth 0 = a24 n ∧
        q.pc = a24 i.next) hrun (openLevel_finish_proc hp h he hi hle 2) ⟨?_, ?_, rfl⟩ hst
      · exact (Cx.ended_ldepth _ _ _).trans (Proc.ldepth_set (by omega) _)
      · rw [Cx.ended_lc]
        exact getD_set_self hlc _ _
  case lpop =>
    intro p s i c hd
    have hI : RunsAs (.lpop p) p 0o006 (dNone 1) lpopBody := fun _ => rfl
    refine ⟨fun h => ?none, fun h => hI.exec_of_ok hd (lpopBody_of_loop h), ?one⟩
    case none =>
      have hrun := hI.exec_of_ok hd (lpopBody_of_no_loop h)
      exact ⟨hrun, exec_regs_of_stands (Q := fun q => q.pc = a24 i.next ∧ q.ldepth = 0) hrun
        (Cx.finish_proc_of_no_loop hd.p_eq h _ _) ⟨rfl, (Cx.ended_ldepth _ _ _).trans h⟩⟩
    case one =>
      rintro u h rfl hst
      have hrun := hI.exec_of_ok hd (lpopBody_of_loop (i := i) (by omega))
      rw [h] at hrun
      have h0 : (c.pr.closeLevel 0).ldepth = 0 := Proc.ldepth_set (by decide) _
      exact exec_regs_of_stands (Q := fun q => q.ldepth = 0 ∧ q.pc = a24 i.next) hrun
        (Cx.finish_proc_of_no_loop (c := { c with pr := c.pr.closeLevel 0 }) hd.p_eq h0 _ _)
        ⟨(Cx.ended_ldepth _ _ _).trans h0, rfl⟩ hst
  case nop =>
    intro p s i c hd
    have hI : RunsAs (.nop p) p 0o001 (dNone 0) nopBody := fun _ => rfl
    have hrun := hI.exec_of_ok hd (c' := c) rfl
    refine ⟨hrun, fun h hst => ⟨_, exec_of_stands hrun hst, ?_, hd.finish_frame _ _ _⟩⟩
    rw [Cx.finish_proc_of_no_loop hd.p_eq h]
    rfl
  case wait =>
    intro p s i c hd
    have hI : RunsAs (.wait p) p 0o024 (dNone 1) waitBody := fun _ => rfl
    have hrun := hI.exec_of_ok hd (c' := c) rfl
    obtain ⟨hmem, hregs, -⟩ := hd.finish_frame i.next none 1
    refine ⟨hrun, fun h hst => ⟨_, exec_of_stands hrun hst, ?_, ?_, hmem.trans (.of_eq rfl), .of_eq rfl rfl hregs⟩⟩
    · rw [hd.p_eq, State.proc_setProc_self]
    · rw [hd.p_eq, State.proc_setProc_self, Cx.finish_proc_of_no_loop hd.p_eq h]
      rfl
  case endCheck =>
    intro k pr next d hd hle hlc hlen hlen'
    rw [endCheck_of_more_passes hd hle hlc]
    refine ⟨rfl, ?_, getD_set_self hlen' _ _⟩
    have hlt := (pr.lc.getD d 0).isLt
    show ((pr.lc.set d _).getD d 0).toNat = _
    rw [getD_set_self hlen, a24_toNat_of_lt (by omega)]

end Sys2Proof.Machine
end

section
/-! SUPPORT. PUSH, POP, ENTER and LEAVE (R149), and the statement about them. -/

namespace Sys2Proof.Machine

/-! ## The stack pointer and a pushed or popped word -/

theorem Cx.setSp_spv {c : Cx} (h : c.pr.priv < c.pr.sp.length) (v : Nat) : (c.setSp v).pr.spv = v % 2 ^ 24 :=
  Proc.srPut_spv c.p v h

theorem Proc.spv_lt (pr : Proc) : pr.spv < 2 ^ 24 := (pr.sp.getD pr.priv 0).isLt

theorem Cx.push_of_empty {c : Cx} (h : c.pr.spv = 0) (v : Nat) : c.push v = .exc ⟨vADDRESS, 0x21, 0, 2 ^ 36 - 1⟩ c := by
  simp only [push, h, if_true]

theorem Cx.push_of_write {c c' : Cx} {v : Nat} (h : c.pr.spv ≠ 0) (hw : c.write (c.pr.spv - 1) v 0 = .ok () c') :
    c.push v = .ok (c.pr.spv - 1) c' := by
  simp only [push, h, if_false, hw, Res.andThen]

theorem Cx.pop_of_top {c : Cx} {sp : Nat} (h : sp + 1 = 2 ^ 24) : c.pop sp = .exc ⟨vADDRESS, 0x21, 0, 2 ^ 24⟩ c := by
  rw [pop, if_pos h]

theorem Cx.pop_of_ne_top {c : Cx} {sp : Nat} (h : sp + 1 ≠ 2 ^ 24) : c.pop sp = c.read sp 0 := by
  rw [pop, if_neg h]

/-- A stack operation that leaves LDEPTH 0 ends with SP and PC where it put them. -/
theorem Cx.finish_setSp_proc {c : Cx} {p : Nat} (hp : c.p = p) (h : c.pr.ldepth = 0) (sp next opCost : Nat) :
    ((c.setSp sp).finish next none opCost).proc p = (c.setSp sp).ended next opCost :=
  Cx.finish_proc_of_no_loop (c := c.setSp sp) hp h next opCost

/-! ## The bodies, case by case -/

section Bodies

variable {i : Dec} {c c1 c2 c3 : Cx} {o : Opnds} {v sp : Nat} {e : Exc}

theorem pushBody_of_exc (hr : c.ReadsA (dA 1) i o v c1) (hpush : c1.push v = .exc e c2) : pushBody i c = .exc e c2 := by
  obtain ⟨c0, h1, h2⟩ := hr
  simp only [pushBody, Res.andThen, h1, h2, hpush]

theorem pushBody_of_push (hr : c.ReadsA (dA 1) i o v c1) (hpush : c1.push v = .ok sp c2) :
    pushBody i c = .ok ((c2.setSp sp).finish i.next none 1) c2 := by
  obtain ⟨c0, h1, h2⟩ := hr
  simp only [pushBody, Res.andThen, h1, h2, hpush]

theorem popBody_of_exc (hr : c.phase1 (dC 1) i = .ok o c1) (hpop : c1.pop c1.pr.spv = .exc e c2) :
    popBody i c = .exc e c2 := by
  simp only [popBody, Res.andThen, hr, hpop]

theorem popBody_of_put (hr : c.phase1 (dC 1) i = .ok o c1) (hpop : c1.pop c1.pr.spv = .ok v c2)
    (hput : (c2.setSp (c2.pr.spv + 1)).put o.c .w v 3 = .ok () c3) :
    popBody i c = .ok ((if o.c = .spr 2 then { c3 with tset := false } else c3).finish i.next none 1) c3 := by
  simp only [popBody, Res.andThen, hr, hpop, hput]

theorem enterBody_of_big (hr : c.ReadsA (dA 2) i o v c1) (hv : 2 ^ 24 ≤ v) :
    enterBody i c = .exc ⟨vADDRESS, 0x23, 1, v⟩ c1 := by
  obtain ⟨c0, h1, h2⟩ := hr
  simp only [enterBody, Res.andThen, h1, h2, hv, if_true]

theorem enterBody_of_push (hr : c.ReadsA (dA 2) i o v c1) (hv : v < 2 ^ 24) (hpush : c1.push c1.pr.fp.toNat = .ok sp c2)
    (hsp : v ≤ sp) :
    enterBody i c =
      .ok ((({ c2 with pr := { c2.pr with fp := a24 sp } } : Cx).setSp (sp - v)).finish i.next none 2) c2 := by
  obtain ⟨c0, h1, h2⟩ := hr
  simp only [enterBody, Res.andThen, h1, h2, hpush, Nat.not_le.2 hv, Nat.not_lt.2 hsp, if_false]

theorem leaveBody_of_big (hpop : c.pop c.pr.fp.toNat = .ok v c1) (hv : 2 ^ 24 ≤ v) :
    leaveBody i c = .exc ⟨vADDRESS, 0x23, 0, v⟩ c1 := by
  simp only [leaveBody, Res.andThen, hpop, hv, if_true]

theorem leaveBody_of_pop (hpop : c.pop c.pr.fp.toNat = .ok v c1) (hv : v < 2 ^ 24) :
    leaveBody i c =
      .ok ((({ c1 with pr := { c1.pr with fp := a24 v } } : Cx).setSp (c.pr.fp.toNat + 1)).finish i.next none 2) c1 := by
  simp only [leaveBody, Res.andThen, hpop, Nat.not_le.2 hv, if_false]

end Bodies

/-- With FP and SP replaced at LDEPTH 0 the processor ends with both where they were put (ENTER, LEAVE). -/
theorem Cx.finish_frame_pointers {c : Cx} {p : Nat} (hp : c.p = p) (h : c.pr.ldepth = 0)
    (hsp : c.pr.priv < c.pr.sp.length) (fp : Addr24) (sp next opCost : Nat) :
    ∃ pr, ((({ c with pr := { c.pr with fp := fp } } : Cx).setSp sp).finish next none opCost).proc p = pr ∧
      pr.fp = fp ∧ pr.spv = sp % 2 ^ 24 ∧ pr.pc = a24 next :=
  ⟨_, Cx.finish_setSp_proc (c := { c with pr := { c.pr with fp := fp } }) hp h sp next opCost, Cx.ended_fp _ _ _,
    (Cx.ended_spv _ _ _).trans (Cx.setSp_spv (c := { c with pr := { c.pr with fp := fp } }) hsp sp), rfl⟩

/-- Settles O23: each body's cases, and SP, FP and PC at its end. -/
theorem stackRows : Obligations.StackRows := by
  refine ⟨?push, ?pop, ?enter, ?leave, ?setSp⟩
  case push =>
    intro p s i c c1 c2 o v hd hr
    have hI : RunsAs (.push p) p 0o040 (dA 1) pushBody := fun _ => rfl
    refine ⟨fun h => hI.exec_of_exc hd (pushBody_of_exc hr (Cx.push_of_empty h v)), fun h hw => ?_⟩
    have hrun := hI.exec_of_ok hd (pushBody_of_push hr (Cx.push_of_write h hw))
    refine ⟨hrun, fun hl hsp => ?_⟩
    have hp : c2.p = p := (Cx.write_okIn hr.sameUnit _ _ _ _ _ hw).p.trans hd.p_eq
    refine exec_regs_of_stands (Q := fun q => q.spv = c1.pr.spv - 1 ∧ q.pc = a24 i.next) hrun
      (Cx.finish_setSp_proc hp hl _ _ _) ⟨?_, rfl⟩
    have hlt := c1.pr.spv_lt
    rw [Cx.ended_spv, Cx.setSp_spv hsp, Nat.mod_eq_of_lt (by omega)]
  case pop =>
    intro p s i c c1 c2 c3 o v hd hr
    have hI : RunsAs (.pop p) p 0o041 (dC 1) popBody := fun _ => rfl
    refine ⟨fun h => hI.exec_of_exc hd (popBody_of_exc hr (Cx.pop_of_top h)), fun h hread hput => ?_⟩
    have hrun := hI.exec_of_ok hd (popBody_of_put hr ((Cx.pop_of_ne_top h).trans hread) hput)
    refine ⟨hrun, fun ho hl => ?_⟩
    rw [if_neg ho] at hrun
    have h02 : c.SameUnit c2 := Cx.read_okIn (Cx.phase1_okIn _ _ _ _ _ hr) _ _ _ _ hread
    have hp : c3.p = p := (Cx.put_okIn _ _ _ _ _ _ _ hput).trans (h02.p.trans hd.p_eq)
    exact exec_regs_of_stands (Q := fun q => q.spv = c3.pr.spv ∧ q.pc = a24 i.next) hrun
      (Cx.finish_proc_of_no_loop hp hl _ _) ⟨Cx.ended_spv _ _ _, rfl⟩
  case enter =>
    intro p s i c c1 c2 o v sp hd hr
    have hI : RunsAs (.enter p) p 0o042 (dA 2) enterBody := fun _ => rfl
    refine ⟨fun hv => hI.exec_of_exc hd (enterBody_of_big hr hv), fun hv hpush hle => ?_⟩
    have hrun := hI.exec_of_ok hd (enterBody_of_push hr hv hpush hle)
    refine ⟨hrun, fun hl hsp => ?_⟩
    have hp : c2.p = p := (hr.sameUnit.trans (c1.push_okIn _ _ _ hpush)).p.trans hd.p_eq
    obtain ⟨pr, hpr, hQ⟩ := Cx.finish_frame_pointers hp hl hsp (a24 sp) (sp - v) i.next 2
    exact exec_regs_of_stands (Q := fun q => q.fp = a24 sp ∧ q.spv = (sp - v) % 2 ^ 24 ∧ q.pc = a24 i.next) hrun hpr hQ
  case leave =>
    intro p s i c c1 v hd hpop
    have hI : RunsAs (.leave p) p 0o043 (dNone 2) leaveBody := fun _ => rfl
    refine ⟨fun hv => hI.exec_of_exc hd (leaveBody_of_big hpop hv), fun hv => ?_⟩
    have hrun := hI.exec_of_ok hd (leaveBody_of_pop hpop hv)
    refine ⟨hrun, fun hl hsp => ?_⟩
    have hp : c1.p = p := (c.pop_okIn _ _ _ hpop).p.trans hd.p_eq
    obtain ⟨pr, hpr, hQ⟩ := Cx.finish_frame_pointers hp hl hsp (a24 v) (c.pr.fp.toNat + 1) i.next 2
    exact exec_regs_of_stands (Q := fun q => q.fp = a24 v ∧ q.spv = (c.pr.fp.toNat + 1) % 2 ^ 24 ∧ q.pc = a24 i.next)
      hrun hpr hQ
  case setSp =>
    intro c v h hv
    rw [Cx.setSp_spv h, Nat.mod_eq_of_lt hv]

end Sys2Proof.Machine
end

section
/-! SUPPORT. Two's complement (R97): the model's reading and narrowing of numbers are the library's on bit vectors, and V
says where narrowing loses (R153, R155). -/

namespace Sys2Proof.Machine

/-- Reading a number as signed changes it by a multiple of 2^w only. -/
theorem ofInt_toSigned (w x : Nat) : BitVec.ofInt w (toSigned w x) = BitVec.ofNat w x := by
  rw [toSigned]
  split
  · exact BitVec.ofInt_natCast w x
  · apply BitVec.eq_of_toNat_eq
    rw [BitVec.toNat_ofInt, BitVec.toNat_ofNat, Int.natCast_pow, Int.cast_ofNat_Int, Int.sub_emod_right]
    rw [← Int.cast_ofNat_Int, ← Int.natCast_pow, ← Int.natCast_emod, Int.toNat_natCast]

/-- `ofInt` is the library's narrowing. -/
theorem ofInt_eq_toNat (w : Nat) (i : Int) : ofInt w i = (BitVec.ofInt w i).toNat := by
  rw [ofInt, BitVec.toNat_ofInt, Int.natCast_pow, Int.cast_ofNat_Int]

/-- `toSigned` is the library's reading of a `w`-bit number. -/
theorem toSigned_eq_toInt {w x : Nat} (hw : 0 < w) (hx : x < 2 ^ w) : toSigned w x = (BitVec.ofNat w x).toInt := by
  have h2 : 2 ^ w = 2 * 2 ^ (w - 1) := by rw [Nat.mul_comm, Nat.pow_pred_mul hw]
  rw [BitVec.toInt_eq_toNat_cond, BitVec.toNat_ofNat, Nat.mod_eq_of_lt hx, toSigned, Int.natCast_pow, Int.cast_ofNat_Int]
  exact ite_cond_congr (propext (by omega))

theorem toSigned_ofInt {w : Nat} (hw : 0 < w) (i : Int) : toSigned w (ofInt w i) = (BitVec.ofInt w i).toInt := by
  rw [ofInt_eq_toNat, toSigned_eq_toInt hw (BitVec.isLt _), BitVec.ofNat_toNat, BitVec.setWidth_eq]

theorem overflows_eq_false_iff {w : Nat} {i : Int} : overflows w i = false ↔ -2 ^ (w - 1) ≤ i ∧ i < 2 ^ (w - 1) := by
  simp only [overflows, Bool.or_eq_false_iff, decide_eq_false_iff_not, Int.not_lt, Int.not_le]

/-- A number that does not overflow survives the narrowing. -/
theorem toSigned_ofInt_of_fits {w : Nat} (hw : 0 < w) {i : Int} (h : overflows w i = false) :
    toSigned w (ofInt w i) = i := by
  rw [toSigned_ofInt hw, BitVec.toInt_ofInt_eq_self hw (overflows_eq_false_iff.1 h).1 (overflows_eq_false_iff.1 h).2]

/-- The signed reading of a `w`-bit number does not overflow `w` bits. -/
theorem toSigned_fits {w x : Nat} (hw : 0 < w) (hx : x < 2 ^ w) : overflows w (toSigned w x) = false := by
  rw [overflows_eq_false_iff, toSigned_eq_toInt hw hx]
  exact ⟨BitVec.le_toInt _, BitVec.toInt_lt⟩

theorem ofInt_lt (w : Nat) (i : Int) : ofInt w i < 2 ^ w := ofInt_eq_toNat w i ▸ BitVec.isLt _

/-- V is set exactly where the narrowed result is not the exact one. -/
theorem overflows_iff_ne {w : Nat} (hw : 0 < w) (i : Int) : overflows w i = true ↔ toSigned w (ofInt w i) ≠ i := by
  refine ⟨fun h heq => ?_, fun h => ?_⟩
  · rw [← heq, toSigned_fits hw (ofInt_lt w i)] at h
    exact nomatch h
  · rw [← Bool.not_eq_false]
    exact fun hf => h (toSigned_ofInt_of_fits hw hf)

theorem toSigned_eq_iff {w a b : Nat} (hw : 0 < w) (ha : a < 2 ^ w) (hb : b < 2 ^ w) :
    toSigned w a = toSigned w b ↔ a = b := by
  refine ⟨fun h => ?_, congrArg _⟩
  rw [toSigned_eq_toInt hw ha, toSigned_eq_toInt hw hb, BitVec.toInt_inj] at h
  rw [← Nat.mod_eq_of_lt ha, ← Nat.mod_eq_of_lt hb, ← BitVec.toNat_ofNat, h, BitVec.toNat_ofNat]

theorem toSigned_ne_zero {b : Nat} (hb : b < 2 ^ 36) (h0 : b ≠ 0) : toSigned 36 b ≠ 0 :=
  fun h => h0 ((toSigned_eq_iff (w := 36) (by decide) hb (by decide)).1 h)

/-- Narrowing goes through a difference, as through the sum and the negation that the library has. -/
theorem bitVec_ofInt_sub (w : Nat) (i j : Int) : BitVec.ofInt w (i - j) = BitVec.ofInt w i - BitVec.ofInt w j := by
  rw [Int.sub_eq_add_neg, BitVec.ofInt_add, BitVec.ofInt_neg, BitVec.sub_eq_add_neg]

end Sys2Proof.Machine
end

section
/-! SUPPORT. Sums, differences, products and divisions (R153 to R156), and the statements about them. -/

namespace Sys2Proof.Machine

/-! ## Sum, difference, product -/

section Ring

variable {w : Nat} (a b k : Nat)

theorem aluAdd_val : (aluAdd w a b k).val = (BitVec.ofNat w a + BitVec.ofNat w b + BitVec.ofNat w k).toNat := by
  rw [← BitVec.ofNat_add, ← BitVec.ofNat_add, BitVec.toNat_ofNat]
  rfl

theorem aluAdd_val_eq_ofInt : (aluAdd w a b k).val = ofInt w (toSigned w a + toSigned w b + k) := by
  rw [aluAdd_val, ofInt_eq_toNat, BitVec.ofInt_add, BitVec.ofInt_add, ofInt_toSigned, ofInt_toSigned,
    BitVec.ofInt_natCast]

theorem aluAdd_v_iff (hw : 0 < w) :
    (aluAdd w a b k).v = some true ↔ toSigned w (aluAdd w a b k).val ≠ toSigned w a + toSigned w b + k := by
  rw [aluAdd_val_eq_ofInt, ← overflows_iff_ne hw]
  exact Option.some_inj

theorem aluSub_val : (aluSub w a b k).val = (BitVec.ofNat w a - BitVec.ofNat w b - BitVec.ofNat w k).toNat := by
  show ofInt w _ = _
  rw [ofInt_eq_toNat, bitVec_ofInt_sub, bitVec_ofInt_sub]
  simp only [BitVec.ofInt_natCast]

theorem aluSub_val_eq_ofInt : (aluSub w a b k).val = ofInt w (toSigned w a - toSigned w b - k) := by
  rw [aluSub_val, ofInt_eq_toNat, bitVec_ofInt_sub, bitVec_ofInt_sub, ofInt_toSigned, ofInt_toSigned,
    BitVec.ofInt_natCast]

theorem aluSub_v_iff (hw : 0 < w) :
    (aluSub w a b k).v = some true ↔ toSigned w (aluSub w a b k).val ≠ toSigned w a - toSigned w b - k := by
  rw [aluSub_val_eq_ofInt, ← overflows_iff_ne hw]
  exact Option.some_inj

theorem aluMul_val : (aluMul a b).val = (BitVec.ofNat 36 a * BitVec.ofNat 36 b).toNat := by
  show ofInt 36 _ = _
  rw [ofInt_eq_toNat, BitVec.ofInt_mul, ofInt_toSigned, ofInt_toSigned]

theorem aluMul_v_iff :
    (aluMul a b).v = some true ↔ toSigned 36 (aluMul a b).val ≠ toSigned 36 a * toSigned 36 b :=
  Option.some_inj.trans (overflows_iff_ne (by decide) _)

end Ring

/-! ## Divisions -/

/-- A truncated quotient leaves the range of its operands in one case alone, the least number by −1. -/
theorem tdiv_fits {i j : Int} (hi : overflows 36 i = false) (hij : ¬ (i = -2 ^ 35 ∧ j = -1)) :
    overflows 36 (i.tdiv j) = false := by
  rw [overflows_eq_false_iff] at hi ⊢
  have hle : (i.tdiv j).natAbs ≤ i.natAbs := Int.natAbs_tdiv_le_natAbs i j
  refine ⟨by omega, Int.lt_iff_le_and_ne.2 ⟨by omega, fun htop => hij ?_⟩⟩
  have habs : i.natAbs / j.natAbs = 2 ^ 35 := (Int.natAbs_tdiv i j).symm.trans (congrArg Int.natAbs htop)
  have hj : j.natAbs < 2 := Nat.lt_of_not_le fun hj => by
    have hhalf : i.natAbs / j.natAbs ≤ i.natAbs / 2 := Nat.div_le_div_left hj (by decide)
    omega
  obtain rfl | rfl | rfl : j = 0 ∨ j = 1 ∨ j = -1 := by omega
  · rw [Int.tdiv_zero] at htop
    omega
  · rw [Int.tdiv_one] at htop
    omega
  · rw [Int.tdiv_neg, Int.tdiv_one] at htop
    omega

theorem natAbs_tmod_lt {i j : Int} (hj : j ≠ 0) : (i.tmod j).natAbs < j.natAbs := by
  rw [Int.natAbs_tmod]
  exact Nat.mod_lt _ (Int.natAbs_pos.2 hj)

/-- A remainder has the dividend's sign. -/
theorem tmod_eq_zero_or_neg_iff (i j : Int) : i.tmod j = 0 ∨ (i.tmod j < 0 ↔ i < 0) := by
  have h := Int.sign_tmod i j
  split at h
  · exact .inl (Int.sign_eq_zero_iff_zero.1 h)
  · exact .inr (by rw [← Int.sign_eq_neg_one_iff_neg, h, Int.sign_eq_neg_one_iff_neg])

section Division

variable {a b : Nat}

theorem toSigned_aluDiv (ha : a < 2 ^ 36) (hb : b < 2 ^ 36) (h0 : b ≠ 0)
    (hab : ¬ (a = 2 ^ 35 ∧ b = 2 ^ 36 - 1)) :
    toSigned 36 (aluDiv a b).val = (toSigned 36 a).tdiv (toSigned 36 b) := by
  rw [aluDiv, if_neg h0]
  refine toSigned_ofInt_of_fits (by decide) (tdiv_fits (toSigned_fits (by decide) ha) fun h => hab ?_)
  exact ⟨(toSigned_eq_iff (by decide) ha (by decide)).1 h.1, (toSigned_eq_iff (by decide) hb (by decide)).1 h.2⟩

theorem toSigned_aluRem (hb : b < 2 ^ 36) (h0 : b ≠ 0) :
    toSigned 36 (aluRem a b).val = (toSigned 36 a).tmod (toSigned 36 b) := by
  rw [aluRem, if_neg h0]
  refine toSigned_ofInt_of_fits (by decide) (overflows_eq_false_iff.2 ?_)
  have hlt := natAbs_tmod_lt (i := toSigned 36 a) (toSigned_ne_zero hb h0)
  have hfit := overflows_eq_false_iff.1 (toSigned_fits (w := 36) (by decide) hb)
  omega

end Division

/-- Settles O18: the sums and the product are those of 36-bit numbers, and the quotients that fit are exact. -/
theorem arithmeticValues : Obligations.ArithmeticValues := by
  refine ⟨fun a b k _ _ _ => ?sums, fun a b _ _ => ⟨aluMul_val a b, aluMul_v_iff a b⟩, fun a b ha hb h0 hab => ?division,
    fun a => ⟨rfl, rfl, rfl, rfl⟩⟩
  case sums =>
    exact ⟨aluAdd_val a b k, rfl, aluAdd_v_iff a b k (by decide), aluSub_val a b k, rfl, aluSub_v_iff a b k (by decide)⟩
  case division =>
    rw [toSigned_aluDiv ha hb h0 hab, toSigned_aluRem hb h0, aluDivu, if_neg h0, aluRemu, if_neg h0]
    exact ⟨(Int.mul_tdiv_add_tmod _ _).symm, natAbs_tmod_lt (toSigned_ne_zero hb h0), tmod_eq_zero_or_neg_iff _ _,
      (Nat.div_add_mod a b).symm, Nat.mod_lt a (Nat.pos_of_ne_zero h0)⟩

/-- R154's word: ABS and NEG leave it and set V. -/
theorem aluAbs_aluNeg_least :
    toSigned 36 (aluAbs (2 ^ 35)).val = -34359738368 ∧ (aluAbs (2 ^ 35)).v = some true ∧
    toSigned 36 (aluSub 36 0 (2 ^ 35) 0).val = -34359738368 ∧ (aluSub 36 0 (2 ^ 35) 0).v = some true := by decide

theorem aluAbs_v_of_ne {a : Nat} (h : a ≠ 2 ^ 35) : (aluAbs a).v = some false :=
  congrArg some (decide_eq_false h)

/-- Settles O19: the most negative word is the only one that ABS finds out of range. -/
theorem absAndNegOfTheMostNegativeWord : Obligations.AbsAndNegOfTheMostNegativeWord := by
  intro p
  refine ⟨⟨.abs p, 0o106, dUn 1, false, fun a _ _ _ => aluAbs a⟩,
    ⟨.neg p, 0o105, dUn 1, false, fun a _ _ _ => aluSub 36 0 a 0⟩,
    by simp [aluRows, aluRows1], rfl, by simp [aluRows, aluRows1], rfl, fun _ _ _ => ?_⟩
  obtain ⟨habs, habsV, hneg, hnegV⟩ := aluAbs_aluNeg_least
  refine ⟨habs, habsV, hneg, hnegV, fun a _ ha => aluAbs_v_of_ne ?_⟩
  rintro rfl
  exact ha (by decide)

end Sys2Proof.Machine
end

section
/-! SUPPORT. Shifts as those of 36-bit vectors (R157), and the statement about them. -/

namespace Sys2Proof.Machine

/-! ## The last bit out, and counts that leave no bit -/

section Flags

variable {x b : Nat}

/-- A bit of a word, as the model divides it out. -/
theorem getLsbD_eq_decide {k : Nat} (hk : k < 36) :
    (BitVec.ofNat 36 x).getLsbD k = decide (x / 2 ^ k % 2 = 1) := by
  rw [BitVec.getLsbD_ofNat, Nat.testBit_eq_decide_div_mod_eq, decide_eq_true hk, Bool.true_and]

theorem msb_eq_decide : (BitVec.ofNat 36 x).msb = decide (x / 2 ^ 35 % 2 = 1) := by
  rw [BitVec.msb_eq_getLsbD_last, getLsbD_eq_decide (by decide)]

theorem aluShl_c (h1 : 1 ≤ b) (hb : b ≤ 36) : (aluShl x b).c = some ((BitVec.ofNat 36 x).getLsbD (36 - b)) := by
  rw [getLsbD_eq_decide (by omega)]
  simp only [aluShl, outNZ, h1, hb, true_and]

theorem aluShr_c (h1 : 1 ≤ b) (hb : b ≤ 36) : (aluShr x b).c = some ((BitVec.ofNat 36 x).getLsbD (b - 1)) := by
  rw [getLsbD_eq_decide (by omega)]
  simp only [aluShr, outNZ, h1, hb, true_and]

/-- Above 36 no bit is left, and the last one out was a zero. -/
theorem logical_shifts_above_word (hb : 36 < b) :
    (aluShl x b).val = 0 ∧ (aluShl x b).c = some false ∧ (aluShr x b).val = 0 ∧ (aluShr x b).c = some false := by
  simp only [aluShl, aluShr, outNZ, Nat.not_le.2 hb, if_false, false_and, and_false, decide_false, and_self]

theorem aluSar_val_of_all_out (hb : 36 ≤ b) :
    (aluSar 36 x b).val = if (BitVec.ofNat 36 x).msb then 2 ^ 36 - 1 else 0 := by
  simp only [aluSar, outNZ, hb, if_true, msb_eq_decide, decide_eq_true_eq]

theorem aluSar_c_of_all_out (hb : 36 ≤ b) : (aluSar 36 x b).c = some (BitVec.ofNat 36 x).msb := by
  have h0 : b ≠ 0 := by omega
  simp only [aluSar, outNZ, hb, if_true, msb_eq_decide, h0, if_false]

theorem aluSar_c (h1 : 1 ≤ b) (hb : b < 36) : (aluSar 36 x b).c = some ((BitVec.ofNat 36 x).getLsbD (b - 1)) := by
  rw [getLsbD_eq_decide (by omega)]
  have h0 : b ≠ 0 := by omega
  simp only [aluSar, outNZ, h0, Nat.not_le.2 hb, if_false]

theorem aluRol_c : (aluRol x b).c = some (if b % 36 = 0 then false else (aluRol x b).val.testBit 0) := by
  rw [aluRol]
  split
  · rfl
  · rw [Nat.testBit_zero]
    rfl

end Flags

/-! ## The shifted word -/

/-- The bits that leave at the top come in below those that move up, so joining them is adding them. -/
theorem shiftLeft_or_shiftRight_eq_add {x k : Nat} (hk : k ≤ 36) (hx : x < 2 ^ 36) :
    x <<< k % 2 ^ 36 ||| x >>> (36 - k) = x * 2 ^ k % 2 ^ 36 + x / 2 ^ (36 - k) := by
  have hsplit : (2 : Nat) ^ 36 = 2 ^ (36 - k) * 2 ^ k := by rw [← Nat.pow_add, Nat.sub_add_cancel hk]
  have hup : x * 2 ^ k % 2 ^ 36 = (x % 2 ^ (36 - k)) <<< k := by
    rw [hsplit, Nat.mul_mod_mul_right, Nat.shiftLeft_eq]
  have hlow : x / 2 ^ (36 - k) < 2 ^ k := Nat.div_lt_of_lt_mul (hsplit ▸ hx)
  rw [Nat.shiftLeft_eq, Nat.shiftRight_eq_div_pow, hup, Nat.shiftLeft_add_eq_or_of_lt hlow]

section Word

variable {x b : Nat} (hx : x < 2 ^ 36)
include hx

theorem aluShl_val (hb : b ≤ 36) : (aluShl x b).val = (BitVec.ofNat 36 x <<< b).toNat := by
  rw [BitVec.toNat_shiftLeft, BitVec.toNat_ofNat, Nat.mod_eq_of_lt hx, Nat.shiftLeft_eq]
  exact if_pos hb

theorem aluShr_val (hb : b ≤ 36) : (aluShr x b).val = (BitVec.ofNat 36 x >>> b).toNat := by
  rw [BitVec.toNat_ushiftRight, BitVec.toNat_ofNat, Nat.mod_eq_of_lt hx, Nat.shiftRight_eq_div_pow]
  exact if_pos hb

theorem aluSar_val (hb : b < 36) : (aluSar 36 x b).val = ((BitVec.ofNat 36 x).sshiftRight b).toNat := by
  rw [BitVec.sshiftRight, Int.shiftRight_eq_div_pow, ← toSigned_eq_toInt (by decide) hx, ← ofInt_eq_toNat,
    Int.natCast_pow, Int.cast_ofNat_Int]
  exact if_neg (Nat.not_le.2 hb)

theorem aluRol_val_eq_add : (aluRol x b).val = x * 2 ^ (b % 36) % 2 ^ 36 + x / 2 ^ (36 - b % 36) := by
  rw [aluRol]
  split
  case isTrue h =>
    rw [h, Nat.pow_zero, Nat.mul_one, Nat.mod_eq_of_lt hx, Nat.sub_zero, Nat.div_eq_of_lt hx]
    rfl
  case isFalse => rfl

theorem aluRol_val : (aluRol x b).val = ((BitVec.ofNat 36 x).rotateLeft (b % 36)).toNat := by
  rw [BitVec.toNat_rotateLeft, BitVec.toNat_ofNat, Nat.mod_eq_of_lt hx, Nat.mod_mod, aluRol_val_eq_add hx,
    shiftLeft_or_shiftRight_eq_add (Nat.le_of_lt (Nat.mod_lt _ (by decide))) hx]

/-- A count of 0 leaves the value and clears C. -/
theorem shifts_by_zero :
    (aluShl x 0).val = x ∧ (aluShl x 0).c = some false ∧ (aluShr x 0).val = x ∧ (aluShr x 0).c = some false ∧
    (aluSar 36 x 0).val = x ∧ (aluSar 36 x 0).c = some false ∧ (aluRol x 0).val = x ∧ (aluRol x 0).c = some false := by
  have hword : (BitVec.ofNat 36 x).toNat = x := by rw [BitVec.toNat_ofNat, Nat.mod_eq_of_lt hx]
  refine ⟨?_, rfl, ?_, rfl, ?_, rfl, rfl, rfl⟩
  · rw [aluShl_val hx (Nat.zero_le _), BitVec.shiftLeft_zero, hword]
  · rw [aluShr_val hx (Nat.zero_le _), BitVec.ushiftRight_zero, hword]
  · rw [aluSar_val hx (by decide), BitVec.sshiftRight_zero, hword]

end Word

/-- Settles O17: each function's value and C at its counts, and the rows that compute it. -/
theorem shiftRule : Obligations.ShiftRule := by
  intro x b hx
  obtain ⟨hl, hlc, hr, hrc, ha, hac, ho, hoc⟩ := shifts_by_zero hx
  refine ⟨fun h1 hb => ?_, logical_shifts_above_word, fun hb => ?_, fun h1 hb => ?_, aluRol_val hx, aluRol_c,
    hl, hlc, hr, hrc, ha, hac, ho, hoc, fun p => ?_⟩
  · exact ⟨aluShl_val hx hb, aluShl_c h1 hb, aluShr_val hx hb, aluShr_c h1 hb⟩
  · exact ⟨aluSar_val_of_all_out hb, aluSar_c_of_all_out hb⟩
  · exact ⟨aluSar_val hx hb, aluSar_c h1 hb⟩
  · simp [aluRows, aluRows1]

end Sys2Proof.Machine
end

section
/-! SUPPORT. Fields, halves and saturation (R158 to R160), and the statement about them. -/

namespace Sys2Proof.Machine

/-! ## Fields -/

/-- Words without a common bit add without a carry. -/
theorem add_eq_or_of_disjoint {w x y : Nat} (hx : x < 2 ^ w) (hy : y < 2 ^ w) (h : x &&& y = 0) :
    x + y = x ||| y := by
  have hz : BitVec.ofNat w x &&& BitVec.ofNat w y = 0#w := by rw [← BitVec.ofNat_and, h]
  have hsum := BitVec.toNat_add_of_and_eq_zero hz
  rw [BitVec.add_eq_or_of_and_eq_zero _ _ hz, BitVec.toNat_or, BitVec.toNat_ofNat, BitVec.toNat_ofNat,
    Nat.mod_eq_of_lt hx, Nat.mod_eq_of_lt hy] at hsum
  exact hsum.symm

section Field

variable (a b c : Nat) {k : Nat}

theorem testBit_fieldOf (k : Nat) :
    (fieldOf a b).testBit k = (decide (k < b / 64 % 64) && a.testBit (b % 64 + k)) := by
  rw [fieldOf, Nat.testBit_mod_two_pow, Nat.testBit_div_two_pow, Nat.add_comm]

theorem testBit_aluExt (hk : k < 36) :
    (aluExt a b).val.testBit k = (decide (k < b / 64 % 64) && a.testBit (b % 64 + k)) := by
  rw [← testBit_fieldOf]
  exact (Nat.testBit_mod_two_pow _ _ _).trans (by rw [decide_eq_true hk, Bool.true_and])

/-- EXTS is the sign extension of the field. -/
theorem aluExts_val (hl : 0 < b / 64 % 64) :
    (aluExts a b).val = ((BitVec.ofNat (b / 64 % 64) (fieldOf a b)).signExtend 36).toNat := by
  have hf : fieldOf a b < 2 ^ (b / 64 % 64) := Nat.mod_lt _ (Nat.two_pow_pos _)
  rw [BitVec.signExtend, ← toSigned_eq_toInt hl hf, ← ofInt_eq_toNat]
  exact if_neg (Nat.ne_of_gt hl)

theorem testBit_aluExts (hl : 0 < b / 64 % 64) (hk : k < 36) :
    (aluExts a b).val.testBit k = a.testBit (b % 64 + min k (b / 64 % 64 - 1)) := by
  have hbit {j : Nat} (hj : j < b / 64 % 64) :
      (BitVec.ofNat (b / 64 % 64) (fieldOf a b)).getLsbD j = a.testBit (b % 64 + j) := by
    rw [BitVec.getLsbD_ofNat, testBit_fieldOf, decide_eq_true hj, Bool.true_and, Bool.true_and]
  rw [aluExts_val a b hl, BitVec.testBit_toNat, BitVec.getLsbD_signExtend, decide_eq_true hk, Bool.true_and]
  split
  case isTrue h => rw [hbit h, Nat.min_eq_left (by omega)]
  case isFalse h => rw [BitVec.msb_eq_getLsbD_last, hbit (by omega), Nat.min_eq_right (by omega)]

/-- The field's bits moved to positions p to p + l − 1. -/
theorem testBit_field_at (x p l k : Nat) :
    (x % 2 ^ l * 2 ^ p % 2 ^ 36).testBit k = (decide (k < 36) && decide (p ≤ k ∧ k < p + l) && x.testBit (k - p)) := by
  rw [Nat.testBit_mod_two_pow, Nat.testBit_mul_two_pow, Nat.testBit_mod_two_pow, Bool.and_assoc, Bool.decide_and,
    Bool.and_assoc]
  by_cases hp : p ≤ k
  · simp only [Nat.sub_lt_iff_lt_add' hp]
  · rw [decide_eq_false hp, Bool.false_and, Bool.false_and]

/-- The bits that INS leaves. -/
theorem testBit_hole_compl (p l k : Nat) :
    (2 ^ 36 - 1 - (2 ^ l - 1) * 2 ^ p % 2 ^ 36).testBit k = (decide (k < 36) && !decide (p ≤ k ∧ k < p + l)) := by
  have hlow : 2 ^ l - 1 < 2 ^ l := Nat.sub_lt (Nat.two_pow_pos l) (by decide)
  rw [Nat.sub_sub, Nat.add_comm 1, Nat.testBit_two_pow_sub_succ (Nat.mod_lt _ (by decide)), ← Nat.mod_eq_of_lt hlow,
    testBit_field_at, Nat.testBit_two_pow_sub_one]
  by_cases hr : p ≤ k ∧ k < p + l
  · have hkl : k - p < l := by omega
    simp [hr, hkl]
  · simp [hr]

/-- The bits left and the field share no bit, so adding them is joining them. -/
theorem aluIns_val (hc : c < 2 ^ 36) :
    (aluIns a b c).val = (c &&& (2 ^ 36 - 1 - (2 ^ (b / 64 % 64) - 1) * 2 ^ (b % 64) % 2 ^ 36)) |||
      a % 2 ^ (b / 64 % 64) * 2 ^ (b % 64) % 2 ^ 36 := by
  refine add_eq_or_of_disjoint (w := 36) (Nat.lt_of_le_of_lt Nat.and_le_left hc) (Nat.mod_lt _ (by decide)) ?_
  apply Nat.eq_of_testBit_eq
  intro j
  rw [Nat.testBit_and, Nat.testBit_and, testBit_hole_compl, testBit_field_at, Nat.zero_testBit]
  cases decide (b % 64 ≤ j ∧ j < b % 64 + b / 64 % 64) <;> simp

theorem testBit_aluIns (hc : c < 2 ^ 36) (hk : k < 36) :
    (aluIns a b c).val.testBit k =
      if b % 64 ≤ k ∧ k < b % 64 + b / 64 % 64 then a.testBit (k - b % 64) else c.testBit k := by
  rw [aluIns_val a b c hc, Nat.testBit_or, Nat.testBit_and, testBit_hole_compl, testBit_field_at, decide_eq_true hk]
  split
  case isTrue h => simp [h]
  case isFalse h => simp [h]

end Field

/-! ## Halves and saturation -/

@[simp] theorem loHalf_pack (h l : Nat) : loHalf (pack h l) = l % 2 ^ 18 := by
  rw [loHalf, pack]
  omega

@[simp] theorem hiHalf_pack (h l : Nat) : hiHalf (pack h l) = h % 2 ^ 18 := by
  rw [hiHalf, pack]
  omega

theorem hiHalf_lt (a : Nat) : hiHalf a < 2 ^ 18 := Nat.mod_lt _ (by decide)

theorem loHalf_lt (a : Nat) : loHalf a < 2 ^ 18 := Nat.mod_lt _ (by decide)

/-- A difference of halves wraps. -/
theorem ofInt_sub_half {x y : Nat} (hy : y < 2 ^ 18) : ofInt 18 ((x : Int) - y) = (x + 2 ^ 18 - y) % 2 ^ 18 := by
  rw [ofInt]
  omega

theorem aluDsat_of_overflows {a : Nat} (h : overflows 36 (toSigned 72 a) = true) :
    (aluDsat a).val = (if toSigned 72 a < 0 then 2 ^ 35 else 2 ^ 35 - 1) ∧ (aluDsat a).v = some true := by
  simp only [aluDsat, h, if_true, outNZ, and_self]

theorem aluDsat_of_fits {a : Nat} (h : overflows 36 (toSigned 72 a) = false) :
    toSigned 36 (aluDsat a).val = toSigned 72 a ∧ (aluDsat a).v = some false := by
  simp only [aluDsat, h, Bool.false_eq_true, if_false, outNZ, toSigned_ofInt_of_fits (by decide : 0 < 36) h, and_self]

theorem aluDsat_of_lt {a : Nat} (h : toSigned 72 a < -2 ^ 35) :
    toSigned 36 (aluDsat a).val = -2 ^ 35 ∧ (aluDsat a).v = some true := by
  obtain ⟨hval, hv⟩ := aluDsat_of_overflows (a := a) (Bool.or_eq_true_iff.2 (.inl (decide_eq_true h)))
  rw [hval, if_pos (by omega)]
  exact ⟨rfl, hv⟩

theorem aluDsat_of_ge {a : Nat} (h : 2 ^ 35 ≤ toSigned 72 a) :
    toSigned 36 (aluDsat a).val = 2 ^ 35 - 1 ∧ (aluDsat a).v = some true := by
  obtain ⟨hval, hv⟩ := aluDsat_of_overflows (a := a) (Bool.or_eq_true_iff.2 (.inr (decide_eq_true h)))
  rw [hval, if_neg (by omega)]
  exact ⟨rfl, hv⟩

/-- The halves of the sum, the difference and the exchange are each lane's own. -/
theorem halves_apart (a b : Nat) :
    loHalf (aluHadd a b).val = (loHalf a + loHalf b) % 2 ^ 18 ∧ hiHalf (aluHadd a b).val = (hiHalf a + hiHalf b) % 2 ^ 18 ∧
    loHalf (aluHsub a b).val = (loHalf a + 2 ^ 18 - loHalf b) % 2 ^ 18 ∧
    hiHalf (aluHsub a b).val = (hiHalf a + 2 ^ 18 - hiHalf b) % 2 ^ 18 ∧
    hiHalf (aluHswp a).val = loHalf a ∧ loHalf (aluHswp a).val = hiHalf a := by
  simp only [aluHadd, aluHsub, aluHswp, outNZ, loHalf_pack, hiHalf_pack, ofInt_sub_half (loHalf_lt b),
    ofInt_sub_half (hiHalf_lt b), Nat.mod_mod, Nat.mod_eq_of_lt (loHalf_lt a), Nat.mod_eq_of_lt (hiHalf_lt a), and_self]

/-- Settles O20: fields bit by bit, halves lane by lane, and the saturation by where the double lies. -/
theorem fieldAndHalfValues : Obligations.FieldAndHalfValues := by
  refine ⟨fun a b k _ hk => ?fields, fun a b c k _ hc hk => testBit_aluIns a b c hc hk, fun a b _ _ => halves_apart a b,
    fun a _ => ?saturation⟩
  case fields =>
    exact ⟨testBit_aluExt a b hk, fun hl => testBit_aluExts a b hl hk, fun hl => if_pos hl⟩
  case saturation =>
    exact ⟨aluDsat_of_lt, aluDsat_of_ge, fun hlo hhi => aluDsat_of_fits (overflows_eq_false_iff.2 ⟨hlo, hhi⟩)⟩

end Sys2Proof.Machine
end

section
/-! SUPPORT. The opcodes that are not assigned (R142), and the statement about them. -/

namespace Sys2Proof.Machine

theorem exec_unassignedOpcode (p : Nat) (s : State) : exec (.unassignedOpcode p) s = execUnassignedOpcode p s := rfl

theorem not_mem_assignedOps {op : Nat} (h : 0o700 ≤ op) : op ∉ assignedOps :=
  fun hmem => absurd ((by decide : ∀ o ∈ assignedOps, o < 0o700) op hmem) (Nat.not_lt.2 h)

theorem opAssigned_tabandon (n priv : Nat) : opAssigned n priv 0o607 = (isFret n && decide (2 ≤ priv)) := rfl

/-- Settles O14: the event's own case, then each part of the assignment. -/
theorem unassignedOpcodeRaisesIllegal : Obligations.UnassignedOpcodeRaisesIllegal := by
  refine ⟨fun p w s c hstep hf hop => ?event, fun p priv op hop => ?high, fun priv op hop => ?capo, fun n priv hn => ?trust⟩
  case event =>
    simp only [exec_unassignedOpcode, execUnassignedOpcode, hstep, hf, hop, if_true, Bool.false_eq_true, if_false]
  case high =>
    rw [opAssigned, List.contains_eq_mem, decide_eq_false (not_mem_assignedOps hop), Bool.false_and]
  case capo =>
    rw [opAssigned, decide_eq_false (Nat.not_lt.2 hop)]
    exact Bool.and_false _
  case trust =>
    rw [opAssigned_tabandon, isFret, decide_eq_true hn, Bool.true_and, decide_eq_true_eq]

end Sys2Proof.Machine
end

section
/-! SUPPORT. The request lines that a status read lowers (Table 5-8), and the statement about those reads. -/

namespace Sys2Proof.Machine

theorem State.clrIrq_get_self (s : State) (i : Nat) : (s.clrIrq i).get (INTC_SRC_LEVEL i) = 0 :=
  (State.get_put_self s (INTC_SRC_LEVEL i) 0 (Nat.le_refl 30) (by decide : 30 < 32)).trans (Nat.zero_mod _)

theorem State.clrIrq_get_of_ne (s : State) {i j : Nat} (h : j ≠ i) :
    (s.clrIrq i).get (INTC_SRC_LEVEL j) = s.get (INTC_SRC_LEVEL j) :=
  State.get_put_of_ne _ _ _ _ (by simp only [INTC_SRC]; omega)

/-- `t` is a state whose request lines `lines` are low, with the registers of `s` but for those lines', its memory and its
processors. -/
structure LinesLow (lines : List Nat) (s t : State) : Prop where
  low : ∀ i, i ∈ lines → t.get (INTC_SRC_LEVEL i) = 0
  regs : SameRegs (lines.map fun i => (INTC_SRC_LEVEL i).off) s t
  mem : t.mem = s.mem
  procs : t.procs = s.procs

namespace LinesLow

variable {lines : List Nat} {s t : State}

/-- No line is lowered by what changes no register. -/
theorem of_eq (hregs : t.regs = s.regs) (hdual : t.dual = s.dual) (hmem : t.mem = s.mem) (hprocs : t.procs = s.procs) :
    LinesLow [] s t :=
  ⟨List.forall_mem_nil _, .of_eq hregs hdual (.refl s _), hmem, hprocs⟩

/-- One line more is lowered: it is low, and a line that was low stays so. -/
theorem clrIrq (h : LinesLow lines s t) (i : Nat) : LinesLow (lines ++ [i]) s (t.clrIrq i) where
  low j hj := by
    by_cases hji : j = i
    · subst hji
      exact t.clrIrq_get_self j
    · rw [t.clrIrq_get_of_ne hji]
      exact h.low j (by simpa [hji] using hj)
  regs := SameRegs.put _ 0 (by simp) (h.regs.mono (by simp +contextual))
  mem := h.mem
  procs := h.procs

/-- Further lines are lowered one after another. -/
theorem foldl_clrIrq (h : LinesLow lines s t) (more : List Nat) : LinesLow (lines ++ more) s (more.foldl State.clrIrq t) := by
  induction more generalizing lines t with
  | nil =>
    rw [List.append_nil]
    exact h
  | cons i more ih =>
    rw [List.append_cons]
    exact ih (h.clrIrq i)

end LinesLow

/-- What a status read does beside lowering its lines: ROSIN_STATE_READ remembers the state that it has shown, a change from
which raises line 448 again (Table 11-4). -/
def State.statusSeen (s : State) : Instr → State
  | .rosinStateRead => { s with rosin := { s.rosin with lastRead := s.get ROSIN_STATE_STATE } }
  | _ => s

theorem State.statusSeen_linesLow (s : State) (c : Instr) : LinesLow [] s (s.statusSeen c) := by
  unfold State.statusSeen
  split <;> exact .of_eq rfl rfl rfl rfl

/-- Row by row, a status read lowers the lines that the table gives it. -/
theorem exec_statusRead (s : State) :
    ∀ e, e ∈ statusReads → exec e.1 s = .next (e.2.foldl State.clrIrq (s.statusSeen e.1)) := by
  simp only [statusReads, List.forall_mem_cons]
  exact ⟨rfl, rfl, rfl, rfl, rfl, rfl, rfl, rfl, rfl, rfl, rfl, rfl, rfl, rfl, rfl, rfl, rfl, rfl, rfl, rfl, rfl, rfl,
    rfl, rfl, List.forall_mem_nil _⟩

theorem exec_cellStatusRead (s : State) {n : Nat} (hn : n < 16) :
    exec (.cellStatusRead n) s = .next (s.clrIrq (128 + n)) := if_pos hn

theorem exec_portStatusRead (s : State) {n : Nat} (hn : n < 4) :
    exec (.portStatusRead n) s = .next (s.clrIrq (104 + n)) := congrArg Host.Outcome.next (if_pos hn)

theorem exec_assocCmdResultRead {s : State} (h : s.on ASSOC_CMD_RESULT_BUSY = false) :
    exec .assocCmdResultRead s = .next (s.clrIrq 109) := if_neg (Bool.eq_false_iff.1 h)

/-- The row of a read that lowers one line and does nothing else. -/
theorem lowersOneLine {c : Instr} {s : State} {i : Nat} (h : exec c s = .next (s.clrIrq i)) :
    ∃ t, exec c s = .next t ∧ t.get (INTC_SRC_LEVEL i) = 0 ∧ SameRegs [(INTC_SRC_LEVEL i).off] s t ∧ SameMem s t ∧
      SameProcs [] s t := by
  obtain ⟨hlow, hregs, hmem, hprocs⟩ := (LinesLow.of_eq (s := s) rfl rfl rfl rfl).clrIrq i
  exact ⟨_, h, hlow i (List.mem_singleton_self i), hregs, .of_eq hmem, .of_eq hprocs⟩

/-- Settles O9: each row of the table lowers its own lines, and the cell, port and association reads one line each. -/
theorem statusReadsLowerTheirRequestLine : Obligations.StatusReadsLowerTheirRequestLine := by
  refine ⟨fun s e he => ?table, fun s n hn => lowersOneLine (exec_cellStatusRead s hn),
    fun s n hn => lowersOneLine (exec_portStatusRead s hn), fun s h => lowersOneLine (exec_assocCmdResultRead h)⟩
  case table =>
    obtain ⟨hlow, hregs, hmem, hprocs⟩ := (s.statusSeen_linesLow e.1).foldl_clrIrq e.2
    exact ⟨_, exec_statusRead s e he, hlow, hregs, .of_eq hmem, .of_eq hprocs⟩

end Sys2Proof.Machine
end

section
/-! SUPPORT. Operations that change nothing of the data path beside its registers: registers, fault records, the event
recorder, the key store's own slots, job rings and cells, the entropy array, sessions, and bytes stored in memory. -/

namespace Sys2Proof.Machine

/-- An observation that every step of a fold keeps is kept by the fold. -/
theorem foldl_keeps {α β : Type} {g : State → β} {f : State → α → State} (hf : ∀ t x, g (f t x) = g t)
    (l : List α) (s : State) : g (l.foldl f s) = g s := by
  induction l generalizing s with
  | nil => rfl
  | cons x l ih => exact (ih _).trans (hf s x)

theorem State.foldl_data {α : Type} {f : State → α → State} (hf : ∀ t x, (f t x).data = t.data) (l : List α) (s : State) :
    (l.foldl f s).data = s.data :=
  foldl_keeps hf l s

theorem State.foldl_sent {α : Type} {f : State → α → State} (hf : ∀ t x, (f t x).data.sent = t.data.sent) (l : List α)
    (s : State) : (l.foldl f s).data.sent = s.data.sent :=
  foldl_keeps (g := fun t => t.data.sent) hf l s

/-! ## Registers and free values -/

@[simp] theorem State.inc_data (s : State) (f : Fld) : (s.inc f).data = s.data := rfl
@[simp] theorem State.incBy_data (s : State) (f : Fld) (n : Nat) : (s.incBy f n).data = s.data := rfl
@[simp] theorem State.put64_data (s : State) (lo hi v : Nat) : (s.put64 lo hi v).data = s.data := rfl
@[simp] theorem State.inc64_data (s : State) (lo hi n : Nat) : (s.inc64 lo hi n).data = s.data := rfl
@[simp] theorem State.setIrq_data (s : State) (i : Nat) : (s.setIrq i).data = s.data := rfl
@[simp] theorem State.irq_data (s : State) (i : Nat) (b : Bool) : (s.irq i b).data = s.data := rfl
@[simp] theorem State.free_data (s : State) : s.free.2.data = s.data := rfl
@[simp] theorem State.freeB_data (s : State) (n : Nat) : (s.freeB n).2.data = s.data := rfl

@[simp] theorem State.putWords_data (s : State) (off n : Nat) (bs : Bytes) : (s.putWords off n bs).data = s.data := by
  induction n generalizing s off bs with
  | zero => rfl
  | succ n ih => exact ih ..

/-! ## Fault records and the event recorder -/

@[simp] theorem State.flushStart_data (s : State) : s.flushStart.data = s.data := by
  unfold State.flushStart; split <;> rfl

@[simp] theorem State.openOrMerge_data (s : State) (src info : Nat) (forced : Bool) (cls acts : Nat) :
    (s.openOrMerge src info forced cls acts).data = s.data := by
  unfold State.openOrMerge; split <;> rfl

@[simp] theorem State.faultN_data (s : State) : s.faultN.data = s.data := rfl

@[simp] theorem State.isolate_data (s : State) (src : Nat) : (s.isolate src).data = s.data := by
  simp [State.isolate, apply_ite State.data]

@[simp] theorem State.resetDomain_data (s : State) (src : Nat) : (s.resetDomain src).data = s.data := by
  simp [State.resetDomain, apply_ite State.data]

@[simp] theorem State.actions_data (s : State) (src cls acts : Nat) : (s.actions src cls acts).data = s.data := by
  simp [State.actions, apply_ite State.data]

@[simp] theorem State.raiseCore_data (s : State) (src info : Nat) (forced : Bool) :
    (s.raiseCore src info forced).data = s.data := by
  simp [State.raiseCore]

@[simp] theorem State.evPut_data (s : State) (source code status origin : Nat) (pl : Bytes) (high flush : Bool) :
    (s.evPut source code status origin pl high flush).data = s.data := by
  simp [State.evPut, apply_ite State.data]

@[simp] theorem State.faultClose_data (s : State) (selfTest : Nat) : (s.faultClose selfTest).data = s.data := by
  unfold State.faultClose
  split <;> simp [apply_ite State.data]

@[simp] theorem State.raiseBase_data (s : State) (src info : Nat) (forced : Bool) :
    (s.raiseBase src info forced).data = s.data := by
  simp [State.raiseBase, apply_ite State.data]

@[simp] theorem State.evUnit_data (s : State) (irq st : Nat) : (s.evUnit irq st).data = s.data := by
  simp [State.evUnit]

@[simp] theorem State.evUnitNaming_data (s : State) (irq st : Nat) (known : Bytes) :
    (s.evUnitNaming irq st known).data = s.data := by
  simp [State.evUnitNaming]

@[simp] theorem State.evUnitFree_data (s : State) (irq : Nat) : (s.evUnitFree irq).data = s.data := by
  simp [State.evUnitFree]

/-! ## The key store -/

@[simp] theorem State.pegCounts_data (s : State) : s.pegCounts.data = s.data := rfl
@[simp] theorem State.privCount_data (s : State) : s.privCount.data = s.data := rfl
@[simp] theorem State.setPriv_data (s : State) (i : Nat) (p : Priv) : (s.setPriv i p).data = s.data := rfl
@[simp] theorem State.keyEnd_data (s : State) (st det : Nat) : (s.keyEnd st det).data = s.data := rfl

@[simp] theorem State.cerFail_data (s : State) (st : Nat) : (s.cerFail st).data = s.data := by
  unfold State.cerFail; split <;> rfl

/-! ## Job rings and cells -/

@[simp] theorem State.ringBack_data (s : State) (r c : Nat) : (s.ringBack r c).data = s.data := rfl
@[simp] theorem State.jobEnding_data (s : State) (c : Compl) : (s.jobEnding c).data = s.data := rfl

@[simp] theorem State.burn_data (s : State) (j : Job) : (s.burn j).data = s.data := by
  unfold State.burn
  split <;> simp [apply_ite State.data]

@[simp] theorem State.cellDrop_data (s : State) (n r : Nat) : (s.cellDrop n r).data = s.data := by
  simp [State.cellDrop, State.putInflight, State.cellClear, apply_ite State.data]

@[simp] theorem State.genUndo_data (s : State) (j : Job) : (s.genUndo j).data = s.data := by
  simp [State.genUndo, apply_ite State.data]

@[simp] theorem State.cellEnd_data (s : State) (n st det : Nat) : (s.cellEnd n st det).data = s.data := by
  unfold State.cellEnd
  split <;> simp

/-! ## The entropy array -/

@[simp] theorem State.rosinPut_data (s : State) (st : Nat) : (s.rosinPut st).data = s.data := rfl
@[simp] theorem State.putReserve_data (s : State) (bs : Bytes) : (s.putReserve bs).data = s.data := rfl

@[simp] theorem State.rosinRestart_data (s : State) : s.rosinRestart.data = s.data := by
  unfold State.rosinRestart
  exact State.foldl_data (fun t b => t.put_data (BANK_STATUS_STATE b) 1) _ _

/-! ## Sessions over the antenna and the card -/

@[simp] theorem State.readerOff_data (s : State) : s.readerOff.data = s.data := by
  simp [State.readerOff, apply_ite State.data]

@[simp] theorem State.sessZeroize_data (s : State) : s.sessZeroize.data = s.data := by
  simp [State.sessZeroize, State.pickEnd, apply_ite State.data]

/-! ## Memory and its version guard -/

@[simp] theorem State.sramClear_data (s : State) (lo n : Nat) : (s.sramClear lo n).data = s.data := rfl
@[simp] theorem State.sramStored_data (s : State) (a n : Nat) : (s.sramStored a n).data = s.data := rfl
@[simp] theorem State.dramFailAddr_data (s : State) (l : Nat) : (s.dramFailAddr l).data = s.data := rfl
@[simp] theorem State.putDramPoison_data (s : State) (l : List Nat) : (s.putDramPoison l).data = s.data := rfl
@[simp] theorem State.dramBurst_data (s : State) (k : Nat) : (s.dramBurst k).data = s.data := rfl
@[simp] theorem State.putVersion_data (s : State) (p n : Nat) : (s.putVersion p n).data = s.data := rfl
@[simp] theorem State.guardSweep_data (s : State) : s.guardSweep.data = s.data := rfl

@[simp] theorem State.guardEnqueue_data (s : State) (p : Nat) : (s.guardEnqueue p).data = s.data := by
  simp [State.guardEnqueue, apply_ite State.data]

@[simp] theorem State.guardWriteback_data (s : State) : s.guardWriteback.data = s.data := by
  unfold State.guardWriteback
  split
  · rfl
  · split <;> simp [apply_ite State.data]

@[simp] theorem State.guardTouch_data (s : State) (a n : Nat) : (s.guardTouch a n).data = s.data :=
  State.foldl_data (fun t p => by simp [apply_ite State.data]) _ _

@[simp] theorem State.dramStored_data (s : State) (a n : Nat) : (s.dramStored a n).data = s.data := by
  simp [State.dramStored, apply_ite State.data]

end Sys2Proof.Machine
end

section
/-! SUPPORT. Operations that change the data path but send no frame: what was last sent on every port stays. Among them
the stop of a queue, the loss of an IDE stream's key, a zeroize, a raise with all its actions, and the end of a release
request. -/

namespace Sys2Proof.Machine

/-! ## Queues and IDE streams (R287, R300) -/

@[simp] theorem State.setQueue_sent (s : State) (q : Nat) (x : QueueState) : (s.setQueue q x).data.sent = s.data.sent :=
  rfl

@[simp] theorem State.queueClear_sent (s : State) (q : Nat) : (s.queueClear q).data.sent = s.data.sent := by
  simp [State.queueClear, State.dropItems, State.putUnread, State.kdcLine]

@[simp] theorem State.queueStopBase_sent (s : State) (q err : Nat) :
    (s.queueStopBase q err).data.sent = s.data.sent := by
  simp [State.queueStopBase]

@[simp] theorem State.ideLeave_sent (s : State) (stream : Nat) : (s.ideLeave stream).data.sent = s.data.sent := by
  have hstops := State.foldl_sent fun t q => t.queueStopBase_sent q qeIde
  simp [State.ideLeave, hstops, apply_ite State.data, apply_ite DataState.sent]

/-! ## Keys (R239, R449) -/

@[simp] theorem State.setPeg_sent (s : State) (i : Nat) (p : Peg) : (s.setPeg i p).data.sent = s.data.sent := by
  unfold State.setPeg
  split
  · rfl
  · exact State.foldl_sent State.ideLeave_sent _ _

@[simp] theorem State.spentReport_sent (s : State) (i : Nat) : (s.spentReport i).data.sent = s.data.sent := by
  simp [State.spentReport, apply_ite State.data, apply_ite DataState.sent]

@[simp] theorem State.pegUse_sent (s : State) (i : Nat) : (s.pegUse i).2.data.sent = s.data.sent := by
  simp [State.pegUse, apply_ite Prod.snd, apply_ite State.data, apply_ite DataState.sent]

@[simp] theorem State.keyZeroize_sent (s : State) : s.keyZeroize.data.sent = s.data.sent := by
  simp [State.keyZeroize, State.foldl_sent State.ideLeave_sent, apply_ite State.data]

/-! ## Zeroize and raise (R328, R390, R410, R496) -/

@[simp] theorem State.finUndo_sent (s : State) (c : Compl) : (s.finUndo c).data.sent = s.data.sent := by
  unfold State.finUndo
  split <;> simp [apply_ite State.data, apply_ite DataState.sent]

@[simp] theorem State.endOver_sent (s : State) (st : Nat) (p : Compl → Bool) :
    (s.endOver st p).data.sent = s.data.sent :=
  State.foldl_sent State.finUndo_sent _ _

@[simp] theorem State.soundEntropyStop_sent (s : State) : s.soundEntropyStop.data.sent = s.data.sent := by
  simp [State.soundEntropyStop, State.foldl_sent, apply_ite State.data]

@[simp] theorem State.soundZeroize_sent (s : State) : s.soundZeroize.data.sent = s.data.sent := by
  have hcells := State.foldl_data fun t (e : Nat × Job) => t.cellEnd_data e.1 stZEROIZED 0
  simp [State.soundZeroize, hcells]

@[simp] theorem State.digestZeroize_sent (s : State) : s.digestZeroize.data.sent = s.data.sent := by
  simp [State.digestZeroize]

@[simp] theorem State.rosinStop_sent (s : State) (cause bank : Nat) (failed : Bool) :
    (s.rosinStop cause bank failed).data.sent = s.data.sent := by
  simp [State.rosinStop, apply_ite State.data, apply_ite DataState.sent]

@[simp] theorem State.zeroizeAll_sent (s : State) : s.zeroizeAll.data.sent = s.data.sent := by
  simp [State.zeroizeAll, apply_ite State.data, apply_ite DataState.sent]

@[simp] theorem State.settle_sent (s : State) : s.settle.data.sent = s.data.sent := by
  simp [State.settle, apply_ite State.data, apply_ite DataState.sent]

@[simp] theorem State.raise_sent (s : State) (src info : Nat) : (s.raise src info).data.sent = s.data.sent := by
  simp [State.raise]

/-! ## Entries of the association table, in the hot cache or in DRAM (R79, R81, R229) -/

@[simp] theorem State.dramCrcFail_sent (s : State) (l : Nat) (write : Bool) :
    (s.dramCrcFail l write).data.sent = s.data.sent := by
  simp [State.dramCrcFail, apply_ite State.data, apply_ite DataState.sent]

@[simp] theorem State.dramLink_sent (s : State) (l : Nat) (write : Bool) :
    (s.dramLink l write).2.data.sent = s.data.sent := by
  simp [State.dramLink, apply_ite Prod.snd, apply_ite State.data, apply_ite DataState.sent]

@[simp] theorem State.dramWrite_sent (s : State) (a : Nat) (bs : Bytes) :
    (s.dramWrite a bs).data.sent = s.data.sent := by
  simp [State.dramWrite, apply_ite State.data]

@[simp] theorem State.memStore_sent (s : State) (a : Nat) (bs : Bytes) : (s.memStore a bs).data.sent = s.data.sent := by
  simp [State.memStore, apply_ite State.data, apply_ite DataState.sent]

@[simp] theorem State.setEntry_sent (s : State) (i : Nat) (e : TableEntry) :
    (s.setEntry i e).data.sent = s.data.sent := by
  unfold State.setEntry
  split <;> simp

/-! ## The end of a release request (R315, R322) -/

@[simp] theorem State.subDone_sent (s : State) (q count status : Nat) (assoc : Option Nat) (epoch len : Nat) :
    (s.subDone q count status assoc epoch len).data.sent = s.data.sent := by
  simp [State.subDone, apply_ite State.data]

@[simp] theorem State.putRel_sent (s : State) (l : List (Nat × RelReq)) : (s.putRel l).data.sent = s.data.sent := rfl

@[simp] theorem State.relRecord_sent (s : State) (r : RelReq) (st : Nat) :
    (s.relRecord r st).data.sent = s.data.sent := by
  simp [State.relRecord]

@[simp] theorem State.publishCount_sent (s : State) (i octets st : Nat) :
    (s.publishCount i octets st).data.sent = s.data.sent := by
  simp [State.publishCount, apply_ite State.data, apply_ite DataState.sent]

@[simp] theorem State.relFinish_sent (s : State) (r : RelReq) (st epoch : Nat) :
    (s.relFinish r st epoch).data.sent = s.data.sent := by
  unfold State.relFinish
  cases r.host <;> simp [apply_ite State.data, apply_ite DataState.sent]

@[simp] theorem State.relEnd_sent (s : State) (k st epoch : Nat) : (s.relEnd k st epoch).data.sent = s.data.sent := by
  unfold State.relEnd
  split <;> simp

@[simp] theorem State.relAlarm_sent (s : State) (k which : Nat) : (s.relAlarm k which).data.sent = s.data.sent := by
  have hends := State.foldl_sent fun t (e : Nat × RelReq) => t.relEnd_sent e.1 stNOT_PERMITTED 0
  simp [State.relAlarm, hends]

end Sys2Proof.Machine
end

section
/-! SUPPORT. RELEASE_SIGN_SEND of a request that the interlock withholds (R319), and the statement about it. -/

namespace Sys2Proof.Machine

/-- The recheck before the egress (R319) stops a HOLD = 1 request without RELEASING and two RELEASE words; every earlier
end of the signing sends nothing. -/
theorem State.signSend_sent_of_withheld (s : State) (k lane : Nat) {r : RelReq} (hhold : r.hold = true)
    (hno : ¬ (r.stateW = cwRELEASING ∧ r.va = cwRELEASE ∧ r.vb = cwRELEASE)) :
    (s.signSend k lane r).data.sent = s.data.sent := by
  have hrecheck : (r.hold && !(decide (r.stateW = cwRELEASING ∧ r.va = cwRELEASE ∧ r.vb = cwRELEASE))) = true := by
    rw [hhold, decide_eq_false hno]; rfl
  have huse {slot : Nat} {b : Bool} {s1 : State} (h : s.pegUse slot = (b, s1)) : s1.data.sent = s.data.sent := by
    rw [← s.pegUse_sent slot, h]
  simp only [State.signSend, hrecheck, if_true]
  split
  case isTrue => exact s.relEnd_sent ..
  case isFalse =>
    split
    case h_1 => exact s.relEnd_sent ..
    case h_2 slot epoch _ =>
      split
      case isTrue => exact s.relEnd_sent ..
      case isFalse =>
        split
        case isTrue => rfl
        case isFalse =>
          split
          case h_1 s1 hspent => rw [State.relEnd_sent, huse hspent]
          case h_2 s1 hused => rw [State.relEnd_sent, State.inc64_data, huse hused]

theorem exec_releaseSignSend (k lane : Nat) (s : State) :
    exec (.releaseSignSend k lane) s = execReleaseSignSend k lane s := rfl

/-- Settles O39: a slot with a bad word ends in the alarm, a slot whose turn it is not stays, and the recheck of the
signing withholds the frame of any other (R313, R317, R319, R322). -/
theorem noReleaseWithoutBothVerdicts : Obligations.NoReleaseWithoutBothVerdicts := by
  intro s t k lane r hreq hhold hno hexec n
  rw [exec_releaseSignSend, execReleaseSignSend, hreq] at hexec
  have hsent : t.data.sent = s.data.sent := by
    dsimp only at hexec
    split at hexec
    case h_1 w _ =>
      cases hexec
      exact s.relAlarm_sent k w
    case h_2 =>
      split at hexec
      case isTrue =>
        cases hexec
        rw [State.settle_sent, s.signSend_sent_of_withheld k lane hhold hno]
      case isFalse =>
        cases hexec
        rfl
  rw [hsent]

end Sys2Proof.Machine
end

section
/-! SUPPORT. What the digest engine's core does with the head of its ring, how every job ends, and the isolation of a core
whose known-answer test fails; the statement about the digest commands (R384, R385, R387, R390, R394, R395). -/

namespace Sys2Proof.Machine

variable {s t u s1 : State} {k count : Nat} {w : List Nat}

/-! ## The end of a job -/

/-- A job of core `k` has come to its end in `u` (`State.digDone`), whichever its status. -/
def DigEnded (k count : Nat) (w : List Nat) (u : State) : Prop :=
  ∃ (t : State) (st det outLen : Nat), u = t.digDone k count w st det outLen

/-- A run of the job waits, or has come to the job's end. -/
def DigEndedIn (k count : Nat) (w : List Nat) : Option State → Prop
  | none => True
  | some u => DigEnded k count w u

theorem State.digDone_ended (s : State) (k count : Nat) (w : List Nat) (st det outLen : Nat) :
    DigEnded k count w (s.digDone k count w st det outLen) := ⟨s, st, det, outLen, rfl⟩

theorem State.digOut_ended (s : State) (k count : Nat) (w : List Nat) (bs : Bytes) :
    DigEnded k count w (s.digOut k count w bs) := by
  unfold State.digOut
  split <;> exact State.digDone_ended ..

/-- MEMCMP compares its two buffers; no output is written (R387). -/
theorem State.digResult_memcmp (s : State) (k count : Nat) {w : List Nat} (a b : Bytes) (hop : jOp w = doMEMCMP) :
    s.digResult k count w a b = s.digDone k count w (if a = b then stOK else stVERIFY_FAIL) 0 0 := by
  unfold State.digResult
  exact if_pos hop

theorem State.digResult_ended (s : State) (k count : Nat) (w : List Nat) (a b : Bytes) :
    DigEnded k count w (s.digResult k count w a b) := by
  by_cases hop : jOp w = doMEMCMP
  · rw [State.digResult_memcmp s k count a b hop]
    exact State.digDone_ended ..
  · simp only [State.digResult, if_neg hop]
    split
    case isTrue wrapped => exact State.digOut_ended ..
    case isFalse =>
      split
      case isTrue compared => split <;> exact State.digDone_ended ..
      case isFalse => exact State.digOut_ended ..

/-- A job that does not wait for its key ends, on every path of R394. -/
theorem State.digRun_ended (s : State) (k count : Nat) (w : List Nat) (err : Bool) :
    DigEndedIn k count w (s.digRun k count w err) := by
  have stopped (t : State) (st det need : Nat) : DigEndedIn k count w (some (t.digDone k count w st det need)) :=
    State.digDone_ended ..
  unfold State.digRun
  refine iteInduction (fun _badField => stopped ..) fun _ => ?_
  split
  case h_1 badLength => exact stopped ..
  refine iteInduction (fun _outsideWindow => stopped ..) fun _ => ?_
  refine iteInduction (fun _secretOut => stopped ..) fun _ => ?_
  refine iteInduction (fun _dataError => stopped ..) fun _ => ?_
  split
  case h_1 unreadB => exact stopped ..
  refine iteInduction (fun _badState => stopped ..) fun _ => ?_
  refine iteInduction (fun _badTotal => stopped ..) fun _ => ?_
  split
  case h_1 refusedKey => exact stopped ..
  case h_2 waits => exact trivial
  split
  case h_1 unreadA => exact stopped ..
  case h_2 => exact State.digResult_ended ..

/-- The state put into a core's CORE_STATUS reads back. -/
theorem State.get_put_coreState (t : State) (k : Nat) {v : Nat} (hv : v < 16) :
    (t.put (CORE_STATUS_STATE k) v).get (CORE_STATUS_STATE k) = v := by
  rw [State.get_put_self _ _ _ (by simp) (by simp)]
  exact Nat.mod_eq_of_lt hv

/-- The core is BUSY with the job until its completion is written (R385). -/
theorem State.digDone_busy (s : State) (k count : Nat) (w : List Nat) (st det outLen : Nat) :
    (s.digDone k count w st det outLen).get (CORE_STATUS_STATE k) = 1 := by
  have hring : (CORE_STATUS_STATE k).off ≠ (rgINFLIGHT (1024 + k)).off := by
    have hdig : ¬ 1024 + k < 1024 := by omega
    simp only [rgINFLIGHT, ringFld, ringBase, if_neg hdig, CORE_STATUS, DR_BASE_LO]
    omega
  rw [State.digDone, State.putInflight, State.get_put_of_ne _ _ _ _ hring]
  exact State.get_put_coreState _ k (by decide)

/-- The completion of an ended job waits to be written (R385). -/
theorem State.digDone_ending (s : State) (k count : Nat) (w : List Nat) (st det outLen : Nat) :
    ∃ c, c ∈ (s.digDone k count w st det outLen).jobs.ending ∧ c.ring = 1024 + k ∧ c.count = count ∧ c.ran = true ∧
      c.cell = k ∧ c.status = st :=
  ⟨_, List.mem_append_right _ (List.mem_singleton_self _), rfl, rfl, rfl, rfl, rfl⟩

/-! ## Taking the head of the ring -/

/-- Core `k` can take the job `count` of its ring: it is IDLE, the ring is enabled and not stopped, new work is dispatched,
and the job stands at the ring's head (R384). -/
structure DigReady (s : State) (k count : Nat) : Prop where
  core : k < 8
  idle : s.get (CORE_STATUS_STATE k) = 0
  enabled : s.on (rgEN (1024 + k)) = true
  notStopped : s.on (rgSTOPPED (1024 + k)) = false
  dispatches : s.noDispatch = false
  head : s.ringHead (1024 + k) = some count

section Take

variable {ops : Nat → Bool} {err : Bool}
variable (hr : DigReady s k count) (hop : ops (jOp (s.peekSlot (1024 + k) count)) = true)
include hr hop

theorem State.digTake_of_unreadable (hf : s.fetchSlot (0x60 + k) (1024 + k) count = (none, s1)) :
    s.digTake k ops err = s1.ringStop (1024 + k) 3 := by
  simp [State.digTake, hr.core, hr.idle, hr.enabled, hr.notStopped, hr.dispatches, hr.head, hop, hf]

theorem State.digTake_of_assigned (hf : s.fetchSlot (0x60 + k) (1024 + k) count = (some w, s1))
    (ha : digOpAssigned (jOp w) = true) :
    s.digTake k ops err = (((s1.ringPop (1024 + k)).digRun k count w err).map State.settle).getD s := by
  simp [State.digTake, hr.core, hr.idle, hr.enabled, hr.notStopped, hr.dispatches, hr.head, hop, hf, ha]

theorem State.digTake_of_unassigned (hf : s.fetchSlot (0x60 + k) (1024 + k) count = (some w, s1))
    (ha : digOpAssigned (jOp w) = false) :
    s.digTake k ops err = (s1.ringPop (1024 + k)).digDone k count w stBAD_OPCODE 0 0 := by
  simp [State.digTake, hr.core, hr.idle, hr.enabled, hr.notStopped, hr.dispatches, hr.head, hop, hf, ha]

end Take

theorem State.settle_of_not_due (h : s.flt.zeroizeDue = false) : s.settle = s := by
  simp [State.settle, h]

/-- The four commands take a job of their own OP of Table 10-4. -/
theorem exec_digRow {r : (Nat → Bool → Instr) × Nat} (hr : r ∈ digRows) (k : Nat) (err : Bool) (s : State) :
    exec (r.1 k err) s = .next (s.digTake k (fun o => decide (o = r.2)) err) := by
  simp only [digRows, List.mem_cons, List.not_mem_nil, or_false] at hr
  rcases hr with rfl | rfl | rfl | rfl <;> rfl

theorem digOpAssigned_digRow {r : (Nat → Bool → Instr) × Nat} (hr : r ∈ digRows) : digOpAssigned r.2 = true := by
  simp only [digRows, List.mem_cons, List.not_mem_nil, or_false] at hr
  rcases hr with rfl | rfl | rfl | rfl <;> rfl

theorem exec_digestOpUnassigned (k : Nat) (s : State) :
    exec (.digestOpUnassigned k) s = .next (s.digTake k (fun o => !(digOpAssigned o)) false) := rfl

/-- The job that a row's command takes runs, and ends unless it waits for its key. -/
theorem digRow_runs {r : (Nat → Bool → Instr) × Nat} {err : Bool} (hrow : r ∈ digRows) (hr : DigReady s k count)
    (hop : jOp (s.peekSlot (1024 + k) count) = r.2)
    (hf : s.fetchSlot (0x60 + k) (1024 + k) count = (some w, s1)) (hw : jOp w = r.2) :
    exec (r.1 k err) s = .next ((((s1.ringPop (1024 + k)).digRun k count w err).map State.settle).getD s) ∧
      ∀ u, (s1.ringPop (1024 + k)).digRun k count w err = some u → u.flt.zeroizeDue = false →
        ∃ t c, exec (r.1 k err) s = .next t ∧ t = u ∧ t.get (CORE_STATUS_STATE k) = 1 ∧ c ∈ t.jobs.ending ∧
          c.ring = 1024 + k ∧ c.count = count ∧ c.ran = true ∧ c.cell = k := by
  have hexec : exec (r.1 k err) s =
      .next ((((s1.ringPop (1024 + k)).digRun k count w err).map State.settle).getD s) := by
    rw [exec_digRow hrow, State.digTake_of_assigned hr (decide_eq_true hop) hf (hw ▸ digOpAssigned_digRow hrow)]
  refine ⟨hexec, fun u hrun hdue => ?_⟩
  have hended := (s1.ringPop (1024 + k)).digRun_ended k count w err
  rw [hrun] at hended
  obtain ⟨t, st, det, outLen, rfl⟩ := hended
  obtain ⟨c, hmem, hring, hcount, hran, hcell, -⟩ := t.digDone_ending k count w st det outLen
  refine ⟨_, c, ?_, rfl, t.digDone_busy .., hmem, hring, hcount, hran, hcell⟩
  rw [hexec, hrun, Option.map_some, Option.getD_some, State.settle_of_not_due hdue]

/-! ## The known-answer test of a core -/

/-- Core `k` is out of service: ISOLATED in both registers, its source of interrupts requested; no zeroize is due (R395). -/
structure CoreIsolated (k : Nat) (t : State) : Prop where
  state : t.get (CORE_STATUS_STATE k) = 5
  isolated : bitOf (t.get DIG_STATUS_ISOLATED) k = true
  requested : t.get (INTC_SRC_LEVEL (273 + k)) = 1
  notDue : t.flt.zeroizeDue = false

/-- The block of the interrupt controller lies apart from the digest engine's (Table 2-6). -/
theorem coreStatus_ne_intcSrc (k : Nat) {i : Nat} (hi : i < 448) : CORE_STATUS k ≠ INTC_SRC i := by
  simp only [INTC_SRC, CORE_STATUS]; omega

theorem digStatus_ne_intcSrc {i : Nat} (hi : i < 448) : DIG_STATUS ≠ INTC_SRC i := by
  simp only [INTC_SRC, DIG_STATUS]; omega

theorem digStatus_ne_coreStatus (k : Nat) : DIG_STATUS ≠ CORE_STATUS k := by
  simp only [CORE_STATUS, DIG_STATUS]; omega

/-- A core's bit set in DIG_STATUS.ISOLATED reads set. -/
theorem State.bitOf_put_isolated (t : State) (v : Nat) (hk : k < 8) :
    bitOf ((t.put DIG_STATUS_ISOLATED (v ||| 2 ^ k)).get DIG_STATUS_ISOLATED) k = true := by
  rw [State.get_put_self _ _ _ (by decide) (by decide), bitOf, ← Nat.testBit_eq_decide_div_mod_eq,
    Nat.testBit_mod_two_pow, Nat.testBit_or, Nat.testBit_two_pow_self]
  simp [hk]

theorem State.get_level_setIrq (t : State) (i : Nat) : (t.setIrq i).get (INTC_SRC_LEVEL i) = 1 :=
  State.get_put_self _ (INTC_SRC_LEVEL i) 1 (by simp) (by simp)

theorem faultClass_digKat (hk : k < 8) : faultClass (SRC_DIG_KAT k) = 2 := by
  have hall : ∀ i : Fin 8, faultClass (SRC_DIG_KAT i) = 2 := by decide
  exact hall ⟨k, hk⟩

/-- A digest core's row of Table 14-4, ISOLATE. -/
theorem State.isolate_digKat (t : State) (hk : k < 8) :
    t.isolate (SRC_DIG_KAT k) = (t.put (CORE_STATUS_STATE k) 5).put DIG_STATUS_ISOLATED
      (t.get DIG_STATUS_ISOLATED ||| 2 ^ k) := by
  have hlane : ¬ (33 ≤ 69 + k ∧ 69 + k ≤ 40) := by omega
  have hcell : ¬ (46 ≤ 69 + k ∧ 69 + k ≤ 61) := by omega
  have hengine : ¬ (64 ≤ 69 + k ∧ 69 + k ≤ 67) := by omega
  have hdig : 69 ≤ 69 + k ∧ 69 + k ≤ 76 := by omega
  rw [State.isolate, if_neg hlane, if_neg hcell, if_neg hengine, if_pos hdig, Nat.add_sub_cancel_left]

namespace CoreIsolated

/-- A register is updated that shows neither the core's isolation nor its interrupt request. -/
theorem put (h : CoreIsolated k t) {f : Fld} (v : Nat) (hcore : f.off ≠ CORE_STATUS k) (hdig : f.off ≠ DIG_STATUS)
    (hirq : f.off ≠ INTC_SRC (273 + k)) : CoreIsolated k (t.put f v) where
  state := by rw [State.get_put_of_ne _ _ _ _ hcore.symm, h.state]
  isolated := by rw [State.get_put_of_ne _ _ _ _ hdig.symm, h.isolated]
  requested := by rw [State.get_put_of_ne _ _ _ _ hirq.symm, h.requested]
  notDue := h.notDue

/-- A register of the fault collector's block (Table 2-6) is updated. -/
theorem put_fault (h : CoreIsolated k t) (hk : k < 8) {f : Fld} (v : Nat) (hf : FAULT_NCTL ≤ f.off) :
    CoreIsolated k (t.put f v) := by
  simp only [FAULT_NCTL] at hf
  exact h.put v (by simp only [CORE_STATUS]; omega) (by simp only [DIG_STATUS]; omega)
    (by simp only [INTC_SRC]; omega)

/-- The fault collector changes, but for the zeroize that is due. -/
theorem flt (h : CoreIsolated k t) {x : FaultState} (hx : x.zeroizeDue = t.flt.zeroizeDue) :
    CoreIsolated k { t with flt := x } := ⟨h.state, h.isolated, h.requested, hx.trans h.notDue⟩

/-- A request line is raised: the core's own, or another. -/
theorem setIrq (h : CoreIsolated k t) {i : Nat} (hi : i < 448) : CoreIsolated k (t.setIrq i) where
  state := by rw [State.setIrq, State.get_put_of_ne _ _ _ _ (coreStatus_ne_intcSrc k hi), h.state]
  isolated := by rw [State.setIrq, State.get_put_of_ne _ _ _ _ (digStatus_ne_intcSrc hi), h.isolated]
  requested := by
    by_cases hown : i = 273 + k
    · rw [hown, State.get_level_setIrq]
    · rw [State.setIrq, State.get_put_of_ne _ _ _ _ (by simp only [INTC_SRC]; omega), h.requested]
  notDue := h.notDue

theorem ite {c : Prop} [Decidable c] (h : CoreIsolated k t) (h' : CoreIsolated k u) :
    CoreIsolated k (if c then t else u) := iteInduction (fun _ => h) fun _ => h'

theorem openOrMerge (h : CoreIsolated k t) (hk : k < 8) (src info : Nat) (forced : Bool) (cls acts : Nat) :
    CoreIsolated k (t.openOrMerge src info forced cls acts) := by
  unfold State.openOrMerge
  split
  · exact ((h.flt (by rfl)).put_fault hk _ (by decide)).put_fault hk _ (by decide)
  · exact h.flt (by rfl)

theorem faultN (h : CoreIsolated k t) (hk : k < 8) : CoreIsolated k t.faultN :=
  (h.put_fault hk (f := FAULT_NCTL_ASSERTED) 1 (by decide)).flt (by rfl)

/-- ISOLATE of the core's own source puts the core out of service again. -/
theorem isolate (h : CoreIsolated k t) (hk : k < 8) : CoreIsolated k (t.isolate (SRC_DIG_KAT k)) := by
  have hirq : 273 + k < 448 := by omega
  rw [State.isolate_digKat t hk]
  exact {
    state := by rw [State.get_put_of_ne _ _ _ _ (digStatus_ne_coreStatus k).symm, State.get_put_coreState _ k (by decide)]
    isolated := State.bitOf_put_isolated _ _ hk
    requested := by
      rw [State.get_put_of_ne _ _ _ _ (digStatus_ne_intcSrc hirq).symm,
        State.get_put_of_ne _ _ _ _ (coreStatus_ne_intcSrc k hirq).symm, h.requested]
    notDue := h.notDue }

/-- The actions of the core's own source but RESET and ZEROIZE (Table 14-4). -/
theorem actions (h : CoreIsolated k t) (hk : k < 8) {cls acts : Nat} (hcls : cls < 4) (ha : acts < 16) :
    CoreIsolated k (t.actions (SRC_DIG_KAT k) cls acts) := by
  unfold State.actions
  have hreset : ¬ acts / 16 % 2 = 1 := by omega
  have hzero : ¬ acts / 32 % 2 = 1 := by omega
  simp only [hreset, hzero, if_false]
  have hpend : CoreIsolated k (if acts / 2 % 2 = 1 then
      (t.put FAULT_PEND_CLASS (t.get FAULT_PEND_CLASS ||| 2 ^ cls)).setIrq cls else t) :=
    ite ((h.put_fault hk _ (by decide)).setIrq (by omega)) h
  have hfaultN := ite (c := acts / 4 % 2 = 1) (hpend.faultN hk) hpend
  exact ite (hfaultN.isolate hk) hfaultN

/-- Raising the source of the core's failed test, when it neither resets nor zeroizes, leaves the core out of service. -/
theorem raise (h : CoreIsolated k t) (hk : k < 8) (hact : t.get (FAULT_SRC_ACTION (SRC_DIG_KAT k)) < 16) (info : Nat) :
    CoreIsolated k (t.raise (SRC_DIG_KAT k) info) := by
  have hcore : CoreIsolated k (t.raiseCore (SRC_DIG_KAT k) info false) := by
    unfold State.raiseCore
    simp only [Bool.false_and, Bool.false_eq_true, if_false]
    exact ((h.put_fault hk _ (by simp only [FAULT_NCTL, FAULT_SRC]; omega)).openOrMerge hk ..).actions hk
      (by rw [faultClass_digKat hk]; decide) (by rw [State.get_action_inc_raised]; exact hact)
  have hbase : t.raiseBase (SRC_DIG_KAT k) info false = t.raiseCore (SRC_DIG_KAT k) info false := by
    simp [State.raiseBase, faultClass_digKat hk]
  rw [State.raise, hbase, State.settle_of_not_due hcore.notDue]
  exact hcore

end CoreIsolated

/-- The state in which a core's test runs: at once in reset, else when the test falls due (R395, R505). -/
def State.digKatBegin (s : State) (k : Nat) : State :=
  (if s.get (CORE_STATUS_STATE k) = 3 then s else s.passTo (s.katDueAt (SRC_DIG_KAT k) 60)).katRun (SRC_DIG_KAT k)

/-- The state after core `k` fails its test and before its source is raised: isolated, its interrupt requested (R395). -/
def State.digKatFail (s : State) (k : Nat) : State :=
  ((s.put (CORE_STATUS_STATE k) 5).put DIG_STATUS_ISOLATED (s.get DIG_STATUS_ISOLATED ||| 2 ^ k)).setIrq (273 + k)

theorem State.digKatBegin_regs (s : State) (k : Nat) : (s.digKatBegin k).regs = s.regs := by
  unfold State.digKatBegin
  split <;> rfl

theorem State.digKatBegin_dual (s : State) (k : Nat) : (s.digKatBegin k).dual = s.dual := by
  unfold State.digKatBegin
  split <;> rfl

theorem State.digKatBegin_mem (s : State) (k : Nat) : (s.digKatBegin k).mem = s.mem := by
  unfold State.digKatBegin
  split <;> rfl

theorem State.digKatBegin_due (s : State) (k : Nat) : (s.digKatBegin k).flt.zeroizeDue = s.flt.zeroizeDue := by
  unfold State.digKatBegin
  split <;> rfl

theorem State.digKatBegin_get (s : State) (k : Nat) (f : Fld) : (s.digKatBegin k).get f = s.get f := by
  simp only [State.get, State.rd, State.digKatBegin_regs]

/-- A test that runs ends the reset of its unit's domain (R505). -/
theorem State.not_mem_inReset_katRun (s : State) (src : Nat) : src ∉ (s.katRun src).flt.inReset := by
  simp [State.katRun]

section Kat

variable (hk : k < 8) (hst : s.get (CORE_STATUS_STATE k) = 0 ∨ s.get (CORE_STATUS_STATE k) = 3)
include hk hst

theorem exec_digKatRun_pass :
    exec (.digKatRun k true) s = .next ((s.digKatBegin k).put (CORE_STATUS_STATE k) 0) := if_pos ⟨hk, hst⟩

theorem exec_digKatRun_fail :
    exec (.digKatRun k false) s = .next (((s.digKatBegin k).digKatFail k).raise (SRC_DIG_KAT k) k) := if_pos ⟨hk, hst⟩

end Kat

theorem State.digKatFail_isolated (hk : k < 8) (hdue : s.flt.zeroizeDue = false) : CoreIsolated k (s.digKatFail k) where
  state := by
    rw [State.digKatFail, State.setIrq, State.get_put_of_ne _ _ _ _ (coreStatus_ne_intcSrc k (by omega)),
      State.get_put_of_ne _ _ _ _ (digStatus_ne_coreStatus k).symm, State.get_put_coreState _ k (by decide)]
  isolated := by
    rw [State.digKatFail, State.setIrq, State.get_put_of_ne _ _ _ _ (digStatus_ne_intcSrc (by omega)),
      State.bitOf_put_isolated _ _ hk]
  requested := State.get_level_setIrq _ _
  notDue := hdue

/-- Isolating the core leaves the actions of its source. -/
theorem State.digKatFail_action (s : State) (hk : k < 8) :
    (s.digKatFail k).get (FAULT_SRC_ACTION (SRC_DIG_KAT k)) = s.get (FAULT_SRC_ACTION (SRC_DIG_KAT k)) := by
  rw [State.digKatFail, State.setIrq, State.get_put_of_ne _ _ _ _ (by simp only [FAULT_SRC, INTC_SRC]; omega),
    State.get_put_of_ne _ _ _ _ (by simp only [FAULT_SRC, DIG_STATUS]; omega),
    State.get_put_of_ne _ _ _ _ (by simp only [FAULT_SRC, CORE_STATUS]; omega)]

/-- A core that failed its test is out of service once its source is raised. -/
theorem State.digKatFail_raise_isolated (hk : k < 8) (hc : s.calm (SRC_DIG_KAT k)) :
    CoreIsolated k (((s.digKatBegin k).digKatFail k).raise (SRC_DIG_KAT k) k) := by
  obtain ⟨hdue, hact, -⟩ := hc
  have hfail : CoreIsolated k ((s.digKatBegin k).digKatFail k) :=
    State.digKatFail_isolated hk ((s.digKatBegin_due k).trans hdue)
  exact hfail.raise hk (by rw [State.digKatFail_action _ hk, State.digKatBegin_get]; exact hact) k

/-- A passed test ends the core's reset and leaves it IDLE; no other register and no memory changes (R395, R505). -/
theorem State.digKatPass_frame (s : State) (k : Nat) :
    ((s.digKatBegin k).put (CORE_STATUS_STATE k) 0).get (CORE_STATUS_STATE k) = 0 ∧
      SRC_DIG_KAT k ∉ ((s.digKatBegin k).put (CORE_STATUS_STATE k) 0).flt.inReset ∧
      SameMem s ((s.digKatBegin k).put (CORE_STATUS_STATE k) 0) ∧
      SameRegs [(CORE_STATUS_STATE k).off] s ((s.digKatBegin k).put (CORE_STATUS_STATE k) 0) :=
  ⟨State.get_put_coreState _ k (by decide), State.not_mem_inReset_katRun _ _, .of_eq (s.digKatBegin_mem k),
    (SameRegs.of_eq (s.digKatBegin_regs k) (s.digKatBegin_dual k) (.refl s _)).put _ _ (List.mem_singleton_self _)⟩

/-! ## The statement -/

/-- Settles O46: a core's take is decided by what the ring's head holds, every path of a run ends in one completion, and
the raise of a failed test keeps the core isolated (R384, R385, R387, R390, R394, R395). -/
theorem digestRows : Obligations.DigestRows := by
  refine ⟨?take, ?unassigned, fun s k count w a b hop => s.digResult_memcmp k count a b hop, ?kat⟩
  case take =>
    intro r s s1 k count w err hrow hk hidle hen hstop hdisp hhead hop
    have hr : DigReady s k count := ⟨hk, hidle, hen, hstop, hdisp, hhead⟩
    refine ⟨fun hf => ?_, fun hf hw => digRow_runs hrow hr hop hf hw⟩
    rw [exec_digRow hrow, State.digTake_of_unreadable hr (decide_eq_true hop) hf]
  case unassigned =>
    intro s s1 k count w hk hidle hen hstop hdisp hhead hop hf hw
    have hr : DigReady s k count := ⟨hk, hidle, hen, hstop, hdisp, hhead⟩
    obtain ⟨c, hmem, hring, hcount, -, -, hstatus⟩ :=
      (s1.ringPop (1024 + k)).digDone_ending k count w stBAD_OPCODE 0 0
    refine ⟨_, c, ?_, rfl, hmem, hring, hcount, hstatus⟩
    rw [exec_digestOpUnassigned, State.digTake_of_unassigned hr (by rw [hop]; rfl) hf hw]
  case kat =>
    rintro s _ k hk hst rfl
    refine ⟨⟨_, exec_digKatRun_pass hk hst, s.digKatPass_frame k⟩, exec_digKatRun_fail hk hst, fun hc => ?_⟩
    have hout : CoreIsolated k (((s.digKatBegin k).digKatFail k).raise (SRC_DIG_KAT k) k) :=
      State.digKatFail_raise_isolated hk hc
    exact ⟨_, exec_digKatRun_fail hk hst, hout.state, hout.isolated, hout.requested⟩

end Sys2Proof.Machine
end
